-- ==== Sys2Proof/Word.lean ====
section
/-! DEFINITION. The widths of the machine's data (R1, R11, R12) and the plainest reading of words as integers. -/

namespace Sys2Proof

/-- A register word. -/
abbrev Word := BitVec 32
/-- A byte of memory. -/
abbrev Byte := BitVec 8
/-- A 64-bit generic address (R15). -/
abbrev Addr := BitVec 64
/-- One bit per lane of a group, lane l at bit l (R12, R116). -/
abbrev Mask := BitVec 96

end Sys2Proof
end

