-- ==== Sys2Proof/Syntax.lean ====
section
/-! DEFINITION. The instruction set as data: one constructor of Instr for every row of spec/opcode_table.json.
Rows with an encoding carry the fields of R18, R22, R23 and R44, their stall count, and the prefixes of R28 that
their unit has (ROUTE, LIMM, MQ as optional fields). Rows without an encoding are the device's own events, whose
arguments say which agent, queue or register the event concerns. -/

namespace Sys2Proof

/-- The ROUTE prefix (R30): the 9-bit route fields of sources a and b. -/
structure Route where
  a : BitVec 9
  b : BitVec 9
  deriving DecidableEq, Repr

/-- The MQ prefix (R35). -/
structure MQ where
  place : BitVec 2
  tol : BitVec 7
  ord : BitVec 2
  scope : BitVec 3
  slice : BitVec 2
  l1 : BitVec 2
  deriving DecidableEq, Repr

/-- 16-bit word (R18): d, b and the stall bit. -/
structure H16 where
  d : BitVec 5
  b : BitVec 5
  st : BitVec 1
  deriving DecidableEq, Repr

/-- no operand but the stall count. -/
structure Z0 where
  st : BitVec 3
  deriving DecidableEq, Repr

/-- three 6-bit fields d, a, b, no prefix. -/
structure DAB where
  d : BitVec 6
  a : BitVec 6
  b : BitVec 6
  st : BitVec 3
  deriving DecidableEq, Repr

/-- fields d, a. -/
structure DA where
  d : BitVec 6
  a : BitVec 6
  st : BitVec 3
  deriving DecidableEq, Repr

/-- fields a, b. -/
structure AB where
  a : BitVec 6
  b : BitVec 6
  st : BitVec 3
  deriving DecidableEq, Repr

/-- field d. -/
structure D1 where
  d : BitVec 6
  st : BitVec 3
  deriving DecidableEq, Repr

/-- field a. -/
structure A1 where
  a : BitVec 6
  st : BitVec 3
  deriving DecidableEq, Repr

/-- V3 or VS fields with lane routing (R22, R30). -/
structure RDAB where
  d : BitVec 6
  a : BitVec 6
  b : BitVec 6
  rt : Option Route
  st : BitVec 3
  deriving DecidableEq, Repr

/-- unary V3 with routing of a. -/
structure RDA where
  d : BitVec 6
  a : BitVec 6
  rt : Option Route
  st : BitVec 3
  deriving DecidableEq, Repr

/-- VMOV: d, b with routing of b; VMOVS, of whose scalar b a ROUTE routes nothing (R54). -/
structure RDB where
  d : BitVec 6
  b : BitVec 6
  rt : Option Route
  st : BitVec 3
  deriving DecidableEq, Repr

/-- VSEED: a with routing. -/
structure RA where
  a : BitVec 6
  rt : Option Route
  st : BitVec 3
  deriving DecidableEq, Repr

/-- VLANEID, VRAND: d; a ROUTE before them routes nothing (R54). -/
structure RD where
  d : BitVec 6
  rt : Option Route
  st : BitVec 3
  deriving DecidableEq, Repr

/-- SI format (R22) with LIMM (R33). -/
structure SDAI where
  d : BitVec 6
  a : BitVec 6
  i : BitVec 9
  limm : Option (BitVec 24)
  st : BitVec 3
  deriving DecidableEq, Repr

/-- SI or VI format with only d. -/
structure SDI where
  d : BitVec 6
  i : BitVec 9
  limm : Option (BitVec 24)
  st : BitVec 3
  deriving DecidableEq, Repr

/-- VLI: VI format with only d; a ROUTE before it routes nothing (R54). -/
structure VDI where
  d : BitVec 6
  i : BitVec 9
  limm : Option (BitVec 24)
  rt : Option Route
  st : BitVec 3
  deriving DecidableEq, Repr

/-- SCMPI: condition code c (R78). -/
structure SCAI where
  c : BitVec 6
  a : BitVec 6
  i : BitVec 9
  limm : Option (BitVec 24)
  st : BitVec 3
  deriving DecidableEq, Repr

/-- VI format with LIMM and routing. -/
structure VDAI where
  d : BitVec 6
  a : BitVec 6
  i : BitVec 9
  limm : Option (BitVec 24)
  rt : Option Route
  st : BitVec 3
  deriving DecidableEq, Repr

/-- VCMPI (R127). -/
structure VCAI where
  p : BitVec 3
  c : BitVec 3
  a : BitVec 6
  i : BitVec 9
  limm : Option (BitVec 24)
  rt : Option Route
  st : BitVec 3
  deriving DecidableEq, Repr

/-- VCMP and VCMPF (R127, R136). -/
structure VCAB where
  p : BitVec 3
  c : BitVec 3
  a : BitVec 6
  b : BitVec 6
  rt : Option Route
  st : BitVec 3
  deriving DecidableEq, Repr

/-- VSEL: selecting predicate n (R128). -/
structure VSELO where
  d : BitVec 6
  n : BitVec 3
  a : BitVec 6
  b : BitVec 6
  rt : Option Route
  st : BitVec 3
  deriving DecidableEq, Repr

/-- U format (R23): format code t, element k. -/
structure UFM where
  d : BitVec 6
  a : BitVec 6
  t : BitVec 3
  k : BitVec 3
  rt : Option Route
  st : BitVec 3
  deriving DecidableEq, Repr

/-- VMXSCALE (R159). -/
structure UMX where
  d : BitVec 6
  a : BitVec 6
  t : BitVec 3
  rt : Option Route
  st : BitVec 3
  deriving DecidableEq, Repr

/-- VCVT: mode m, source u, destination v (R161). -/
structure CVT where
  d : BitVec 6
  a : BitVec 6
  m : BitVec 3
  u : BitVec 3
  v : BitVec 3
  rt : Option Route
  st : BitVec 3
  deriving DecidableEq, Repr

/-- three predicates. -/
structure PDAB where
  d : BitVec 3
  a : BitVec 3
  b : BitVec 3
  st : BitVec 3
  deriving DecidableEq, Repr

/-- two predicates. -/
structure PDA where
  d : BitVec 3
  a : BitVec 3
  st : BitVec 3
  deriving DecidableEq, Repr

/-- destination predicate. -/
structure PD where
  d : BitVec 3
  st : BitVec 3
  deriving DecidableEq, Repr

/-- source predicate. -/
structure PA where
  a : BitVec 3
  st : BitVec 3
  deriving DecidableEq, Repr

/-- scalar d, predicate a (R118). -/
structure SDPA where
  d : BitVec 6
  a : BitVec 3
  st : BitVec 3
  deriving DecidableEq, Repr

/-- PFROMS. -/
structure PDSA where
  d : BitVec 3
  a : BitVec 6
  st : BitVec 3
  deriving DecidableEq, Repr

/-- ELECT, ELECTW. -/
structure PP where
  p : BitVec 3
  st : BitVec 3
  deriving DecidableEq, Repr

/-- M format with size z, routing and MQ (R23, R35). -/
structure MV where
  z : BitVec 3
  d : BitVec 6
  a : BitVec 6
  b : BitVec 6
  rt : Option Route
  mq : Option MQ
  st : BitVec 3
  deriving DecidableEq, Repr

/-- M format with fn as the instruction. -/
structure MF where
  d : BitVec 6
  a : BitVec 6
  b : BitVec 6
  rt : Option Route
  mq : Option MQ
  st : BitVec 3
  deriving DecidableEq, Repr

/-- M format with imm6. -/
structure MI where
  z : BitVec 3
  d : BitVec 6
  a : BitVec 6
  i : BitVec 6
  mq : Option MQ
  st : BitVec 3
  deriving DecidableEq, Repr

/-- M format without offset. -/
structure ML where
  d : BitVec 6
  a : BitVec 6
  mq : Option MQ
  st : BitVec 3
  deriving DecidableEq, Repr

/-- VLD.LINE: no vector offset; a ROUTE before it routes nothing (R54). -/
structure MRL where
  d : BitVec 6
  a : BitVec 6
  rt : Option Route
  mq : Option MQ
  st : BitVec 3
  deriving DecidableEq, Repr

/-- scalar load or store. -/
structure MS where
  z : BitVec 3
  d : BitVec 6
  a : BitVec 6
  b : BitVec 6
  mq : Option MQ
  st : BitVec 3
  deriving DecidableEq, Repr

/-- B21 format (R23). -/
structure B21 where
  o : BitVec 21
  st : BitVec 3
  deriving DecidableEq, Repr

/-- BSCC and BNSCC (R24). -/
structure B20 where
  o : BitVec 20
  st : BitVec 3
  deriving DecidableEq, Repr

/-- BC format. -/
structure BC where
  o : BitVec 14
  a : BitVec 6
  st : BitVec 3
  deriving DecidableEq, Repr

/-- D format: offset, inverse bit, predicate. -/
structure DF where
  o : BitVec 15
  n : BitVec 1
  p : BitVec 3
  st : BitVec 3
  deriving DecidableEq, Repr

/-- offset15 only. -/
structure DO where
  o : BitVec 15
  st : BitVec 3
  deriving DecidableEq, Repr

/-- inverse bit and predicate. -/
structure DP where
  n : BitVec 1
  p : BitVec 3
  st : BitVec 3
  deriving DecidableEq, Repr

/-- W format: thresholds TMCNT, ENCNT, MXCNT, STCNT, LDCNT (R23). -/
structure WT where
  t : BitVec 3
  e : BitVec 3
  m : BitVec 3
  w : BitVec 6
  l : BitVec 6
  st : BitVec 3
  deriving DecidableEq, Repr

/-- FENCE kind and scope (R191). -/
structure FN where
  k : BitVec 2
  c : BitVec 6
  st : BitVec 3
  deriving DecidableEq, Repr

/-- FENCE.H. -/
structure FNH where
  a : BitVec 6
  c : BitVec 6
  st : BitVec 3
  deriving DecidableEq, Repr

/-- LPAD label. -/
structure LP where
  l : BitVec 12
  st : BitVec 3
  deriving DecidableEq, Repr

/-- SIGCHK depth and CRC. -/
structure SG where
  d : BitVec 5
  c : BitVec 16
  st : BitVec 3
  deriving DecidableEq, Repr

/-- TCHOICE offset and mask. -/
structure TC where
  o : BitVec 13
  m : BitVec 8
  st : BitVec 3
  deriving DecidableEq, Repr

/-- TRAP code. -/
structure K6 where
  k : BitVec 6
  st : BitVec 3
  deriving DecidableEq, Repr

/-- SGETR. -/
structure GR where
  r : BitVec 6
  d : BitVec 6
  st : BitVec 3
  deriving DecidableEq, Repr

/-- SSETR. -/
structure SR where
  r : BitVec 6
  a : BitVec 6
  st : BitVec 3
  deriving DecidableEq, Repr

/-- TFORK. -/
structure TF where
  d : BitVec 6
  a : BitVec 3
  b : BitVec 6
  st : BitVec 3
  deriving DecidableEq, Repr

/-- R400, R401, R409. What an agent outside does at an address: it reads, writes bytes, or performs an atomic on an element, by the number of its
operation in the order of R224, R226 (ADD.I32 0, XCHG 10, ADD.I64 13, XCHG64 14, CAS 15), with operand and compare value. -/
inductive OutsideAct where
  | read
  | write (bs : List (BitVec 8))
  | atomic (op x cmp : Nat)
  deriving DecidableEq, Repr

/-- R409, R411. What a peer answers: the group whose request it is, and whether the request failed there. -/
structure PeerAnswer where
  grp : Nat
  err : Bool
  deriving DecidableEq, Repr

/-- One constructor per row of the opcode table. -/
inductive Instr where
  /-- R19. 16-bit two-address move of vb into vd, with the effect of the 32-bit VMOV. -/
  | vmov16 (o : H16)
  /-- R19. 16-bit two-address 32-bit integer add of vb into vd. -/
  | vaddI3216 (o : H16)
  /-- R19. 16-bit two-address 32-bit integer subtract. -/
  | vsubI3216 (o : H16)
  /-- R19. 16-bit two-address bitwise and. -/
  | vand16 (o : H16)
  /-- R19. 16-bit two-address bitwise or. -/
  | vor16 (o : H16)
  /-- R19. 16-bit two-address bitwise xor. -/
  | vxor16 (o : H16)
  /-- R19. 16-bit two-address shift left. -/
  | vshl16 (o : H16)
  /-- R19. 16-bit two-address logical shift right. -/
  | vshrN16 (o : H16)
  /-- R19. 16-bit two-address arithmetic shift right. -/
  | vshrI16 (o : H16)
  /-- R19. 16-bit two-address low 32-bit multiply. -/
  | vmulLo16 (o : H16)
  /-- R19. 16-bit two-address F32 add. -/
  | vaddF3216 (o : H16)
  /-- R19. 16-bit two-address F32 subtract. -/
  | vsubF3216 (o : H16)
  /-- R19. 16-bit two-address F32 multiply. -/
  | vmulF3216 (o : H16)
  /-- R19. 16-bit two-address F32 maximum. -/
  | vmaxF3216 (o : H16)
  /-- R19. 16-bit two-address F32 minimum. -/
  | vminF3216 (o : H16)
  /-- R19. 16-bit move of scalar sb into every active lane of vd, with a uniform result. -/
  | vmovs16 (o : H16)
  /-- R77. Scalar add modulo 2^32. -/
  | sadd (o : DAB)
  /-- R77. Scalar subtract. -/
  | ssub (o : DAB)
  /-- R77. Scalar low 32-bit multiply. -/
  | smul (o : DAB)
  /-- R77. Scalar signed high multiply. -/
  | smulhI (o : DAB)
  /-- R77. Scalar unsigned high multiply. -/
  | smulhN (o : DAB)
  /-- R77. Scalar add with carry from SCC, leaving the carry in SCC. -/
  | saddc (o : DAB)
  /-- R77. Scalar subtract with borrow in SCC. -/
  | ssubb (o : DAB)
  /-- R77. Scalar negate. -/
  | sneg (o : DA)
  /-- R77. Scalar bitwise and. -/
  | sand (o : DAB)
  /-- R77. Scalar bitwise or. -/
  | sor (o : DAB)
  /-- R77. Scalar bitwise xor. -/
  | sxor (o : DAB)
  /-- R77. Scalar and-not. -/
  | sandn (o : DAB)
  /-- R77. Scalar shift left. -/
  | sshl (o : DAB)
  /-- R77. Scalar logical shift right. -/
  | sshrN (o : DAB)
  /-- R77. Scalar arithmetic shift right. -/
  | sshrI (o : DAB)
  /-- R77. Scalar rotate left. -/
  | srotl (o : DAB)
  /-- R77. Scalar signed minimum. -/
  | sminI (o : DAB)
  /-- R77. Scalar signed maximum. -/
  | smaxI (o : DAB)
  /-- R77. Scalar unsigned minimum. -/
  | sminN (o : DAB)
  /-- R77. Scalar unsigned maximum. -/
  | smaxN (o : DAB)
  /-- R77. Scalar select on SCC. -/
  | ssel (o : DAB)
  /-- R77. Scalar population count. -/
  | spopc (o : DA)
  /-- R77. Scalar count leading zeros. -/
  | sclz (o : DA)
  /-- R77. Scalar bit reverse. -/
  | sbrev (o : DA)
  /-- R77. Scalar compare equal into SCC. -/
  | seq (o : AB)
  /-- R77. Scalar compare not equal into SCC. -/
  | sne (o : AB)
  /-- R77. Scalar signed less-than into SCC. -/
  | sltI (o : AB)
  /-- R77. Scalar signed less-or-equal into SCC. -/
  | sleI (o : AB)
  /-- R77. Scalar unsigned less-than into SCC. -/
  | sltN (o : AB)
  /-- R77. Scalar unsigned less-or-equal into SCC. -/
  | sleN (o : AB)
  /-- R77. Scalar test of (x and y) != 0 into SCC. -/
  | stst (o : AB)
  /-- R77. Scalar add immediate. -/
  | saddi (o : SDAI)
  /-- R77. Scalar and immediate. -/
  | sandi (o : SDAI)
  /-- R77. Scalar or immediate. -/
  | sori (o : SDAI)
  /-- R77. Scalar xor immediate. -/
  | sxori (o : SDAI)
  /-- R77. Scalar shift left by immediate. -/
  | sshli (o : SDAI)
  /-- R77. Scalar logical shift right by immediate. -/
  | sshriN (o : SDAI)
  /-- R77. Scalar arithmetic shift right by immediate. -/
  | sshriI (o : SDAI)
  /-- R77. Scalar load of a sign-extended immediate. -/
  | sli (o : SDI)
  /-- R78. Scalar compare with an immediate under the condition in d, into SCC. -/
  | scmpi (o : SCAI)
  /-- R79. Scalar bit-field extract, zero-extended. -/
  | sbfeN (o : DAB)
  /-- R79. Scalar bit-field extract, sign-extended. -/
  | sbfeI (o : DAB)
  /-- R79. Scalar bit-field insert. -/
  | sbfi (o : DAB)
  /-- R76. Reads a special register into a scalar or pair; a read of %cyc latches %cych. -/
  | sgetr (o : GR)
  /-- R76. Writes a scalar to the RW and W1C bits of a special register, privileged for some. -/
  | ssetr (o : SR)
  /-- R80. Reads one lane of a vector register into a scalar. -/
  | srdlane (o : DAB)
  /-- R80. Writes a scalar into one lane of a vector register. -/
  | swrlane (o : DAB)
  /-- R80. Reads the lowest active lane of a vector register into a scalar and sets SCC. -/
  | sfirst (o : DA)
  /-- R83. Unconditional branch by a 21-bit halfword offset. -/
  | bra (o : B21)
  /-- R83. Branch when SCC is 1. -/
  | bscc (o : B20)
  /-- R83. Branch when SCC is 0. -/
  | bnscc (o : B20)
  /-- R83. Branch when a scalar is zero. -/
  | bz (o : BC)
  /-- R83. Branch when a scalar is nonzero. -/
  | bnz (o : BC)
  /-- R84. Pushes a return entry with the reconvergence depth and branches, spilling to the control area when needed. -/
  | call (o : B21)
  /-- R99. Occupies one scalar issue slot. -/
  | nop (o : Z0)
  /-- R84. Pops the newest return entry and branches, checking the reconvergence depth; with an empty stack acts as EXIT. -/
  | ret (o : Z0)
  /-- R100. Ends the active lanes, and the group when no present lane remains. -/
  | exit (o : Z0)
  /-- R99. Moves the group to the pending set when a pending group is ready. -/
  | yield (o : Z0)
  /-- R99. Leaves the group not ready for a scalar count of core clocks. -/
  | sleep (o : A1)
  /-- R101. Sets a predicate to the lowest active lane and SCC. -/
  | elect (o : PP)
  /-- R102. Workgroup rendezvous that elects one lane of the lowest-numbered group with active lanes. -/
  | electw (o : PP)
  /-- R89. Indexed jump through a jump table, checking the LPAD label at the target. -/
  | jtab (o : BC)
  /-- R90. Landing pad with a 12-bit label; a no-op when executed. -/
  | lpad (o : LP)
  /-- R104. Checks the running signature and reconvergence depth, then resets %sig. -/
  | sigchk (o : SG)
  /-- R96. Pushes an IF entry, narrows the mask to the predicate and jumps when the mask is empty. -/
  | vif (o : DF)
  /-- R96. Hands the mask to the else lanes of the top IF entry. -/
  | velse (o : DO)
  /-- R96. Restores the outer mask and %fmt of the top IF entry and pops it. -/
  | vend (o : Z0)
  /-- R97. Pushes a LOOP entry, jumping to VENDL when the mask is empty. -/
  | vloop (o : DO)
  /-- R97. Removes the lanes of the predicate from the innermost loop. -/
  | vbrk (o : DP)
  /-- R97. Sends the lanes of the predicate to the loop's VENDL. -/
  | vcont (o : DP)
  /-- R97. Loops back for lanes whose predicate holds, or restores the loop's mask and pops it. -/
  | vendl (o : DF)
  /-- R72. Issues only when every wait counter is at or below its threshold. -/
  | wait (o : WT)
  /-- R123. Lane 32-bit integer add. -/
  | vaddI32 (o : RDAB)
  /-- R123. Lane 32-bit integer subtract. -/
  | vsubI32 (o : RDAB)
  /-- R123. Lane low 32-bit multiply. -/
  | vmulLo (o : RDAB)
  /-- R123. Lane signed high multiply. -/
  | vmulhI (o : RDAB)
  /-- R123. Lane unsigned high multiply. -/
  | vmulhN (o : RDAB)
  /-- R123. Lane signed saturating add, setting SAT.A. -/
  | vaddsI (o : RDAB)
  /-- R123. Lane signed saturating subtract. -/
  | vsubsI (o : RDAB)
  /-- R123. Lane absolute signed difference. -/
  | vabsdI (o : RDAB)
  /-- R123. Lane bitwise and. -/
  | vand (o : RDAB)
  /-- R123. Lane bitwise or. -/
  | vor (o : RDAB)
  /-- R123. Lane bitwise xor. -/
  | vxor (o : RDAB)
  /-- R123. Lane and-not. -/
  | vandn (o : RDAB)
  /-- R123. Lane shift left. -/
  | vshl (o : RDAB)
  /-- R123. Lane logical shift right. -/
  | vshrN (o : RDAB)
  /-- R123. Lane arithmetic shift right. -/
  | vshrI (o : RDAB)
  /-- R123. Lane rotate left. -/
  | vrotl (o : RDAB)
  /-- R123. Lane signed minimum. -/
  | vminI (o : RDAB)
  /-- R123. Lane signed maximum. -/
  | vmaxI (o : RDAB)
  /-- R123. Lane unsigned minimum. -/
  | vminN (o : RDAB)
  /-- R123. Lane unsigned maximum. -/
  | vmaxN (o : RDAB)
  /-- R123. Lane population count. -/
  | vpopc (o : RDA)
  /-- R123. Lane count leading zeros. -/
  | vclz (o : RDA)
  /-- R123. Lane bit reverse. -/
  | vbrev (o : RDA)
  /-- R123. Lane move of vb into vd; a self-move without routing writes nothing. -/
  | vmov (o : RDB)
  /-- R127. Lane integer compare under the condition in fn, into a predicate. -/
  | vcmp (o : VCAB)
  /-- R128. Lane select between two sources by a predicate. -/
  | vsel (o : VSELO)
  /-- R126. Lane bit-field extract, zero-extended. -/
  | vbfeN (o : RDAB)
  /-- R126. Lane bit-field extract, sign-extended. -/
  | vbfeI (o : RDAB)
  /-- R126. Lane bit-field insert. -/
  | vbfi (o : RDAB)
  /-- R126. Lane byte permute by selector bytes. -/
  | vpermb (o : RDAB)
  /-- R124. Lane add immediate. -/
  | vaddi (o : VDAI)
  /-- R124. Lane and immediate. -/
  | vandi (o : VDAI)
  /-- R124. Lane or immediate. -/
  | vori (o : VDAI)
  /-- R124. Lane xor immediate. -/
  | vxori (o : VDAI)
  /-- R124. Lane shift left by immediate. -/
  | vshli (o : VDAI)
  /-- R124. Lane logical shift right by immediate. -/
  | vshriN (o : VDAI)
  /-- R124. Lane arithmetic shift right by immediate. -/
  | vshriI (o : VDAI)
  /-- R124. Writes an immediate into every active lane. -/
  | vli (o : VDI)
  /-- R127. Lane compare with an immediate into a predicate. -/
  | vcmpi (o : VCAI)
  /-- R125. Lane add of a scalar. -/
  | vaddS (o : RDAB)
  /-- R125. Lane multiply by a scalar. -/
  | vmulS (o : RDAB)
  /-- R125. Lane and with a scalar. -/
  | vandS (o : RDAB)
  /-- R125. Lane shift left by a scalar. -/
  | vshlS (o : RDAB)
  /-- R125. Lane logical shift right by a scalar. -/
  | vshrSN (o : RDAB)
  /-- R125. Writes a scalar into every active lane. -/
  | vmovs (o : RDB)
  /-- R125. Lane multiply by a scalar and add d. -/
  | vmadS (o : RDAB)
  /-- R125. Writes each active lane's index. -/
  | vlaneid (o : RD)
  /-- R129. Lane 64-bit add on register pairs. -/
  | vaddI64 (o : RDAB)
  /-- R129. Lane 64-bit subtract on pairs. -/
  | vsubI64 (o : RDAB)
  /-- R129. Lane 64-bit shift left on pairs. -/
  | vshlI64 (o : RDAB)
  /-- R129. Lane 64-bit logical shift right on pairs. -/
  | vshrN64 (o : RDAB)
  /-- R129. Lane 64-bit arithmetic shift right on pairs. -/
  | vshrI64 (o : RDAB)
  /-- R129. Lane signed widening multiply into a pair. -/
  | vmulwI (o : RDAB)
  /-- R129. Lane unsigned widening multiply into a pair. -/
  | vmulwN (o : RDAB)
  /-- R132. Lane F32 add. -/
  | vaddF32 (o : RDAB)
  /-- R132. Lane F32 subtract. -/
  | vsubF32 (o : RDAB)
  /-- R132. Lane F32 multiply. -/
  | vmulF32 (o : RDAB)
  /-- R132. Lane F32 fused multiply-add with one rounding. -/
  | vfmaF32 (o : RDAB)
  /-- R132. Lane F32 fused multiply-subtract. -/
  | vfmsF32 (o : RDAB)
  /-- R132. Lane F32 fused negated multiply-add. -/
  | vfnmaF32 (o : RDAB)
  /-- R133. Lane F32 minimum. -/
  | vminF32 (o : RDAB)
  /-- R133. Lane F32 maximum. -/
  | vmaxF32 (o : RDAB)
  /-- R135. Lane F32 absolute value on the bit pattern. -/
  | vabsF32 (o : RDA)
  /-- R135. Lane F32 negate on the bit pattern. -/
  | vnegF32 (o : RDA)
  /-- R135. Lane copy of the sign of vb onto va. -/
  | vcopysign (o : RDAB)
  /-- R135. Lane F32 classification into a one-hot integer. -/
  | vclass (o : RDA)
  /-- R135. Lane F32 round to integral in %fmt.rm. -/
  | vrint (o : RDA)
  /-- R135. Lane F32 fractional part. -/
  | vfract (o : RDA)
  /-- R135. Lane F32 scaling by a power of two. -/
  | vscalb (o : RDAB)
  /-- R135. Lane F32 exponent extraction. -/
  | vgetexp (o : RDA)
  /-- R136. Lane F32 IEEE compare into a predicate. -/
  | vcmpf (o : VCAB)
  /-- R137. Lane BF16-pair add. -/
  | vaddBf2 (o : RDAB)
  /-- R137. Lane BF16-pair subtract. -/
  | vsubBf2 (o : RDAB)
  /-- R137. Lane BF16-pair multiply. -/
  | vmulBf2 (o : RDAB)
  /-- R137. Lane BF16-pair fused multiply-add. -/
  | vfmaBf2 (o : RDAB)
  /-- R137. Lane BF16-pair minimum. -/
  | vminBf2 (o : RDAB)
  /-- R137. Lane BF16-pair maximum. -/
  | vmaxBf2 (o : RDAB)
  /-- R138. Lane BF16 two-term dot product accumulated into F32. -/
  | vdot2Bf (o : RDAB)
  /-- R134. Lane F32 add of a scalar. -/
  | vaddF32S (o : RDAB)
  /-- R134. Lane F32 multiply by a scalar. -/
  | vmulF32S (o : RDAB)
  /-- R134. Lane F32 fused multiply-add with a scalar. -/
  | vfmaF32S (o : RDAB)
  /-- R134. Lane F32 minimum with a scalar. -/
  | vminF32S (o : RDAB)
  /-- R134. Lane F32 maximum with a scalar. -/
  | vmaxF32S (o : RDAB)
  /-- R140. Lane approximate reciprocal. -/
  | vrcpA (o : RDA)
  /-- R139. Lane approximate reciprocal square root. -/
  | vrsqA (o : RDA)
  /-- R139. Lane approximate 2^x. -/
  | vex2A (o : RDA)
  /-- R139. Lane approximate log2. -/
  | vlg2A (o : RDA)
  /-- R139. Lane approximate sine of an argument in turns. -/
  | vsinA (o : RDA)
  /-- R139. Lane approximate cosine of an argument in turns. -/
  | vcosA (o : RDA)
  /-- R139. Lane approximate hyperbolic tangent. -/
  | vtanhA (o : RDA)
  /-- R141. Lane correctly rounded square root. -/
  | vsqrt (o : RDA)
  /-- R141. Lane correctly rounded F32 division. -/
  | vdivF32 (o : RDAB)
  /-- R143. Advances each active lane's random state and writes the new w. -/
  | vrand (o : RD)
  /-- R143. Reseeds each active lane's random state from va. -/
  | vseed (o : RA)
  /-- R157. Widens element k of a narrow-format word to F32. -/
  | vunpk (o : UFM)
  /-- R157. Widens elements k and k+1 to a BF16 pair. -/
  | vunpk2 (o : UFM)
  /-- R158. Converts an F32 into element k of vd. -/
  | vpack (o : UFM)
  /-- R158. Converts a BF16 pair into elements k and k+1 of vd. -/
  | vpack2 (o : UFM)
  /-- R159. Derives an E8M0 block scale from a block maximum. -/
  | vmxscale (o : UMX)
  /-- R160. Multiplies by 2^(e-127) for an E8M0 scale. -/
  | vscaleE8 (o : RDAB)
  /-- R160. Multiplies by 2^(127-e) for an E8M0 scale. -/
  | vscaleE8Inv (o : RDAB)
  /-- R161. Converts among F32, BF16, F16, I32 and N32 in a selected mode. -/
  | vcvt (o : CVT)
  /-- R117. Predicate and. -/
  | pand (o : PDAB)
  /-- R117. Predicate or. -/
  | por (o : PDAB)
  /-- R117. Predicate xor. -/
  | pxor (o : PDAB)
  /-- R117. Predicate and-not. -/
  | pandn (o : PDAB)
  /-- R117. Predicate not. -/
  | pnot (o : PDA)
  /-- R117. Predicate move. -/
  | pmov (o : PDA)
  /-- R117. Sets the predicate bits of active lanes. -/
  | pset (o : PD)
  /-- R117. Clears the predicate bits of active lanes. -/
  | pclr (o : PD)
  /-- R118. Copies a predicate into three scalars. -/
  | ptos (o : SDPA)
  /-- R118. Loads a predicate from three scalars. -/
  | pfroms (o : PDSA)
  /-- R118. Counts predicate bits of active lanes into a scalar. -/
  | pcnt (o : SDPA)
  /-- R118. Sets SCC when any active lane's predicate bit is set. -/
  | pany (o : PA)
  /-- R118. Sets SCC when every active lane's predicate bit is set. -/
  | pall (o : PA)
  /-- R118. Writes the lowest active lane with the predicate set, and SCC. -/
  | pfirst (o : SDPA)
  /-- R171. Vector load with a per-lane vector offset, counted on LDCNT. -/
  | vld (o : MV)
  /-- R172. Loads a 384-byte block, four bytes per lane. -/
  | vldLine (o : MRL)
  /-- R174. Vector store with a per-lane offset, counted on STCNT. -/
  | vst (o : MV)
  /-- R173. Vector load that reads zero and sets p7 for non-resident pages instead of faulting. -/
  | vldNr (o : MV)
  /-- R171. Vector load with an immediate offset. -/
  | vldi (o : MI)
  /-- R174. Vector store with an immediate offset. -/
  | vsti (o : MI)
  /-- R176. Scalar load performed once for the group. -/
  | sld (o : MS)
  /-- R176. Scalar store performed once for the group. -/
  | sst (o : MS)
  /-- R191. Acquire, release, acquire-release or sequentially consistent fence at a scope. -/
  | fence (o : FN)
  /-- R194. Holds later matrix instructions until earlier buffer stores and register writes are complete. -/
  | fenceOpr (o : Z0)
  /-- R191. Drains this core's haze lines of a region, then releases at the scope. -/
  | fenceH (o : FNH)
  /-- R179. Drops this core's L1 copies of a range. -/
  | cinv (o : AB)
  /-- R179. Writes dirty data of a range to memory. -/
  | cwb (o : AB)
  /-- R179. Writes back then drops lines of a range. -/
  | cflush (o : AB)
  /-- R178. Prefetches each active lane's line into the L1. -/
  | vpref (o : AB)
  /-- R177. Requests residency of the non-resident pages named by active lanes. -/
  | pagereq (o : AB)
  /-- R236. Acquires or queues for a line lock, with a timeout. -/
  | llock (o : DAB)
  /-- R241. Acquires a free line lock without queuing. -/
  | ltry (o : DA)
  /-- R237. Releases a held line lock, passing it to the next waiter. -/
  | lunlock (o : DA)
  /-- R242. Writes a snapshot of a line lock's holder and queue length. -/
  | lquery (o : DA)
  /-- R243. Privileged forced abandonment of a held line lock. -/
  | lbreak (o : DA)
  /-- R278. Declares a haze region from a descriptor and returns a handle. -/
  | hdecl (o : DA)
  /-- R287. Retires a haze region, draining and removing every holder. -/
  | hend (o : A1)
  /-- R287. Drains every holder of every line of a haze region. -/
  | hdrain (o : A1)
  /-- R288. Reports the haze lines held and the status word of a region. -/
  | hquery (o : DA)
  /-- R283. Adds F32 contributions into this core's haze partials. -/
  | haddF32 (o : MF)
  /-- R283. Adds I32 contributions into this core's haze partials. -/
  | haddI32 (o : MF)
  /-- R285. Tolerant F32 load of a haze region. -/
  | hldF32 (o : MF)
  /-- R285. Tolerant I32 load of a haze region. -/
  | hldI32 (o : MF)
  /-- R224. Lane atomic 32-bit integer add. -/
  | vatomAddI32 (o : MF)
  /-- R225. Lane atomic F32 add in RNE. -/
  | vatomAddF32 (o : MF)
  /-- R225. Lane atomic BF16-pair add. -/
  | vatomAddBf2 (o : MF)
  /-- R224. Lane atomic signed minimum. -/
  | vatomMinI (o : MF)
  /-- R224. Lane atomic signed maximum. -/
  | vatomMaxI (o : MF)
  /-- R224. Lane atomic and. -/
  | vatomAnd (o : MF)
  /-- R224. Lane atomic or. -/
  | vatomOr (o : MF)
  /-- R224. Lane atomic exchange. -/
  | vatomXchg (o : MF)
  /-- R224. Lane atomic unsigned minimum. -/
  | vatom2MinN (o : MF)
  /-- R224. Lane atomic unsigned maximum. -/
  | vatom2MaxN (o : MF)
  /-- R224. Lane atomic xor. -/
  | vatom2Xor (o : MF)
  /-- R224. Lane atomic 64-bit add on a pair. -/
  | vatom2AddI64 (o : MF)
  /-- R224. Lane atomic 64-bit exchange. -/
  | vatom2Xchg64 (o : MF)
  /-- R224. Lane atomic F32 minimum. -/
  | vatom2MinF32 (o : MF)
  /-- R224. Lane atomic F32 maximum. -/
  | vatom2MaxF32 (o : MF)
  /-- R226. Lane 32-bit compare-and-swap. -/
  | vcas32 (o : MF)
  /-- R226. Lane 64-bit compare-and-swap. -/
  | vcas64 (o : MF)
  /-- R226. Lane 128-bit compare-and-swap. -/
  | vcas128 (o : MF)
  /-- R227. Scalar atomic 32-bit add. -/
  | satomAddI32 (o : ML)
  /-- R227. Scalar atomic exchange. -/
  | satomXchg (o : ML)
  /-- R227. Scalar 32-bit compare-and-swap setting SCC. -/
  | satomCas32 (o : ML)
  /-- R227. Scalar 64-bit compare-and-swap setting SCC. -/
  | satomCas64 (o : ML)
  /-- R227. Scalar 128-bit compare-and-swap setting SCC. -/
  | satomCas128 (o : ML)
  /-- R227. Scalar atomic 64-bit add. -/
  | satomAddI64 (o : ML)
  /-- R227. Scalar atomic or. -/
  | satomOr (o : ML)
  /-- R227. Scalar atomic and. -/
  | satomAnd (o : ML)
  /-- R302. Copy-engine command that copies a byte range. -/
  | cpy (o : DAB)
  /-- R302. Copy-engine command that copies pitched rows. -/
  | cpy2 (o : DAB)
  /-- R302. Copy-engine command that gathers rows through an index list. -/
  | cpyg (o : DAB)
  /-- R302. Copy-engine command that expands bitmap-compressed blocks. -/
  | cpyz (o : DAB)
  /-- R302. Copy-engine command that writes a range into the buffers of named cloud members. -/
  | cpyw (o : DAB)
  /-- R304. Decode-engine command that decodes a baseline JPEG into patches in buffer A. -/
  | decJpeg (o : DAB)
  /-- R304. Decode-engine command that decodes a T.6 image. -/
  | decG4 (o : DAB)
  /-- R304. Decode-engine command that decodes a PNG image. -/
  | decPng (o : DAB)
  /-- R308. Decode-engine command that parses a stream header only. -/
  | decQuery (o : DAB)
  /-- R297. Sets a sync word's target and clears its count. -/
  | swset (o : AB)
  /-- R297. Arrives at a sync word with a byte count, as a release. -/
  | swarr (o : AB)
  /-- R297. Waits until a sync word's generation differs from a value. -/
  | swwait (o : AB)
  /-- R297. Reads a sync word into a scalar pair, as an acquire. -/
  | swread (o : DA)
  /-- R320. Joint register matrix multiply-accumulate over a set of four groups. -/
  | mmarJ (o : DAB)
  /-- R319. Single-quarter register matrix multiply-accumulate. -/
  | mmarS (o : DAB)
  /-- R326. Tile matrix multiply-accumulate into buffer C. -/
  | mmatT (o : DAB)
  /-- R327. Cloud-split tile matrix multiply-accumulate across member cores. -/
  | mmatC (o : DAB)
  /-- R326. Tile matrix multiply starting from a zero accumulator. -/
  | mmatTz (o : DAB)
  /-- R327. Cloud-split tile matrix multiply starting from zero. -/
  | mmatCz (o : DAB)
  /-- R328. Writes +0 words to a range of buffer C. -/
  | mzero (o : DA)
  /-- R329. Requantises an accumulator tile into an A operand with scales. -/
  | mquant (o : DAB)
  /-- R330. Reports row-steps performed and skipped by the arrays. -/
  | mstat (o : D1)
  /-- R347. Queued term job that dereferences a term. -/
  | tderef (o : DA)
  /-- R348. Extracts a term's tag and arity. -/
  | ttag (o : DA)
  /-- R349. Queued term job that unifies two terms without occurs check. -/
  | tunifyN (o : AB)
  /-- R349. Queued term job that unifies two terms with occurs check. -/
  | tunifyOc (o : AB)
  /-- R350. Queued term job that binds a variable to a term. -/
  | tbind (o : AB)
  /-- R351. Queued term job that matches an instance. -/
  | tmatch (o : AB)
  /-- R352. Queued term job that pushes a choice point. -/
  | tchoice (o : TC)
  /-- R353. Unwinds the trail to the top choice point and jumps to its alternative. -/
  | tfail (o : Z0)
  /-- R354. Cuts choice points back to the cut barrier. -/
  | tcut (o : Z0)
  /-- R354. Pops the top choice point. -/
  | tpopcp (o : Z0)
  /-- R354. Queued term job that writes TRTOP and CPTOP. -/
  | ttrailtop (o : D1)
  /-- R355. Forks alternatives onto candidate lanes as children. -/
  | tfork (o : TF)
  /-- R356. Queued term job that publishes overlay bindings by CAS. -/
  | tcommit (o : D1)
  /-- R357. Discards the overlay and returns lanes to fork depth 0. -/
  | tjoin (o : Z0)
  /-- R251. Submits a launch packet to the device queue and writes its status. -/
  | launch (o : DA)
  /-- R260. Pushes child items of active lanes into the cluster queue. -/
  | spawn (o : DA)
  /-- R258. Releases and marks the group triggered for dependent grids. -/
  | trigger (o : Z0)
  /-- R262. Workgroup barrier with release and acquire. -/
  | bar (o : Z0)
  /-- R262. Cloud barrier with release and acquire. -/
  | cbar (o : Z0)
  /-- R366. Raises trap cause 11 with a code. -/
  | trap (o : K6)
  /-- R365. Returns from a trap handler, restoring state from the trap frame. -/
  | eret (o : Z0)
  /-- R383. Waits for counted work, reads and clears %ckint bits and sets SCC. -/
  | chkerr (o : DAB)
  /-- R374. Begins a group-scope idempotent region, writing the region record. -/
  | irgnGrp (o : Z0)
  /-- R374. Begins a workgroup-scope idempotent region after a BAR. -/
  | irgnWg (o : Z0)
  /-- R375. Ends the group's idempotent region. -/
  | irge (o : Z0)
  /-- R366. Raises the breakpoint trap, or acts as NOP without a handler. -/
  | bkpt (o : Z0)
  /-- R217. Privileged invalidation of translations of a range, with optional flush. -/
  | tlbinv (o : DAB)
  /-- R218. Privileged transfer of the write record into DTY bits of leaves. -/
  | harvest (o : DAB)
  /-- R66. A pending group ready for 256 core clocks replaces an active group. -/
  | pendingReplace (core : Nat) (quarter : Nat)
  /-- R99. A sleeping group becomes ready when its count of core clocks expires. -/
  | sleepExpiry (grp : Nat)
  /-- R67. At the end of each 4,096-clock window the load-issue limit halves or doubles. -/
  | squallWindow (core : Nat)
  /-- R171. A load's data arrives and is written to registers, and LDCNT falls. -/
  | loadReturn (grp : Nat)
  /-- R71. A store is performed at its scope and STCNT falls. -/
  | storePerformed (grp : Nat)
  /-- R223. Every lane's atomic of a unit is performed and its old value written, and LDCNT falls. -/
  | atomicResult (grp : Nat)
  /-- R230. A FAR atomic is performed at the line's home slice in order of arrival. -/
  | farAtomic (grp : Nat)
  /-- R213. A walker completes a translation walk, filling the TLBs or raising the protection trap. -/
  | pageWalk (core : Nat) (ctx : Nat) (va : BitVec 64)
  /-- R203. The owner core of a Private page receives a share request and flushes the page. -/
  | shareRequest (n : Nat)
  /-- R202. The owner's acknowledgement lets the walker set CLS to Shared. -/
  | shareAck (n : Nat)
  /-- R205. A miss reaches a Shared line's home slice and is served through the directory. -/
  | missRequest (core : Nat) (line : Nat) (excl : Bool)
  /-- R206. A sharer receives an invalidation and acknowledges, with or without a copy. -/
  | invalidation (n : Nat)
  /-- R206. The home counts an invalidation acknowledgement before granting ownership. -/
  | invalidationAck (n : Nat)
  /-- R209. A write-back is accepted by its slice's write-back buffer. -/
  | writeBack (core : Nat) (line : Nat)
  /-- R281. A core's share request for a haze line is served by the home. -/
  | hazeShareRequest (n : Nat)
  /-- R281. A holder receives a recall to a lower share and drains when its tracker exceeds it. -/
  | recall (n : Nat)
  /-- R281. The home adds the recalled partials and grants the halved share. -/
  | recallAck (n : Nat)
  /-- R281. A core receives its haze share and makes its haze line. -/
  | grant (n : Nat)
  /-- R281. A holder returns a haze line with its partials and share. -/
  | hazeReturn (core : Nat) (line : Nat)
  /-- R285. A holder named in a forced-drain set sends its partials to the home. -/
  | forcedDrain (n : Nat)
  /-- R284. Drained partials arrive at the home and are added into memory. -/
  | drain (n : Nat)
  /-- R284. A contribution of a core granted share 0 is added at the home on arrival. -/
  | farAdd (n : Nat)
  /-- R235. A lock request reaches the home slice and is served in order of arrival. -/
  | lockRequest (n : Nat)
  /-- R234. A core receives the home's link of a waiter node behind its tail. -/
  | link (n : Nat)
  /-- R237. The lock, with the line when held, arrives at the successor's core and wakes its group. -/
  | lockHandover (n : Nat)
  /-- R237. A holder's core asks the home to release a lock with no successor. -/
  | releaseRequest (n : Nat)
  /-- R240. An LLOCK timeout expires, the node is withdrawn and a deadlock walk runs. -/
  | lockTimeout (grp : Nat)
  /-- R300. An engine accepts a queued command and ENCNT falls. -/
  | commandAccept (engine : Nat)
  /-- R301. An engine command completes and arrives at its sync word with its nominal bytes. -/
  | arrival (engine : Nat)
  /-- R194. A matrix instruction's accumulator storage becomes final and MXCNT falls. -/
  | matrixComplete (core : Nat)
  /-- R338. The term unit starts a queued job when it has room for the quarter. -/
  | termJobStart (core : Nat) (quarter : Nat)
  /-- R338. A term job ends, writing its results and p7, and TMCNT falls with its unit's last job. -/
  | termJobEnd (core : Nat) (quarter : Nat) (n : Nat)
  /-- R247. The distributor decodes a launch packet, accepting or rejecting it. -/
  | packetDecode (queue : Nat)
  /-- R253. The distributor places and starts a workgroup once it fits. -/
  | workgroupStart
  /-- R253. The distributor starts all members of a cloud together on one cluster. -/
  | cloudStart
  /-- R248. When a grid completes the completion record is written as a SYS release. -/
  | gridComplete (grid : Nat)
  /-- R261. The packing unit starts a child group of up to 96 items for an entry. -/
  | childGroupStart (cluster : Nat) (entry : Nat)
  /-- R261. R fabric clocks pass without a new item and the held items start a group. -/
  | idleRelease (cluster : Nat) (entry : Nat)
  /-- R216. Software resolves a page request, completing PAGEREQs and replaying or trapping suspended units. -/
  | pqcomp (v : BitVec 64)
  /-- R216. A write sets the page-request ring size, ignoring illegal values. -/
  | pqsize (v : BitVec 32)
  /-- R216. Software advances the page-request head, freeing room for waiting requests. -/
  | pqhead (v : BitVec 32)
  /-- R245. A write sets the deadlock ring size, ignoring illegal values. -/
  | dlsize (v : BitVec 32)
  /-- R249. Doorbell write of a host queue tail, or withdrawal of packets while EN is 0. -/
  | lqtail (q : Nat) (v : BitVec 32)
  /-- R249. A write sets a host queue's size, ignored for illegal values or while EN is 1. -/
  | lqsize (q : Nat) (v : BitVec 32)
  /-- R406. A write sets the event ring size and sets EQTAIL to EQHEAD. -/
  | eqsize (v : BitVec 32)
  /-- R406. The host advances the event head, letting held events be written. -/
  | eqhead (v : BitVec 32)
  /-- R369. CMD 1 pre-empts a context, discarding or saving its resident workgroups. -/
  | preempt (ctx : Nat)
  /-- R370. Once its outstanding work completes a workgroup's record is written to the save area. -/
  | workgroupSave (wg : Nat)
  /-- R372. CMD 2 reads saved records back and places their workgroups. -/
  | resume (ctx : Nat)
  /-- R368. A write sets a context's group-number count, ignored while numbers are held. -/
  | gnum (ctx : Nat) (v : BitVec 32)
  /-- R395. A march self-test runs on an idle row after an error, sparing or retiring on failure. -/
  | selfTest (bank : Nat) (pass : Bool)
  /-- R396. A core marked for retirement is retired once its last workgroup ends or is saved. -/
  | coreRetire (core : Nat)
  /-- R392. Writing 1 to V clears a log bank's record and OV. -/
  | logClear (bank : Nat)
  /-- R394. Arms one error injection at the array's next write. -/
  | arm (bank : Nat) (v : BitVec 32)
  /-- R400, R401. A host access or AtomicOp to HBM is performed at the line's home slice; the host writes its own memory. -/
  | hostAccess (pa : Nat) (n : Nat) (act : OutsideAct)
  /-- R402. A host snoop is answered after every device copy is written back and dropped. -/
  | hostSnoop (line : Nat)
  /-- R221. A pool device's back-invalidate snoop drains, writes back and drops the line. -/
  | backInvalidate (line : Nat)
  /-- R403. A PCIe AtomicOp completion returns a lane's old value or poison. -/
  | atomicopCompletion (grp : Nat) (err : Bool)
  /-- R403. An AtomicOp without completion within 2^20 fabric clocks yields poison and a link event. -/
  | atomicopTimeout (grp : Nat)
  /-- R404. Completion of the zero-length read that completes a SYS release over posted writes. -/
  | zeroLengthRead (grp : Nat)
  /-- R409. A peer request arrives and is performed in HBM or answered with an error. -/
  | inboundRequest (pa : Nat) (n : Nat) (act : OutsideAct)
  /-- R411. A remote response is delivered, or the peer's answer that its request failed, and frees its response slot. -/
  | response (ans : PeerAnswer)
  /-- R411. A remote request without response after 2^20 fabric clocks completes with an error. -/
  | requestTimeout (grp : Nat)
  /-- R409. A write sets a peer window, storing V = 0 for a reserved ID. -/
  | peerWindow (w : Nat) (v : BitVec 64)
  /-- R407. The host or a Rykel link goes down and a link event is posted. -/
  | linkDown (port : Nat)
  /-- R406. A link comes up and a link event is posted. -/
  | linkUp (port : Nat)
  /-- R419. The boot ROM checks and starts the firmware image or minimal firmware. -/
  | reset
  /-- R419. OK not written within 2^33 fabric clocks fails the start and resets the device. -/
  | bootWatchdog
  /-- R419. Firmware writes OK, ending the start and acting on held doorbells. -/
  | bootOk
  /-- R420. Writing CLR clears TRIES and REASON. -/
  | clr
  /-- R420. Power loss clears TRIES, FMIN and BOOTCNT. -/
  | powerLoss
  /-- R423. CMD builds a signed attestation report with the present nonce. -/
  | attcmd
  /-- R424. A write sets the module power cap, clamped to 1,000-2,400 W. -/
  | pwrcap (v : BitVec 32)
  /-- R425. Each millisecond the core clock steps 50 MHz down over the cap or up below it. -/
  | clockStep
  /-- R425. A die reaching 105 °C stops all work until reset. -/
  | thermalTrip (die : Nat) (temp : Nat)
  /-- R4. A write to a management register without behaviour of its own. -/
  | registerWrite (off : Nat) (size : Nat) (v : BitVec 64)
  /-- R43. A unit that cannot be decoded is executed and raises the illegal-instruction trap at its first word. -/
  | illegalInstruction (step : Nat)
  /-- R66. A TUNIFY that has not completed within 32 core clocks swaps its group out for the oldest ready pending group. -/
  | tunifySwap (grp : Nat)
  /-- R217. A TLBINV completes once every matching TLB entry is dropped, every access through it performed and, with flush, every line written back and dropped, and STCNT falls. -/
  | tlbinvCompletion (grp : Nat)
  /-- R218. A HARVEST finishes its compare-and-swaps over the range, writes its count to s[d] and LDCNT falls. -/
  | harvestCompletion (grp : Nat)
  /-- R423. The device finishes building the signed report and clears BUSY. -/
  | attestationReport
  /-- R419. HBM training or the firmware self-test fails, failing the start, incrementing TRIES and resetting the device. -/
  | firmwareStartFailure (reason : Nat)
  /-- R392. The scrubber finds an error in a storage word and logs it with CTX 0xFFF, correcting or poisoning the word; 16 kinds further
  on, the error arises there and nothing has found it yet (log entry 32). -/
  | scrubber (bank : Nat) (addr : Nat) (bad : Bool)
  /-- R389. A ring or Rykel flit arrives with a bad CRC and is retried, delivered poisoned after 16 consecutive failures. -/
  | flitCrcFailure (bank : Nat) (grp : Option Nat) (tries : Nat)
  /-- R411. A link receiver signals a free request buffer, letting a held request be forwarded onto that link. -/
  | freeBufferSignal (port : Nat)
  /-- R410. A request or response for another device arrives on a Rykel port and is forwarded by the routing tables in FIFO order. -/
  | hopForwarding (port : Nat) (n : Nat)
  deriving DecidableEq, Repr

end Sys2Proof
end

