-- ==== Sys2Proof/WellFormed.lean ====
section
/-! DEFINITION. Which instruction terms the opcode map allows: the value checks of step 5 of R43 (register runs of
R25 and R46, immediates of R47 and R48, codes of R49, R50 and R52, route fields of R109, MQ fields of R37). -/

namespace Sys2Proof

/-- R46: a pair begins at an even register. -/
def pairOk (r : BitVec 6) : Bool := r.toNat % 2 == 0
/-- R46: a quad begins at a multiple of 4. -/
def quadOk (r : BitVec 6) : Bool := r.toNat % 4 == 0
/-- R46: an octet begins at a multiple of 8. -/
def octetOk (r : BitVec 6) : Bool := r.toNat % 8 == 0
/-- R46: a run of n registers ends at register 63 or below. -/
def runOk (n : Nat) (r : BitVec 6) : Bool := decide (r.toNat + n ≤ 64)

/-- R109: the legal forms of a route field. -/
def routeFieldOk (f : BitVec 9) : Bool :=
  let kind := f.toNat / 128
  let arg := f.toNat % 128
  if kind == 0 then arg == 0
  else if kind == 1 then decide (1 ≤ arg ∧ arg ≤ 95)
  else if kind == 2 then decide (arg ≤ 95)
  else decide (1 ≤ arg)

/-- R31: both sources may be routed. -/
def routeAB : Option Route → Bool
  | none => true
  | some r => routeFieldOk r.a && routeFieldOk r.b
/-- R31: only source a may be routed. -/
def routeA : Option Route → Bool
  | none => true
  | some r => routeFieldOk r.a && r.b == 0
/-- R31: only source b (VMOV, the offset of the M format) may be routed. -/
def routeB : Option Route → Bool
  | none => true
  | some r => routeFieldOk r.b && r.a == 0

/-- R54: nothing may be routed. -/
def routeNone : Option Route → Bool
  | none => true
  | some r => r.a == 0 && r.b == 0

/-- The classes of accepting instructions that R37 tells apart. -/
inductive MqClass where
  | load | store | hadd | hld | atom
  deriving DecidableEq, Repr

/-- R37: what an MQ may hold on an instruction of the class. Orders: 0 plain, 1 ACQ, 2 REL, 3 SC. -/
def mqOk (c : MqClass) : Option MQ → Bool
  | none => true
  | some q =>
    decide (q.scope.toNat ≤ 4) && decide (q.place.toNat ≤ 2)
    && (c == .atom || q.place == 0)
    && (match c with
        | .load => decide (q.ord.toNat ≤ 1)
        | .store => q.ord.toNat == 0 || q.ord.toNat == 2
        | .hadd => q.ord.toNat == 0
        | .hld => decide (q.ord.toNat ≤ 1)
        | .atom => true)
    && (c == .hld || q.tol.toNat == 127)

/-- R33: the immediate under LIMM, or imm9 sign-extended (R22). -/
def immOf (i : BitVec 9) (limm : Option (BitVec 24)) : BitVec 32 :=
  match limm with
  | none => i.signExtend 32
  | some l => BitVec.ofNat 32 (l.toNat * 512 + i.toNat)
/-- R47: a shift immediate is read unsigned: imm9 as nine bits, or the LIMM value. -/
def immCount (i : BitVec 9) (limm : Option (BitVec 24)) : Nat :=
  match limm with
  | none => i.toNat
  | some l => (l.toNat * 512 + i.toNat) % 4294967296
/-- R47: a shift count lies in 0 to 31. -/
def shiftImmOk (i : BitVec 9) (limm : Option (BitVec 24)) : Bool := decide (immCount i limm ≤ 31)

/-- R49: sizes of VLD and VLDI (R171): 5 needs a pair, 6 a quad. -/
def vldSize (z : BitVec 3) (d : BitVec 6) : Bool :=
  if z.toNat == 5 then pairOk d else if z.toNat == 6 then quadOk d else true
/-- R49: sizes of VST and VSTI. -/
def vstSize (z : BitVec 3) (d : BitVec 6) : Bool :=
  decide (z.toNat ≤ 4) && (if z.toNat == 3 then pairOk d else if z.toNat == 4 then quadOk d else true)
/-- R49: sizes of VLD.NR. -/
def nrSize (z : BitVec 3) (d : BitVec 6) : Bool :=
  if z.toNat == 4 then true else if z.toNat == 5 then pairOk d else if z.toNat == 6 then quadOk d else false
/-- R49: sizes of SLD and SST. -/
def scalarSize (z : BitVec 3) (d : BitVec 6) : Bool :=
  if z.toNat == 2 then true else if z.toNat == 3 then pairOk d else if z.toNat == 4 then quadOk d else false

/-- R145: elements per word of a U-format code (R150). -/
def elemCount (t : BitVec 3) : Nat := if t.toNat == 4 || t.toNat ≥ 6 then 8 else 4
/-- R157: fn 0. -/
def elemOk (t k : BitVec 3) : Bool := decide (k.toNat < elemCount t)
/-- R157: fn 1, an even k. -/
def elemPairOk (t k : BitVec 3) : Bool := k.toNat % 2 == 0 && decide (k.toNat + 1 < elemCount t)
/-- R161: mode and format codes of VCVT. -/
def cvtOk (m u v : BitVec 3) : Bool :=
  decide (m.toNat ≤ 6) && decide (u.toNat ≤ 4) && decide (v.toNat ≤ 4) && u != v
/-- R74, R47: SGETR names an assigned register; %rpc needs a pair. -/
def getrOk (r d : BitVec 6) : Bool := decide (r.toNat ≤ 18) && (r.toNat != 15 || pairOk d)
/-- R76: SSETR names a register with a field that is not RO. -/
def setrOk (r : BitVec 6) : Bool :=
  decide (r.toNat ≤ 5) || r.toNat == 12 || r.toNat == 17 || r.toNat == 18

/-- The value checks of step 5 of R43 for one instruction. -/
def Instr.wf (x : Instr) : Bool :=
  match x with
  | .vmov16 _ => true
  | .vaddI3216 _ => true
  | .vsubI3216 _ => true
  | .vand16 _ => true
  | .vor16 _ => true
  | .vxor16 _ => true
  | .vshl16 _ => true
  | .vshrN16 _ => true
  | .vshrI16 _ => true
  | .vmulLo16 _ => true
  | .vaddF3216 _ => true
  | .vsubF3216 _ => true
  | .vmulF3216 _ => true
  | .vmaxF3216 _ => true
  | .vminF3216 _ => true
  | .vmovs16 _ => true
  | .sadd _ => true
  | .ssub _ => true
  | .smul _ => true
  | .smulhI _ => true
  | .smulhN _ => true
  | .saddc _ => true
  | .ssubb _ => true
  | .sneg _ => true
  | .sand _ => true
  | .sor _ => true
  | .sxor _ => true
  | .sandn _ => true
  | .sshl _ => true
  | .sshrN _ => true
  | .sshrI _ => true
  | .srotl _ => true
  | .sminI _ => true
  | .smaxI _ => true
  | .sminN _ => true
  | .smaxN _ => true
  | .ssel _ => true
  | .spopc _ => true
  | .sclz _ => true
  | .sbrev _ => true
  | .seq _ => true
  | .sne _ => true
  | .sltI _ => true
  | .sleI _ => true
  | .sltN _ => true
  | .sleN _ => true
  | .stst _ => true
  | .saddi _ => true
  | .sandi _ => true
  | .sori _ => true
  | .sxori _ => true
  | .sshli o => shiftImmOk o.i o.limm
  | .sshriN o => shiftImmOk o.i o.limm
  | .sshriI o => shiftImmOk o.i o.limm
  | .sli _ => true
  | .scmpi o => decide (o.c.toNat ≤ 6)
  | .sbfeN _ => true
  | .sbfeI _ => true
  | .sbfi _ => true
  | .sgetr o => getrOk o.r o.d
  | .ssetr o => setrOk o.r
  | .srdlane _ => true
  | .swrlane _ => true
  | .sfirst _ => true
  | .bra _ => true
  | .bscc _ => true
  | .bnscc _ => true
  | .bz _ => true
  | .bnz _ => true
  | .call _ => true
  | .nop _ => true
  | .ret _ => true
  | .exit _ => true
  | .yield _ => true
  | .sleep _ => true
  | .elect _ => true
  | .electw _ => true
  | .jtab _ => true
  | .lpad _ => true
  | .sigchk _ => true
  | .vif _ => true
  | .velse _ => true
  | .vend _ => true
  | .vloop _ => true
  | .vbrk _ => true
  | .vcont _ => true
  | .vendl _ => true
  | .wait _ => true
  | .vaddI32 o => routeAB o.rt
  | .vsubI32 o => routeAB o.rt
  | .vmulLo o => routeAB o.rt
  | .vmulhI o => routeAB o.rt
  | .vmulhN o => routeAB o.rt
  | .vaddsI o => routeAB o.rt
  | .vsubsI o => routeAB o.rt
  | .vabsdI o => routeAB o.rt
  | .vand o => routeAB o.rt
  | .vor o => routeAB o.rt
  | .vxor o => routeAB o.rt
  | .vandn o => routeAB o.rt
  | .vshl o => routeAB o.rt
  | .vshrN o => routeAB o.rt
  | .vshrI o => routeAB o.rt
  | .vrotl o => routeAB o.rt
  | .vminI o => routeAB o.rt
  | .vmaxI o => routeAB o.rt
  | .vminN o => routeAB o.rt
  | .vmaxN o => routeAB o.rt
  | .vpopc o => routeA o.rt
  | .vclz o => routeA o.rt
  | .vbrev o => routeA o.rt
  | .vmov o => routeB o.rt
  | .vcmp o => routeAB o.rt && decide (o.c.toNat ≤ 6)
  | .vsel o => routeAB o.rt
  | .vbfeN o => routeAB o.rt
  | .vbfeI o => routeAB o.rt
  | .vbfi o => routeAB o.rt
  | .vpermb o => routeAB o.rt
  | .vaddi o => routeA o.rt
  | .vandi o => routeA o.rt
  | .vori o => routeA o.rt
  | .vxori o => routeA o.rt
  | .vshli o => routeA o.rt && shiftImmOk o.i o.limm
  | .vshriN o => routeA o.rt && shiftImmOk o.i o.limm
  | .vshriI o => routeA o.rt && shiftImmOk o.i o.limm
  | .vli o => routeNone o.rt
  | .vcmpi o => routeA o.rt && decide (o.c.toNat ≤ 6)
  | .vaddS o => routeA o.rt
  | .vmulS o => routeA o.rt
  | .vandS o => routeA o.rt
  | .vshlS o => routeA o.rt
  | .vshrSN o => routeA o.rt
  | .vmovs o => routeNone o.rt
  | .vmadS o => routeA o.rt
  | .vlaneid o => routeNone o.rt
  | .vaddI64 o => pairOk o.d && pairOk o.a && pairOk o.b && routeAB o.rt
  | .vsubI64 o => pairOk o.d && pairOk o.a && pairOk o.b && routeAB o.rt
  | .vshlI64 o => pairOk o.d && pairOk o.a && pairOk o.b && routeAB o.rt
  | .vshrN64 o => pairOk o.d && pairOk o.a && pairOk o.b && routeAB o.rt
  | .vshrI64 o => pairOk o.d && pairOk o.a && pairOk o.b && routeAB o.rt
  | .vmulwI o => pairOk o.d && routeAB o.rt
  | .vmulwN o => pairOk o.d && routeAB o.rt
  | .vaddF32 o => routeAB o.rt
  | .vsubF32 o => routeAB o.rt
  | .vmulF32 o => routeAB o.rt
  | .vfmaF32 o => routeAB o.rt
  | .vfmsF32 o => routeAB o.rt
  | .vfnmaF32 o => routeAB o.rt
  | .vminF32 o => routeAB o.rt
  | .vmaxF32 o => routeAB o.rt
  | .vabsF32 o => routeA o.rt
  | .vnegF32 o => routeA o.rt
  | .vcopysign o => routeAB o.rt
  | .vclass o => routeA o.rt
  | .vrint o => routeA o.rt
  | .vfract o => routeA o.rt
  | .vscalb o => routeAB o.rt
  | .vgetexp o => routeA o.rt
  | .vcmpf o => routeAB o.rt
  | .vaddBf2 o => routeAB o.rt
  | .vsubBf2 o => routeAB o.rt
  | .vmulBf2 o => routeAB o.rt
  | .vfmaBf2 o => routeAB o.rt
  | .vminBf2 o => routeAB o.rt
  | .vmaxBf2 o => routeAB o.rt
  | .vdot2Bf o => routeAB o.rt
  | .vaddF32S o => routeA o.rt
  | .vmulF32S o => routeA o.rt
  | .vfmaF32S o => routeA o.rt
  | .vminF32S o => routeA o.rt
  | .vmaxF32S o => routeA o.rt
  | .vrcpA o => routeA o.rt
  | .vrsqA o => routeA o.rt
  | .vex2A o => routeA o.rt
  | .vlg2A o => routeA o.rt
  | .vsinA o => routeA o.rt
  | .vcosA o => routeA o.rt
  | .vtanhA o => routeA o.rt
  | .vsqrt o => routeA o.rt
  | .vdivF32 o => routeAB o.rt
  | .vrand o => routeNone o.rt
  | .vseed o => routeA o.rt
  | .vunpk o => routeA o.rt && elemOk o.t o.k
  | .vunpk2 o => routeA o.rt && elemPairOk o.t o.k
  | .vpack o => routeA o.rt && elemOk o.t o.k
  | .vpack2 o => routeA o.rt && elemPairOk o.t o.k
  | .vmxscale o => routeA o.rt
  | .vscaleE8 o => routeAB o.rt
  | .vscaleE8Inv o => routeAB o.rt
  | .vcvt o => routeA o.rt && cvtOk o.m o.u o.v
  | .pand _ => true
  | .por _ => true
  | .pxor _ => true
  | .pandn _ => true
  | .pnot _ => true
  | .pmov _ => true
  | .pset _ => true
  | .pclr _ => true
  | .ptos o => runOk 3 o.d
  | .pfroms o => runOk 3 o.a
  | .pcnt _ => true
  | .pany _ => true
  | .pall _ => true
  | .pfirst _ => true
  | .vld o => pairOk o.a && routeB o.rt && mqOk .load o.mq && vldSize o.z o.d && o.z.toNat != 7
  | .vldLine o => pairOk o.a && routeNone o.rt && mqOk .load o.mq
  | .vst o => pairOk o.a && routeB o.rt && mqOk .store o.mq && vstSize o.z o.d
  | .vldNr o => pairOk o.a && routeB o.rt && mqOk .load o.mq && nrSize o.z o.d
  | .vldi o => pairOk o.a && mqOk .load o.mq && vldSize o.z o.d
  | .vsti o => pairOk o.a && mqOk .store o.mq && vstSize o.z o.d
  | .sld o => pairOk o.a && mqOk .load o.mq && scalarSize o.z o.d
  | .sst o => pairOk o.a && mqOk .store o.mq && scalarSize o.z o.d
  | .fence o => decide (o.c.toNat ≤ 4)
  | .fenceOpr _ => true
  | .fenceH o => decide (o.c.toNat ≤ 4)
  | .cinv o => pairOk o.a
  | .cwb o => pairOk o.a
  | .cflush o => pairOk o.a
  | .vpref o => pairOk o.a
  | .pagereq o => pairOk o.a
  | .llock o => pairOk o.a
  | .ltry o => pairOk o.a
  | .lunlock o => pairOk o.a
  | .lquery o => pairOk o.d && pairOk o.a
  | .lbreak o => pairOk o.a
  | .hdecl o => pairOk o.a
  | .hend _ => true
  | .hdrain _ => true
  | .hquery o => pairOk o.d
  | .haddF32 o => pairOk o.a && routeB o.rt && mqOk .hadd o.mq
  | .haddI32 o => pairOk o.a && routeB o.rt && mqOk .hadd o.mq
  | .hldF32 o => pairOk o.a && routeB o.rt && mqOk .hld o.mq
  | .hldI32 o => pairOk o.a && routeB o.rt && mqOk .hld o.mq
  | .vatomAddI32 o => pairOk o.a && routeB o.rt && mqOk .atom o.mq
  | .vatomAddF32 o => pairOk o.a && routeB o.rt && mqOk .atom o.mq
  | .vatomAddBf2 o => pairOk o.a && routeB o.rt && mqOk .atom o.mq
  | .vatomMinI o => pairOk o.a && routeB o.rt && mqOk .atom o.mq
  | .vatomMaxI o => pairOk o.a && routeB o.rt && mqOk .atom o.mq
  | .vatomAnd o => pairOk o.a && routeB o.rt && mqOk .atom o.mq
  | .vatomOr o => pairOk o.a && routeB o.rt && mqOk .atom o.mq
  | .vatomXchg o => pairOk o.a && routeB o.rt && mqOk .atom o.mq
  | .vatom2MinN o => pairOk o.a && routeB o.rt && mqOk .atom o.mq
  | .vatom2MaxN o => pairOk o.a && routeB o.rt && mqOk .atom o.mq
  | .vatom2Xor o => pairOk o.a && routeB o.rt && mqOk .atom o.mq
  | .vatom2AddI64 o => pairOk o.d && pairOk o.a && routeB o.rt && mqOk .atom o.mq
  | .vatom2Xchg64 o => pairOk o.d && pairOk o.a && routeB o.rt && mqOk .atom o.mq
  | .vatom2MinF32 o => pairOk o.a && routeB o.rt && mqOk .atom o.mq
  | .vatom2MaxF32 o => pairOk o.a && routeB o.rt && mqOk .atom o.mq
  | .vcas32 o => pairOk o.d && pairOk o.a && routeB o.rt && mqOk .atom o.mq
  | .vcas64 o => quadOk o.d && pairOk o.a && routeB o.rt && mqOk .atom o.mq
  | .vcas128 o => octetOk o.d && pairOk o.a && routeB o.rt && mqOk .atom o.mq
  | .satomAddI32 o => pairOk o.a && mqOk .atom o.mq
  | .satomXchg o => pairOk o.a && mqOk .atom o.mq
  | .satomCas32 o => pairOk o.d && pairOk o.a && mqOk .atom o.mq
  | .satomCas64 o => quadOk o.d && pairOk o.a && mqOk .atom o.mq
  | .satomCas128 o => octetOk o.d && pairOk o.a && mqOk .atom o.mq
  | .satomAddI64 o => pairOk o.d && pairOk o.a && mqOk .atom o.mq
  | .satomOr o => pairOk o.a && mqOk .atom o.mq
  | .satomAnd o => pairOk o.a && mqOk .atom o.mq
  | .cpy o => pairOk o.d && pairOk o.a
  | .cpy2 o => pairOk o.d && pairOk o.a && quadOk o.b
  | .cpyg o => pairOk o.d && pairOk o.a && quadOk o.b
  | .cpyz o => pairOk o.d && pairOk o.a
  | .cpyw o => pairOk o.d && pairOk o.a && quadOk o.b
  | .decJpeg o => pairOk o.a && quadOk o.b
  | .decG4 o => pairOk o.a && quadOk o.b
  | .decPng o => pairOk o.a && quadOk o.b
  | .decQuery o => pairOk o.a && quadOk o.b
  | .swset o => pairOk o.a
  | .swarr o => pairOk o.a
  | .swwait o => pairOk o.a
  | .swread o => pairOk o.d && pairOk o.a
  | .mmarJ o => runOk 16 o.a && runOk 4 o.b
  | .mmarS o => runOk 16 o.a && runOk 16 o.b
  | .mmatT _ => true
  | .mmatC _ => true
  | .mmatTz _ => true
  | .mmatCz _ => true
  | .mzero _ => true
  | .mquant _ => true
  | .mstat o => pairOk o.d
  | .tderef o => pairOk o.d && pairOk o.a
  | .ttag o => pairOk o.d && pairOk o.a
  | .tunifyN o => pairOk o.a && pairOk o.b
  | .tunifyOc o => pairOk o.a && pairOk o.b
  | .tbind o => pairOk o.a && pairOk o.b
  | .tmatch o => pairOk o.a && pairOk o.b
  | .tchoice _ => true
  | .tfail _ => true
  | .tcut _ => true
  | .tpopcp _ => true
  | .ttrailtop o => pairOk o.d
  | .tfork _ => true
  | .tcommit o => pairOk o.d
  | .tjoin _ => true
  | .launch o => pairOk o.a
  | .spawn o => quadOk o.d
  | .trigger _ => true
  | .bar _ => true
  | .cbar _ => true
  | .trap _ => true
  | .eret _ => true
  | .chkerr _ => true
  | .irgnGrp _ => true
  | .irgnWg _ => true
  | .irge _ => true
  | .bkpt _ => true
  | .tlbinv o => pairOk o.a
  | .harvest o => pairOk o.a
  | .pendingReplace _ _ => true
  | .sleepExpiry _ => true
  | .squallWindow _ => true
  | .loadReturn _ => true
  | .storePerformed _ => true
  | .atomicResult _ => true
  | .farAtomic _ => true
  | .pageWalk _ _ _ => true
  | .shareRequest _ => true
  | .shareAck _ => true
  | .missRequest _ _ _ => true
  | .invalidation _ => true
  | .invalidationAck _ => true
  | .writeBack _ _ => true
  | .hazeShareRequest _ => true
  | .recall _ => true
  | .recallAck _ => true
  | .grant _ => true
  | .hazeReturn _ _ => true
  | .forcedDrain _ => true
  | .drain _ => true
  | .farAdd _ => true
  | .lockRequest _ => true
  | .link _ => true
  | .lockHandover _ => true
  | .releaseRequest _ => true
  | .lockTimeout _ => true
  | .commandAccept _ => true
  | .arrival _ => true
  | .matrixComplete _ => true
  | .termJobStart _ _ => true
  | .termJobEnd _ _ _ => true
  | .packetDecode _ => true
  | .workgroupStart => true
  | .cloudStart => true
  | .gridComplete _ => true
  | .childGroupStart _ _ => true
  | .idleRelease _ _ => true
  | .pqcomp _ => true
  | .pqsize _ => true
  | .pqhead _ => true
  | .dlsize _ => true
  | .lqtail _ _ => true
  | .lqsize _ _ => true
  | .eqsize _ => true
  | .eqhead _ => true
  | .preempt _ => true
  | .workgroupSave _ => true
  | .resume _ => true
  | .gnum _ _ => true
  | .selfTest _ _ => true
  | .coreRetire _ => true
  | .logClear _ => true
  | .arm _ _ => true
  | .hostAccess _ _ _ => true
  | .hostSnoop _ => true
  | .backInvalidate _ => true
  | .atomicopCompletion _ _ => true
  | .atomicopTimeout _ => true
  | .zeroLengthRead _ => true
  | .inboundRequest _ _ _ => true
  | .response _ => true
  | .requestTimeout _ => true
  | .peerWindow _ _ => true
  | .linkDown _ => true
  | .linkUp _ => true
  | .reset => true
  | .bootWatchdog => true
  | .bootOk => true
  | .clr => true
  | .powerLoss => true
  | .attcmd => true
  | .pwrcap _ => true
  | .clockStep => true
  | .thermalTrip _ _ => true
  | .registerWrite _ _ _ => true
  | .illegalInstruction _ => true
  | .tunifySwap _ => true
  | .tlbinvCompletion _ => true
  | .harvestCompletion _ => true
  | .attestationReport => true
  | .firmwareStartFailure _ => true
  | .scrubber _ _ _ => true
  | .flitCrcFailure _ _ _ => true
  | .freeBufferSignal _ => true
  | .hopForwarding _ _ => true

/-- An instruction the opcode map allows. -/
abbrev Instr.WellFormed (x : Instr) : Prop := x.wf = true

/-- The row has an encoding (the other rows are events of the device). -/
def Instr.isEncoded (x : Instr) : Bool :=
  match x with
  | .vmov16 _ => true
  | .vaddI3216 _ => true
  | .vsubI3216 _ => true
  | .vand16 _ => true
  | .vor16 _ => true
  | .vxor16 _ => true
  | .vshl16 _ => true
  | .vshrN16 _ => true
  | .vshrI16 _ => true
  | .vmulLo16 _ => true
  | .vaddF3216 _ => true
  | .vsubF3216 _ => true
  | .vmulF3216 _ => true
  | .vmaxF3216 _ => true
  | .vminF3216 _ => true
  | .vmovs16 _ => true
  | .sadd _ => true
  | .ssub _ => true
  | .smul _ => true
  | .smulhI _ => true
  | .smulhN _ => true
  | .saddc _ => true
  | .ssubb _ => true
  | .sneg _ => true
  | .sand _ => true
  | .sor _ => true
  | .sxor _ => true
  | .sandn _ => true
  | .sshl _ => true
  | .sshrN _ => true
  | .sshrI _ => true
  | .srotl _ => true
  | .sminI _ => true
  | .smaxI _ => true
  | .sminN _ => true
  | .smaxN _ => true
  | .ssel _ => true
  | .spopc _ => true
  | .sclz _ => true
  | .sbrev _ => true
  | .seq _ => true
  | .sne _ => true
  | .sltI _ => true
  | .sleI _ => true
  | .sltN _ => true
  | .sleN _ => true
  | .stst _ => true
  | .saddi _ => true
  | .sandi _ => true
  | .sori _ => true
  | .sxori _ => true
  | .sshli _ => true
  | .sshriN _ => true
  | .sshriI _ => true
  | .sli _ => true
  | .scmpi _ => true
  | .sbfeN _ => true
  | .sbfeI _ => true
  | .sbfi _ => true
  | .sgetr _ => true
  | .ssetr _ => true
  | .srdlane _ => true
  | .swrlane _ => true
  | .sfirst _ => true
  | .bra _ => true
  | .bscc _ => true
  | .bnscc _ => true
  | .bz _ => true
  | .bnz _ => true
  | .call _ => true
  | .nop _ => true
  | .ret _ => true
  | .exit _ => true
  | .yield _ => true
  | .sleep _ => true
  | .elect _ => true
  | .electw _ => true
  | .jtab _ => true
  | .lpad _ => true
  | .sigchk _ => true
  | .vif _ => true
  | .velse _ => true
  | .vend _ => true
  | .vloop _ => true
  | .vbrk _ => true
  | .vcont _ => true
  | .vendl _ => true
  | .wait _ => true
  | .vaddI32 _ => true
  | .vsubI32 _ => true
  | .vmulLo _ => true
  | .vmulhI _ => true
  | .vmulhN _ => true
  | .vaddsI _ => true
  | .vsubsI _ => true
  | .vabsdI _ => true
  | .vand _ => true
  | .vor _ => true
  | .vxor _ => true
  | .vandn _ => true
  | .vshl _ => true
  | .vshrN _ => true
  | .vshrI _ => true
  | .vrotl _ => true
  | .vminI _ => true
  | .vmaxI _ => true
  | .vminN _ => true
  | .vmaxN _ => true
  | .vpopc _ => true
  | .vclz _ => true
  | .vbrev _ => true
  | .vmov _ => true
  | .vcmp _ => true
  | .vsel _ => true
  | .vbfeN _ => true
  | .vbfeI _ => true
  | .vbfi _ => true
  | .vpermb _ => true
  | .vaddi _ => true
  | .vandi _ => true
  | .vori _ => true
  | .vxori _ => true
  | .vshli _ => true
  | .vshriN _ => true
  | .vshriI _ => true
  | .vli _ => true
  | .vcmpi _ => true
  | .vaddS _ => true
  | .vmulS _ => true
  | .vandS _ => true
  | .vshlS _ => true
  | .vshrSN _ => true
  | .vmovs _ => true
  | .vmadS _ => true
  | .vlaneid _ => true
  | .vaddI64 _ => true
  | .vsubI64 _ => true
  | .vshlI64 _ => true
  | .vshrN64 _ => true
  | .vshrI64 _ => true
  | .vmulwI _ => true
  | .vmulwN _ => true
  | .vaddF32 _ => true
  | .vsubF32 _ => true
  | .vmulF32 _ => true
  | .vfmaF32 _ => true
  | .vfmsF32 _ => true
  | .vfnmaF32 _ => true
  | .vminF32 _ => true
  | .vmaxF32 _ => true
  | .vabsF32 _ => true
  | .vnegF32 _ => true
  | .vcopysign _ => true
  | .vclass _ => true
  | .vrint _ => true
  | .vfract _ => true
  | .vscalb _ => true
  | .vgetexp _ => true
  | .vcmpf _ => true
  | .vaddBf2 _ => true
  | .vsubBf2 _ => true
  | .vmulBf2 _ => true
  | .vfmaBf2 _ => true
  | .vminBf2 _ => true
  | .vmaxBf2 _ => true
  | .vdot2Bf _ => true
  | .vaddF32S _ => true
  | .vmulF32S _ => true
  | .vfmaF32S _ => true
  | .vminF32S _ => true
  | .vmaxF32S _ => true
  | .vrcpA _ => true
  | .vrsqA _ => true
  | .vex2A _ => true
  | .vlg2A _ => true
  | .vsinA _ => true
  | .vcosA _ => true
  | .vtanhA _ => true
  | .vsqrt _ => true
  | .vdivF32 _ => true
  | .vrand _ => true
  | .vseed _ => true
  | .vunpk _ => true
  | .vunpk2 _ => true
  | .vpack _ => true
  | .vpack2 _ => true
  | .vmxscale _ => true
  | .vscaleE8 _ => true
  | .vscaleE8Inv _ => true
  | .vcvt _ => true
  | .pand _ => true
  | .por _ => true
  | .pxor _ => true
  | .pandn _ => true
  | .pnot _ => true
  | .pmov _ => true
  | .pset _ => true
  | .pclr _ => true
  | .ptos _ => true
  | .pfroms _ => true
  | .pcnt _ => true
  | .pany _ => true
  | .pall _ => true
  | .pfirst _ => true
  | .vld _ => true
  | .vldLine _ => true
  | .vst _ => true
  | .vldNr _ => true
  | .vldi _ => true
  | .vsti _ => true
  | .sld _ => true
  | .sst _ => true
  | .fence _ => true
  | .fenceOpr _ => true
  | .fenceH _ => true
  | .cinv _ => true
  | .cwb _ => true
  | .cflush _ => true
  | .vpref _ => true
  | .pagereq _ => true
  | .llock _ => true
  | .ltry _ => true
  | .lunlock _ => true
  | .lquery _ => true
  | .lbreak _ => true
  | .hdecl _ => true
  | .hend _ => true
  | .hdrain _ => true
  | .hquery _ => true
  | .haddF32 _ => true
  | .haddI32 _ => true
  | .hldF32 _ => true
  | .hldI32 _ => true
  | .vatomAddI32 _ => true
  | .vatomAddF32 _ => true
  | .vatomAddBf2 _ => true
  | .vatomMinI _ => true
  | .vatomMaxI _ => true
  | .vatomAnd _ => true
  | .vatomOr _ => true
  | .vatomXchg _ => true
  | .vatom2MinN _ => true
  | .vatom2MaxN _ => true
  | .vatom2Xor _ => true
  | .vatom2AddI64 _ => true
  | .vatom2Xchg64 _ => true
  | .vatom2MinF32 _ => true
  | .vatom2MaxF32 _ => true
  | .vcas32 _ => true
  | .vcas64 _ => true
  | .vcas128 _ => true
  | .satomAddI32 _ => true
  | .satomXchg _ => true
  | .satomCas32 _ => true
  | .satomCas64 _ => true
  | .satomCas128 _ => true
  | .satomAddI64 _ => true
  | .satomOr _ => true
  | .satomAnd _ => true
  | .cpy _ => true
  | .cpy2 _ => true
  | .cpyg _ => true
  | .cpyz _ => true
  | .cpyw _ => true
  | .decJpeg _ => true
  | .decG4 _ => true
  | .decPng _ => true
  | .decQuery _ => true
  | .swset _ => true
  | .swarr _ => true
  | .swwait _ => true
  | .swread _ => true
  | .mmarJ _ => true
  | .mmarS _ => true
  | .mmatT _ => true
  | .mmatC _ => true
  | .mmatTz _ => true
  | .mmatCz _ => true
  | .mzero _ => true
  | .mquant _ => true
  | .mstat _ => true
  | .tderef _ => true
  | .ttag _ => true
  | .tunifyN _ => true
  | .tunifyOc _ => true
  | .tbind _ => true
  | .tmatch _ => true
  | .tchoice _ => true
  | .tfail _ => true
  | .tcut _ => true
  | .tpopcp _ => true
  | .ttrailtop _ => true
  | .tfork _ => true
  | .tcommit _ => true
  | .tjoin _ => true
  | .launch _ => true
  | .spawn _ => true
  | .trigger _ => true
  | .bar _ => true
  | .cbar _ => true
  | .trap _ => true
  | .eret _ => true
  | .chkerr _ => true
  | .irgnGrp _ => true
  | .irgnWg _ => true
  | .irge _ => true
  | .bkpt _ => true
  | .tlbinv _ => true
  | .harvest _ => true
  | .pendingReplace _ _ => false
  | .sleepExpiry _ => false
  | .squallWindow _ => false
  | .loadReturn _ => false
  | .storePerformed _ => false
  | .atomicResult _ => false
  | .farAtomic _ => false
  | .pageWalk _ _ _ => false
  | .shareRequest _ => false
  | .shareAck _ => false
  | .missRequest _ _ _ => false
  | .invalidation _ => false
  | .invalidationAck _ => false
  | .writeBack _ _ => false
  | .hazeShareRequest _ => false
  | .recall _ => false
  | .recallAck _ => false
  | .grant _ => false
  | .hazeReturn _ _ => false
  | .forcedDrain _ => false
  | .drain _ => false
  | .farAdd _ => false
  | .lockRequest _ => false
  | .link _ => false
  | .lockHandover _ => false
  | .releaseRequest _ => false
  | .lockTimeout _ => false
  | .commandAccept _ => false
  | .arrival _ => false
  | .matrixComplete _ => false
  | .termJobStart _ _ => false
  | .termJobEnd _ _ _ => false
  | .packetDecode _ => false
  | .workgroupStart => false
  | .cloudStart => false
  | .gridComplete _ => false
  | .childGroupStart _ _ => false
  | .idleRelease _ _ => false
  | .pqcomp _ => false
  | .pqsize _ => false
  | .pqhead _ => false
  | .dlsize _ => false
  | .lqtail _ _ => false
  | .lqsize _ _ => false
  | .eqsize _ => false
  | .eqhead _ => false
  | .preempt _ => false
  | .workgroupSave _ => false
  | .resume _ => false
  | .gnum _ _ => false
  | .selfTest _ _ => false
  | .coreRetire _ => false
  | .logClear _ => false
  | .arm _ _ => false
  | .hostAccess _ _ _ => false
  | .hostSnoop _ => false
  | .backInvalidate _ => false
  | .atomicopCompletion _ _ => false
  | .atomicopTimeout _ => false
  | .zeroLengthRead _ => false
  | .inboundRequest _ _ _ => false
  | .response _ => false
  | .requestTimeout _ => false
  | .peerWindow _ _ => false
  | .linkDown _ => false
  | .linkUp _ => false
  | .reset => false
  | .bootWatchdog => false
  | .bootOk => false
  | .clr => false
  | .powerLoss => false
  | .attcmd => false
  | .pwrcap _ => false
  | .clockStep => false
  | .thermalTrip _ _ => false
  | .registerWrite _ _ _ => false
  | .illegalInstruction _ => false
  | .tunifySwap _ => false
  | .tlbinvCompletion _ => false
  | .harvestCompletion _ => false
  | .attestationReport => false
  | .firmwareStartFailure _ => false
  | .scrubber _ _ _ => false
  | .flitCrcFailure _ _ _ => false
  | .freeBufferSignal _ => false
  | .hopForwarding _ _ => false

end Sys2Proof
end

