-- ==== Sys2Proof/Decode.lean ====
section
/-! DEFINITION. The decoder, written from the opcode map (R17 to R54), total on any list of halfwords and rejecting
by the step of R43 that fails; after it the encoder, from the same tables. Words are natural numbers and fields are
taken by division, so that facts about encodings are linear arithmetic. The section is marked noncomputable only because
Lean's code generator has no tag for a constructor beyond the 245th of a type (DESIGN CHOICE, log entry 1): every definition here is
made of computable parts and the kernel evaluates it. -/

noncomputable section

namespace Sys2Proof

/-- Field [lo+n-1:lo] of a word as a number. -/
def fld (w lo n : Nat) : Nat := w / 2 ^ lo % 2 ^ n
/-- Field [lo+n-1:lo] of a word as a bit vector. -/
def fv (w lo n : Nat) : BitVec n := BitVec.ofNat n (w / 2 ^ lo)

/-- The prefixes a unit has collected (R28), and the bits of them that must be zero (R30, R35). -/
structure Pfx where
  limm : Option (BitVec 24) := none
  rt : Option Route := none
  mq : Option MQ := none
  zero : Nat := 0
  deriving DecidableEq, Repr

/-- The major opcode, bits [10:4] (R21). -/
def majorOf (w : Nat) : Nat := w / 16 % 128

/-- R54, R33: LIMM is accepted by the VI and SI majors. -/
def acceptsLimm (mj : Nat) : Bool := decide (4 ≤ mj ∧ mj ≤ 12) || decide (0x26 ≤ mj ∧ mj ≤ 0x2E)
/-- R35: the majors that accept MQ. -/
def acceptsMq (mj : Nat) : Bool :=
  decide (0x5C ≤ mj ∧ mj ≤ 0x62) || decide (0x67 ≤ mj ∧ mj ≤ 0x6B)
/-- R31, R54: the majors that accept ROUTE: V3, VI, VS and U, those of the M format with a vector offset, and VCVT; where nothing can be routed,
step 5 asks for zero fields. -/
def acceptsRoute (w : Nat) : Bool :=
  let mj := majorOf w
  decide (0x20 ≤ mj ∧ mj ≤ 0x30) || decide (0x38 ≤ mj ∧ mj ≤ 0x3E) || decide (0x50 ≤ mj ∧ mj ≤ 0x54)
  || mj == 0x5C || mj == 0x5D || mj == 0x5E || decide (0x67 ≤ mj ∧ mj ≤ 0x6A)
/-- R29: the instruction word accepts every prefix of its unit. -/
def acceptsAll (px : Pfx) (w : Nat) : Bool :=
  (px.limm.isNone || acceptsLimm (majorOf w)) && (px.rt.isNone || acceptsRoute w)
  && (px.mq.isNone || acceptsMq (majorOf w))
/-- R28: the unit has no prefix. -/
def Pfx.isEmpty (px : Pfx) : Bool := px.limm.isNone && px.rt.isNone && px.mq.isNone

/-- R51: the reserved majors and the permanently illegal one. -/
def reservedMajor (mj : Nat) : Bool :=
  mj == 0x1F || decide (0x31 ≤ mj ∧ mj ≤ 0x37) || decide (0x3F ≤ mj ∧ mj ≤ 0x4F) || decide (0x55 ≤ mj ∧ mj ≤ 0x57)
  || mj == 0x5A || mj == 0x5B || decide (0x6F ≤ mj ∧ mj ≤ 0x71) || mj == 0x75 || mj == 0x7B || mj == 0x7D || mj == 0x7F

/-- R18, R19: the sixteen 16-bit instructions by op4. -/
def parse16 (h : Nat) : Instr :=
  let o : H16 := ⟨fv h 5 5, fv h 10 5, fv h 15 1⟩
  match fld h 1 4 with
  | 0 => .vmov16 o
  | 1 => .vaddI3216 o
  | 2 => .vsubI3216 o
  | 3 => .vand16 o
  | 4 => .vor16 o
  | 5 => .vxor16 o
  | 6 => .vshl16 o
  | 7 => .vshrN16 o
  | 8 => .vshrI16 o
  | 9 => .vmulLo16 o
  | 10 => .vaddF3216 o
  | 11 => .vsubF3216 o
  | 12 => .vmulF3216 o
  | 13 => .vmaxF3216 o
  | 14 => .vminF3216 o
  | _ => .vmovs16 o

/-- Major 0x00 (R47 to R50). -/
def parseMajor00 (w : Nat) : Option (Instr × Nat) :=
  match fld w 29 3 with
  | 0 => some (.sadd ⟨fv w 11 6, fv w 17 6, fv w 23 6, fv w 1 3⟩, 0)
  | 1 => some (.ssub ⟨fv w 11 6, fv w 17 6, fv w 23 6, fv w 1 3⟩, 0)
  | 2 => some (.smul ⟨fv w 11 6, fv w 17 6, fv w 23 6, fv w 1 3⟩, 0)
  | 3 => some (.smulhI ⟨fv w 11 6, fv w 17 6, fv w 23 6, fv w 1 3⟩, 0)
  | 4 => some (.smulhN ⟨fv w 11 6, fv w 17 6, fv w 23 6, fv w 1 3⟩, 0)
  | 5 => some (.saddc ⟨fv w 11 6, fv w 17 6, fv w 23 6, fv w 1 3⟩, 0)
  | 6 => some (.ssubb ⟨fv w 11 6, fv w 17 6, fv w 23 6, fv w 1 3⟩, 0)
  | _ => some (.sneg ⟨fv w 11 6, fv w 17 6, fv w 1 3⟩, fld w 23 6)

/-- Major 0x01 (R47 to R50). -/
def parseMajor01 (w : Nat) : Option (Instr × Nat) :=
  match fld w 29 3 with
  | 0 => some (.sand ⟨fv w 11 6, fv w 17 6, fv w 23 6, fv w 1 3⟩, 0)
  | 1 => some (.sor ⟨fv w 11 6, fv w 17 6, fv w 23 6, fv w 1 3⟩, 0)
  | 2 => some (.sxor ⟨fv w 11 6, fv w 17 6, fv w 23 6, fv w 1 3⟩, 0)
  | 3 => some (.sandn ⟨fv w 11 6, fv w 17 6, fv w 23 6, fv w 1 3⟩, 0)
  | 4 => some (.sshl ⟨fv w 11 6, fv w 17 6, fv w 23 6, fv w 1 3⟩, 0)
  | 5 => some (.sshrN ⟨fv w 11 6, fv w 17 6, fv w 23 6, fv w 1 3⟩, 0)
  | 6 => some (.sshrI ⟨fv w 11 6, fv w 17 6, fv w 23 6, fv w 1 3⟩, 0)
  | _ => some (.srotl ⟨fv w 11 6, fv w 17 6, fv w 23 6, fv w 1 3⟩, 0)

/-- Major 0x02 (R47 to R50). -/
def parseMajor02 (w : Nat) : Option (Instr × Nat) :=
  match fld w 29 3 with
  | 0 => some (.sminI ⟨fv w 11 6, fv w 17 6, fv w 23 6, fv w 1 3⟩, 0)
  | 1 => some (.smaxI ⟨fv w 11 6, fv w 17 6, fv w 23 6, fv w 1 3⟩, 0)
  | 2 => some (.sminN ⟨fv w 11 6, fv w 17 6, fv w 23 6, fv w 1 3⟩, 0)
  | 3 => some (.smaxN ⟨fv w 11 6, fv w 17 6, fv w 23 6, fv w 1 3⟩, 0)
  | 4 => some (.ssel ⟨fv w 11 6, fv w 17 6, fv w 23 6, fv w 1 3⟩, 0)
  | 5 => some (.spopc ⟨fv w 11 6, fv w 17 6, fv w 1 3⟩, fld w 23 6)
  | 6 => some (.sclz ⟨fv w 11 6, fv w 17 6, fv w 1 3⟩, fld w 23 6)
  | _ => some (.sbrev ⟨fv w 11 6, fv w 17 6, fv w 1 3⟩, fld w 23 6)

/-- Major 0x03 (R47 to R50). -/
def parseMajor03 (w : Nat) : Option (Instr × Nat) :=
  match fld w 29 3 with
  | 0 => some (.seq ⟨fv w 17 6, fv w 23 6, fv w 1 3⟩, fld w 11 6)
  | 1 => some (.sne ⟨fv w 17 6, fv w 23 6, fv w 1 3⟩, fld w 11 6)
  | 2 => some (.sltI ⟨fv w 17 6, fv w 23 6, fv w 1 3⟩, fld w 11 6)
  | 3 => some (.sleI ⟨fv w 17 6, fv w 23 6, fv w 1 3⟩, fld w 11 6)
  | 4 => some (.sltN ⟨fv w 17 6, fv w 23 6, fv w 1 3⟩, fld w 11 6)
  | 5 => some (.sleN ⟨fv w 17 6, fv w 23 6, fv w 1 3⟩, fld w 11 6)
  | 6 => some (.stst ⟨fv w 17 6, fv w 23 6, fv w 1 3⟩, fld w 11 6)
  | _ => none

/-- Major 0x04 (R47 to R50). -/
def parseMajor04 (w : Nat) (px : Pfx) : Option (Instr × Nat) :=
  some (.saddi ⟨fv w 11 6, fv w 17 6, fv w 23 9, px.limm, fv w 1 3⟩, 0)

/-- Major 0x05 (R47 to R50). -/
def parseMajor05 (w : Nat) (px : Pfx) : Option (Instr × Nat) :=
  some (.sandi ⟨fv w 11 6, fv w 17 6, fv w 23 9, px.limm, fv w 1 3⟩, 0)

/-- Major 0x06 (R47 to R50). -/
def parseMajor06 (w : Nat) (px : Pfx) : Option (Instr × Nat) :=
  some (.sori ⟨fv w 11 6, fv w 17 6, fv w 23 9, px.limm, fv w 1 3⟩, 0)

/-- Major 0x07 (R47 to R50). -/
def parseMajor07 (w : Nat) (px : Pfx) : Option (Instr × Nat) :=
  some (.sxori ⟨fv w 11 6, fv w 17 6, fv w 23 9, px.limm, fv w 1 3⟩, 0)

/-- Major 0x08 (R47 to R50). -/
def parseMajor08 (w : Nat) (px : Pfx) : Option (Instr × Nat) :=
  some (.sshli ⟨fv w 11 6, fv w 17 6, fv w 23 9, px.limm, fv w 1 3⟩, 0)

/-- Major 0x09 (R47 to R50). -/
def parseMajor09 (w : Nat) (px : Pfx) : Option (Instr × Nat) :=
  some (.sshriN ⟨fv w 11 6, fv w 17 6, fv w 23 9, px.limm, fv w 1 3⟩, 0)

/-- Major 0x0A (R47 to R50). -/
def parseMajor0A (w : Nat) (px : Pfx) : Option (Instr × Nat) :=
  some (.sshriI ⟨fv w 11 6, fv w 17 6, fv w 23 9, px.limm, fv w 1 3⟩, 0)

/-- Major 0x0B (R47 to R50). -/
def parseMajor0B (w : Nat) (px : Pfx) : Option (Instr × Nat) :=
  some (.sli ⟨fv w 11 6, fv w 23 9, px.limm, fv w 1 3⟩, fld w 17 6)

/-- Major 0x0C (R47 to R50). -/
def parseMajor0C (w : Nat) (px : Pfx) : Option (Instr × Nat) :=
  some (.scmpi ⟨fv w 11 6, fv w 17 6, fv w 23 9, px.limm, fv w 1 3⟩, 0)

/-- Major 0x0D (R47 to R50). -/
def parseMajor0D (w : Nat) : Option (Instr × Nat) :=
  match fld w 29 3 with
  | 0 => some (.sbfeN ⟨fv w 11 6, fv w 17 6, fv w 23 6, fv w 1 3⟩, 0)
  | 1 => some (.sbfeI ⟨fv w 11 6, fv w 17 6, fv w 23 6, fv w 1 3⟩, 0)
  | 2 => some (.sbfi ⟨fv w 11 6, fv w 17 6, fv w 23 6, fv w 1 3⟩, 0)
  | _ => none

/-- Major 0x0E (R47 to R50). -/
def parseMajor0E (w : Nat) : Option (Instr × Nat) :=
  match fld w 29 3 with
  | 0 => some (.sgetr ⟨fv w 23 6, fv w 11 6, fv w 1 3⟩, fld w 17 6)
  | 1 => some (.ssetr ⟨fv w 23 6, fv w 17 6, fv w 1 3⟩, fld w 11 6)
  | _ => none

/-- Major 0x0F (R47 to R50). -/
def parseMajor0F (w : Nat) : Option (Instr × Nat) :=
  match fld w 29 3 with
  | 0 => some (.srdlane ⟨fv w 11 6, fv w 17 6, fv w 23 6, fv w 1 3⟩, 0)
  | 1 => some (.swrlane ⟨fv w 11 6, fv w 17 6, fv w 23 6, fv w 1 3⟩, 0)
  | 2 => some (.sfirst ⟨fv w 11 6, fv w 17 6, fv w 1 3⟩, fld w 23 6)
  | _ => none

/-- Major 0x10 (R47 to R50). -/
def parseMajor10 (w : Nat) : Option (Instr × Nat) :=
  some (.bra ⟨fv w 11 21, fv w 1 3⟩, 0)

/-- Major 0x11 (R47 to R50). -/
def parseMajor11 (w : Nat) : Option (Instr × Nat) :=
  match fld w 11 1 with
  | 0 => some (.bscc ⟨fv w 12 20, fv w 1 3⟩, 0)
  | _ => some (.bnscc ⟨fv w 12 20, fv w 1 3⟩, 0)

/-- Major 0x12 (R47 to R50). -/
def parseMajor12 (w : Nat) : Option (Instr × Nat) :=
  match fld w 17 1 with
  | 0 => some (.bz ⟨fv w 18 14, fv w 11 6, fv w 1 3⟩, 0)
  | _ => some (.bnz ⟨fv w 18 14, fv w 11 6, fv w 1 3⟩, 0)

/-- Major 0x13 (R47 to R50). -/
def parseMajor13 (w : Nat) : Option (Instr × Nat) :=
  some (.call ⟨fv w 11 21, fv w 1 3⟩, 0)

/-- Major 0x14 (R47 to R50). -/
def parseMajor14 (w : Nat) : Option (Instr × Nat) :=
  match fld w 29 3 with
  | 0 => some (.nop ⟨fv w 1 3⟩, fld w 11 18)
  | 1 => some (.ret ⟨fv w 1 3⟩, fld w 11 18)
  | 2 => some (.exit ⟨fv w 1 3⟩, fld w 11 18)
  | 3 => some (.yield ⟨fv w 1 3⟩, fld w 11 18)
  | 4 => some (.sleep ⟨fv w 17 6, fv w 1 3⟩, fld w 11 6 + fld w 23 6)
  | 5 => some (.elect ⟨fv w 11 3, fv w 1 3⟩, fld w 14 15)
  | 6 => some (.electw ⟨fv w 11 3, fv w 1 3⟩, fld w 14 15)
  | _ => none

/-- Major 0x15 (R47 to R50). -/
def parseMajor15 (w : Nat) : Option (Instr × Nat) :=
  some (.jtab ⟨fv w 18 14, fv w 11 6, fv w 1 3⟩, fld w 17 1)

/-- Major 0x16 (R47 to R50). -/
def parseMajor16 (w : Nat) : Option (Instr × Nat) :=
  some (.lpad ⟨fv w 11 12, fv w 1 3⟩, fld w 23 9)

/-- Major 0x17 (R47 to R50). -/
def parseMajor17 (w : Nat) : Option (Instr × Nat) :=
  some (.sigchk ⟨fv w 27 5, fv w 11 16, fv w 1 3⟩, 0)

/-- Major 0x18 (R47 to R50). -/
def parseMajor18 (w : Nat) : Option (Instr × Nat) :=
  match fld w 15 2 with
  | 0 => some (.vif ⟨fv w 17 15, fv w 14 1, fv w 11 3, fv w 1 3⟩, 0)
  | _ => none

/-- Major 0x19 (R47 to R50). -/
def parseMajor19 (w : Nat) : Option (Instr × Nat) :=
  match fld w 11 1 with
  | 0 => some (.velse ⟨fv w 17 15, fv w 1 3⟩, fld w 12 5)
  | _ => some (.vend ⟨fv w 1 3⟩, fld w 12 20)

/-- Major 0x1A (R47 to R50). -/
def parseMajor1A (w : Nat) : Option (Instr × Nat) :=
  match fld w 15 2 with
  | 0 => some (.vloop ⟨fv w 17 15, fv w 1 3⟩, fld w 11 4)
  | 1 => some (.vbrk ⟨fv w 14 1, fv w 11 3, fv w 1 3⟩, fld w 17 15)
  | 2 => some (.vcont ⟨fv w 14 1, fv w 11 3, fv w 1 3⟩, fld w 17 15)
  | _ => some (.vendl ⟨fv w 17 15, fv w 14 1, fv w 11 3, fv w 1 3⟩, 0)

/-- Major 0x1B (R47 to R50). -/
def parseMajor1B (w : Nat) : Option (Instr × Nat) :=
  some (.wait ⟨fv w 29 3, fv w 26 3, fv w 23 3, fv w 17 6, fv w 11 6, fv w 1 3⟩, 0)

/-- Major 0x20 (R47 to R50). -/
def parseMajor20 (w : Nat) (px : Pfx) : Option (Instr × Nat) :=
  match fld w 29 3 with
  | 0 => some (.vaddI32 ⟨fv w 11 6, fv w 17 6, fv w 23 6, px.rt, fv w 1 3⟩, 0)
  | 1 => some (.vsubI32 ⟨fv w 11 6, fv w 17 6, fv w 23 6, px.rt, fv w 1 3⟩, 0)
  | 2 => some (.vmulLo ⟨fv w 11 6, fv w 17 6, fv w 23 6, px.rt, fv w 1 3⟩, 0)
  | 3 => some (.vmulhI ⟨fv w 11 6, fv w 17 6, fv w 23 6, px.rt, fv w 1 3⟩, 0)
  | 4 => some (.vmulhN ⟨fv w 11 6, fv w 17 6, fv w 23 6, px.rt, fv w 1 3⟩, 0)
  | 5 => some (.vaddsI ⟨fv w 11 6, fv w 17 6, fv w 23 6, px.rt, fv w 1 3⟩, 0)
  | 6 => some (.vsubsI ⟨fv w 11 6, fv w 17 6, fv w 23 6, px.rt, fv w 1 3⟩, 0)
  | _ => some (.vabsdI ⟨fv w 11 6, fv w 17 6, fv w 23 6, px.rt, fv w 1 3⟩, 0)

/-- Major 0x21 (R47 to R50). -/
def parseMajor21 (w : Nat) (px : Pfx) : Option (Instr × Nat) :=
  match fld w 29 3 with
  | 0 => some (.vand ⟨fv w 11 6, fv w 17 6, fv w 23 6, px.rt, fv w 1 3⟩, 0)
  | 1 => some (.vor ⟨fv w 11 6, fv w 17 6, fv w 23 6, px.rt, fv w 1 3⟩, 0)
  | 2 => some (.vxor ⟨fv w 11 6, fv w 17 6, fv w 23 6, px.rt, fv w 1 3⟩, 0)
  | 3 => some (.vandn ⟨fv w 11 6, fv w 17 6, fv w 23 6, px.rt, fv w 1 3⟩, 0)
  | 4 => some (.vshl ⟨fv w 11 6, fv w 17 6, fv w 23 6, px.rt, fv w 1 3⟩, 0)
  | 5 => some (.vshrN ⟨fv w 11 6, fv w 17 6, fv w 23 6, px.rt, fv w 1 3⟩, 0)
  | 6 => some (.vshrI ⟨fv w 11 6, fv w 17 6, fv w 23 6, px.rt, fv w 1 3⟩, 0)
  | _ => some (.vrotl ⟨fv w 11 6, fv w 17 6, fv w 23 6, px.rt, fv w 1 3⟩, 0)

/-- Major 0x22 (R47 to R50). -/
def parseMajor22 (w : Nat) (px : Pfx) : Option (Instr × Nat) :=
  match fld w 29 3 with
  | 0 => some (.vminI ⟨fv w 11 6, fv w 17 6, fv w 23 6, px.rt, fv w 1 3⟩, 0)
  | 1 => some (.vmaxI ⟨fv w 11 6, fv w 17 6, fv w 23 6, px.rt, fv w 1 3⟩, 0)
  | 2 => some (.vminN ⟨fv w 11 6, fv w 17 6, fv w 23 6, px.rt, fv w 1 3⟩, 0)
  | 3 => some (.vmaxN ⟨fv w 11 6, fv w 17 6, fv w 23 6, px.rt, fv w 1 3⟩, 0)
  | 4 => some (.vpopc ⟨fv w 11 6, fv w 17 6, px.rt, fv w 1 3⟩, fld w 23 6)
  | 5 => some (.vclz ⟨fv w 11 6, fv w 17 6, px.rt, fv w 1 3⟩, fld w 23 6)
  | 6 => some (.vbrev ⟨fv w 11 6, fv w 17 6, px.rt, fv w 1 3⟩, fld w 23 6)
  | _ => some (.vmov ⟨fv w 11 6, fv w 23 6, px.rt, fv w 1 3⟩, fld w 17 6)

/-- Major 0x23 (R47 to R50). -/
def parseMajor23 (w : Nat) (px : Pfx) : Option (Instr × Nat) :=
  if fld w 29 3 ≤ 6 then some (.vcmp ⟨fv w 11 3, fv w 29 3, fv w 17 6, fv w 23 6, px.rt, fv w 1 3⟩, fld w 14 3) else none

/-- Major 0x24 (R47 to R50). -/
def parseMajor24 (w : Nat) (px : Pfx) : Option (Instr × Nat) :=
  some (.vsel ⟨fv w 11 6, fv w 29 3, fv w 17 6, fv w 23 6, px.rt, fv w 1 3⟩, 0)

/-- Major 0x25 (R47 to R50). -/
def parseMajor25 (w : Nat) (px : Pfx) : Option (Instr × Nat) :=
  match fld w 29 3 with
  | 0 => some (.vbfeN ⟨fv w 11 6, fv w 17 6, fv w 23 6, px.rt, fv w 1 3⟩, 0)
  | 1 => some (.vbfeI ⟨fv w 11 6, fv w 17 6, fv w 23 6, px.rt, fv w 1 3⟩, 0)
  | 2 => some (.vbfi ⟨fv w 11 6, fv w 17 6, fv w 23 6, px.rt, fv w 1 3⟩, 0)
  | 3 => some (.vpermb ⟨fv w 11 6, fv w 17 6, fv w 23 6, px.rt, fv w 1 3⟩, 0)
  | _ => none

/-- Major 0x26 (R47 to R50). -/
def parseMajor26 (w : Nat) (px : Pfx) : Option (Instr × Nat) :=
  some (.vaddi ⟨fv w 11 6, fv w 17 6, fv w 23 9, px.limm, px.rt, fv w 1 3⟩, 0)

/-- Major 0x27 (R47 to R50). -/
def parseMajor27 (w : Nat) (px : Pfx) : Option (Instr × Nat) :=
  some (.vandi ⟨fv w 11 6, fv w 17 6, fv w 23 9, px.limm, px.rt, fv w 1 3⟩, 0)

/-- Major 0x28 (R47 to R50). -/
def parseMajor28 (w : Nat) (px : Pfx) : Option (Instr × Nat) :=
  some (.vori ⟨fv w 11 6, fv w 17 6, fv w 23 9, px.limm, px.rt, fv w 1 3⟩, 0)

/-- Major 0x29 (R47 to R50). -/
def parseMajor29 (w : Nat) (px : Pfx) : Option (Instr × Nat) :=
  some (.vxori ⟨fv w 11 6, fv w 17 6, fv w 23 9, px.limm, px.rt, fv w 1 3⟩, 0)

/-- Major 0x2A (R47 to R50). -/
def parseMajor2A (w : Nat) (px : Pfx) : Option (Instr × Nat) :=
  some (.vshli ⟨fv w 11 6, fv w 17 6, fv w 23 9, px.limm, px.rt, fv w 1 3⟩, 0)

/-- Major 0x2B (R47 to R50). -/
def parseMajor2B (w : Nat) (px : Pfx) : Option (Instr × Nat) :=
  some (.vshriN ⟨fv w 11 6, fv w 17 6, fv w 23 9, px.limm, px.rt, fv w 1 3⟩, 0)

/-- Major 0x2C (R47 to R50). -/
def parseMajor2C (w : Nat) (px : Pfx) : Option (Instr × Nat) :=
  some (.vshriI ⟨fv w 11 6, fv w 17 6, fv w 23 9, px.limm, px.rt, fv w 1 3⟩, 0)

/-- Major 0x2D (R47 to R50). -/
def parseMajor2D (w : Nat) (px : Pfx) : Option (Instr × Nat) :=
  some (.vli ⟨fv w 11 6, fv w 23 9, px.limm, px.rt, fv w 1 3⟩, fld w 17 6)

/-- Major 0x2E (R47 to R50). -/
def parseMajor2E (w : Nat) (px : Pfx) : Option (Instr × Nat) :=
  some (.vcmpi ⟨fv w 11 3, fv w 14 3, fv w 17 6, fv w 23 9, px.limm, px.rt, fv w 1 3⟩, 0)

/-- Major 0x2F (R47 to R50). -/
def parseMajor2F (w : Nat) (px : Pfx) : Option (Instr × Nat) :=
  match fld w 29 3 with
  | 0 => some (.vaddS ⟨fv w 11 6, fv w 17 6, fv w 23 6, px.rt, fv w 1 3⟩, 0)
  | 1 => some (.vmulS ⟨fv w 11 6, fv w 17 6, fv w 23 6, px.rt, fv w 1 3⟩, 0)
  | 2 => some (.vandS ⟨fv w 11 6, fv w 17 6, fv w 23 6, px.rt, fv w 1 3⟩, 0)
  | 3 => some (.vshlS ⟨fv w 11 6, fv w 17 6, fv w 23 6, px.rt, fv w 1 3⟩, 0)
  | 4 => some (.vshrSN ⟨fv w 11 6, fv w 17 6, fv w 23 6, px.rt, fv w 1 3⟩, 0)
  | 5 => some (.vmovs ⟨fv w 11 6, fv w 23 6, px.rt, fv w 1 3⟩, fld w 17 6)
  | 6 => some (.vmadS ⟨fv w 11 6, fv w 17 6, fv w 23 6, px.rt, fv w 1 3⟩, 0)
  | _ => some (.vlaneid ⟨fv w 11 6, px.rt, fv w 1 3⟩, fld w 17 12)

/-- Major 0x30 (R47 to R50). -/
def parseMajor30 (w : Nat) (px : Pfx) : Option (Instr × Nat) :=
  match fld w 29 3 with
  | 0 => some (.vaddI64 ⟨fv w 11 6, fv w 17 6, fv w 23 6, px.rt, fv w 1 3⟩, 0)
  | 1 => some (.vsubI64 ⟨fv w 11 6, fv w 17 6, fv w 23 6, px.rt, fv w 1 3⟩, 0)
  | 2 => some (.vshlI64 ⟨fv w 11 6, fv w 17 6, fv w 23 6, px.rt, fv w 1 3⟩, 0)
  | 3 => some (.vshrN64 ⟨fv w 11 6, fv w 17 6, fv w 23 6, px.rt, fv w 1 3⟩, 0)
  | 4 => some (.vshrI64 ⟨fv w 11 6, fv w 17 6, fv w 23 6, px.rt, fv w 1 3⟩, 0)
  | 5 => some (.vmulwI ⟨fv w 11 6, fv w 17 6, fv w 23 6, px.rt, fv w 1 3⟩, 0)
  | 6 => some (.vmulwN ⟨fv w 11 6, fv w 17 6, fv w 23 6, px.rt, fv w 1 3⟩, 0)
  | _ => none

/-- Major 0x38 (R47 to R50). -/
def parseMajor38 (w : Nat) (px : Pfx) : Option (Instr × Nat) :=
  match fld w 29 3 with
  | 0 => some (.vaddF32 ⟨fv w 11 6, fv w 17 6, fv w 23 6, px.rt, fv w 1 3⟩, 0)
  | 1 => some (.vsubF32 ⟨fv w 11 6, fv w 17 6, fv w 23 6, px.rt, fv w 1 3⟩, 0)
  | 2 => some (.vmulF32 ⟨fv w 11 6, fv w 17 6, fv w 23 6, px.rt, fv w 1 3⟩, 0)
  | 3 => some (.vfmaF32 ⟨fv w 11 6, fv w 17 6, fv w 23 6, px.rt, fv w 1 3⟩, 0)
  | 4 => some (.vfmsF32 ⟨fv w 11 6, fv w 17 6, fv w 23 6, px.rt, fv w 1 3⟩, 0)
  | 5 => some (.vfnmaF32 ⟨fv w 11 6, fv w 17 6, fv w 23 6, px.rt, fv w 1 3⟩, 0)
  | 6 => some (.vminF32 ⟨fv w 11 6, fv w 17 6, fv w 23 6, px.rt, fv w 1 3⟩, 0)
  | _ => some (.vmaxF32 ⟨fv w 11 6, fv w 17 6, fv w 23 6, px.rt, fv w 1 3⟩, 0)

/-- Major 0x39 (R47 to R50). -/
def parseMajor39 (w : Nat) (px : Pfx) : Option (Instr × Nat) :=
  match fld w 29 3 with
  | 0 => some (.vabsF32 ⟨fv w 11 6, fv w 17 6, px.rt, fv w 1 3⟩, fld w 23 6)
  | 1 => some (.vnegF32 ⟨fv w 11 6, fv w 17 6, px.rt, fv w 1 3⟩, fld w 23 6)
  | 2 => some (.vcopysign ⟨fv w 11 6, fv w 17 6, fv w 23 6, px.rt, fv w 1 3⟩, 0)
  | 3 => some (.vclass ⟨fv w 11 6, fv w 17 6, px.rt, fv w 1 3⟩, fld w 23 6)
  | 4 => some (.vrint ⟨fv w 11 6, fv w 17 6, px.rt, fv w 1 3⟩, fld w 23 6)
  | 5 => some (.vfract ⟨fv w 11 6, fv w 17 6, px.rt, fv w 1 3⟩, fld w 23 6)
  | 6 => some (.vscalb ⟨fv w 11 6, fv w 17 6, fv w 23 6, px.rt, fv w 1 3⟩, 0)
  | _ => some (.vgetexp ⟨fv w 11 6, fv w 17 6, px.rt, fv w 1 3⟩, fld w 23 6)

/-- Major 0x3A (R47 to R50). -/
def parseMajor3A (w : Nat) (px : Pfx) : Option (Instr × Nat) :=
  some (.vcmpf ⟨fv w 11 3, fv w 29 3, fv w 17 6, fv w 23 6, px.rt, fv w 1 3⟩, fld w 14 3)

/-- Major 0x3B (R47 to R50). -/
def parseMajor3B (w : Nat) (px : Pfx) : Option (Instr × Nat) :=
  match fld w 29 3 with
  | 0 => some (.vaddBf2 ⟨fv w 11 6, fv w 17 6, fv w 23 6, px.rt, fv w 1 3⟩, 0)
  | 1 => some (.vsubBf2 ⟨fv w 11 6, fv w 17 6, fv w 23 6, px.rt, fv w 1 3⟩, 0)
  | 2 => some (.vmulBf2 ⟨fv w 11 6, fv w 17 6, fv w 23 6, px.rt, fv w 1 3⟩, 0)
  | 3 => some (.vfmaBf2 ⟨fv w 11 6, fv w 17 6, fv w 23 6, px.rt, fv w 1 3⟩, 0)
  | 4 => some (.vminBf2 ⟨fv w 11 6, fv w 17 6, fv w 23 6, px.rt, fv w 1 3⟩, 0)
  | 5 => some (.vmaxBf2 ⟨fv w 11 6, fv w 17 6, fv w 23 6, px.rt, fv w 1 3⟩, 0)
  | 6 => some (.vdot2Bf ⟨fv w 11 6, fv w 17 6, fv w 23 6, px.rt, fv w 1 3⟩, 0)
  | _ => none

/-- Major 0x3C (R47 to R50). -/
def parseMajor3C (w : Nat) (px : Pfx) : Option (Instr × Nat) :=
  match fld w 29 3 with
  | 0 => some (.vaddF32S ⟨fv w 11 6, fv w 17 6, fv w 23 6, px.rt, fv w 1 3⟩, 0)
  | 1 => some (.vmulF32S ⟨fv w 11 6, fv w 17 6, fv w 23 6, px.rt, fv w 1 3⟩, 0)
  | 2 => some (.vfmaF32S ⟨fv w 11 6, fv w 17 6, fv w 23 6, px.rt, fv w 1 3⟩, 0)
  | 3 => some (.vminF32S ⟨fv w 11 6, fv w 17 6, fv w 23 6, px.rt, fv w 1 3⟩, 0)
  | 4 => some (.vmaxF32S ⟨fv w 11 6, fv w 17 6, fv w 23 6, px.rt, fv w 1 3⟩, 0)
  | _ => none

/-- Major 0x3D (R47 to R50). -/
def parseMajor3D (w : Nat) (px : Pfx) : Option (Instr × Nat) :=
  match fld w 29 3 with
  | 0 => some (.vrcpA ⟨fv w 11 6, fv w 17 6, px.rt, fv w 1 3⟩, fld w 23 6)
  | 1 => some (.vrsqA ⟨fv w 11 6, fv w 17 6, px.rt, fv w 1 3⟩, fld w 23 6)
  | 2 => some (.vex2A ⟨fv w 11 6, fv w 17 6, px.rt, fv w 1 3⟩, fld w 23 6)
  | 3 => some (.vlg2A ⟨fv w 11 6, fv w 17 6, px.rt, fv w 1 3⟩, fld w 23 6)
  | 4 => some (.vsinA ⟨fv w 11 6, fv w 17 6, px.rt, fv w 1 3⟩, fld w 23 6)
  | 5 => some (.vcosA ⟨fv w 11 6, fv w 17 6, px.rt, fv w 1 3⟩, fld w 23 6)
  | 6 => some (.vtanhA ⟨fv w 11 6, fv w 17 6, px.rt, fv w 1 3⟩, fld w 23 6)
  | _ => some (.vsqrt ⟨fv w 11 6, fv w 17 6, px.rt, fv w 1 3⟩, fld w 23 6)

/-- Major 0x3E (R47 to R50). -/
def parseMajor3E (w : Nat) (px : Pfx) : Option (Instr × Nat) :=
  match fld w 29 3 with
  | 0 => some (.vdivF32 ⟨fv w 11 6, fv w 17 6, fv w 23 6, px.rt, fv w 1 3⟩, 0)
  | 1 => some (.vrand ⟨fv w 11 6, px.rt, fv w 1 3⟩, fld w 17 12)
  | 2 => some (.vseed ⟨fv w 17 6, px.rt, fv w 1 3⟩, fld w 11 6 + fld w 23 6)
  | _ => none

/-- Major 0x50 (R47 to R50). -/
def parseMajor50 (w : Nat) (px : Pfx) : Option (Instr × Nat) :=
  match fld w 29 3 with
  | 0 => some (.vunpk ⟨fv w 11 6, fv w 17 6, fv w 26 3, fv w 23 3, px.rt, fv w 1 3⟩, 0)
  | 1 => some (.vunpk2 ⟨fv w 11 6, fv w 17 6, fv w 26 3, fv w 23 3, px.rt, fv w 1 3⟩, 0)
  | _ => none

/-- Major 0x51 (R47 to R50). -/
def parseMajor51 (w : Nat) (px : Pfx) : Option (Instr × Nat) :=
  match fld w 29 3 with
  | 0 => some (.vpack ⟨fv w 11 6, fv w 17 6, fv w 26 3, fv w 23 3, px.rt, fv w 1 3⟩, 0)
  | 1 => some (.vpack2 ⟨fv w 11 6, fv w 17 6, fv w 26 3, fv w 23 3, px.rt, fv w 1 3⟩, 0)
  | _ => none

/-- Major 0x52 (R47 to R50). -/
def parseMajor52 (w : Nat) (px : Pfx) : Option (Instr × Nat) :=
  match fld w 29 3 with
  | 0 => some (.vmxscale ⟨fv w 11 6, fv w 17 6, fv w 26 3, px.rt, fv w 1 3⟩, fld w 23 3)
  | _ => none

/-- Major 0x53 (R47 to R50). -/
def parseMajor53 (w : Nat) (px : Pfx) : Option (Instr × Nat) :=
  match fld w 29 3 with
  | 0 => some (.vscaleE8 ⟨fv w 11 6, fv w 17 6, fv w 23 6, px.rt, fv w 1 3⟩, 0)
  | 1 => some (.vscaleE8Inv ⟨fv w 11 6, fv w 17 6, fv w 23 6, px.rt, fv w 1 3⟩, 0)
  | _ => none

/-- Major 0x54 (R47 to R50). -/
def parseMajor54 (w : Nat) (px : Pfx) : Option (Instr × Nat) :=
  if fld w 29 3 ≤ 6 then some (.vcvt ⟨fv w 11 6, fv w 17 6, fv w 29 3, fv w 26 3, fv w 23 3, px.rt, fv w 1 3⟩, 0) else none

/-- Major 0x58 (R47 to R50). -/
def parseMajor58 (w : Nat) : Option (Instr × Nat) :=
  match fld w 29 3 with
  | 0 => some (.pand ⟨fv w 11 3, fv w 17 3, fv w 23 3, fv w 1 3⟩, fld w 14 3 + fld w 20 3 + fld w 26 3)
  | 1 => some (.por ⟨fv w 11 3, fv w 17 3, fv w 23 3, fv w 1 3⟩, fld w 14 3 + fld w 20 3 + fld w 26 3)
  | 2 => some (.pxor ⟨fv w 11 3, fv w 17 3, fv w 23 3, fv w 1 3⟩, fld w 14 3 + fld w 20 3 + fld w 26 3)
  | 3 => some (.pandn ⟨fv w 11 3, fv w 17 3, fv w 23 3, fv w 1 3⟩, fld w 14 3 + fld w 20 3 + fld w 26 3)
  | 4 => some (.pnot ⟨fv w 11 3, fv w 17 3, fv w 1 3⟩, fld w 14 3 + fld w 20 9)
  | 5 => some (.pmov ⟨fv w 11 3, fv w 17 3, fv w 1 3⟩, fld w 14 3 + fld w 20 9)
  | 6 => some (.pset ⟨fv w 11 3, fv w 1 3⟩, fld w 14 15)
  | _ => some (.pclr ⟨fv w 11 3, fv w 1 3⟩, fld w 14 15)

/-- Major 0x59 (R47 to R50). -/
def parseMajor59 (w : Nat) : Option (Instr × Nat) :=
  match fld w 29 3 with
  | 0 => some (.ptos ⟨fv w 11 6, fv w 17 3, fv w 1 3⟩, fld w 20 9)
  | 1 => some (.pfroms ⟨fv w 11 3, fv w 17 6, fv w 1 3⟩, fld w 14 3 + fld w 23 6)
  | 2 => some (.pcnt ⟨fv w 11 6, fv w 17 3, fv w 1 3⟩, fld w 20 9)
  | 3 => some (.pany ⟨fv w 17 3, fv w 1 3⟩, fld w 11 6 + fld w 20 9)
  | 4 => some (.pall ⟨fv w 17 3, fv w 1 3⟩, fld w 11 6 + fld w 20 9)
  | 5 => some (.pfirst ⟨fv w 11 6, fv w 17 3, fv w 1 3⟩, fld w 20 9)
  | _ => none

/-- Major 0x5C (R47 to R50). -/
def parseMajor5C (w : Nat) (px : Pfx) : Option (Instr × Nat) :=
  match fld w 29 3 with
  | 7 => some (.vldLine ⟨fv w 11 6, fv w 17 6, px.rt, px.mq, fv w 1 3⟩, fld w 23 6)
  | _ => some (.vld ⟨fv w 29 3, fv w 11 6, fv w 17 6, fv w 23 6, px.rt, px.mq, fv w 1 3⟩, 0)

/-- Major 0x5D (R47 to R50). -/
def parseMajor5D (w : Nat) (px : Pfx) : Option (Instr × Nat) :=
  if fld w 29 3 ≤ 4 then some (.vst ⟨fv w 29 3, fv w 11 6, fv w 17 6, fv w 23 6, px.rt, px.mq, fv w 1 3⟩, 0) else none

/-- Major 0x5E (R47 to R50). -/
def parseMajor5E (w : Nat) (px : Pfx) : Option (Instr × Nat) :=
  match fld w 29 3 with
  | 4 => some (.vldNr ⟨fv w 29 3, fv w 11 6, fv w 17 6, fv w 23 6, px.rt, px.mq, fv w 1 3⟩, 0)
  | 5 => some (.vldNr ⟨fv w 29 3, fv w 11 6, fv w 17 6, fv w 23 6, px.rt, px.mq, fv w 1 3⟩, 0)
  | 6 => some (.vldNr ⟨fv w 29 3, fv w 11 6, fv w 17 6, fv w 23 6, px.rt, px.mq, fv w 1 3⟩, 0)
  | _ => none

/-- Major 0x5F (R47 to R50). -/
def parseMajor5F (w : Nat) (px : Pfx) : Option (Instr × Nat) :=
  some (.vldi ⟨fv w 29 3, fv w 11 6, fv w 17 6, fv w 23 6, px.mq, fv w 1 3⟩, 0)

/-- Major 0x60 (R47 to R50). -/
def parseMajor60 (w : Nat) (px : Pfx) : Option (Instr × Nat) :=
  if fld w 29 3 ≤ 4 then some (.vsti ⟨fv w 29 3, fv w 11 6, fv w 17 6, fv w 23 6, px.mq, fv w 1 3⟩, 0) else none

/-- Major 0x61 (R47 to R50). -/
def parseMajor61 (w : Nat) (px : Pfx) : Option (Instr × Nat) :=
  match fld w 29 3 with
  | 2 => some (.sld ⟨fv w 29 3, fv w 11 6, fv w 17 6, fv w 23 6, px.mq, fv w 1 3⟩, 0)
  | 3 => some (.sld ⟨fv w 29 3, fv w 11 6, fv w 17 6, fv w 23 6, px.mq, fv w 1 3⟩, 0)
  | 4 => some (.sld ⟨fv w 29 3, fv w 11 6, fv w 17 6, fv w 23 6, px.mq, fv w 1 3⟩, 0)
  | _ => none

/-- Major 0x62 (R47 to R50). -/
def parseMajor62 (w : Nat) (px : Pfx) : Option (Instr × Nat) :=
  match fld w 29 3 with
  | 2 => some (.sst ⟨fv w 29 3, fv w 11 6, fv w 17 6, fv w 23 6, px.mq, fv w 1 3⟩, 0)
  | 3 => some (.sst ⟨fv w 29 3, fv w 11 6, fv w 17 6, fv w 23 6, px.mq, fv w 1 3⟩, 0)
  | 4 => some (.sst ⟨fv w 29 3, fv w 11 6, fv w 17 6, fv w 23 6, px.mq, fv w 1 3⟩, 0)
  | _ => none

/-- Major 0x63 (R47 to R50). -/
def parseMajor63 (w : Nat) : Option (Instr × Nat) :=
  match fld w 29 3 with
  | 4 => some (.fenceOpr ⟨fv w 1 3⟩, fld w 11 18)
  | 5 => some (.fenceH ⟨fv w 17 6, fv w 11 6, fv w 1 3⟩, fld w 23 6)
  | 6 => none
  | 7 => none
  | _ => some (.fence ⟨fv w 29 2, fv w 11 6, fv w 1 3⟩, fld w 17 12)

/-- Major 0x64 (R47 to R50). -/
def parseMajor64 (w : Nat) : Option (Instr × Nat) :=
  match fld w 29 3 with
  | 0 => some (.cinv ⟨fv w 17 6, fv w 23 6, fv w 1 3⟩, fld w 11 6)
  | 1 => some (.cwb ⟨fv w 17 6, fv w 23 6, fv w 1 3⟩, fld w 11 6)
  | 2 => some (.cflush ⟨fv w 17 6, fv w 23 6, fv w 1 3⟩, fld w 11 6)
  | 3 => some (.vpref ⟨fv w 17 6, fv w 23 6, fv w 1 3⟩, fld w 11 6)
  | 4 => some (.pagereq ⟨fv w 17 6, fv w 23 6, fv w 1 3⟩, fld w 11 6)
  | _ => none

/-- Major 0x65 (R47 to R50). -/
def parseMajor65 (w : Nat) : Option (Instr × Nat) :=
  match fld w 29 3 with
  | 0 => some (.llock ⟨fv w 11 6, fv w 17 6, fv w 23 6, fv w 1 3⟩, 0)
  | 1 => some (.ltry ⟨fv w 11 6, fv w 17 6, fv w 1 3⟩, fld w 23 6)
  | 2 => some (.lunlock ⟨fv w 11 6, fv w 17 6, fv w 1 3⟩, fld w 23 6)
  | 3 => some (.lquery ⟨fv w 11 6, fv w 17 6, fv w 1 3⟩, fld w 23 6)
  | 4 => some (.lbreak ⟨fv w 11 6, fv w 17 6, fv w 1 3⟩, fld w 23 6)
  | _ => none

/-- Major 0x66 (R47 to R50). -/
def parseMajor66 (w : Nat) : Option (Instr × Nat) :=
  match fld w 29 3 with
  | 0 => some (.hdecl ⟨fv w 11 6, fv w 17 6, fv w 1 3⟩, fld w 23 6)
  | 1 => some (.hend ⟨fv w 17 6, fv w 1 3⟩, fld w 11 6 + fld w 23 6)
  | 2 => some (.hdrain ⟨fv w 17 6, fv w 1 3⟩, fld w 11 6 + fld w 23 6)
  | 3 => some (.hquery ⟨fv w 11 6, fv w 17 6, fv w 1 3⟩, fld w 23 6)
  | _ => none

/-- Major 0x67 (R47 to R50). -/
def parseMajor67 (w : Nat) (px : Pfx) : Option (Instr × Nat) :=
  match fld w 29 3 with
  | 0 => some (.haddF32 ⟨fv w 11 6, fv w 17 6, fv w 23 6, px.rt, px.mq, fv w 1 3⟩, 0)
  | 1 => some (.haddI32 ⟨fv w 11 6, fv w 17 6, fv w 23 6, px.rt, px.mq, fv w 1 3⟩, 0)
  | 2 => some (.hldF32 ⟨fv w 11 6, fv w 17 6, fv w 23 6, px.rt, px.mq, fv w 1 3⟩, 0)
  | 3 => some (.hldI32 ⟨fv w 11 6, fv w 17 6, fv w 23 6, px.rt, px.mq, fv w 1 3⟩, 0)
  | _ => none

/-- Major 0x68 (R47 to R50). -/
def parseMajor68 (w : Nat) (px : Pfx) : Option (Instr × Nat) :=
  match fld w 29 3 with
  | 0 => some (.vatomAddI32 ⟨fv w 11 6, fv w 17 6, fv w 23 6, px.rt, px.mq, fv w 1 3⟩, 0)
  | 1 => some (.vatomAddF32 ⟨fv w 11 6, fv w 17 6, fv w 23 6, px.rt, px.mq, fv w 1 3⟩, 0)
  | 2 => some (.vatomAddBf2 ⟨fv w 11 6, fv w 17 6, fv w 23 6, px.rt, px.mq, fv w 1 3⟩, 0)
  | 3 => some (.vatomMinI ⟨fv w 11 6, fv w 17 6, fv w 23 6, px.rt, px.mq, fv w 1 3⟩, 0)
  | 4 => some (.vatomMaxI ⟨fv w 11 6, fv w 17 6, fv w 23 6, px.rt, px.mq, fv w 1 3⟩, 0)
  | 5 => some (.vatomAnd ⟨fv w 11 6, fv w 17 6, fv w 23 6, px.rt, px.mq, fv w 1 3⟩, 0)
  | 6 => some (.vatomOr ⟨fv w 11 6, fv w 17 6, fv w 23 6, px.rt, px.mq, fv w 1 3⟩, 0)
  | _ => some (.vatomXchg ⟨fv w 11 6, fv w 17 6, fv w 23 6, px.rt, px.mq, fv w 1 3⟩, 0)

/-- Major 0x69 (R47 to R50). -/
def parseMajor69 (w : Nat) (px : Pfx) : Option (Instr × Nat) :=
  match fld w 29 3 with
  | 0 => some (.vatom2MinN ⟨fv w 11 6, fv w 17 6, fv w 23 6, px.rt, px.mq, fv w 1 3⟩, 0)
  | 1 => some (.vatom2MaxN ⟨fv w 11 6, fv w 17 6, fv w 23 6, px.rt, px.mq, fv w 1 3⟩, 0)
  | 2 => some (.vatom2Xor ⟨fv w 11 6, fv w 17 6, fv w 23 6, px.rt, px.mq, fv w 1 3⟩, 0)
  | 3 => some (.vatom2AddI64 ⟨fv w 11 6, fv w 17 6, fv w 23 6, px.rt, px.mq, fv w 1 3⟩, 0)
  | 4 => some (.vatom2Xchg64 ⟨fv w 11 6, fv w 17 6, fv w 23 6, px.rt, px.mq, fv w 1 3⟩, 0)
  | 5 => some (.vatom2MinF32 ⟨fv w 11 6, fv w 17 6, fv w 23 6, px.rt, px.mq, fv w 1 3⟩, 0)
  | 6 => some (.vatom2MaxF32 ⟨fv w 11 6, fv w 17 6, fv w 23 6, px.rt, px.mq, fv w 1 3⟩, 0)
  | _ => none

/-- Major 0x6A (R47 to R50). -/
def parseMajor6A (w : Nat) (px : Pfx) : Option (Instr × Nat) :=
  match fld w 29 3 with
  | 0 => some (.vcas32 ⟨fv w 11 6, fv w 17 6, fv w 23 6, px.rt, px.mq, fv w 1 3⟩, 0)
  | 1 => some (.vcas64 ⟨fv w 11 6, fv w 17 6, fv w 23 6, px.rt, px.mq, fv w 1 3⟩, 0)
  | 2 => some (.vcas128 ⟨fv w 11 6, fv w 17 6, fv w 23 6, px.rt, px.mq, fv w 1 3⟩, 0)
  | _ => none

/-- Major 0x6B (R47 to R50). -/
def parseMajor6B (w : Nat) (px : Pfx) : Option (Instr × Nat) :=
  match fld w 29 3 with
  | 0 => some (.satomAddI32 ⟨fv w 11 6, fv w 17 6, px.mq, fv w 1 3⟩, fld w 23 6)
  | 1 => some (.satomXchg ⟨fv w 11 6, fv w 17 6, px.mq, fv w 1 3⟩, fld w 23 6)
  | 2 => some (.satomCas32 ⟨fv w 11 6, fv w 17 6, px.mq, fv w 1 3⟩, fld w 23 6)
  | 3 => some (.satomCas64 ⟨fv w 11 6, fv w 17 6, px.mq, fv w 1 3⟩, fld w 23 6)
  | 4 => some (.satomCas128 ⟨fv w 11 6, fv w 17 6, px.mq, fv w 1 3⟩, fld w 23 6)
  | 5 => some (.satomAddI64 ⟨fv w 11 6, fv w 17 6, px.mq, fv w 1 3⟩, fld w 23 6)
  | 6 => some (.satomOr ⟨fv w 11 6, fv w 17 6, px.mq, fv w 1 3⟩, fld w 23 6)
  | _ => some (.satomAnd ⟨fv w 11 6, fv w 17 6, px.mq, fv w 1 3⟩, fld w 23 6)

/-- Major 0x6C (R47 to R50). -/
def parseMajor6C (w : Nat) : Option (Instr × Nat) :=
  match fld w 29 3 with
  | 0 => some (.cpy ⟨fv w 11 6, fv w 17 6, fv w 23 6, fv w 1 3⟩, 0)
  | 1 => some (.cpy2 ⟨fv w 11 6, fv w 17 6, fv w 23 6, fv w 1 3⟩, 0)
  | 2 => some (.cpyg ⟨fv w 11 6, fv w 17 6, fv w 23 6, fv w 1 3⟩, 0)
  | 3 => some (.cpyz ⟨fv w 11 6, fv w 17 6, fv w 23 6, fv w 1 3⟩, 0)
  | 4 => some (.cpyw ⟨fv w 11 6, fv w 17 6, fv w 23 6, fv w 1 3⟩, 0)
  | _ => none

/-- Major 0x6D (R47 to R50). -/
def parseMajor6D (w : Nat) : Option (Instr × Nat) :=
  match fld w 29 3 with
  | 0 => some (.decJpeg ⟨fv w 11 6, fv w 17 6, fv w 23 6, fv w 1 3⟩, 0)
  | 1 => some (.decG4 ⟨fv w 11 6, fv w 17 6, fv w 23 6, fv w 1 3⟩, 0)
  | 2 => some (.decPng ⟨fv w 11 6, fv w 17 6, fv w 23 6, fv w 1 3⟩, 0)
  | 3 => some (.decQuery ⟨fv w 11 6, fv w 17 6, fv w 23 6, fv w 1 3⟩, 0)
  | _ => none

/-- Major 0x6E (R47 to R50). -/
def parseMajor6E (w : Nat) : Option (Instr × Nat) :=
  match fld w 29 3 with
  | 0 => some (.swset ⟨fv w 17 6, fv w 23 6, fv w 1 3⟩, fld w 11 6)
  | 1 => some (.swarr ⟨fv w 17 6, fv w 23 6, fv w 1 3⟩, fld w 11 6)
  | 2 => some (.swwait ⟨fv w 17 6, fv w 23 6, fv w 1 3⟩, fld w 11 6)
  | 3 => some (.swread ⟨fv w 11 6, fv w 17 6, fv w 1 3⟩, fld w 23 6)
  | _ => none

/-- Major 0x72 (R47 to R50). -/
def parseMajor72 (w : Nat) : Option (Instr × Nat) :=
  match fld w 29 3 with
  | 0 => some (.mmarJ ⟨fv w 11 6, fv w 17 6, fv w 23 6, fv w 1 3⟩, 0)
  | 1 => some (.mmarS ⟨fv w 11 6, fv w 17 6, fv w 23 6, fv w 1 3⟩, 0)
  | _ => none

/-- Major 0x73 (R47 to R50). -/
def parseMajor73 (w : Nat) : Option (Instr × Nat) :=
  match fld w 29 3 with
  | 0 => some (.mmatT ⟨fv w 11 6, fv w 17 6, fv w 23 6, fv w 1 3⟩, 0)
  | 1 => some (.mmatC ⟨fv w 11 6, fv w 17 6, fv w 23 6, fv w 1 3⟩, 0)
  | 2 => some (.mmatTz ⟨fv w 11 6, fv w 17 6, fv w 23 6, fv w 1 3⟩, 0)
  | 3 => some (.mmatCz ⟨fv w 11 6, fv w 17 6, fv w 23 6, fv w 1 3⟩, 0)
  | _ => none

/-- Major 0x74 (R47 to R50). -/
def parseMajor74 (w : Nat) : Option (Instr × Nat) :=
  match fld w 29 3 with
  | 0 => some (.mzero ⟨fv w 11 6, fv w 17 6, fv w 1 3⟩, fld w 23 6)
  | 1 => some (.mquant ⟨fv w 11 6, fv w 17 6, fv w 23 6, fv w 1 3⟩, 0)
  | 2 => some (.mstat ⟨fv w 11 6, fv w 1 3⟩, fld w 17 12)
  | _ => none

/-- Major 0x76 (R47 to R50). -/
def parseMajor76 (w : Nat) : Option (Instr × Nat) :=
  match fld w 29 3 with
  | 0 => some (.tderef ⟨fv w 11 6, fv w 17 6, fv w 1 3⟩, fld w 23 6)
  | 1 => some (.ttag ⟨fv w 11 6, fv w 17 6, fv w 1 3⟩, fld w 23 6)
  | _ => none

/-- Major 0x77 (R47 to R50). -/
def parseMajor77 (w : Nat) : Option (Instr × Nat) :=
  match fld w 29 3 with
  | 0 => some (.tunifyN ⟨fv w 17 6, fv w 23 6, fv w 1 3⟩, fld w 11 6)
  | 1 => some (.tunifyOc ⟨fv w 17 6, fv w 23 6, fv w 1 3⟩, fld w 11 6)
  | 2 => some (.tbind ⟨fv w 17 6, fv w 23 6, fv w 1 3⟩, fld w 11 6)
  | 3 => some (.tmatch ⟨fv w 17 6, fv w 23 6, fv w 1 3⟩, fld w 11 6)
  | _ => none

/-- Major 0x78 (R47 to R50). -/
def parseMajor78 (w : Nat) : Option (Instr × Nat) :=
  some (.tchoice ⟨fv w 19 13, fv w 11 8, fv w 1 3⟩, 0)

/-- Major 0x79 (R47 to R50). -/
def parseMajor79 (w : Nat) : Option (Instr × Nat) :=
  match fld w 29 3 with
  | 0 => some (.tfail ⟨fv w 1 3⟩, fld w 11 18)
  | 1 => some (.tcut ⟨fv w 1 3⟩, fld w 11 18)
  | 2 => some (.tpopcp ⟨fv w 1 3⟩, fld w 11 18)
  | 3 => some (.ttrailtop ⟨fv w 11 6, fv w 1 3⟩, fld w 17 12)
  | _ => none

/-- Major 0x7A (R47 to R50). -/
def parseMajor7A (w : Nat) : Option (Instr × Nat) :=
  match fld w 29 3 with
  | 0 => some (.tfork ⟨fv w 11 6, fv w 17 3, fv w 23 6, fv w 1 3⟩, fld w 20 3)
  | 1 => some (.tcommit ⟨fv w 11 6, fv w 1 3⟩, fld w 17 12)
  | 2 => some (.tjoin ⟨fv w 1 3⟩, fld w 11 18)
  | _ => none

/-- Major 0x7C (R47 to R50). -/
def parseMajor7C (w : Nat) : Option (Instr × Nat) :=
  match fld w 29 3 with
  | 0 => some (.launch ⟨fv w 11 6, fv w 17 6, fv w 1 3⟩, fld w 23 6)
  | 1 => some (.spawn ⟨fv w 11 6, fv w 17 6, fv w 1 3⟩, fld w 23 6)
  | 2 => some (.trigger ⟨fv w 1 3⟩, fld w 11 18)
  | 3 => some (.bar ⟨fv w 1 3⟩, fld w 11 18)
  | 4 => some (.cbar ⟨fv w 1 3⟩, fld w 11 18)
  | _ => none

/-- Major 0x7E (R47 to R50). -/
def parseMajor7E (w : Nat) : Option (Instr × Nat) :=
  match fld w 29 3 with
  | 0 => some (.trap ⟨fv w 11 6, fv w 1 3⟩, fld w 17 12)
  | 1 => some (.eret ⟨fv w 1 3⟩, fld w 11 18)
  | 2 => some (.chkerr ⟨fv w 11 6, fv w 17 6, fv w 23 6, fv w 1 3⟩, 0)
  | 4 => some (.irge ⟨fv w 1 3⟩, fld w 11 18)
  | 5 => some (.bkpt ⟨fv w 1 3⟩, fld w 11 18)
  | 6 => some (.tlbinv ⟨fv w 11 6, fv w 17 6, fv w 23 6, fv w 1 3⟩, 0)
  | 7 => some (.harvest ⟨fv w 11 6, fv w 17 6, fv w 23 6, fv w 1 3⟩, 0)
  | _ => if fld w 11 1 = 0 then some (.irgnGrp ⟨fv w 1 3⟩, fld w 11 18) else some (.irgnWg ⟨fv w 1 3⟩, fld w 12 17)

/-- R47 to R50: the instruction of an assigned major, with the sum of the fields that must be zero; none for a
reserved fn, selector or kind value (step 4 of R43). -/
def parse32 (w : Nat) (px : Pfx) : Option (Instr × Nat) :=
  match majorOf w with
  | 0x00 => parseMajor00 w
  | 0x01 => parseMajor01 w
  | 0x02 => parseMajor02 w
  | 0x03 => parseMajor03 w
  | 0x04 => parseMajor04 w px
  | 0x05 => parseMajor05 w px
  | 0x06 => parseMajor06 w px
  | 0x07 => parseMajor07 w px
  | 0x08 => parseMajor08 w px
  | 0x09 => parseMajor09 w px
  | 0x0A => parseMajor0A w px
  | 0x0B => parseMajor0B w px
  | 0x0C => parseMajor0C w px
  | 0x0D => parseMajor0D w
  | 0x0E => parseMajor0E w
  | 0x0F => parseMajor0F w
  | 0x10 => parseMajor10 w
  | 0x11 => parseMajor11 w
  | 0x12 => parseMajor12 w
  | 0x13 => parseMajor13 w
  | 0x14 => parseMajor14 w
  | 0x15 => parseMajor15 w
  | 0x16 => parseMajor16 w
  | 0x17 => parseMajor17 w
  | 0x18 => parseMajor18 w
  | 0x19 => parseMajor19 w
  | 0x1A => parseMajor1A w
  | 0x1B => parseMajor1B w
  | 0x20 => parseMajor20 w px
  | 0x21 => parseMajor21 w px
  | 0x22 => parseMajor22 w px
  | 0x23 => parseMajor23 w px
  | 0x24 => parseMajor24 w px
  | 0x25 => parseMajor25 w px
  | 0x26 => parseMajor26 w px
  | 0x27 => parseMajor27 w px
  | 0x28 => parseMajor28 w px
  | 0x29 => parseMajor29 w px
  | 0x2A => parseMajor2A w px
  | 0x2B => parseMajor2B w px
  | 0x2C => parseMajor2C w px
  | 0x2D => parseMajor2D w px
  | 0x2E => parseMajor2E w px
  | 0x2F => parseMajor2F w px
  | 0x30 => parseMajor30 w px
  | 0x38 => parseMajor38 w px
  | 0x39 => parseMajor39 w px
  | 0x3A => parseMajor3A w px
  | 0x3B => parseMajor3B w px
  | 0x3C => parseMajor3C w px
  | 0x3D => parseMajor3D w px
  | 0x3E => parseMajor3E w px
  | 0x50 => parseMajor50 w px
  | 0x51 => parseMajor51 w px
  | 0x52 => parseMajor52 w px
  | 0x53 => parseMajor53 w px
  | 0x54 => parseMajor54 w px
  | 0x58 => parseMajor58 w
  | 0x59 => parseMajor59 w
  | 0x5C => parseMajor5C w px
  | 0x5D => parseMajor5D w px
  | 0x5E => parseMajor5E w px
  | 0x5F => parseMajor5F w px
  | 0x60 => parseMajor60 w px
  | 0x61 => parseMajor61 w px
  | 0x62 => parseMajor62 w px
  | 0x63 => parseMajor63 w
  | 0x64 => parseMajor64 w
  | 0x65 => parseMajor65 w
  | 0x66 => parseMajor66 w
  | 0x67 => parseMajor67 w px
  | 0x68 => parseMajor68 w px
  | 0x69 => parseMajor69 w px
  | 0x6A => parseMajor6A w px
  | 0x6B => parseMajor6B w px
  | 0x6C => parseMajor6C w
  | 0x6D => parseMajor6D w
  | 0x6E => parseMajor6E w
  | 0x72 => parseMajor72 w
  | 0x73 => parseMajor73 w
  | 0x74 => parseMajor74 w
  | 0x76 => parseMajor76 w
  | 0x77 => parseMajor77 w
  | 0x78 => parseMajor78 w
  | 0x79 => parseMajor79 w
  | 0x7A => parseMajor7A w
  | 0x7C => parseMajor7C w
  | 0x7E => parseMajor7E w
  | _ => none

/-- Why a unit does not decode: the step of R43. -/
inductive DecErr where
  | illegal (step : Nat)
  | truncated
  deriving DecidableEq, Repr

/-- Steps 2 to 5 of R43 on the instruction word of a unit with prefixes px. -/
def decode32 (px : Pfx) (w : Nat) : Except DecErr Instr :=
  if acceptsAll px w = false then .error (.illegal 2)
  else if reservedMajor (majorOf w) then .error (.illegal (if px.isEmpty then 3 else 2))
  else match parse32 w px with
    | none => .error (.illegal 4)
    | some (i, z) => if z = 0 ∧ px.zero = 0 ∧ i.wf = true then .ok i else .error (.illegal 5)

/-- R30. -/
def routeOfWord (w : Nat) : Route := ⟨fv w 11 9, fv w 20 9⟩
/-- R33. -/
def limmOfWord (w : Nat) : BitVec 24 := BitVec.ofNat 24 (fld w 11 21 * 8 + fld w 1 3)
/-- R35. -/
def mqOfWord (w : Nat) : MQ := ⟨fv w 27 2, fv w 20 7, fv w 18 2, fv w 15 3, fv w 13 2, fv w 11 2⟩

/-- What the next word of a unit is: a prefix of a new kind, or the word that ends the unit. -/
inductive WordKind where
  | more (px : Pfx)
  | again
  | last
  deriving DecidableEq, Repr

/-- R29: a prefix joins the unit once of each kind, in any order. The last sentence of R54 has a ROUTE before a prefix trap at step 2, which R29 and
the units of falne (ROUTE before MQ) exclude: the model follows R29 (DEDUCED, log entry 3). -/
def wordKind (px : Pfx) (w : Nat) : WordKind :=
  match majorOf w with
  | 0x1C => if px.rt.isSome then .again
            else .more { px with rt := some (routeOfWord w), zero := px.zero + (fld w 29 3 + fld w 1 3) }
  | 0x1D => if px.limm.isSome then .again else .more { px with limm := some (limmOfWord w) }
  | 0x1E => if px.mq.isSome then .again
            else .more { px with mq := some (mqOfWord w), zero := px.zero + (fld w 29 3 + fld w 1 3) }
  | _ => .last

/-- Decode a unit from its halfwords; fuel bounds the words of a unit (three prefixes and the instruction). The
answer carries the halfwords consumed. -/
def decodeFrom : Nat → Pfx → Nat → List Nat → Except DecErr (Instr × Nat)
  | 0, _, _, _ => .error .truncated
  | _ + 1, _, _, [] => .error .truncated
  | fuel + 1, px, n, h :: hs =>
    if h % 2 = 0 then
      if px.isEmpty then .ok (parse16 h, n + 1) else .error (.illegal 2)
    else match hs with
      | [] => .error .truncated
      | g :: gs =>
        let w := h + 65536 * g
        match wordKind px w with
        | .more px' => decodeFrom fuel px' (n + 2) gs
        | .again => .error (.illegal 2)
        | .last => match decode32 px w with
          | .ok i => .ok (i, n + 2)
          | .error e => .error e

/-- R43: the unit at the head of a list of halfwords, and how many halfwords it has. -/
def decodeUnit (hs : List Nat) : Except DecErr (Instr × Nat) := decodeFrom 4 {} 0 hs

/-- How many halfwords of a list belong to the first unit (R17, R28, R29), for the fetch to ask about; none when
the list ends before the unit does. -/
def unitHalves : Nat → Pfx → List Nat → Option Nat
  | 0, _, _ => none
  | _ + 1, _, [] => none
  | fuel + 1, px, h :: hs =>
    if h % 2 = 0 then some 1
    else match hs with
      | [] => none
      | g :: gs => match wordKind px (h + 65536 * g) with
        | .more px' => (unitHalves fuel px' gs).map (· + 2)
        | _ => some 2

/-- The halfwords of a number, from bit 0 upward (R1). -/
def halvesOf : Nat → Nat → List Nat
  | 0, _ => []
  | n + 1, w => w % 65536 :: halvesOf n (w / 65536)

/-- The instruction the decoder reads from the bits w of an opcode-table row (the bits above nbits are zero). -/
def decodeTableWord (nbits w : Nat) : Option Instr :=
  match decodeUnit (halvesOf 8 (w % 2 ^ nbits)) with
  | .ok (i, _) => some i
  | .error _ => none

/-- The ROUTE prefix word (R30). -/
def routeWord (r : Route) : Nat := r.b.toNat * 2 ^ 20 + r.a.toNat * 2 ^ 11 + 0x1C1
/-- The LIMM prefix word (R33). -/
def limmWord (l : BitVec 24) : Nat := l.toNat / 8 * 2 ^ 11 + 0x1D0 + l.toNat % 8 * 2 + 1
/-- The MQ prefix word (R35). -/
def mqWord (q : MQ) : Nat :=
  q.place.toNat * 2 ^ 27 + q.tol.toNat * 2 ^ 20 + q.ord.toNat * 2 ^ 18 + q.scope.toNat * 2 ^ 15 + q.slice.toNat * 2 ^ 13
  + q.l1.toNat * 2 ^ 11 + 0x1E1
/-- A 32-bit word as two halfwords, lower address first (R17). -/
def halves (w : Nat) : List Nat := [w % 65536, w / 65536]

/-- The prefix words of a unit, in the order falne emits them (R29). -/
def pfxWords (limm : Option (BitVec 24)) (rt : Option Route) (mq : Option MQ) : List Nat :=
  (match limm with | none => [] | some l => halves (limmWord l))
  ++ (match rt with | none => [] | some r => halves (routeWord r))
  ++ (match mq with | none => [] | some q => halves (mqWord q))

/-- The instruction word itself (R18, R21 to R24, R44). Events have none. -/
def wordOf (x : Instr) : Nat :=
  match x with
  | .vmov16 o => o.d.toNat * 32 + o.b.toNat * 1024 + o.st.toNat * 32768 + 0x0
  | .vaddI3216 o => o.d.toNat * 32 + o.b.toNat * 1024 + o.st.toNat * 32768 + 0x2
  | .vsubI3216 o => o.d.toNat * 32 + o.b.toNat * 1024 + o.st.toNat * 32768 + 0x4
  | .vand16 o => o.d.toNat * 32 + o.b.toNat * 1024 + o.st.toNat * 32768 + 0x6
  | .vor16 o => o.d.toNat * 32 + o.b.toNat * 1024 + o.st.toNat * 32768 + 0x8
  | .vxor16 o => o.d.toNat * 32 + o.b.toNat * 1024 + o.st.toNat * 32768 + 0xA
  | .vshl16 o => o.d.toNat * 32 + o.b.toNat * 1024 + o.st.toNat * 32768 + 0xC
  | .vshrN16 o => o.d.toNat * 32 + o.b.toNat * 1024 + o.st.toNat * 32768 + 0xE
  | .vshrI16 o => o.d.toNat * 32 + o.b.toNat * 1024 + o.st.toNat * 32768 + 0x10
  | .vmulLo16 o => o.d.toNat * 32 + o.b.toNat * 1024 + o.st.toNat * 32768 + 0x12
  | .vaddF3216 o => o.d.toNat * 32 + o.b.toNat * 1024 + o.st.toNat * 32768 + 0x14
  | .vsubF3216 o => o.d.toNat * 32 + o.b.toNat * 1024 + o.st.toNat * 32768 + 0x16
  | .vmulF3216 o => o.d.toNat * 32 + o.b.toNat * 1024 + o.st.toNat * 32768 + 0x18
  | .vmaxF3216 o => o.d.toNat * 32 + o.b.toNat * 1024 + o.st.toNat * 32768 + 0x1A
  | .vminF3216 o => o.d.toNat * 32 + o.b.toNat * 1024 + o.st.toNat * 32768 + 0x1C
  | .vmovs16 o => o.d.toNat * 32 + o.b.toNat * 1024 + o.st.toNat * 32768 + 0x1E
  | .sadd o => o.d.toNat * 2048 + o.a.toNat * 131072 + o.b.toNat * 8388608 + o.st.toNat * 2 + 0x1
  | .ssub o => o.d.toNat * 2048 + o.a.toNat * 131072 + o.b.toNat * 8388608 + o.st.toNat * 2 + 0x20000001
  | .smul o => o.d.toNat * 2048 + o.a.toNat * 131072 + o.b.toNat * 8388608 + o.st.toNat * 2 + 0x40000001
  | .smulhI o => o.d.toNat * 2048 + o.a.toNat * 131072 + o.b.toNat * 8388608 + o.st.toNat * 2 + 0x60000001
  | .smulhN o => o.d.toNat * 2048 + o.a.toNat * 131072 + o.b.toNat * 8388608 + o.st.toNat * 2 + 0x80000001
  | .saddc o => o.d.toNat * 2048 + o.a.toNat * 131072 + o.b.toNat * 8388608 + o.st.toNat * 2 + 0xA0000001
  | .ssubb o => o.d.toNat * 2048 + o.a.toNat * 131072 + o.b.toNat * 8388608 + o.st.toNat * 2 + 0xC0000001
  | .sneg o => o.d.toNat * 2048 + o.a.toNat * 131072 + o.st.toNat * 2 + 0xE0000001
  | .sand o => o.d.toNat * 2048 + o.a.toNat * 131072 + o.b.toNat * 8388608 + o.st.toNat * 2 + 0x11
  | .sor o => o.d.toNat * 2048 + o.a.toNat * 131072 + o.b.toNat * 8388608 + o.st.toNat * 2 + 0x20000011
  | .sxor o => o.d.toNat * 2048 + o.a.toNat * 131072 + o.b.toNat * 8388608 + o.st.toNat * 2 + 0x40000011
  | .sandn o => o.d.toNat * 2048 + o.a.toNat * 131072 + o.b.toNat * 8388608 + o.st.toNat * 2 + 0x60000011
  | .sshl o => o.d.toNat * 2048 + o.a.toNat * 131072 + o.b.toNat * 8388608 + o.st.toNat * 2 + 0x80000011
  | .sshrN o => o.d.toNat * 2048 + o.a.toNat * 131072 + o.b.toNat * 8388608 + o.st.toNat * 2 + 0xA0000011
  | .sshrI o => o.d.toNat * 2048 + o.a.toNat * 131072 + o.b.toNat * 8388608 + o.st.toNat * 2 + 0xC0000011
  | .srotl o => o.d.toNat * 2048 + o.a.toNat * 131072 + o.b.toNat * 8388608 + o.st.toNat * 2 + 0xE0000011
  | .sminI o => o.d.toNat * 2048 + o.a.toNat * 131072 + o.b.toNat * 8388608 + o.st.toNat * 2 + 0x21
  | .smaxI o => o.d.toNat * 2048 + o.a.toNat * 131072 + o.b.toNat * 8388608 + o.st.toNat * 2 + 0x20000021
  | .sminN o => o.d.toNat * 2048 + o.a.toNat * 131072 + o.b.toNat * 8388608 + o.st.toNat * 2 + 0x40000021
  | .smaxN o => o.d.toNat * 2048 + o.a.toNat * 131072 + o.b.toNat * 8388608 + o.st.toNat * 2 + 0x60000021
  | .ssel o => o.d.toNat * 2048 + o.a.toNat * 131072 + o.b.toNat * 8388608 + o.st.toNat * 2 + 0x80000021
  | .spopc o => o.d.toNat * 2048 + o.a.toNat * 131072 + o.st.toNat * 2 + 0xA0000021
  | .sclz o => o.d.toNat * 2048 + o.a.toNat * 131072 + o.st.toNat * 2 + 0xC0000021
  | .sbrev o => o.d.toNat * 2048 + o.a.toNat * 131072 + o.st.toNat * 2 + 0xE0000021
  | .seq o => o.a.toNat * 131072 + o.b.toNat * 8388608 + o.st.toNat * 2 + 0x31
  | .sne o => o.a.toNat * 131072 + o.b.toNat * 8388608 + o.st.toNat * 2 + 0x20000031
  | .sltI o => o.a.toNat * 131072 + o.b.toNat * 8388608 + o.st.toNat * 2 + 0x40000031
  | .sleI o => o.a.toNat * 131072 + o.b.toNat * 8388608 + o.st.toNat * 2 + 0x60000031
  | .sltN o => o.a.toNat * 131072 + o.b.toNat * 8388608 + o.st.toNat * 2 + 0x80000031
  | .sleN o => o.a.toNat * 131072 + o.b.toNat * 8388608 + o.st.toNat * 2 + 0xA0000031
  | .stst o => o.a.toNat * 131072 + o.b.toNat * 8388608 + o.st.toNat * 2 + 0xC0000031
  | .saddi o => o.d.toNat * 2048 + o.a.toNat * 131072 + o.i.toNat * 8388608 + o.st.toNat * 2 + 0x41
  | .sandi o => o.d.toNat * 2048 + o.a.toNat * 131072 + o.i.toNat * 8388608 + o.st.toNat * 2 + 0x51
  | .sori o => o.d.toNat * 2048 + o.a.toNat * 131072 + o.i.toNat * 8388608 + o.st.toNat * 2 + 0x61
  | .sxori o => o.d.toNat * 2048 + o.a.toNat * 131072 + o.i.toNat * 8388608 + o.st.toNat * 2 + 0x71
  | .sshli o => o.d.toNat * 2048 + o.a.toNat * 131072 + o.i.toNat * 8388608 + o.st.toNat * 2 + 0x81
  | .sshriN o => o.d.toNat * 2048 + o.a.toNat * 131072 + o.i.toNat * 8388608 + o.st.toNat * 2 + 0x91
  | .sshriI o => o.d.toNat * 2048 + o.a.toNat * 131072 + o.i.toNat * 8388608 + o.st.toNat * 2 + 0xA1
  | .sli o => o.d.toNat * 2048 + o.i.toNat * 8388608 + o.st.toNat * 2 + 0xB1
  | .scmpi o => o.c.toNat * 2048 + o.a.toNat * 131072 + o.i.toNat * 8388608 + o.st.toNat * 2 + 0xC1
  | .sbfeN o => o.d.toNat * 2048 + o.a.toNat * 131072 + o.b.toNat * 8388608 + o.st.toNat * 2 + 0xD1
  | .sbfeI o => o.d.toNat * 2048 + o.a.toNat * 131072 + o.b.toNat * 8388608 + o.st.toNat * 2 + 0x200000D1
  | .sbfi o => o.d.toNat * 2048 + o.a.toNat * 131072 + o.b.toNat * 8388608 + o.st.toNat * 2 + 0x400000D1
  | .sgetr o => o.r.toNat * 8388608 + o.d.toNat * 2048 + o.st.toNat * 2 + 0xE1
  | .ssetr o => o.r.toNat * 8388608 + o.a.toNat * 131072 + o.st.toNat * 2 + 0x200000E1
  | .srdlane o => o.d.toNat * 2048 + o.a.toNat * 131072 + o.b.toNat * 8388608 + o.st.toNat * 2 + 0xF1
  | .swrlane o => o.d.toNat * 2048 + o.a.toNat * 131072 + o.b.toNat * 8388608 + o.st.toNat * 2 + 0x200000F1
  | .sfirst o => o.d.toNat * 2048 + o.a.toNat * 131072 + o.st.toNat * 2 + 0x400000F1
  | .bra o => o.o.toNat * 2048 + o.st.toNat * 2 + 0x101
  | .bscc o => o.o.toNat * 4096 + o.st.toNat * 2 + 0x111
  | .bnscc o => o.o.toNat * 4096 + o.st.toNat * 2 + 0x911
  | .bz o => o.o.toNat * 262144 + o.a.toNat * 2048 + o.st.toNat * 2 + 0x121
  | .bnz o => o.o.toNat * 262144 + o.a.toNat * 2048 + o.st.toNat * 2 + 0x20121
  | .call o => o.o.toNat * 2048 + o.st.toNat * 2 + 0x131
  | .nop o => o.st.toNat * 2 + 0x141
  | .ret o => o.st.toNat * 2 + 0x20000141
  | .exit o => o.st.toNat * 2 + 0x40000141
  | .yield o => o.st.toNat * 2 + 0x60000141
  | .sleep o => o.a.toNat * 131072 + o.st.toNat * 2 + 0x80000141
  | .elect o => o.p.toNat * 2048 + o.st.toNat * 2 + 0xA0000141
  | .electw o => o.p.toNat * 2048 + o.st.toNat * 2 + 0xC0000141
  | .jtab o => o.o.toNat * 262144 + o.a.toNat * 2048 + o.st.toNat * 2 + 0x151
  | .lpad o => o.l.toNat * 2048 + o.st.toNat * 2 + 0x161
  | .sigchk o => o.d.toNat * 134217728 + o.c.toNat * 2048 + o.st.toNat * 2 + 0x171
  | .vif o => o.o.toNat * 131072 + o.n.toNat * 16384 + o.p.toNat * 2048 + o.st.toNat * 2 + 0x181
  | .velse o => o.o.toNat * 131072 + o.st.toNat * 2 + 0x191
  | .vend o => o.st.toNat * 2 + 0x991
  | .vloop o => o.o.toNat * 131072 + o.st.toNat * 2 + 0x1A1
  | .vbrk o => o.n.toNat * 16384 + o.p.toNat * 2048 + o.st.toNat * 2 + 0x81A1
  | .vcont o => o.n.toNat * 16384 + o.p.toNat * 2048 + o.st.toNat * 2 + 0x101A1
  | .vendl o => o.o.toNat * 131072 + o.n.toNat * 16384 + o.p.toNat * 2048 + o.st.toNat * 2 + 0x181A1
  | .wait o => o.t.toNat * 536870912 + o.e.toNat * 67108864 + o.m.toNat * 8388608 + o.w.toNat * 131072 + o.l.toNat * 2048 + o.st.toNat * 2 + 0x1B1
  | .vaddI32 o => o.d.toNat * 2048 + o.a.toNat * 131072 + o.b.toNat * 8388608 + o.st.toNat * 2 + 0x201
  | .vsubI32 o => o.d.toNat * 2048 + o.a.toNat * 131072 + o.b.toNat * 8388608 + o.st.toNat * 2 + 0x20000201
  | .vmulLo o => o.d.toNat * 2048 + o.a.toNat * 131072 + o.b.toNat * 8388608 + o.st.toNat * 2 + 0x40000201
  | .vmulhI o => o.d.toNat * 2048 + o.a.toNat * 131072 + o.b.toNat * 8388608 + o.st.toNat * 2 + 0x60000201
  | .vmulhN o => o.d.toNat * 2048 + o.a.toNat * 131072 + o.b.toNat * 8388608 + o.st.toNat * 2 + 0x80000201
  | .vaddsI o => o.d.toNat * 2048 + o.a.toNat * 131072 + o.b.toNat * 8388608 + o.st.toNat * 2 + 0xA0000201
  | .vsubsI o => o.d.toNat * 2048 + o.a.toNat * 131072 + o.b.toNat * 8388608 + o.st.toNat * 2 + 0xC0000201
  | .vabsdI o => o.d.toNat * 2048 + o.a.toNat * 131072 + o.b.toNat * 8388608 + o.st.toNat * 2 + 0xE0000201
  | .vand o => o.d.toNat * 2048 + o.a.toNat * 131072 + o.b.toNat * 8388608 + o.st.toNat * 2 + 0x211
  | .vor o => o.d.toNat * 2048 + o.a.toNat * 131072 + o.b.toNat * 8388608 + o.st.toNat * 2 + 0x20000211
  | .vxor o => o.d.toNat * 2048 + o.a.toNat * 131072 + o.b.toNat * 8388608 + o.st.toNat * 2 + 0x40000211
  | .vandn o => o.d.toNat * 2048 + o.a.toNat * 131072 + o.b.toNat * 8388608 + o.st.toNat * 2 + 0x60000211
  | .vshl o => o.d.toNat * 2048 + o.a.toNat * 131072 + o.b.toNat * 8388608 + o.st.toNat * 2 + 0x80000211
  | .vshrN o => o.d.toNat * 2048 + o.a.toNat * 131072 + o.b.toNat * 8388608 + o.st.toNat * 2 + 0xA0000211
  | .vshrI o => o.d.toNat * 2048 + o.a.toNat * 131072 + o.b.toNat * 8388608 + o.st.toNat * 2 + 0xC0000211
  | .vrotl o => o.d.toNat * 2048 + o.a.toNat * 131072 + o.b.toNat * 8388608 + o.st.toNat * 2 + 0xE0000211
  | .vminI o => o.d.toNat * 2048 + o.a.toNat * 131072 + o.b.toNat * 8388608 + o.st.toNat * 2 + 0x221
  | .vmaxI o => o.d.toNat * 2048 + o.a.toNat * 131072 + o.b.toNat * 8388608 + o.st.toNat * 2 + 0x20000221
  | .vminN o => o.d.toNat * 2048 + o.a.toNat * 131072 + o.b.toNat * 8388608 + o.st.toNat * 2 + 0x40000221
  | .vmaxN o => o.d.toNat * 2048 + o.a.toNat * 131072 + o.b.toNat * 8388608 + o.st.toNat * 2 + 0x60000221
  | .vpopc o => o.d.toNat * 2048 + o.a.toNat * 131072 + o.st.toNat * 2 + 0x80000221
  | .vclz o => o.d.toNat * 2048 + o.a.toNat * 131072 + o.st.toNat * 2 + 0xA0000221
  | .vbrev o => o.d.toNat * 2048 + o.a.toNat * 131072 + o.st.toNat * 2 + 0xC0000221
  | .vmov o => o.d.toNat * 2048 + o.b.toNat * 8388608 + o.st.toNat * 2 + 0xE0000221
  | .vcmp o => o.p.toNat * 2048 + o.c.toNat * 536870912 + o.a.toNat * 131072 + o.b.toNat * 8388608 + o.st.toNat * 2 + 0x231
  | .vsel o => o.d.toNat * 2048 + o.n.toNat * 536870912 + o.a.toNat * 131072 + o.b.toNat * 8388608 + o.st.toNat * 2 + 0x241
  | .vbfeN o => o.d.toNat * 2048 + o.a.toNat * 131072 + o.b.toNat * 8388608 + o.st.toNat * 2 + 0x251
  | .vbfeI o => o.d.toNat * 2048 + o.a.toNat * 131072 + o.b.toNat * 8388608 + o.st.toNat * 2 + 0x20000251
  | .vbfi o => o.d.toNat * 2048 + o.a.toNat * 131072 + o.b.toNat * 8388608 + o.st.toNat * 2 + 0x40000251
  | .vpermb o => o.d.toNat * 2048 + o.a.toNat * 131072 + o.b.toNat * 8388608 + o.st.toNat * 2 + 0x60000251
  | .vaddi o => o.d.toNat * 2048 + o.a.toNat * 131072 + o.i.toNat * 8388608 + o.st.toNat * 2 + 0x261
  | .vandi o => o.d.toNat * 2048 + o.a.toNat * 131072 + o.i.toNat * 8388608 + o.st.toNat * 2 + 0x271
  | .vori o => o.d.toNat * 2048 + o.a.toNat * 131072 + o.i.toNat * 8388608 + o.st.toNat * 2 + 0x281
  | .vxori o => o.d.toNat * 2048 + o.a.toNat * 131072 + o.i.toNat * 8388608 + o.st.toNat * 2 + 0x291
  | .vshli o => o.d.toNat * 2048 + o.a.toNat * 131072 + o.i.toNat * 8388608 + o.st.toNat * 2 + 0x2A1
  | .vshriN o => o.d.toNat * 2048 + o.a.toNat * 131072 + o.i.toNat * 8388608 + o.st.toNat * 2 + 0x2B1
  | .vshriI o => o.d.toNat * 2048 + o.a.toNat * 131072 + o.i.toNat * 8388608 + o.st.toNat * 2 + 0x2C1
  | .vli o => o.d.toNat * 2048 + o.i.toNat * 8388608 + o.st.toNat * 2 + 0x2D1
  | .vcmpi o => o.p.toNat * 2048 + o.c.toNat * 16384 + o.a.toNat * 131072 + o.i.toNat * 8388608 + o.st.toNat * 2 + 0x2E1
  | .vaddS o => o.d.toNat * 2048 + o.a.toNat * 131072 + o.b.toNat * 8388608 + o.st.toNat * 2 + 0x2F1
  | .vmulS o => o.d.toNat * 2048 + o.a.toNat * 131072 + o.b.toNat * 8388608 + o.st.toNat * 2 + 0x200002F1
  | .vandS o => o.d.toNat * 2048 + o.a.toNat * 131072 + o.b.toNat * 8388608 + o.st.toNat * 2 + 0x400002F1
  | .vshlS o => o.d.toNat * 2048 + o.a.toNat * 131072 + o.b.toNat * 8388608 + o.st.toNat * 2 + 0x600002F1
  | .vshrSN o => o.d.toNat * 2048 + o.a.toNat * 131072 + o.b.toNat * 8388608 + o.st.toNat * 2 + 0x800002F1
  | .vmovs o => o.d.toNat * 2048 + o.b.toNat * 8388608 + o.st.toNat * 2 + 0xA00002F1
  | .vmadS o => o.d.toNat * 2048 + o.a.toNat * 131072 + o.b.toNat * 8388608 + o.st.toNat * 2 + 0xC00002F1
  | .vlaneid o => o.d.toNat * 2048 + o.st.toNat * 2 + 0xE00002F1
  | .vaddI64 o => o.d.toNat * 2048 + o.a.toNat * 131072 + o.b.toNat * 8388608 + o.st.toNat * 2 + 0x301
  | .vsubI64 o => o.d.toNat * 2048 + o.a.toNat * 131072 + o.b.toNat * 8388608 + o.st.toNat * 2 + 0x20000301
  | .vshlI64 o => o.d.toNat * 2048 + o.a.toNat * 131072 + o.b.toNat * 8388608 + o.st.toNat * 2 + 0x40000301
  | .vshrN64 o => o.d.toNat * 2048 + o.a.toNat * 131072 + o.b.toNat * 8388608 + o.st.toNat * 2 + 0x60000301
  | .vshrI64 o => o.d.toNat * 2048 + o.a.toNat * 131072 + o.b.toNat * 8388608 + o.st.toNat * 2 + 0x80000301
  | .vmulwI o => o.d.toNat * 2048 + o.a.toNat * 131072 + o.b.toNat * 8388608 + o.st.toNat * 2 + 0xA0000301
  | .vmulwN o => o.d.toNat * 2048 + o.a.toNat * 131072 + o.b.toNat * 8388608 + o.st.toNat * 2 + 0xC0000301
  | .vaddF32 o => o.d.toNat * 2048 + o.a.toNat * 131072 + o.b.toNat * 8388608 + o.st.toNat * 2 + 0x381
  | .vsubF32 o => o.d.toNat * 2048 + o.a.toNat * 131072 + o.b.toNat * 8388608 + o.st.toNat * 2 + 0x20000381
  | .vmulF32 o => o.d.toNat * 2048 + o.a.toNat * 131072 + o.b.toNat * 8388608 + o.st.toNat * 2 + 0x40000381
  | .vfmaF32 o => o.d.toNat * 2048 + o.a.toNat * 131072 + o.b.toNat * 8388608 + o.st.toNat * 2 + 0x60000381
  | .vfmsF32 o => o.d.toNat * 2048 + o.a.toNat * 131072 + o.b.toNat * 8388608 + o.st.toNat * 2 + 0x80000381
  | .vfnmaF32 o => o.d.toNat * 2048 + o.a.toNat * 131072 + o.b.toNat * 8388608 + o.st.toNat * 2 + 0xA0000381
  | .vminF32 o => o.d.toNat * 2048 + o.a.toNat * 131072 + o.b.toNat * 8388608 + o.st.toNat * 2 + 0xC0000381
  | .vmaxF32 o => o.d.toNat * 2048 + o.a.toNat * 131072 + o.b.toNat * 8388608 + o.st.toNat * 2 + 0xE0000381
  | .vabsF32 o => o.d.toNat * 2048 + o.a.toNat * 131072 + o.st.toNat * 2 + 0x391
  | .vnegF32 o => o.d.toNat * 2048 + o.a.toNat * 131072 + o.st.toNat * 2 + 0x20000391
  | .vcopysign o => o.d.toNat * 2048 + o.a.toNat * 131072 + o.b.toNat * 8388608 + o.st.toNat * 2 + 0x40000391
  | .vclass o => o.d.toNat * 2048 + o.a.toNat * 131072 + o.st.toNat * 2 + 0x60000391
  | .vrint o => o.d.toNat * 2048 + o.a.toNat * 131072 + o.st.toNat * 2 + 0x80000391
  | .vfract o => o.d.toNat * 2048 + o.a.toNat * 131072 + o.st.toNat * 2 + 0xA0000391
  | .vscalb o => o.d.toNat * 2048 + o.a.toNat * 131072 + o.b.toNat * 8388608 + o.st.toNat * 2 + 0xC0000391
  | .vgetexp o => o.d.toNat * 2048 + o.a.toNat * 131072 + o.st.toNat * 2 + 0xE0000391
  | .vcmpf o => o.p.toNat * 2048 + o.c.toNat * 536870912 + o.a.toNat * 131072 + o.b.toNat * 8388608 + o.st.toNat * 2 + 0x3A1
  | .vaddBf2 o => o.d.toNat * 2048 + o.a.toNat * 131072 + o.b.toNat * 8388608 + o.st.toNat * 2 + 0x3B1
  | .vsubBf2 o => o.d.toNat * 2048 + o.a.toNat * 131072 + o.b.toNat * 8388608 + o.st.toNat * 2 + 0x200003B1
  | .vmulBf2 o => o.d.toNat * 2048 + o.a.toNat * 131072 + o.b.toNat * 8388608 + o.st.toNat * 2 + 0x400003B1
  | .vfmaBf2 o => o.d.toNat * 2048 + o.a.toNat * 131072 + o.b.toNat * 8388608 + o.st.toNat * 2 + 0x600003B1
  | .vminBf2 o => o.d.toNat * 2048 + o.a.toNat * 131072 + o.b.toNat * 8388608 + o.st.toNat * 2 + 0x800003B1
  | .vmaxBf2 o => o.d.toNat * 2048 + o.a.toNat * 131072 + o.b.toNat * 8388608 + o.st.toNat * 2 + 0xA00003B1
  | .vdot2Bf o => o.d.toNat * 2048 + o.a.toNat * 131072 + o.b.toNat * 8388608 + o.st.toNat * 2 + 0xC00003B1
  | .vaddF32S o => o.d.toNat * 2048 + o.a.toNat * 131072 + o.b.toNat * 8388608 + o.st.toNat * 2 + 0x3C1
  | .vmulF32S o => o.d.toNat * 2048 + o.a.toNat * 131072 + o.b.toNat * 8388608 + o.st.toNat * 2 + 0x200003C1
  | .vfmaF32S o => o.d.toNat * 2048 + o.a.toNat * 131072 + o.b.toNat * 8388608 + o.st.toNat * 2 + 0x400003C1
  | .vminF32S o => o.d.toNat * 2048 + o.a.toNat * 131072 + o.b.toNat * 8388608 + o.st.toNat * 2 + 0x600003C1
  | .vmaxF32S o => o.d.toNat * 2048 + o.a.toNat * 131072 + o.b.toNat * 8388608 + o.st.toNat * 2 + 0x800003C1
  | .vrcpA o => o.d.toNat * 2048 + o.a.toNat * 131072 + o.st.toNat * 2 + 0x3D1
  | .vrsqA o => o.d.toNat * 2048 + o.a.toNat * 131072 + o.st.toNat * 2 + 0x200003D1
  | .vex2A o => o.d.toNat * 2048 + o.a.toNat * 131072 + o.st.toNat * 2 + 0x400003D1
  | .vlg2A o => o.d.toNat * 2048 + o.a.toNat * 131072 + o.st.toNat * 2 + 0x600003D1
  | .vsinA o => o.d.toNat * 2048 + o.a.toNat * 131072 + o.st.toNat * 2 + 0x800003D1
  | .vcosA o => o.d.toNat * 2048 + o.a.toNat * 131072 + o.st.toNat * 2 + 0xA00003D1
  | .vtanhA o => o.d.toNat * 2048 + o.a.toNat * 131072 + o.st.toNat * 2 + 0xC00003D1
  | .vsqrt o => o.d.toNat * 2048 + o.a.toNat * 131072 + o.st.toNat * 2 + 0xE00003D1
  | .vdivF32 o => o.d.toNat * 2048 + o.a.toNat * 131072 + o.b.toNat * 8388608 + o.st.toNat * 2 + 0x3E1
  | .vrand o => o.d.toNat * 2048 + o.st.toNat * 2 + 0x200003E1
  | .vseed o => o.a.toNat * 131072 + o.st.toNat * 2 + 0x400003E1
  | .vunpk o => o.d.toNat * 2048 + o.a.toNat * 131072 + o.t.toNat * 67108864 + o.k.toNat * 8388608 + o.st.toNat * 2 + 0x501
  | .vunpk2 o => o.d.toNat * 2048 + o.a.toNat * 131072 + o.t.toNat * 67108864 + o.k.toNat * 8388608 + o.st.toNat * 2 + 0x20000501
  | .vpack o => o.d.toNat * 2048 + o.a.toNat * 131072 + o.t.toNat * 67108864 + o.k.toNat * 8388608 + o.st.toNat * 2 + 0x511
  | .vpack2 o => o.d.toNat * 2048 + o.a.toNat * 131072 + o.t.toNat * 67108864 + o.k.toNat * 8388608 + o.st.toNat * 2 + 0x20000511
  | .vmxscale o => o.d.toNat * 2048 + o.a.toNat * 131072 + o.t.toNat * 67108864 + o.st.toNat * 2 + 0x521
  | .vscaleE8 o => o.d.toNat * 2048 + o.a.toNat * 131072 + o.b.toNat * 8388608 + o.st.toNat * 2 + 0x531
  | .vscaleE8Inv o => o.d.toNat * 2048 + o.a.toNat * 131072 + o.b.toNat * 8388608 + o.st.toNat * 2 + 0x20000531
  | .vcvt o => o.d.toNat * 2048 + o.a.toNat * 131072 + o.m.toNat * 536870912 + o.u.toNat * 67108864 + o.v.toNat * 8388608 + o.st.toNat * 2 + 0x541
  | .pand o => o.d.toNat * 2048 + o.a.toNat * 131072 + o.b.toNat * 8388608 + o.st.toNat * 2 + 0x581
  | .por o => o.d.toNat * 2048 + o.a.toNat * 131072 + o.b.toNat * 8388608 + o.st.toNat * 2 + 0x20000581
  | .pxor o => o.d.toNat * 2048 + o.a.toNat * 131072 + o.b.toNat * 8388608 + o.st.toNat * 2 + 0x40000581
  | .pandn o => o.d.toNat * 2048 + o.a.toNat * 131072 + o.b.toNat * 8388608 + o.st.toNat * 2 + 0x60000581
  | .pnot o => o.d.toNat * 2048 + o.a.toNat * 131072 + o.st.toNat * 2 + 0x80000581
  | .pmov o => o.d.toNat * 2048 + o.a.toNat * 131072 + o.st.toNat * 2 + 0xA0000581
  | .pset o => o.d.toNat * 2048 + o.st.toNat * 2 + 0xC0000581
  | .pclr o => o.d.toNat * 2048 + o.st.toNat * 2 + 0xE0000581
  | .ptos o => o.d.toNat * 2048 + o.a.toNat * 131072 + o.st.toNat * 2 + 0x591
  | .pfroms o => o.d.toNat * 2048 + o.a.toNat * 131072 + o.st.toNat * 2 + 0x20000591
  | .pcnt o => o.d.toNat * 2048 + o.a.toNat * 131072 + o.st.toNat * 2 + 0x40000591
  | .pany o => o.a.toNat * 131072 + o.st.toNat * 2 + 0x60000591
  | .pall o => o.a.toNat * 131072 + o.st.toNat * 2 + 0x80000591
  | .pfirst o => o.d.toNat * 2048 + o.a.toNat * 131072 + o.st.toNat * 2 + 0xA0000591
  | .vld o => o.z.toNat * 536870912 + o.d.toNat * 2048 + o.a.toNat * 131072 + o.b.toNat * 8388608 + o.st.toNat * 2 + 0x5C1
  | .vldLine o => o.d.toNat * 2048 + o.a.toNat * 131072 + o.st.toNat * 2 + 0xE00005C1
  | .vst o => o.z.toNat * 536870912 + o.d.toNat * 2048 + o.a.toNat * 131072 + o.b.toNat * 8388608 + o.st.toNat * 2 + 0x5D1
  | .vldNr o => o.z.toNat * 536870912 + o.d.toNat * 2048 + o.a.toNat * 131072 + o.b.toNat * 8388608 + o.st.toNat * 2 + 0x5E1
  | .vldi o => o.z.toNat * 536870912 + o.d.toNat * 2048 + o.a.toNat * 131072 + o.i.toNat * 8388608 + o.st.toNat * 2 + 0x5F1
  | .vsti o => o.z.toNat * 536870912 + o.d.toNat * 2048 + o.a.toNat * 131072 + o.i.toNat * 8388608 + o.st.toNat * 2 + 0x601
  | .sld o => o.z.toNat * 536870912 + o.d.toNat * 2048 + o.a.toNat * 131072 + o.b.toNat * 8388608 + o.st.toNat * 2 + 0x611
  | .sst o => o.z.toNat * 536870912 + o.d.toNat * 2048 + o.a.toNat * 131072 + o.b.toNat * 8388608 + o.st.toNat * 2 + 0x621
  | .fence o => o.k.toNat * 536870912 + o.c.toNat * 2048 + o.st.toNat * 2 + 0x631
  | .fenceOpr o => o.st.toNat * 2 + 0x80000631
  | .fenceH o => o.a.toNat * 131072 + o.c.toNat * 2048 + o.st.toNat * 2 + 0xA0000631
  | .cinv o => o.a.toNat * 131072 + o.b.toNat * 8388608 + o.st.toNat * 2 + 0x641
  | .cwb o => o.a.toNat * 131072 + o.b.toNat * 8388608 + o.st.toNat * 2 + 0x20000641
  | .cflush o => o.a.toNat * 131072 + o.b.toNat * 8388608 + o.st.toNat * 2 + 0x40000641
  | .vpref o => o.a.toNat * 131072 + o.b.toNat * 8388608 + o.st.toNat * 2 + 0x60000641
  | .pagereq o => o.a.toNat * 131072 + o.b.toNat * 8388608 + o.st.toNat * 2 + 0x80000641
  | .llock o => o.d.toNat * 2048 + o.a.toNat * 131072 + o.b.toNat * 8388608 + o.st.toNat * 2 + 0x651
  | .ltry o => o.d.toNat * 2048 + o.a.toNat * 131072 + o.st.toNat * 2 + 0x20000651
  | .lunlock o => o.d.toNat * 2048 + o.a.toNat * 131072 + o.st.toNat * 2 + 0x40000651
  | .lquery o => o.d.toNat * 2048 + o.a.toNat * 131072 + o.st.toNat * 2 + 0x60000651
  | .lbreak o => o.d.toNat * 2048 + o.a.toNat * 131072 + o.st.toNat * 2 + 0x80000651
  | .hdecl o => o.d.toNat * 2048 + o.a.toNat * 131072 + o.st.toNat * 2 + 0x661
  | .hend o => o.a.toNat * 131072 + o.st.toNat * 2 + 0x20000661
  | .hdrain o => o.a.toNat * 131072 + o.st.toNat * 2 + 0x40000661
  | .hquery o => o.d.toNat * 2048 + o.a.toNat * 131072 + o.st.toNat * 2 + 0x60000661
  | .haddF32 o => o.d.toNat * 2048 + o.a.toNat * 131072 + o.b.toNat * 8388608 + o.st.toNat * 2 + 0x671
  | .haddI32 o => o.d.toNat * 2048 + o.a.toNat * 131072 + o.b.toNat * 8388608 + o.st.toNat * 2 + 0x20000671
  | .hldF32 o => o.d.toNat * 2048 + o.a.toNat * 131072 + o.b.toNat * 8388608 + o.st.toNat * 2 + 0x40000671
  | .hldI32 o => o.d.toNat * 2048 + o.a.toNat * 131072 + o.b.toNat * 8388608 + o.st.toNat * 2 + 0x60000671
  | .vatomAddI32 o => o.d.toNat * 2048 + o.a.toNat * 131072 + o.b.toNat * 8388608 + o.st.toNat * 2 + 0x681
  | .vatomAddF32 o => o.d.toNat * 2048 + o.a.toNat * 131072 + o.b.toNat * 8388608 + o.st.toNat * 2 + 0x20000681
  | .vatomAddBf2 o => o.d.toNat * 2048 + o.a.toNat * 131072 + o.b.toNat * 8388608 + o.st.toNat * 2 + 0x40000681
  | .vatomMinI o => o.d.toNat * 2048 + o.a.toNat * 131072 + o.b.toNat * 8388608 + o.st.toNat * 2 + 0x60000681
  | .vatomMaxI o => o.d.toNat * 2048 + o.a.toNat * 131072 + o.b.toNat * 8388608 + o.st.toNat * 2 + 0x80000681
  | .vatomAnd o => o.d.toNat * 2048 + o.a.toNat * 131072 + o.b.toNat * 8388608 + o.st.toNat * 2 + 0xA0000681
  | .vatomOr o => o.d.toNat * 2048 + o.a.toNat * 131072 + o.b.toNat * 8388608 + o.st.toNat * 2 + 0xC0000681
  | .vatomXchg o => o.d.toNat * 2048 + o.a.toNat * 131072 + o.b.toNat * 8388608 + o.st.toNat * 2 + 0xE0000681
  | .vatom2MinN o => o.d.toNat * 2048 + o.a.toNat * 131072 + o.b.toNat * 8388608 + o.st.toNat * 2 + 0x691
  | .vatom2MaxN o => o.d.toNat * 2048 + o.a.toNat * 131072 + o.b.toNat * 8388608 + o.st.toNat * 2 + 0x20000691
  | .vatom2Xor o => o.d.toNat * 2048 + o.a.toNat * 131072 + o.b.toNat * 8388608 + o.st.toNat * 2 + 0x40000691
  | .vatom2AddI64 o => o.d.toNat * 2048 + o.a.toNat * 131072 + o.b.toNat * 8388608 + o.st.toNat * 2 + 0x60000691
  | .vatom2Xchg64 o => o.d.toNat * 2048 + o.a.toNat * 131072 + o.b.toNat * 8388608 + o.st.toNat * 2 + 0x80000691
  | .vatom2MinF32 o => o.d.toNat * 2048 + o.a.toNat * 131072 + o.b.toNat * 8388608 + o.st.toNat * 2 + 0xA0000691
  | .vatom2MaxF32 o => o.d.toNat * 2048 + o.a.toNat * 131072 + o.b.toNat * 8388608 + o.st.toNat * 2 + 0xC0000691
  | .vcas32 o => o.d.toNat * 2048 + o.a.toNat * 131072 + o.b.toNat * 8388608 + o.st.toNat * 2 + 0x6A1
  | .vcas64 o => o.d.toNat * 2048 + o.a.toNat * 131072 + o.b.toNat * 8388608 + o.st.toNat * 2 + 0x200006A1
  | .vcas128 o => o.d.toNat * 2048 + o.a.toNat * 131072 + o.b.toNat * 8388608 + o.st.toNat * 2 + 0x400006A1
  | .satomAddI32 o => o.d.toNat * 2048 + o.a.toNat * 131072 + o.st.toNat * 2 + 0x6B1
  | .satomXchg o => o.d.toNat * 2048 + o.a.toNat * 131072 + o.st.toNat * 2 + 0x200006B1
  | .satomCas32 o => o.d.toNat * 2048 + o.a.toNat * 131072 + o.st.toNat * 2 + 0x400006B1
  | .satomCas64 o => o.d.toNat * 2048 + o.a.toNat * 131072 + o.st.toNat * 2 + 0x600006B1
  | .satomCas128 o => o.d.toNat * 2048 + o.a.toNat * 131072 + o.st.toNat * 2 + 0x800006B1
  | .satomAddI64 o => o.d.toNat * 2048 + o.a.toNat * 131072 + o.st.toNat * 2 + 0xA00006B1
  | .satomOr o => o.d.toNat * 2048 + o.a.toNat * 131072 + o.st.toNat * 2 + 0xC00006B1
  | .satomAnd o => o.d.toNat * 2048 + o.a.toNat * 131072 + o.st.toNat * 2 + 0xE00006B1
  | .cpy o => o.d.toNat * 2048 + o.a.toNat * 131072 + o.b.toNat * 8388608 + o.st.toNat * 2 + 0x6C1
  | .cpy2 o => o.d.toNat * 2048 + o.a.toNat * 131072 + o.b.toNat * 8388608 + o.st.toNat * 2 + 0x200006C1
  | .cpyg o => o.d.toNat * 2048 + o.a.toNat * 131072 + o.b.toNat * 8388608 + o.st.toNat * 2 + 0x400006C1
  | .cpyz o => o.d.toNat * 2048 + o.a.toNat * 131072 + o.b.toNat * 8388608 + o.st.toNat * 2 + 0x600006C1
  | .cpyw o => o.d.toNat * 2048 + o.a.toNat * 131072 + o.b.toNat * 8388608 + o.st.toNat * 2 + 0x800006C1
  | .decJpeg o => o.d.toNat * 2048 + o.a.toNat * 131072 + o.b.toNat * 8388608 + o.st.toNat * 2 + 0x6D1
  | .decG4 o => o.d.toNat * 2048 + o.a.toNat * 131072 + o.b.toNat * 8388608 + o.st.toNat * 2 + 0x200006D1
  | .decPng o => o.d.toNat * 2048 + o.a.toNat * 131072 + o.b.toNat * 8388608 + o.st.toNat * 2 + 0x400006D1
  | .decQuery o => o.d.toNat * 2048 + o.a.toNat * 131072 + o.b.toNat * 8388608 + o.st.toNat * 2 + 0x600006D1
  | .swset o => o.a.toNat * 131072 + o.b.toNat * 8388608 + o.st.toNat * 2 + 0x6E1
  | .swarr o => o.a.toNat * 131072 + o.b.toNat * 8388608 + o.st.toNat * 2 + 0x200006E1
  | .swwait o => o.a.toNat * 131072 + o.b.toNat * 8388608 + o.st.toNat * 2 + 0x400006E1
  | .swread o => o.d.toNat * 2048 + o.a.toNat * 131072 + o.st.toNat * 2 + 0x600006E1
  | .mmarJ o => o.d.toNat * 2048 + o.a.toNat * 131072 + o.b.toNat * 8388608 + o.st.toNat * 2 + 0x721
  | .mmarS o => o.d.toNat * 2048 + o.a.toNat * 131072 + o.b.toNat * 8388608 + o.st.toNat * 2 + 0x20000721
  | .mmatT o => o.d.toNat * 2048 + o.a.toNat * 131072 + o.b.toNat * 8388608 + o.st.toNat * 2 + 0x731
  | .mmatC o => o.d.toNat * 2048 + o.a.toNat * 131072 + o.b.toNat * 8388608 + o.st.toNat * 2 + 0x20000731
  | .mmatTz o => o.d.toNat * 2048 + o.a.toNat * 131072 + o.b.toNat * 8388608 + o.st.toNat * 2 + 0x40000731
  | .mmatCz o => o.d.toNat * 2048 + o.a.toNat * 131072 + o.b.toNat * 8388608 + o.st.toNat * 2 + 0x60000731
  | .mzero o => o.d.toNat * 2048 + o.a.toNat * 131072 + o.st.toNat * 2 + 0x741
  | .mquant o => o.d.toNat * 2048 + o.a.toNat * 131072 + o.b.toNat * 8388608 + o.st.toNat * 2 + 0x20000741
  | .mstat o => o.d.toNat * 2048 + o.st.toNat * 2 + 0x40000741
  | .tderef o => o.d.toNat * 2048 + o.a.toNat * 131072 + o.st.toNat * 2 + 0x761
  | .ttag o => o.d.toNat * 2048 + o.a.toNat * 131072 + o.st.toNat * 2 + 0x20000761
  | .tunifyN o => o.a.toNat * 131072 + o.b.toNat * 8388608 + o.st.toNat * 2 + 0x771
  | .tunifyOc o => o.a.toNat * 131072 + o.b.toNat * 8388608 + o.st.toNat * 2 + 0x20000771
  | .tbind o => o.a.toNat * 131072 + o.b.toNat * 8388608 + o.st.toNat * 2 + 0x40000771
  | .tmatch o => o.a.toNat * 131072 + o.b.toNat * 8388608 + o.st.toNat * 2 + 0x60000771
  | .tchoice o => o.o.toNat * 524288 + o.m.toNat * 2048 + o.st.toNat * 2 + 0x781
  | .tfail o => o.st.toNat * 2 + 0x791
  | .tcut o => o.st.toNat * 2 + 0x20000791
  | .tpopcp o => o.st.toNat * 2 + 0x40000791
  | .ttrailtop o => o.d.toNat * 2048 + o.st.toNat * 2 + 0x60000791
  | .tfork o => o.d.toNat * 2048 + o.a.toNat * 131072 + o.b.toNat * 8388608 + o.st.toNat * 2 + 0x7A1
  | .tcommit o => o.d.toNat * 2048 + o.st.toNat * 2 + 0x200007A1
  | .tjoin o => o.st.toNat * 2 + 0x400007A1
  | .launch o => o.d.toNat * 2048 + o.a.toNat * 131072 + o.st.toNat * 2 + 0x7C1
  | .spawn o => o.d.toNat * 2048 + o.a.toNat * 131072 + o.st.toNat * 2 + 0x200007C1
  | .trigger o => o.st.toNat * 2 + 0x400007C1
  | .bar o => o.st.toNat * 2 + 0x600007C1
  | .cbar o => o.st.toNat * 2 + 0x800007C1
  | .trap o => o.k.toNat * 2048 + o.st.toNat * 2 + 0x7E1
  | .eret o => o.st.toNat * 2 + 0x200007E1
  | .chkerr o => o.d.toNat * 2048 + o.a.toNat * 131072 + o.b.toNat * 8388608 + o.st.toNat * 2 + 0x400007E1
  | .irgnGrp o => o.st.toNat * 2 + 0x600007E1
  | .irgnWg o => o.st.toNat * 2 + 0x60000FE1
  | .irge o => o.st.toNat * 2 + 0x800007E1
  | .bkpt o => o.st.toNat * 2 + 0xA00007E1
  | .tlbinv o => o.d.toNat * 2048 + o.a.toNat * 131072 + o.b.toNat * 8388608 + o.st.toNat * 2 + 0xC00007E1
  | .harvest o => o.d.toNat * 2048 + o.a.toNat * 131072 + o.b.toNat * 8388608 + o.st.toNat * 2 + 0xE00007E1
  | .pendingReplace _ _ => 0
  | .sleepExpiry _ => 0
  | .squallWindow _ => 0
  | .loadReturn _ => 0
  | .storePerformed _ => 0
  | .atomicResult _ => 0
  | .farAtomic _ => 0
  | .pageWalk _ _ _ => 0
  | .shareRequest _ => 0
  | .shareAck _ => 0
  | .missRequest _ _ _ => 0
  | .invalidation _ => 0
  | .invalidationAck _ => 0
  | .writeBack _ _ => 0
  | .hazeShareRequest _ => 0
  | .recall _ => 0
  | .recallAck _ => 0
  | .grant _ => 0
  | .hazeReturn _ _ => 0
  | .forcedDrain _ => 0
  | .drain _ => 0
  | .farAdd _ => 0
  | .lockRequest _ => 0
  | .link _ => 0
  | .lockHandover _ => 0
  | .releaseRequest _ => 0
  | .lockTimeout _ => 0
  | .commandAccept _ => 0
  | .arrival _ => 0
  | .matrixComplete _ => 0
  | .termJobStart _ _ => 0
  | .termJobEnd _ _ _ => 0
  | .packetDecode _ => 0
  | .workgroupStart => 0
  | .cloudStart => 0
  | .gridComplete _ => 0
  | .childGroupStart _ _ => 0
  | .idleRelease _ _ => 0
  | .pqcomp _ => 0
  | .pqsize _ => 0
  | .pqhead _ => 0
  | .dlsize _ => 0
  | .lqtail _ _ => 0
  | .lqsize _ _ => 0
  | .eqsize _ => 0
  | .eqhead _ => 0
  | .preempt _ => 0
  | .workgroupSave _ => 0
  | .resume _ => 0
  | .gnum _ _ => 0
  | .selfTest _ _ => 0
  | .coreRetire _ => 0
  | .logClear _ => 0
  | .arm _ _ => 0
  | .hostAccess _ _ _ => 0
  | .hostSnoop _ => 0
  | .backInvalidate _ => 0
  | .atomicopCompletion _ _ => 0
  | .atomicopTimeout _ => 0
  | .zeroLengthRead _ => 0
  | .inboundRequest _ _ _ => 0
  | .response _ => 0
  | .requestTimeout _ => 0
  | .peerWindow _ _ => 0
  | .linkDown _ => 0
  | .linkUp _ => 0
  | .reset => 0
  | .bootWatchdog => 0
  | .bootOk => 0
  | .clr => 0
  | .powerLoss => 0
  | .attcmd => 0
  | .pwrcap _ => 0
  | .clockStep => 0
  | .thermalTrip _ _ => 0
  | .registerWrite _ _ _ => 0
  | .illegalInstruction _ => 0
  | .tunifySwap _ => 0
  | .tlbinvCompletion _ => 0
  | .harvestCompletion _ => 0
  | .attestationReport => 0
  | .firmwareStartFailure _ => 0
  | .scrubber _ _ _ => 0
  | .flitCrcFailure _ _ _ => 0
  | .freeBufferSignal _ => 0
  | .hopForwarding _ _ => 0

/-- The halfwords of the unit of a well-formed instruction. -/
def encode (x : Instr) : List Nat :=
  match x with
  | .vmov16 o => [wordOf (.vmov16 o)]
  | .vaddI3216 o => [wordOf (.vaddI3216 o)]
  | .vsubI3216 o => [wordOf (.vsubI3216 o)]
  | .vand16 o => [wordOf (.vand16 o)]
  | .vor16 o => [wordOf (.vor16 o)]
  | .vxor16 o => [wordOf (.vxor16 o)]
  | .vshl16 o => [wordOf (.vshl16 o)]
  | .vshrN16 o => [wordOf (.vshrN16 o)]
  | .vshrI16 o => [wordOf (.vshrI16 o)]
  | .vmulLo16 o => [wordOf (.vmulLo16 o)]
  | .vaddF3216 o => [wordOf (.vaddF3216 o)]
  | .vsubF3216 o => [wordOf (.vsubF3216 o)]
  | .vmulF3216 o => [wordOf (.vmulF3216 o)]
  | .vmaxF3216 o => [wordOf (.vmaxF3216 o)]
  | .vminF3216 o => [wordOf (.vminF3216 o)]
  | .vmovs16 o => [wordOf (.vmovs16 o)]
  | .sadd o => halves (wordOf (.sadd o))
  | .ssub o => halves (wordOf (.ssub o))
  | .smul o => halves (wordOf (.smul o))
  | .smulhI o => halves (wordOf (.smulhI o))
  | .smulhN o => halves (wordOf (.smulhN o))
  | .saddc o => halves (wordOf (.saddc o))
  | .ssubb o => halves (wordOf (.ssubb o))
  | .sneg o => halves (wordOf (.sneg o))
  | .sand o => halves (wordOf (.sand o))
  | .sor o => halves (wordOf (.sor o))
  | .sxor o => halves (wordOf (.sxor o))
  | .sandn o => halves (wordOf (.sandn o))
  | .sshl o => halves (wordOf (.sshl o))
  | .sshrN o => halves (wordOf (.sshrN o))
  | .sshrI o => halves (wordOf (.sshrI o))
  | .srotl o => halves (wordOf (.srotl o))
  | .sminI o => halves (wordOf (.sminI o))
  | .smaxI o => halves (wordOf (.smaxI o))
  | .sminN o => halves (wordOf (.sminN o))
  | .smaxN o => halves (wordOf (.smaxN o))
  | .ssel o => halves (wordOf (.ssel o))
  | .spopc o => halves (wordOf (.spopc o))
  | .sclz o => halves (wordOf (.sclz o))
  | .sbrev o => halves (wordOf (.sbrev o))
  | .seq o => halves (wordOf (.seq o))
  | .sne o => halves (wordOf (.sne o))
  | .sltI o => halves (wordOf (.sltI o))
  | .sleI o => halves (wordOf (.sleI o))
  | .sltN o => halves (wordOf (.sltN o))
  | .sleN o => halves (wordOf (.sleN o))
  | .stst o => halves (wordOf (.stst o))
  | .saddi o => pfxWords o.limm none none ++ halves (wordOf (.saddi o))
  | .sandi o => pfxWords o.limm none none ++ halves (wordOf (.sandi o))
  | .sori o => pfxWords o.limm none none ++ halves (wordOf (.sori o))
  | .sxori o => pfxWords o.limm none none ++ halves (wordOf (.sxori o))
  | .sshli o => pfxWords o.limm none none ++ halves (wordOf (.sshli o))
  | .sshriN o => pfxWords o.limm none none ++ halves (wordOf (.sshriN o))
  | .sshriI o => pfxWords o.limm none none ++ halves (wordOf (.sshriI o))
  | .sli o => pfxWords o.limm none none ++ halves (wordOf (.sli o))
  | .scmpi o => pfxWords o.limm none none ++ halves (wordOf (.scmpi o))
  | .sbfeN o => halves (wordOf (.sbfeN o))
  | .sbfeI o => halves (wordOf (.sbfeI o))
  | .sbfi o => halves (wordOf (.sbfi o))
  | .sgetr o => halves (wordOf (.sgetr o))
  | .ssetr o => halves (wordOf (.ssetr o))
  | .srdlane o => halves (wordOf (.srdlane o))
  | .swrlane o => halves (wordOf (.swrlane o))
  | .sfirst o => halves (wordOf (.sfirst o))
  | .bra o => halves (wordOf (.bra o))
  | .bscc o => halves (wordOf (.bscc o))
  | .bnscc o => halves (wordOf (.bnscc o))
  | .bz o => halves (wordOf (.bz o))
  | .bnz o => halves (wordOf (.bnz o))
  | .call o => halves (wordOf (.call o))
  | .nop o => halves (wordOf (.nop o))
  | .ret o => halves (wordOf (.ret o))
  | .exit o => halves (wordOf (.exit o))
  | .yield o => halves (wordOf (.yield o))
  | .sleep o => halves (wordOf (.sleep o))
  | .elect o => halves (wordOf (.elect o))
  | .electw o => halves (wordOf (.electw o))
  | .jtab o => halves (wordOf (.jtab o))
  | .lpad o => halves (wordOf (.lpad o))
  | .sigchk o => halves (wordOf (.sigchk o))
  | .vif o => halves (wordOf (.vif o))
  | .velse o => halves (wordOf (.velse o))
  | .vend o => halves (wordOf (.vend o))
  | .vloop o => halves (wordOf (.vloop o))
  | .vbrk o => halves (wordOf (.vbrk o))
  | .vcont o => halves (wordOf (.vcont o))
  | .vendl o => halves (wordOf (.vendl o))
  | .wait o => halves (wordOf (.wait o))
  | .vaddI32 o => pfxWords none o.rt none ++ halves (wordOf (.vaddI32 o))
  | .vsubI32 o => pfxWords none o.rt none ++ halves (wordOf (.vsubI32 o))
  | .vmulLo o => pfxWords none o.rt none ++ halves (wordOf (.vmulLo o))
  | .vmulhI o => pfxWords none o.rt none ++ halves (wordOf (.vmulhI o))
  | .vmulhN o => pfxWords none o.rt none ++ halves (wordOf (.vmulhN o))
  | .vaddsI o => pfxWords none o.rt none ++ halves (wordOf (.vaddsI o))
  | .vsubsI o => pfxWords none o.rt none ++ halves (wordOf (.vsubsI o))
  | .vabsdI o => pfxWords none o.rt none ++ halves (wordOf (.vabsdI o))
  | .vand o => pfxWords none o.rt none ++ halves (wordOf (.vand o))
  | .vor o => pfxWords none o.rt none ++ halves (wordOf (.vor o))
  | .vxor o => pfxWords none o.rt none ++ halves (wordOf (.vxor o))
  | .vandn o => pfxWords none o.rt none ++ halves (wordOf (.vandn o))
  | .vshl o => pfxWords none o.rt none ++ halves (wordOf (.vshl o))
  | .vshrN o => pfxWords none o.rt none ++ halves (wordOf (.vshrN o))
  | .vshrI o => pfxWords none o.rt none ++ halves (wordOf (.vshrI o))
  | .vrotl o => pfxWords none o.rt none ++ halves (wordOf (.vrotl o))
  | .vminI o => pfxWords none o.rt none ++ halves (wordOf (.vminI o))
  | .vmaxI o => pfxWords none o.rt none ++ halves (wordOf (.vmaxI o))
  | .vminN o => pfxWords none o.rt none ++ halves (wordOf (.vminN o))
  | .vmaxN o => pfxWords none o.rt none ++ halves (wordOf (.vmaxN o))
  | .vpopc o => pfxWords none o.rt none ++ halves (wordOf (.vpopc o))
  | .vclz o => pfxWords none o.rt none ++ halves (wordOf (.vclz o))
  | .vbrev o => pfxWords none o.rt none ++ halves (wordOf (.vbrev o))
  | .vmov o => pfxWords none o.rt none ++ halves (wordOf (.vmov o))
  | .vcmp o => pfxWords none o.rt none ++ halves (wordOf (.vcmp o))
  | .vsel o => pfxWords none o.rt none ++ halves (wordOf (.vsel o))
  | .vbfeN o => pfxWords none o.rt none ++ halves (wordOf (.vbfeN o))
  | .vbfeI o => pfxWords none o.rt none ++ halves (wordOf (.vbfeI o))
  | .vbfi o => pfxWords none o.rt none ++ halves (wordOf (.vbfi o))
  | .vpermb o => pfxWords none o.rt none ++ halves (wordOf (.vpermb o))
  | .vaddi o => pfxWords o.limm o.rt none ++ halves (wordOf (.vaddi o))
  | .vandi o => pfxWords o.limm o.rt none ++ halves (wordOf (.vandi o))
  | .vori o => pfxWords o.limm o.rt none ++ halves (wordOf (.vori o))
  | .vxori o => pfxWords o.limm o.rt none ++ halves (wordOf (.vxori o))
  | .vshli o => pfxWords o.limm o.rt none ++ halves (wordOf (.vshli o))
  | .vshriN o => pfxWords o.limm o.rt none ++ halves (wordOf (.vshriN o))
  | .vshriI o => pfxWords o.limm o.rt none ++ halves (wordOf (.vshriI o))
  | .vli o => pfxWords o.limm o.rt none ++ halves (wordOf (.vli o))
  | .vcmpi o => pfxWords o.limm o.rt none ++ halves (wordOf (.vcmpi o))
  | .vaddS o => pfxWords none o.rt none ++ halves (wordOf (.vaddS o))
  | .vmulS o => pfxWords none o.rt none ++ halves (wordOf (.vmulS o))
  | .vandS o => pfxWords none o.rt none ++ halves (wordOf (.vandS o))
  | .vshlS o => pfxWords none o.rt none ++ halves (wordOf (.vshlS o))
  | .vshrSN o => pfxWords none o.rt none ++ halves (wordOf (.vshrSN o))
  | .vmovs o => pfxWords none o.rt none ++ halves (wordOf (.vmovs o))
  | .vmadS o => pfxWords none o.rt none ++ halves (wordOf (.vmadS o))
  | .vlaneid o => pfxWords none o.rt none ++ halves (wordOf (.vlaneid o))
  | .vaddI64 o => pfxWords none o.rt none ++ halves (wordOf (.vaddI64 o))
  | .vsubI64 o => pfxWords none o.rt none ++ halves (wordOf (.vsubI64 o))
  | .vshlI64 o => pfxWords none o.rt none ++ halves (wordOf (.vshlI64 o))
  | .vshrN64 o => pfxWords none o.rt none ++ halves (wordOf (.vshrN64 o))
  | .vshrI64 o => pfxWords none o.rt none ++ halves (wordOf (.vshrI64 o))
  | .vmulwI o => pfxWords none o.rt none ++ halves (wordOf (.vmulwI o))
  | .vmulwN o => pfxWords none o.rt none ++ halves (wordOf (.vmulwN o))
  | .vaddF32 o => pfxWords none o.rt none ++ halves (wordOf (.vaddF32 o))
  | .vsubF32 o => pfxWords none o.rt none ++ halves (wordOf (.vsubF32 o))
  | .vmulF32 o => pfxWords none o.rt none ++ halves (wordOf (.vmulF32 o))
  | .vfmaF32 o => pfxWords none o.rt none ++ halves (wordOf (.vfmaF32 o))
  | .vfmsF32 o => pfxWords none o.rt none ++ halves (wordOf (.vfmsF32 o))
  | .vfnmaF32 o => pfxWords none o.rt none ++ halves (wordOf (.vfnmaF32 o))
  | .vminF32 o => pfxWords none o.rt none ++ halves (wordOf (.vminF32 o))
  | .vmaxF32 o => pfxWords none o.rt none ++ halves (wordOf (.vmaxF32 o))
  | .vabsF32 o => pfxWords none o.rt none ++ halves (wordOf (.vabsF32 o))
  | .vnegF32 o => pfxWords none o.rt none ++ halves (wordOf (.vnegF32 o))
  | .vcopysign o => pfxWords none o.rt none ++ halves (wordOf (.vcopysign o))
  | .vclass o => pfxWords none o.rt none ++ halves (wordOf (.vclass o))
  | .vrint o => pfxWords none o.rt none ++ halves (wordOf (.vrint o))
  | .vfract o => pfxWords none o.rt none ++ halves (wordOf (.vfract o))
  | .vscalb o => pfxWords none o.rt none ++ halves (wordOf (.vscalb o))
  | .vgetexp o => pfxWords none o.rt none ++ halves (wordOf (.vgetexp o))
  | .vcmpf o => pfxWords none o.rt none ++ halves (wordOf (.vcmpf o))
  | .vaddBf2 o => pfxWords none o.rt none ++ halves (wordOf (.vaddBf2 o))
  | .vsubBf2 o => pfxWords none o.rt none ++ halves (wordOf (.vsubBf2 o))
  | .vmulBf2 o => pfxWords none o.rt none ++ halves (wordOf (.vmulBf2 o))
  | .vfmaBf2 o => pfxWords none o.rt none ++ halves (wordOf (.vfmaBf2 o))
  | .vminBf2 o => pfxWords none o.rt none ++ halves (wordOf (.vminBf2 o))
  | .vmaxBf2 o => pfxWords none o.rt none ++ halves (wordOf (.vmaxBf2 o))
  | .vdot2Bf o => pfxWords none o.rt none ++ halves (wordOf (.vdot2Bf o))
  | .vaddF32S o => pfxWords none o.rt none ++ halves (wordOf (.vaddF32S o))
  | .vmulF32S o => pfxWords none o.rt none ++ halves (wordOf (.vmulF32S o))
  | .vfmaF32S o => pfxWords none o.rt none ++ halves (wordOf (.vfmaF32S o))
  | .vminF32S o => pfxWords none o.rt none ++ halves (wordOf (.vminF32S o))
  | .vmaxF32S o => pfxWords none o.rt none ++ halves (wordOf (.vmaxF32S o))
  | .vrcpA o => pfxWords none o.rt none ++ halves (wordOf (.vrcpA o))
  | .vrsqA o => pfxWords none o.rt none ++ halves (wordOf (.vrsqA o))
  | .vex2A o => pfxWords none o.rt none ++ halves (wordOf (.vex2A o))
  | .vlg2A o => pfxWords none o.rt none ++ halves (wordOf (.vlg2A o))
  | .vsinA o => pfxWords none o.rt none ++ halves (wordOf (.vsinA o))
  | .vcosA o => pfxWords none o.rt none ++ halves (wordOf (.vcosA o))
  | .vtanhA o => pfxWords none o.rt none ++ halves (wordOf (.vtanhA o))
  | .vsqrt o => pfxWords none o.rt none ++ halves (wordOf (.vsqrt o))
  | .vdivF32 o => pfxWords none o.rt none ++ halves (wordOf (.vdivF32 o))
  | .vrand o => pfxWords none o.rt none ++ halves (wordOf (.vrand o))
  | .vseed o => pfxWords none o.rt none ++ halves (wordOf (.vseed o))
  | .vunpk o => pfxWords none o.rt none ++ halves (wordOf (.vunpk o))
  | .vunpk2 o => pfxWords none o.rt none ++ halves (wordOf (.vunpk2 o))
  | .vpack o => pfxWords none o.rt none ++ halves (wordOf (.vpack o))
  | .vpack2 o => pfxWords none o.rt none ++ halves (wordOf (.vpack2 o))
  | .vmxscale o => pfxWords none o.rt none ++ halves (wordOf (.vmxscale o))
  | .vscaleE8 o => pfxWords none o.rt none ++ halves (wordOf (.vscaleE8 o))
  | .vscaleE8Inv o => pfxWords none o.rt none ++ halves (wordOf (.vscaleE8Inv o))
  | .vcvt o => pfxWords none o.rt none ++ halves (wordOf (.vcvt o))
  | .pand o => halves (wordOf (.pand o))
  | .por o => halves (wordOf (.por o))
  | .pxor o => halves (wordOf (.pxor o))
  | .pandn o => halves (wordOf (.pandn o))
  | .pnot o => halves (wordOf (.pnot o))
  | .pmov o => halves (wordOf (.pmov o))
  | .pset o => halves (wordOf (.pset o))
  | .pclr o => halves (wordOf (.pclr o))
  | .ptos o => halves (wordOf (.ptos o))
  | .pfroms o => halves (wordOf (.pfroms o))
  | .pcnt o => halves (wordOf (.pcnt o))
  | .pany o => halves (wordOf (.pany o))
  | .pall o => halves (wordOf (.pall o))
  | .pfirst o => halves (wordOf (.pfirst o))
  | .vld o => pfxWords none o.rt o.mq ++ halves (wordOf (.vld o))
  | .vldLine o => pfxWords none o.rt o.mq ++ halves (wordOf (.vldLine o))
  | .vst o => pfxWords none o.rt o.mq ++ halves (wordOf (.vst o))
  | .vldNr o => pfxWords none o.rt o.mq ++ halves (wordOf (.vldNr o))
  | .vldi o => pfxWords none none o.mq ++ halves (wordOf (.vldi o))
  | .vsti o => pfxWords none none o.mq ++ halves (wordOf (.vsti o))
  | .sld o => pfxWords none none o.mq ++ halves (wordOf (.sld o))
  | .sst o => pfxWords none none o.mq ++ halves (wordOf (.sst o))
  | .fence o => halves (wordOf (.fence o))
  | .fenceOpr o => halves (wordOf (.fenceOpr o))
  | .fenceH o => halves (wordOf (.fenceH o))
  | .cinv o => halves (wordOf (.cinv o))
  | .cwb o => halves (wordOf (.cwb o))
  | .cflush o => halves (wordOf (.cflush o))
  | .vpref o => halves (wordOf (.vpref o))
  | .pagereq o => halves (wordOf (.pagereq o))
  | .llock o => halves (wordOf (.llock o))
  | .ltry o => halves (wordOf (.ltry o))
  | .lunlock o => halves (wordOf (.lunlock o))
  | .lquery o => halves (wordOf (.lquery o))
  | .lbreak o => halves (wordOf (.lbreak o))
  | .hdecl o => halves (wordOf (.hdecl o))
  | .hend o => halves (wordOf (.hend o))
  | .hdrain o => halves (wordOf (.hdrain o))
  | .hquery o => halves (wordOf (.hquery o))
  | .haddF32 o => pfxWords none o.rt o.mq ++ halves (wordOf (.haddF32 o))
  | .haddI32 o => pfxWords none o.rt o.mq ++ halves (wordOf (.haddI32 o))
  | .hldF32 o => pfxWords none o.rt o.mq ++ halves (wordOf (.hldF32 o))
  | .hldI32 o => pfxWords none o.rt o.mq ++ halves (wordOf (.hldI32 o))
  | .vatomAddI32 o => pfxWords none o.rt o.mq ++ halves (wordOf (.vatomAddI32 o))
  | .vatomAddF32 o => pfxWords none o.rt o.mq ++ halves (wordOf (.vatomAddF32 o))
  | .vatomAddBf2 o => pfxWords none o.rt o.mq ++ halves (wordOf (.vatomAddBf2 o))
  | .vatomMinI o => pfxWords none o.rt o.mq ++ halves (wordOf (.vatomMinI o))
  | .vatomMaxI o => pfxWords none o.rt o.mq ++ halves (wordOf (.vatomMaxI o))
  | .vatomAnd o => pfxWords none o.rt o.mq ++ halves (wordOf (.vatomAnd o))
  | .vatomOr o => pfxWords none o.rt o.mq ++ halves (wordOf (.vatomOr o))
  | .vatomXchg o => pfxWords none o.rt o.mq ++ halves (wordOf (.vatomXchg o))
  | .vatom2MinN o => pfxWords none o.rt o.mq ++ halves (wordOf (.vatom2MinN o))
  | .vatom2MaxN o => pfxWords none o.rt o.mq ++ halves (wordOf (.vatom2MaxN o))
  | .vatom2Xor o => pfxWords none o.rt o.mq ++ halves (wordOf (.vatom2Xor o))
  | .vatom2AddI64 o => pfxWords none o.rt o.mq ++ halves (wordOf (.vatom2AddI64 o))
  | .vatom2Xchg64 o => pfxWords none o.rt o.mq ++ halves (wordOf (.vatom2Xchg64 o))
  | .vatom2MinF32 o => pfxWords none o.rt o.mq ++ halves (wordOf (.vatom2MinF32 o))
  | .vatom2MaxF32 o => pfxWords none o.rt o.mq ++ halves (wordOf (.vatom2MaxF32 o))
  | .vcas32 o => pfxWords none o.rt o.mq ++ halves (wordOf (.vcas32 o))
  | .vcas64 o => pfxWords none o.rt o.mq ++ halves (wordOf (.vcas64 o))
  | .vcas128 o => pfxWords none o.rt o.mq ++ halves (wordOf (.vcas128 o))
  | .satomAddI32 o => pfxWords none none o.mq ++ halves (wordOf (.satomAddI32 o))
  | .satomXchg o => pfxWords none none o.mq ++ halves (wordOf (.satomXchg o))
  | .satomCas32 o => pfxWords none none o.mq ++ halves (wordOf (.satomCas32 o))
  | .satomCas64 o => pfxWords none none o.mq ++ halves (wordOf (.satomCas64 o))
  | .satomCas128 o => pfxWords none none o.mq ++ halves (wordOf (.satomCas128 o))
  | .satomAddI64 o => pfxWords none none o.mq ++ halves (wordOf (.satomAddI64 o))
  | .satomOr o => pfxWords none none o.mq ++ halves (wordOf (.satomOr o))
  | .satomAnd o => pfxWords none none o.mq ++ halves (wordOf (.satomAnd o))
  | .cpy o => halves (wordOf (.cpy o))
  | .cpy2 o => halves (wordOf (.cpy2 o))
  | .cpyg o => halves (wordOf (.cpyg o))
  | .cpyz o => halves (wordOf (.cpyz o))
  | .cpyw o => halves (wordOf (.cpyw o))
  | .decJpeg o => halves (wordOf (.decJpeg o))
  | .decG4 o => halves (wordOf (.decG4 o))
  | .decPng o => halves (wordOf (.decPng o))
  | .decQuery o => halves (wordOf (.decQuery o))
  | .swset o => halves (wordOf (.swset o))
  | .swarr o => halves (wordOf (.swarr o))
  | .swwait o => halves (wordOf (.swwait o))
  | .swread o => halves (wordOf (.swread o))
  | .mmarJ o => halves (wordOf (.mmarJ o))
  | .mmarS o => halves (wordOf (.mmarS o))
  | .mmatT o => halves (wordOf (.mmatT o))
  | .mmatC o => halves (wordOf (.mmatC o))
  | .mmatTz o => halves (wordOf (.mmatTz o))
  | .mmatCz o => halves (wordOf (.mmatCz o))
  | .mzero o => halves (wordOf (.mzero o))
  | .mquant o => halves (wordOf (.mquant o))
  | .mstat o => halves (wordOf (.mstat o))
  | .tderef o => halves (wordOf (.tderef o))
  | .ttag o => halves (wordOf (.ttag o))
  | .tunifyN o => halves (wordOf (.tunifyN o))
  | .tunifyOc o => halves (wordOf (.tunifyOc o))
  | .tbind o => halves (wordOf (.tbind o))
  | .tmatch o => halves (wordOf (.tmatch o))
  | .tchoice o => halves (wordOf (.tchoice o))
  | .tfail o => halves (wordOf (.tfail o))
  | .tcut o => halves (wordOf (.tcut o))
  | .tpopcp o => halves (wordOf (.tpopcp o))
  | .ttrailtop o => halves (wordOf (.ttrailtop o))
  | .tfork o => halves (wordOf (.tfork o))
  | .tcommit o => halves (wordOf (.tcommit o))
  | .tjoin o => halves (wordOf (.tjoin o))
  | .launch o => halves (wordOf (.launch o))
  | .spawn o => halves (wordOf (.spawn o))
  | .trigger o => halves (wordOf (.trigger o))
  | .bar o => halves (wordOf (.bar o))
  | .cbar o => halves (wordOf (.cbar o))
  | .trap o => halves (wordOf (.trap o))
  | .eret o => halves (wordOf (.eret o))
  | .chkerr o => halves (wordOf (.chkerr o))
  | .irgnGrp o => halves (wordOf (.irgnGrp o))
  | .irgnWg o => halves (wordOf (.irgnWg o))
  | .irge o => halves (wordOf (.irge o))
  | .bkpt o => halves (wordOf (.bkpt o))
  | .tlbinv o => halves (wordOf (.tlbinv o))
  | .harvest o => halves (wordOf (.harvest o))
  | .pendingReplace _ _ => []
  | .sleepExpiry _ => []
  | .squallWindow _ => []
  | .loadReturn _ => []
  | .storePerformed _ => []
  | .atomicResult _ => []
  | .farAtomic _ => []
  | .pageWalk _ _ _ => []
  | .shareRequest _ => []
  | .shareAck _ => []
  | .missRequest _ _ _ => []
  | .invalidation _ => []
  | .invalidationAck _ => []
  | .writeBack _ _ => []
  | .hazeShareRequest _ => []
  | .recall _ => []
  | .recallAck _ => []
  | .grant _ => []
  | .hazeReturn _ _ => []
  | .forcedDrain _ => []
  | .drain _ => []
  | .farAdd _ => []
  | .lockRequest _ => []
  | .link _ => []
  | .lockHandover _ => []
  | .releaseRequest _ => []
  | .lockTimeout _ => []
  | .commandAccept _ => []
  | .arrival _ => []
  | .matrixComplete _ => []
  | .termJobStart _ _ => []
  | .termJobEnd _ _ _ => []
  | .packetDecode _ => []
  | .workgroupStart => []
  | .cloudStart => []
  | .gridComplete _ => []
  | .childGroupStart _ _ => []
  | .idleRelease _ _ => []
  | .pqcomp _ => []
  | .pqsize _ => []
  | .pqhead _ => []
  | .dlsize _ => []
  | .lqtail _ _ => []
  | .lqsize _ _ => []
  | .eqsize _ => []
  | .eqhead _ => []
  | .preempt _ => []
  | .workgroupSave _ => []
  | .resume _ => []
  | .gnum _ _ => []
  | .selfTest _ _ => []
  | .coreRetire _ => []
  | .logClear _ => []
  | .arm _ _ => []
  | .hostAccess _ _ _ => []
  | .hostSnoop _ => []
  | .backInvalidate _ => []
  | .atomicopCompletion _ _ => []
  | .atomicopTimeout _ => []
  | .zeroLengthRead _ => []
  | .inboundRequest _ _ _ => []
  | .response _ => []
  | .requestTimeout _ => []
  | .peerWindow _ _ => []
  | .linkDown _ => []
  | .linkUp _ => []
  | .reset => []
  | .bootWatchdog => []
  | .bootOk => []
  | .clr => []
  | .powerLoss => []
  | .attcmd => []
  | .pwrcap _ => []
  | .clockStep => []
  | .thermalTrip _ _ => []
  | .registerWrite _ _ _ => []
  | .illegalInstruction _ => []
  | .tunifySwap _ => []
  | .tlbinvCompletion _ => []
  | .harvestCompletion _ => []
  | .attestationReport => []
  | .firmwareStartFailure _ => []
  | .scrubber _ _ _ => []
  | .flitCrcFailure _ _ _ => []
  | .freeBufferSignal _ => []
  | .hopForwarding _ _ => []

/-- R28: the bytes a unit occupies; an event occupies none. -/
def Instr.bytes (x : Instr) : Nat := 2 * (encode x).length

end Sys2Proof

end
end

