-- ==== Sys2Proof/Config.lean ====
section
/-! DEFINITION. What an implementation fixes, and the free values: opaque constants with no body, so that no proof can
see what they are. -/

namespace Sys2Proof.Config

/-- A fresh byte for storage whose content the spec calls undefined (R5), by a counter the state holds. -/
opaque freeByte : Nat → Byte
/-- A fresh word for a value the spec leaves open, by the same counter. -/
opaque freeWord : Nat → Word
/-- The bit by which the device chooses, lane by lane, between two racing writes (R60). -/
opaque freeMask : Nat → Mask
/-- What a register of a matrix operation in flight reads as (R194): clock, register, lane. -/
opaque heldWord : Nat → Nat → Nat → Word
/-- What an approximate function (R139, R140) delivers before the bound is checked: code of the function, operand. -/
opaque approx : Nat → Word → Word
/-- What host MMIO returns for a load (R399, R404): host address and a counter. -/
opaque mmioByte : Nat → Nat → Byte
/-- Whether the device checks an Ed25519 signature by the equation itself and not by its multiple by 8 (R418), both of which RFC 8032 permits
(DESIGN CHOICE, log entry 35). -/
opaque edStrict : Bool
/-- The secret of the identity key pair, derived from the fused secret and a measurement (R422) (DESIGN CHOICE, log entry 35). -/
opaque identitySecret : List Byte → List Byte
/-- By how much a sample of a decoded block differs from the exact one (R307): a function of the stream and the sample, of which the model takes
the rest modulo 3 (DESIGN CHOICE, log entry 34). -/
opaque idctError : List Nat → Nat → Nat
/-- Whether an image whose channels a stream does not give counts as grey under mode 0 (R305): a function of the stream's bytes and the command's
parameters (DESIGN CHOICE, log entry 34). -/
opaque greyUnparsed : List Nat → List Nat → Bool
/-- The port hash of R410 over source device, source core and destination. -/
opaque routeHash : Nat → Nat → Nat → Nat
/-- R7: whether station S1, and not S0, carries the traffic of a stop to the other ring pair of its cluster: the stop's position fixes it. -/
opaque bridgeS1 : Nat → Bool
/-- How far the count of core clocks of a core is ahead of core 0's reset in the model's clock: a core counts from its own reset (R2, R74). -/
opaque coreStart : Nat → Nat
/-- Spare rows or ways of an array at manufacture (R392, SPARE). -/
opaque spareRows : Nat → Nat
/-- R395: whether a line of a slice or of a memory-side cache holds bytes that have not gone on to memory. -/
opaque lineDirty : Nat → Nat → Bool

end Sys2Proof.Config
end

