-- ==== Sys2Proof/Machine/Codec.lean ====
section
/-! DEFINITION. What the decoders share (R305 to R308): a decoded picture, the channel mode, and prefix codes. The formats are those of the
standards R307 names (PRESUMED, log entry 34). -/

namespace Sys2Proof.Machine

/-- What a decoder finds: a status of R306 (0, 2 or 3), the size where it was parsed and 0 where it was not, the channels where they are
known, and the samples row by row. -/
structure Picture where
  status : Nat
  w : Nat
  h : Nat
  ch : Option Nat
  samples : List Nat
  deriving DecidableEq, Repr

/-- R306: a stream that gives no picture. -/
def Picture.bad (status w h : Nat) (ch : Option Nat) : Picture := ⟨status, w, h, ch, []⟩
/-- R305, R307: the channels of an image coded with n, after the channel mode. -/
def modeChannels (mode n : Nat) : Nat := if mode = 1 then 1 else if mode = 2 then 3 else n
/-- R307: the channels that are known before the stream is. -/
def modeKnown (mode : Nat) : Option Nat := if mode = 1 then some 1 else if mode = 2 then some 3 else none
/-- R307: a grey sample after the channel mode. -/
def greySample (mode g : Nat) : List Nat := if mode = 2 then [g, g, g] else [g]

/-- n / d rounded to nearest, ties to even. -/
def roundEven (n : Int) (d : Nat) : Int :=
  let q := n / (d : Int)
  let r := n % (d : Int)
  if 2 * r < d then q else if (d : Int) < 2 * r then q + 1 else if q % 2 = 0 then q else q + 1
/-- Clamped to 0 to 255. -/
def clamp8 (x : Int) : Nat := min x.toNat 255

/-- The bits of a byte, least significant first. -/
def byteBits (x : Nat) : List Bool := (List.range 8).map fun i => x.testBit i
/-- The bits of bytes, each least significant first. -/
def bitsLow (bs : List Nat) : List Bool := bs.flatMap byteBits
/-- The bits of bytes, each most significant first. -/
def bitsHigh (bs : List Nat) : List Bool := bs.flatMap fun b => (byteBits b).reverse
/-- Takes n bits as a number whose first bit is its lowest. -/
def takeLow : Nat → List Bool → Option (Nat × List Bool)
  | 0, bs => some (0, bs)
  | _ + 1, [] => none
  | n + 1, b :: bs => (takeLow n bs).map fun r => (b.toNat + 2 * r.1, r.2)
/-- Takes n bits as a number whose first bit is its highest. -/
def takeHigh : Nat → Nat → List Bool → Option (Nat × List Bool)
  | 0, x, bs => some (x, bs)
  | _ + 1, _, [] => none
  | n + 1, x, b :: bs => takeHigh n (2 * x + b.toNat) bs
/-- A number of bytes, the highest first. -/
def bigEndian (bs : List Nat) : Nat := bs.foldl (fun x b => 256 * x + b) 0

/-- A canonical prefix code: how many codes have 1, 2, ... bits, and the symbols in the order of their codes. -/
structure BitCode where
  counts : List Nat
  syms : List Nat
  deriving DecidableEq, Repr

/-- Reads a symbol: the code so far, the first code of the length at hand. -/
def codeRead : List Nat → List Nat → Nat → Nat → List Bool → Option (Nat × List Bool)
  | [], _, _, _, _ => none
  | _ :: _, _, _, _, [] => none
  | n :: ns, syms, code, first, b :: bs =>
    let c := 2 * code + b.toNat
    if c < first + n then (syms[c - first]?).map fun x => (x, bs)
    else codeRead ns (syms.drop n) c (2 * (first + n)) bs
/-- Reads a symbol of a code. -/
def BitCode.read (c : BitCode) (bs : List Bool) : Option (Nat × List Bool) := codeRead c.counts c.syms 0 0 bs
/-- How many codes of the greatest length are left over; none when there are more codes than bits allow. -/
def BitCode.left (c : BitCode) : Option Nat :=
  c.counts.foldl (fun l n => l.bind fun k => if n ≤ 2 * k then some (2 * k - n) else none) (some 1)
/-- The code in which symbol i has the length given, 0 where it has none. -/
def BitCode.ofLengths (ls : List Nat) : BitCode :=
  ⟨(List.range 15).map fun k => ls.countP (· == k + 1),
   (List.range 15).flatMap fun k => (List.range ls.length).filter fun i => ls.getD i 0 == k + 1⟩

end Sys2Proof.Machine
end

