-- ==== Sys2Proof/Machine/Fax.lean ====
section
/-! DEFINITION. DEC.G4 (R307): ITU-T T.6 with the width given (PRESUMED, log entry 34). -/

namespace Sys2Proof.Machine

/-- T.6: the codes of white runs, as bits and value: 0 to 63, then 64 to 1,728 by 64. -/
def faxWhite : List (Nat × Nat) :=
  [(8, 53), (6, 7), (4, 7), (4, 8), (4, 11), (4, 12), (4, 14), (4, 15), (5, 19), (5, 20), (5, 7), (5, 8), (6, 8), (6, 3), (6, 52), (6, 53)]
  ++ [(6, 42), (6, 43), (7, 39), (7, 12), (7, 8), (7, 23), (7, 3), (7, 4), (7, 40), (7, 43), (7, 19), (7, 36), (7, 24), (8, 2), (8, 3), (8, 26)]
  ++ [(8, 27), (8, 18), (8, 19), (8, 20), (8, 21), (8, 22), (8, 23), (8, 40), (8, 41), (8, 42), (8, 43), (8, 44), (8, 45), (8, 4), (8, 5), (8, 10)]
  ++ [(8, 11), (8, 82), (8, 83), (8, 84), (8, 85), (8, 36), (8, 37), (8, 88), (8, 89), (8, 90), (8, 91), (8, 74), (8, 75), (8, 50), (8, 51), (8, 52)]
  ++ [(5, 27), (5, 18), (6, 23), (7, 55), (8, 54), (8, 55), (8, 100), (8, 101), (8, 104), (8, 103), (9, 204), (9, 205), (9, 210), (9, 211), (9, 212), (9, 213)]
  ++ [(9, 214), (9, 215), (9, 216), (9, 217), (9, 218), (9, 219), (9, 152), (9, 153), (9, 154), (6, 24), (9, 155)]
/-- T.6: the codes of black runs. -/
def faxBlack : List (Nat × Nat) :=
  [(10, 55), (3, 2), (2, 3), (2, 2), (3, 3), (4, 3), (4, 2), (5, 3), (6, 5), (6, 4), (7, 4), (7, 5), (7, 7), (8, 4), (8, 7), (9, 24)]
  ++ [(10, 23), (10, 24), (10, 8), (11, 103), (11, 104), (11, 108), (11, 55), (11, 40), (11, 23), (11, 24), (12, 202), (12, 203), (12, 204), (12, 205), (12, 104), (12, 105)]
  ++ [(12, 106), (12, 107), (12, 210), (12, 211), (12, 212), (12, 213), (12, 214), (12, 215), (12, 108), (12, 109), (12, 218), (12, 219), (12, 84), (12, 85), (12, 86), (12, 87)]
  ++ [(12, 100), (12, 101), (12, 82), (12, 83), (12, 36), (12, 55), (12, 56), (12, 39), (12, 40), (12, 88), (12, 89), (12, 43), (12, 44), (12, 90), (12, 102), (12, 103)]
  ++ [(10, 15), (12, 200), (12, 201), (12, 91), (12, 51), (12, 52), (12, 53), (13, 108), (13, 109), (13, 74), (13, 75), (13, 76), (13, 77), (13, 114), (13, 115), (13, 116)]
  ++ [(13, 117), (13, 118), (13, 119), (13, 82), (13, 83), (13, 84), (13, 85), (13, 90), (13, 91), (13, 100), (13, 101)]
/-- T.6: the codes of runs of 1,792 to 2,560 by 64, of either colour. -/
def faxLong : List (Nat × Nat) :=
  [(11, 8), (11, 12), (11, 13), (12, 18), (12, 19), (12, 20), (12, 21), (12, 22), (12, 23), (12, 28), (12, 29), (12, 30), (12, 31)]
/-- The bits begin with a code. -/
def startsWith (e : Nat × Nat) (bs : List Bool) : Option (List Bool) :=
  match takeHigh e.1 0 bs with
  | some (x, r) => if x = e.2 then some r else none
  | none => none
/-- The first code of a table that the bits begin with: its position, and what follows. -/
def faxFind (t : List (Nat × Nat)) (bs : List Bool) : Option (Nat × List Bool) :=
  ((List.range t.length).zip t).findSome? fun p => (startsWith p.2 bs).map fun r => (p.1, r)
/-- A run of a colour, by fuel: codes of 64 and more, then one below 64. -/
def faxRun (black : Bool) : Nat → Nat → List Bool → Option (Nat × List Bool)
  | 0, _, _ => none
  | n + 1, len, bs =>
    match faxFind (if black then faxBlack else faxWhite) bs with
    | some (i, r) => if i < 64 then some (len + i, r) else faxRun black n (len + 64 * (i - 63)) r
    | none =>
      match faxFind faxLong bs with
      | some (i, r) => faxRun black n (len + 1792 + 64 * i) r
      | none => none
/-- The element at p of a row differs from the one before it; a row begins behind a white one. -/
def changes (row : List Bool) (p : Nat) : Bool := row.getD p false != (if p = 0 then false else row.getD (p - 1) false)
/-- The first place from p on, below w, that passes a test; w where there is none. -/
def firstPlace (w p : Nat) (f : Nat → Bool) : Nat := ((List.range (w - p)).map (p + ·)).find? f |>.getD w
/-- The codes of the vertical mode with their distances. -/
def faxVertical : List ((Nat × Nat) × Int) :=
  [((1, 1), 0), ((3, 3), 1), ((6, 3), 2), ((7, 3), 3), ((3, 2), -1), ((6, 2), -2), ((7, 2), -3)]
/-- One row, by fuel: the row above, the colour at hand, what is decoded of the row (newest first; nothing of it is a start before
its first element). The error is a status of R306. -/
def faxRow (w : Nat) (above : List Bool) : Nat → Bool → Bool → List Bool → List Bool → Except Nat (List Bool × List Bool)
  | 0, _, _, _, _ => .error 2
  | n + 1, start, black, cur, bs =>
    let a0 := cur.length
    if !start && a0 = w then .ok (cur.reverse, bs)
    else
      let b1 := firstPlace w (if start then 0 else a0 + 1) fun p => changes above p && above.getD p false != black
      match startsWith (4, 1) bs with
      | some r =>
        let b2 := firstPlace w (b1 + 1) (changes above)
        faxRow w above n false black (List.replicate (b2 - a0) black ++ cur) r
      | none =>
        match startsWith (3, 1) bs with
        | some r =>
          match faxRun black (r.length + 1) 0 r with
          | none => .error 2
          | some (m, r) =>
            match faxRun (!black) (r.length + 1) 0 r with
            | none => .error 2
            | some (k, r) =>
              if w < a0 + m + k then .error 2
              else faxRow w above n false black (List.replicate k (!black) ++ (List.replicate m black ++ cur)) r
        | none =>
          match faxVertical.findSome? fun v => (startsWith v.1 bs).map fun r => (v.2, r) with
          | some (d, r) =>
            let a1 := (b1 : Int) + d
            if a1 < a0 ∨ (w : Int) < a1 ∨ (!start ∧ a1 = a0) then .error 2
            else faxRow w above n false (!black) (List.replicate (a1.toNat - a0) black ++ cur) r
          | none => .error (if (startsWith (7, 1) bs).isSome then 3 else 2)
/-- The rows, by fuel, until EOFB or the end of the stream; less than a byte of zeros behind the last row fills its byte. -/
def faxRows (w : Nat) : Nat → List Bool → List Bool → List (List Bool) → Except Nat (List (List Bool))
  | 0, _, _, _ => .error 2
  | n + 1, above, bs, acc =>
    if (startsWith (24, 0x1001) bs).isSome || (decide (bs.length < 8) && bs.all (!·)) then .ok acc.reverse
    else if 65535 ≤ acc.length then .error 3
    else
      match faxRow w above (bs.length + 1) true false [] bs with
      | .error e => .error e
      | .ok (row, r) => faxRows w n row r (row :: acc)
/-- R307: DEC.G4: white is 255 and black is 0. -/
@[irreducible] def decodeFax (mode w : Nat) (bs : List Nat) : Picture :=
  let ch := modeChannels mode 1
  match faxRows w (8 * bs.length + 1) (List.replicate w false) (bitsHigh bs) [] with
  | .error e => .bad e w 0 (some ch)
  | .ok rows => ⟨0, w, rows.length, some ch, rows.flatMap fun r => r.flatMap fun b => greySample mode (if b then 0 else 255)⟩

end Sys2Proof.Machine
end

