-- ==== Sys2Proof/Machine/Jpeg.lean ====
section
/-! DEFINITION. DEC.JPEG (R307): sequential Huffman streams of ITU-T T.81, and their colours by ITU-T T.871 (PRESUMED, log entry 34). -/

namespace Sys2Proof.Machine

/-- A component of a frame: its number, sampling factors and quantisation table. -/
structure JComp where
  id : Nat
  hs : Nat
  vs : Nat
  tq : Nat
  deriving DecidableEq, Repr

/-- What a stream has defined: tables, the restart interval, the frame, and the blocks decoded, by component and number. -/
structure Jpeg where
  quant : List (Nat × List Nat)
  dc : List (Nat × BitCode)
  ac : List (Nat × BitCode)
  interval : Nat
  w : Nat
  h : Nat
  comps : List JComp
  scanned : List Nat
  blocks : List ((Nat × Nat) × List Int)
  deriving DecidableEq, Repr

def Jpeg.empty : Jpeg := ⟨[], [], [], 0, 0, 0, [], [], []⟩
/-- The entry of a table. -/
def tableAt {α : Type} (t : List (Nat × α)) (k : Nat) : Option α := (t.find? fun e => e.1 == k).map (·.2)
def Jpeg.hMax (j : Jpeg) : Nat := j.comps.foldl (fun m c => max m c.hs) 1
def Jpeg.vMax (j : Jpeg) : Nat := j.comps.foldl (fun m c => max m c.vs) 1
/-- n / d rounded up. -/
def ceilDiv (n d : Nat) : Nat := (n + d - 1) / d
/-- The units of an interleaved scan across and down. -/
def Jpeg.across (j : Jpeg) : Nat := ceilDiv j.w (8 * j.hMax)
def Jpeg.down (j : Jpeg) : Nat := ceilDiv j.h (8 * j.vMax)

/-- T.81, A.3.6: the zigzag order. -/
def zigzag : List Nat :=
  [0, 1, 8, 16, 9, 2, 3, 10, 17, 24, 32, 25, 18, 11, 4, 5] ++ [12, 19, 26, 33, 40, 48, 41, 34, 27, 20, 13, 6, 7, 14, 21, 28]
  ++ [35, 42, 49, 56, 57, 50, 43, 36, 29, 22, 15, 23, 30, 37, 44, 51] ++ [58, 59, 52, 45, 38, 31, 39, 46, 53, 60, 61, 54, 47, 55, 62, 63]

/-! ### Table segments (T.81, B.2) -/

/-- B.2.4.1: DQT, by fuel. -/
def jpegQuant : Nat → List Nat → Jpeg → Option Jpeg
  | _, [], j => some j
  | 0, _, _ => none
  | n + 1, b :: bs, j => if 3 < b ∨ bs.length < 64 then none else jpegQuant n (bs.drop 64) { j with quant := (b, bs.take 64) :: j.quant }
/-- B.2.4.2: DHT, by fuel. -/
def jpegCodes : Nat → List Nat → Jpeg → Option Jpeg
  | _, [], j => some j
  | 0, _, _ => none
  | n + 1, b :: bs, j =>
    let counts := bs.take 16
    let code : BitCode := ⟨counts, (bs.drop 16).take counts.sum⟩
    if 3 < b % 16 ∨ 1 < b / 16 ∨ bs.length < 16 + counts.sum ∨ 256 < counts.sum ∨ code.left = none then none
    else jpegCodes n (bs.drop (16 + counts.sum)) (if b / 16 = 0 then { j with dc := (b % 16, code) :: j.dc } else { j with ac := (b % 16, code) :: j.ac })
/-- The components of a frame header. -/
def jpegComps : List Nat → List JComp
  | c :: f :: q :: rest => ⟨c, f / 16, f % 16, q⟩ :: jpegComps rest
  | _ => []
/-- B.2.2, R307: SOF0 and SOF1. The error is a status of R306. -/
def jpegFrame (d : List Nat) (j : Jpeg) : Except Nat Jpeg :=
  let n := d.getD 5 0
  let comps := jpegComps (d.drop 6)
  let t := { j with h := bigEndian ((d.drop 1).take 2), w := bigEndian ((d.drop 3).take 2), comps := comps }
  if j.comps ≠ [] ∨ d.length ≠ 6 + 3 * n ∨ t.w = 0 ∨ n = 0 then .error 2
  else if d.getD 0 0 ≠ 8 then .error (if d.getD 0 0 = 12 then 3 else 2)
  else if t.h = 0 ∨ (n ≠ 1 ∧ n ≠ 3) then .error 3
  else if (comps.any fun c => decide (c.hs = 0 ∨ 4 < c.hs ∨ c.vs = 0 ∨ 4 < c.vs ∨ 3 < c.tq)) || !decide (comps.map (·.id)).Nodup then .error 2
  else if comps.any fun c => decide (2 < c.hs ∨ 2 < c.vs) then .error 3
  else .ok t

/-! ### Scans (T.81, A.2, B.2.3, F.2) -/

/-- Entropy-coded bytes up to the next marker: the intervals between restarts (newest first), the numbers of the restarts, what follows. -/
def jpegBytes : List Nat → List Nat → List (List Nat) → List Nat → List (List Nat) × List Nat × List Nat
  | [], cur, done, rst => ((cur.reverse :: done).reverse, rst.reverse, [])
  | [x], cur, done, rst => if x = 255 then ((cur.reverse :: done).reverse, rst.reverse, [x]) else (((x :: cur).reverse :: done).reverse, rst.reverse, [])
  | x :: y :: bs, cur, done, rst =>
    if x ≠ 255 then jpegBytes (y :: bs) (x :: cur) done rst
    else if y = 0 then jpegBytes bs (x :: cur) done rst
    else if y = 255 then jpegBytes (y :: bs) cur done rst
    else if 208 ≤ y ∧ y < 216 then jpegBytes bs [] (cur.reverse :: done) ((y - 208) :: rst)
    else ((cur.reverse :: done).reverse, rst.reverse, x :: y :: bs)
/-- F.2.2.1: the value of t extra bits. -/
def jpegExtend (v t : Nat) : Int := if t = 0 then 0 else if v < 2 ^ (t - 1) then (v : Int) - (2 ^ t - 1 : Nat) else v
/-- F.2.2.2: the coefficients after the first, by fuel; left of them are missing. -/
def jpegAc (c : BitCode) : Nat → Nat → List Bool → Option (List Int × List Bool)
  | _, 0, bs => some ([], bs)
  | 0, _, _ => none
  | n + 1, left, bs => do
    let x ← c.read bs
    let r := x.1 / 16
    let t := x.1 % 16
    if t = 0 then
      if r = 0 then some (List.replicate left 0, x.2)
      else if r = 15 ∧ 16 ≤ left then (jpegAc c n (left - 16) x.2).map fun y => (List.replicate 16 0 ++ y.1, y.2)
      else none
    else if left < r + 1 ∨ 10 < t then none
    else do
      let v ← takeHigh t 0 x.2
      (jpegAc c n (left - r - 1) v.2).map fun y => (List.replicate r 0 ++ (jpegExtend v.1 t :: y.1), y.2)
/-- F.2.1.2: a block in zigzag order, after the prediction of its first coefficient. -/
def jpegBlock (dc ac : BitCode) (pred : Int) (bs : List Bool) : Option (List Int × List Bool) := do
  let t ← dc.read bs
  if 11 < t.1 then none
  else do
    let v ← takeHigh t.1 0 t.2
    let r ← jpegAc ac 64 63 v.2
    some ((pred + jpegExtend v.1 t.1) :: r.1, r.2)
/-- A component of a scan: its place in the frame and its codes. -/
structure JScan where
  comp : Nat
  dc : BitCode
  ac : BitCode
  deriving DecidableEq, Repr
/-- A.2: the blocks of unit m of a scan: which of the scan's components, and the block's number. -/
def Jpeg.unitBlocks (j : Jpeg) (sc : List JScan) (m : Nat) : List (Nat × Nat) :=
  match sc with
  | [s] =>
    let c := j.comps.getD s.comp ⟨0, 1, 1, 0⟩
    let n := ceilDiv (ceilDiv (j.w * c.hs) j.hMax) 8
    [(0, m / n * (j.across * c.hs) + m % n)]
  | _ =>
    (List.range sc.length).flatMap fun i =>
      let c := j.comps.getD ((sc.map (·.comp)).getD i 0) ⟨0, 1, 1, 0⟩
      (List.range c.vs).flatMap fun v => (List.range c.hs).map fun u =>
        (i, (m / j.across * c.vs + v) * (j.across * c.hs) + m % j.across * c.hs + u)
/-- A.2: how many units a scan has. -/
def Jpeg.unitCount (j : Jpeg) (sc : List JScan) : Nat :=
  match sc with
  | [s] =>
    let c := j.comps.getD s.comp ⟨0, 1, 1, 0⟩
    ceilDiv (ceilDiv (j.w * c.hs) j.hMax) 8 * ceilDiv (ceilDiv (j.h * c.vs) j.vMax) 8
  | _ => j.across * j.down
/-- The blocks of an interval: the predictions by component of the scan, what is decoded (newest first). -/
def jpegUnits (sc : List JScan) : List (Nat × Nat) → List Int → List Bool → List ((Nat × Nat) × List Int) → Option (List ((Nat × Nat) × List Int))
  | [], _, _, acc => some acc
  | (i, k) :: us, preds, bs, acc => do
    let s ← sc[i]?
    let r ← jpegBlock s.dc s.ac (preds.getD i 0) bs
    jpegUnits sc us (preds.set i (r.1.headD 0)) r.2 (((s.comp, k), r.1) :: acc)
/-- The components a scan header names. -/
def Jpeg.scanOf (j : Jpeg) : Nat → List Nat → Option (List JScan)
  | 0, _ => some []
  | n + 1, c :: t :: rest => do
    let k ← j.comps.findIdx? fun x => x.id == c
    let dc ← tableAt j.dc (t / 16)
    let ac ← tableAt j.ac (t % 16)
    let more ← j.scanOf n rest
    some (⟨k, dc, ac⟩ :: more)
  | _ + 1, _ => none
/-- B.2.3: a scan: its header, and the bytes behind it; what follows. -/
def jpegScan (d bs : List Nat) (j : Jpeg) : Option (Jpeg × List Nat) := do
  let n := d.headD 0
  let sc ← j.scanOf n (d.drop 1)
  let size := (sc.map fun s => let c := j.comps.getD s.comp ⟨0, 1, 1, 0⟩; c.hs * c.vs).sum
  if n = 0 ∨ d.length ≠ 4 + 2 * n ∨ d.drop (1 + 2 * n) ≠ [0, 63, 0] ∨ (1 < n ∧ 10 < size) ∨ !decide (sc.map (·.comp)).Nodup
      ∨ (sc.any fun s => j.scanned.contains s.comp || (tableAt j.quant (j.comps.getD s.comp ⟨0, 1, 1, 0⟩).tq).isNone) then none
  else do
    let (parts, rst, rest) := jpegBytes bs [] [] []
    let total := j.unitCount sc
    let step := if j.interval = 0 then total else j.interval
    if parts.length ≠ ceilDiv total step ∨ rst ≠ (List.range rst.length).map (· % 8) then none
    else do
      let blocks ← (List.range parts.length).foldl (fun (acc : Option (List ((Nat × Nat) × List Int))) i =>
        acc.bind fun a =>
          jpegUnits sc ((List.range (min step (total - i * step))).flatMap fun m => j.unitBlocks sc (i * step + m)) (List.replicate n 0)
            (bitsHigh (parts.getD i [])) a) (some [])
      let q (k : Nat) : List Nat := (tableAt j.quant (j.comps.getD k ⟨0, 1, 1, 0⟩).tq).getD []
      some ({ j with scanned := sc.map (·.comp) ++ j.scanned,
                     blocks := blocks.map (fun b => (b.1, List.zipWith (fun (x : Int) (y : Nat) => x * (y : Int)) b.2 (q b.1.1))) ++ j.blocks }, rest)

/-! ### The stream (T.81, B.1) -/

/-- The segments, by fuel; query ends at the frame header. The answer is a status of R306 and what was parsed. -/
def jpegLoop (query : Bool) : Nat → List Nat → Jpeg → Nat × Jpeg
  | 0, _, j => (2, j)
  | n + 1, 255 :: m :: rest, j =>
    if m = 255 then jpegLoop query n (m :: rest) j
    else if m = 0xD9 then (if j.comps ≠ [] ∧ (List.range j.comps.length).all j.scanned.contains then 0 else 2, j)
    else
      let len := bigEndian (rest.take 2)
      let d := (rest.take len).drop 2
      let next := rest.drop len
      if rest.length < len ∨ len < 2 ∨ m < 0xC0 ∨ (0xD0 ≤ m ∧ m < 0xD9) then (2, j)
      else if m = 0xC0 ∨ m = 0xC1 then
        match jpegFrame d j with
        | .error e => (e, if e = 3 ∧ d.getD 0 0 = 8 then { j with h := bigEndian ((d.drop 1).take 2), w := bigEndian ((d.drop 3).take 2) } else j)
        | .ok t => if query then (0, t) else jpegLoop query n next t
      else if m = 0xC4 then
        match jpegCodes len d j with
        | none => (2, j)
        | some t => jpegLoop query n next t
      else if m = 0xDB then
        match jpegQuant len d j with
        | none => (2, j)
        | some t => jpegLoop query n next t
      else if m = 0xDD then (if d.length = 2 then jpegLoop query n next { j with interval := bigEndian d } else (2, j))
      else if m = 0xDA then
        if j.comps = [] then (2, j)
        else match jpegScan d next j with
          | none => (2, j)
          | some (t, r) => jpegLoop query n r t
      else if (0xC0 ≤ m ∧ m < 0xD0) ∨ m = 0xDC ∨ m = 0xDE ∨ m = 0xDF then (3, j)
      else if (0xE0 ≤ m ∧ m < 0xF0) ∨ m = 0xFE then jpegLoop query n next j
      else (2, j)
  | _ + 1, _, j => (2, j)

/-! ### Samples (T.81, A.3.3; T.871; R307) -/

/-- cos (n π / 16) scaled by 2^40, rounded to nearest. -/
def cosines : List Int :=
  [1099511627776, 1078384820155, 1015816288660, 914210506869, 777472127994, 610855931251, 420764883643, 214504077523, 0]
/-- The same for every n. -/
def cos16 (n : Nat) : Int :=
  let k := n % 32
  if k ≤ 8 then cosines.getD k 0 else if k ≤ 16 then -(cosines.getD (16 - k) 0)
  else if k ≤ 24 then -(cosines.getD (k - 16) 0) else cosines.getD (32 - k) 0
/-- The factor of frequency u at place x, with the normalisation of frequency 0. -/
def idctFactor (u x : Nat) : Int := if u = 0 then cos16 4 else cos16 ((2 * x + 1) * u)
/-- A.3.3: the exact sample of a block at (x, y), rounded to nearest. -/
def idct (b : List Int) (x y : Nat) : Int :=
  let sum := ((List.range 64).map fun k =>
    let z := zigzag.getD k 0
    let u := z % 8
    let v := z / 8
    let f := idctFactor u x * idctFactor v y
    b.getD k 0 * (if u % 4 = 0 ∧ v % 4 = 0 then (if 0 ≤ f then 2 ^ 79 else -(2 ^ 79)) else f)).sum
  roundEven sum (2 ^ 82)
/-- R307: a sample of a component: within 1 of the exact one, by a free value of the stream. -/
def Jpeg.sample (j : Jpeg) (stream : List Nat) (comp px py : Nat) : Nat :=
  let c := j.comps.getD comp ⟨0, 1, 1, 0⟩
  let x := px * c.hs / j.hMax
  let y := py * c.vs / j.vMax
  let k := y / 8 * (j.across * c.hs) + x / 8
  let off := y % 8 * 8 + x % 8
  let b := (tableAt j.blocks (comp, k)).getD []
  clamp8 (idct b (x % 8) (y % 8) + ((Config.idctError stream ((comp * 2 ^ 32 + k) * 64 + off) % 3 : Nat) : Int) - 1 + 128)
where
  tableAt (t : List ((Nat × Nat) × List Int)) (k : Nat × Nat) : Option (List Int) := (t.find? fun e => e.1 == k).map (·.2)
/-- T.871, 7: the colours of luminance and the two differences. -/
def colours (y cb cr : Nat) : List Nat :=
  let u := (cb : Int) - 128
  let v := (cr : Int) - 128
  [clamp8 (roundEven (1000 * y + 1402 * v) 1000), clamp8 (roundEven (587000 * y - 202008 * u - 419198 * v) 587000),
   clamp8 (roundEven (1000 * y + 1772 * u) 1000)]
/-- R307: a pixel after the channel mode. -/
def Jpeg.pixel (j : Jpeg) (stream : List Nat) (mode x y : Nat) : List Nat :=
  if j.comps.length = 1 then greySample mode (j.sample stream 0 x y)
  else if mode = 1 then [j.sample stream 0 x y]
  else colours (j.sample stream 0 x y) (j.sample stream 1 x y) (j.sample stream 2 x y)
/-- R307, R308: DEC.JPEG, or its header alone. -/
@[irreducible] def decodeJpeg (query : Bool) (mode : Nat) (bs : List Nat) : Picture :=
  if bs.take 2 ≠ [255, 0xD8] then .bad 2 0 0 (modeKnown mode)
  else
    let r := jpegLoop query (bs.length + 1) (bs.drop 2) .empty
    let ch := if r.2.comps = [] then modeKnown mode else some (modeChannels mode r.2.comps.length)
    ⟨r.1, r.2.w, r.2.h, ch,
     if r.1 = 0 ∧ !query then (List.range r.2.h).flatMap fun y => (List.range r.2.w).flatMap fun x => r.2.pixel bs mode x y else []⟩

end Sys2Proof.Machine
end

