-- ==== Sys2Proof/Machine/Png.lean ====
section
/-! DEFINITION. DEC.PNG (R307): ISO/IEC 15948 with zlib by RFC 1950 and RFC 1951 (PRESUMED, log entry 34). -/

namespace Sys2Proof.Machine

/-! ### RFC 1951 -/

/-- RFC 1951, 3.2.5: the lengths and distances: the least value and the extra bits of each code. -/
def lengthCodes : List (Nat × Nat) :=
  [(3, 0), (4, 0), (5, 0), (6, 0), (7, 0), (8, 0), (9, 0), (10, 0), (11, 1), (13, 1), (15, 1), (17, 1), (19, 2), (23, 2), (27, 2)]
  ++ [(31, 2), (35, 3), (43, 3), (51, 3), (59, 3), (67, 4), (83, 4), (99, 4), (115, 4), (131, 5), (163, 5), (195, 5), (227, 5), (258, 0)]
/-- The same for distances. -/
def distanceCodes : List (Nat × Nat) :=
  [(1, 0), (2, 0), (3, 0), (4, 0), (5, 1), (7, 1), (9, 2), (13, 2), (17, 3), (25, 3), (33, 4), (49, 4), (65, 5), (97, 5), (129, 6)]
  ++ [(193, 6), (257, 7), (385, 7), (513, 8), (769, 8), (1025, 9), (1537, 9), (2049, 10), (3073, 10), (4097, 11), (6145, 11)]
  ++ [(8193, 12), (12289, 12), (16385, 13), (24577, 13)]
/-- The order of the lengths of the code of lengths. -/
def lengthOrder : List Nat := [16, 17, 18, 0, 8, 7, 9, 6, 10, 5, 11, 4, 12, 3, 13, 2, 14, 1, 15]
/-- RFC 1951, 3.2.6: the fixed codes. -/
def fixedCodes : BitCode × BitCode :=
  (BitCode.ofLengths (List.replicate 144 8 ++ List.replicate 112 9 ++ List.replicate 24 7 ++ List.replicate 8 8),
   BitCode.ofLengths (List.replicate 30 5))
/-- A code is complete, or has one code of one bit at most. -/
def BitCode.sound (c : BitCode) : Bool :=
  match c.left with
  | none => false
  | some 0 => true
  | some _ => decide (c.counts.headD 0 ≤ 1) && (c.counts.drop 1).all (· == 0)
/-- Copies n bytes from d back; the output stands newest first. -/
def copyBack : Nat → Nat → List Nat → List Nat
  | 0, _, o => o
  | n + 1, d, o => copyBack n d (o.getD (d - 1) 0 :: o)
/-- A value of its least value and its extra bits. -/
def withExtra (t : List (Nat × Nat)) (i : Nat) (bs : List Bool) : Option (Nat × List Bool) :=
  (t[i]?).bind fun e => (takeLow e.2 bs).map fun x => (e.1 + x.1, x.2)
/-- The symbols of a block, by fuel, until its end. -/
def inflateBlock (lit dist : BitCode) : Nat → List Bool → List Nat → Option (List Nat × List Bool)
  | 0, _, _ => none
  | n + 1, bs, o => do
    let x ← lit.read bs
    if x.1 < 256 then inflateBlock lit dist n x.2 (x.1 :: o)
    else if x.1 = 256 then some (o, x.2)
    else do
      let len ← withExtra lengthCodes (x.1 - 257) x.2
      let d ← dist.read len.2
      let back ← withExtra distanceCodes d.1 d.2
      if o.length < back.1 then none
      else inflateBlock lit dist n back.2 (copyBack len.1 back.1 o)
/-- RFC 1951, 3.2.7: code lengths, by fuel, until there are n. -/
def readLengths (c : BitCode) (n : Nat) : Nat → List Nat → List Bool → Option (List Nat × List Bool)
  | 0, _, _ => none
  | k + 1, ls, bs =>
    if n < ls.length then none
    else if ls.length = n then some (ls.reverse, bs)
    else do
      let x ← c.read bs
      if x.1 < 16 then readLengths c n k (x.1 :: ls) x.2
      else if x.1 = 16 then do
        let r ← takeLow 2 x.2
        match ls with
        | [] => none
        | l :: _ => readLengths c n k (List.replicate (3 + r.1) l ++ ls) r.2
      else do
        let r ← takeLow (if x.1 = 17 then 3 else 7) x.2
        readLengths c n k (List.replicate ((if x.1 = 17 then 3 else 11) + r.1) 0 ++ ls) r.2
/-- RFC 1951, 3.2.7: the codes of a dynamic block. -/
def dynamicCodes (bs : List Bool) : Option (BitCode × BitCode × List Bool) := do
  let a ← takeLow 5 bs
  let b ← takeLow 5 a.2
  let c ← takeLow 4 b.2
  let ls ← (List.range (c.1 + 4)).foldl (fun (r : Option (List Nat × List Bool)) _ =>
    r.bind fun p => (takeLow 3 p.2).map fun x => (p.1 ++ [x.1], x.2)) (some ([], c.2))
  let code := BitCode.ofLengths ((List.range 19).map fun s => ls.1.getD (lengthOrder.idxOf s) 0)
  if code.left ≠ some 0 ∨ 29 < a.1 ∨ 29 < b.1 then none
  else do
    let all ← readLengths code (a.1 + 257 + b.1 + 1) 400 [] ls.2
    let lit := BitCode.ofLengths (all.1.take (a.1 + 257))
    let dist := BitCode.ofLengths (all.1.drop (a.1 + 257))
    if lit.sound && dist.sound && all.1.getD 256 0 != 0 then some (lit, dist, all.2) else none
/-- RFC 1951: the blocks, by fuel; what follows the last one begins at a byte. -/
def inflate : Nat → List Bool → List Nat → Option (List Nat × List Bool)
  | 0, _, _ => none
  | n + 1, bs, o => do
    let last ← takeLow 1 bs
    let kind ← takeLow 2 last.2
    let r ← match kind.1 with
      | 0 => do
        let at_ := kind.2.drop (kind.2.length % 8)
        let len ← takeLow 16 at_
        let com ← takeLow 16 len.2
        if len.1 + com.1 ≠ 65535 then none
        else (List.range len.1).foldl (fun (r : Option (List Nat × List Bool)) _ =>
          r.bind fun p => (takeLow 8 p.2).map fun x => (x.1 :: p.1, x.2)) (some (o, com.2))
      | 1 => inflateBlock fixedCodes.1 fixedCodes.2 (kind.2.length + 1) kind.2 o
      | 2 => do
        let c ← dynamicCodes kind.2
        inflateBlock c.1 c.2.1 (c.2.2.length + 1) c.2.2 o
      | _ => none
    if last.1 = 1 then some (r.1, r.2.drop (r.2.length % 8)) else inflate n r.2 r.1

/-- RFC 1950: the checksum of bytes. -/
def adler32 (bs : List Nat) : Nat :=
  let r := bs.foldl (fun (p : Nat × Nat) b => ((p.1 + b) % 65521, (p.2 + (p.1 + b) % 65521) % 65521)) (1, 0)
  r.2 * 65536 + r.1
/-- RFC 1950: the bytes of a zlib stream, all of it. -/
def unzlib (bs : List Nat) : Option (List Nat) :=
  match bs with
  | cmf :: flg :: rest =>
    if cmf % 16 ≠ 8 ∨ 7 < cmf / 16 ∨ (256 * cmf + flg) % 31 ≠ 0 ∨ flg / 32 % 2 = 1 then none
    else do
      let r ← inflate (8 * rest.length + 1) (bitsLow rest) []
      let out := r.1.reverse
      let sum := (List.range 4).map fun i => ((takeLow 8 (r.2.drop (8 * i))).getD (0, [])).1
      if r.2.length = 32 ∧ bigEndian sum = adler32 out then some out else none
  | _ => none

/-! ### ISO/IEC 15948 -/

/-- Annex D: the checksum of a chunk's type and data. -/
def crc32 (bs : List Nat) : Nat :=
  (bs.foldl (fun c b => (List.range 8).foldl (fun x _ => if x % 2 = 1 then 0xEDB88320 ^^^ (x / 2) else x / 2) (c ^^^ b)) 0xFFFFFFFF) ^^^ 0xFFFFFFFF
/-- A chunk at the head of bytes: its type, its data, and what follows; none when it is cut short or its checksum does not match. -/
def pngChunk (bs : List Nat) : Option (Nat × List Nat × List Nat) :=
  let n := bigEndian (bs.take 4)
  if bs.length < 12 + n then none
  else
    let body := (bs.drop 4).take (4 + n)
    if bigEndian ((bs.drop (8 + n)).take 4) ≠ crc32 body then none
    else some (bigEndian (body.take 4), body.drop 4, bs.drop (12 + n))
/-- The eight bytes a PNG stream begins with. -/
def pngSignature : List Nat := [137, 80, 78, 71, 13, 10, 26, 10]
/-- R307: the header of the stream: its status, size, channels and what follows. -/
def pngHead (mode : Nat) (bs : List Nat) : Picture × Nat × List Nat :=
  let fail : Picture × Nat × List Nat := (.bad 2 0 0 (modeKnown mode), 0, [])
  if bs.take 8 ≠ pngSignature then fail
  else match pngChunk (bs.drop 8) with
    | none => fail
    | some (ty, d, rest) =>
      let w := bigEndian (d.take 4)
      let h := bigEndian ((d.drop 4).take 4)
      if ty ≠ 0x49484452 ∨ d.length ≠ 13 ∨ w = 0 ∨ h = 0 ∨ 2 ^ 31 ≤ w ∨ 2 ^ 31 ≤ h then fail
      else if 65535 < w ∨ 65535 < h then (.bad 3 0 0 (modeKnown mode), 0, [])
      else if d.getD 10 0 ≠ 0 ∨ d.getD 11 0 ≠ 0 ∨ 1 < d.getD 12 0 then (.bad 2 w h (modeKnown mode), 0, [])
      else
        let colour := d.getD 9 0
        if d.getD 8 0 ≠ 8 ∨ (colour ≠ 0 ∧ colour ≠ 2) ∨ d.getD 12 0 = 1 then (.bad 3 w h (modeKnown mode), 0, [])
        else
          let n := if colour = 2 then 3 else 1
          (⟨0, w, h, some (modeChannels mode n), []⟩, n, rest)
/-- The image data of the chunks, by fuel; stage 0 before it, 1 within, 2 behind. The error is a status of R306. -/
def pngData : Nat → Nat → List Nat → List (List Nat) → Except Nat (List Nat)
  | 0, _, _, _ => .error 2
  | n + 1, stage, bs, acc =>
    match pngChunk bs with
    | none => .error 2
    | some (ty, d, rest) =>
      if ty = 0x49454E44 then (if stage = 0 then .error 2 else .ok acc.reverse.flatten)
      else if ty = 0x49444154 then (if stage = 2 then .error 2 else pngData n 1 rest (d :: acc))
      else if ty = 0x49484452 then .error 2
      else if ty = 0x504C5445 ∨ ty / 2 ^ 29 % 2 = 1 then pngData n (if stage = 0 then 0 else 2) rest acc
      else .error 3
/-- Clause 9: the predictor of filter 4. -/
def paeth (a b c : Nat) : Nat :=
  let pa := ((b : Int) - c).natAbs
  let pb := ((a : Int) - c).natAbs
  let pc := ((a : Int) + b - 2 * c).natAbs
  if pa ≤ pb ∧ pa ≤ pc then a else if pb ≤ pc then b else c
/-- Clause 9: one row; the bytes above, and what stands left and above left, nearest first. -/
def unfilter (f n : Nat) : List Nat → List Nat → List Nat → List Nat → List Nat
  | [], _, left, _ => left.reverse
  | x :: xs, above, left, corner =>
    let a := left.getD (n - 1) 0
    let b := above.headD 0
    let c := corner.getD (n - 1) 0
    let p := match f with
      | 0 => 0
      | 1 => a
      | 2 => b
      | 3 => (a + b) / 2
      | _ => paeth a b c
    unfilter f n xs (above.drop 1) ((x + p) % 256 :: left) (b :: corner)
/-- The rows of n bytes a pixel and m bytes a row. -/
def pngRows (n m : Nat) : Nat → List Nat → List Nat → Option (List (List Nat))
  | 0, raw, _ => if raw = [] then some [] else none
  | _ + 1, [], _ => none
  | k + 1, f :: raw, above =>
    if raw.length < m ∨ 4 < f then none
    else
      let row := unfilter f n (raw.take m) above [] []
      (pngRows n m k (raw.drop m) row).map fun rs => row :: rs
/-- R307: a pixel after the channel mode; grey of a colour is its luminance by ITU-T T.871. -/
def pngPixel (mode : Nat) : List Nat → List Nat
  | [r, g, b] => if mode = 1 then [clamp8 (roundEven (299 * r + 587 * g + 114 * b) 1000)] else [r, g, b]
  | px => greySample mode (px.headD 0)
/-- Cuts a row into pixels. -/
def pixels (n : Nat) : Nat → List Nat → List (List Nat)
  | 0, _ => []
  | k + 1, row => row.take n :: pixels n k (row.drop n)
/-- R307: DEC.PNG. -/
@[irreducible] def decodePng (mode : Nat) (bs : List Nat) : Picture :=
  let (p, n, rest) := pngHead mode bs
  if p.status ≠ 0 then p
  else match pngData (rest.length + 1) 0 rest [] with
    | .error e => { p with status := e }
    | .ok z =>
      match (unzlib z).bind fun raw => pngRows n (n * p.w) p.h raw [] with
      | none => { p with status := 2 }
      | some rows => { p with samples := rows.flatMap fun row => (pixels n p.w row).flatMap (pngPixel mode) }

end Sys2Proof.Machine
end

