-- ==== Sys2Proof/Machine/Float.lean ====
section
/-! DEFINITION. Number formats and rounding (R42, R130 to R138, R141, R144 to R155, R160): every result is computed
exactly as a signed integer times a power of two, and rounded once by one procedure. -/

namespace Sys2Proof.Machine

/-- Rounding modes (R149, R151, R153); sr carries the draw. -/
inductive RMode where
  | rne | rz | rp | rm | rna
  | sr (r : Nat)
  deriving DecidableEq, Repr

/-- R149: the mode RM names. -/
def rmOf (fmt : Word) : RMode :=
  match fmt.toNat % 4 with
  | 0 => .rne
  | 1 => .rz
  | 2 => .rp
  | _ => .rm
/-- R149: FTZ. -/
def ftzOf (fmt : Word) : Bool := fmt.getLsbD 2
/-- R149: SR. -/
def srOf (fmt : Word) : Bool := fmt.getLsbD 3
/-- R149: NSAT. -/
def nsatOf (fmt : Word) : Bool := fmt.getLsbD 16

/-- R144: a binary float format: exponent bits, mantissa bits, bias, greatest finite code, and whether the code after it
is an infinity with NaNs above. -/
structure FFmt where
  ew : Nat
  mw : Nat
  bias : Nat
  maxCode : Nat
  ieee : Bool
  deriving DecidableEq, Repr

def fmtF32 : FFmt := ⟨8, 23, 127, 0x7F7FFFFF, true⟩
def fmtBF16 : FFmt := ⟨8, 7, 127, 0x7F7F, true⟩
def fmtF16 : FFmt := ⟨5, 10, 15, 0x7BFF, true⟩
def fmtE5M2 : FFmt := ⟨5, 2, 15, 0x7B, true⟩
def fmtE4M3 : FFmt := ⟨4, 3, 7, 0x7E, false⟩
def fmtE2M3 : FFmt := ⟨2, 3, 1, 0x1F, false⟩
def fmtE3M2 : FFmt := ⟨3, 2, 3, 0x1F, false⟩
def fmtE2M1 : FFmt := ⟨2, 1, 1, 0x7, false⟩

/-- The weight of the sign bit. -/
def FFmt.sgn (f : FFmt) : Nat := 2 ^ (f.ew + f.mw)
/-- The exponent of the smallest subnormal. -/
def FFmt.emin (f : FFmt) : Int := 1 - (f.bias : Int) - (f.mw : Int)
/-- The code of an infinity of an IEEE format. -/
def FFmt.inf (f : FFmt) : Nat := f.maxCode + 1
/-- R42: MakeNaN(c) in an IEEE format. -/
def FFmt.nan (f : FFmt) (c : Nat) : Nat := f.inf + 2 ^ (f.mw - 1) + c
/-- The quiet bit. -/
def FFmt.quiet (f : FFmt) (x : Nat) : Nat := if x / 2 ^ (f.mw - 1) % 2 = 1 then x else x + 2 ^ (f.mw - 1)
/-- The magnitude part of a code. -/
def FFmt.mag (f : FFmt) (x : Nat) : Nat := x % f.sgn
/-- The sign of a code. -/
def FFmt.neg (f : FFmt) (x : Nat) : Bool := x / f.sgn % 2 == 1
/-- The code is a NaN. -/
def FFmt.isNan (f : FFmt) (x : Nat) : Bool := if f.ieee then decide (f.inf < f.mag x) else decide (f.ew = 4 ∧ f.mag x = 0x7F)
/-- The code is an infinity. -/
def FFmt.isInf (f : FFmt) (x : Nat) : Bool := f.ieee && f.mag x == f.inf
/-- A code from sign and magnitude. -/
def FFmt.code (f : FFmt) (neg : Bool) (mag : Nat) : Nat := if neg then f.sgn + mag else mag

/-- A finite number: sign, integer, exponent of two. -/
structure Fin2 where
  neg : Bool
  m : Nat
  e : Int
  deriving DecidableEq, Repr

/-- R144, R130: the value of a finite code; a subnormal reads as zero of its sign under FTZ. -/
def FFmt.fin (f : FFmt) (ftz : Bool) (x : Nat) : Fin2 :=
  let a := f.mag x
  let ex := a / 2 ^ f.mw
  if ex = 0 then ⟨f.neg x, if ftz then 0 else a, f.emin⟩
  else ⟨f.neg x, 2 ^ f.mw + a % 2 ^ f.mw, f.emin + (ex : Int) - 1⟩

/-- A rounded result with the flags it sets. -/
structure FRes where
  bits : Nat
  ovf : Bool
  sat : Bool
  deriving DecidableEq, Repr

/-- A result without a flag. -/
def FRes.ok (x : Nat) : FRes := ⟨x, false, false⟩

/-- Whether a magnitude k + rem / 2^d (and a little more when st) goes up to k + 1. -/
def roundsUp (md : RMode) (neg : Bool) (k rem d : Nat) (st : Bool) : Bool :=
  match md with
  | .rne => decide (2 ^ d < 2 * rem) || (decide (2 * rem = 2 ^ d) && (st || k % 2 == 1))
  | .rz => false
  | .rp => !neg && (rem != 0 || st)
  | .rm => neg && (rem != 0 || st)
  | .rna => decide (2 ^ d ≤ 2 * rem)
  | .sr r => decide (2 ^ (d + 32) ≤ rem * 2 ^ 32 + r * 2 ^ d)

/-- The magnitude m times 2^e (and a little more when st) as a count of units 2^q, q at least the exponent given. -/
def roundAt (q : Int) (md : RMode) (neg : Bool) (m : Nat) (e : Int) (st : Bool) : Nat :=
  if q ≤ e then m * 2 ^ (e - q).toNat
  else
    let d := min (q - e).toNat (m.log2 + 40)
    let k := m / 2 ^ d
    if roundsUp md neg k (m % 2 ^ d) d st then k + 1 else k

/-- R151: the spacing of a format at a magnitude: precision p bits, never below 2^emin. -/
def spacing (p : Nat) (emin : Int) (m : Nat) (e : Int) : Int :=
  if m = 0 then emin else max ((m.log2 : Int) + e - (p - 1)) emin

/-- R42, R151, R152: the code of a finite value in a float format, before saturation: rounded, with FTZ on the result. The
flag says that the rounded magnitude exceeds the greatest finite one. -/
def FFmt.roundMag (f : FFmt) (md : RMode) (x : Fin2) (st : Bool) : Nat :=
  let q := spacing (f.mw + 1) f.emin x.m x.e
  let k := roundAt q md x.neg x.m x.e st
  if k = 0 then 0 else (q - f.emin).toNat * 2 ^ f.mw + k

/-- IEEE 754's overflow result: infinity or the greatest finite magnitude. -/
def FFmt.overflow (f : FFmt) (md : RMode) (neg : Bool) : Nat :=
  match md with
  | .rz => f.maxCode
  | .rp => if neg then f.maxCode else f.inf
  | .rm => if neg then f.inf else f.maxCode
  | _ => f.inf

/-- R42: RoundF32 and RoundBF16, and R151 for F16. -/
def FFmt.round (f : FFmt) (md : RMode) (ftz : Bool) (x : Fin2) (st : Bool) : FRes :=
  let c := f.roundMag md x st
  if f.maxCode < c then ⟨f.code x.neg (f.overflow md x.neg), true, false⟩
  else if ftz && decide (c < 2 ^ f.mw) then .ok (f.code x.neg 0)
  else .ok (f.code x.neg c)

/-- The exact sum of two finite numbers; an exact zero takes the sign of R132. -/
def Fin2.add (md : RMode) (a b : Fin2) : Fin2 :=
  let e := min a.e b.e
  let va : Int := (if a.neg then -1 else 1) * (a.m * 2 ^ (a.e - e).toNat : Nat)
  let vb : Int := (if b.neg then -1 else 1) * (b.m * 2 ^ (b.e - e).toNat : Nat)
  let v := va + vb
  if v = 0 then ⟨if a.neg == b.neg then a.neg else decide (md = .rm), 0, e⟩
  else ⟨decide (v < 0), v.natAbs, e⟩
/-- The exact product. -/
def Fin2.mul (a b : Fin2) : Fin2 := ⟨a.neg != b.neg, a.m * b.m, a.e + b.e⟩
/-- The number with its sign inverted when n. -/
def Fin2.flip (a : Fin2) (n : Bool) : Fin2 := ⟨a.neg != n, a.m, a.e⟩

/-- R131: the first NaN of a list of codes, made quiet. -/
def FFmt.firstNan (f : FFmt) (xs : List Nat) : Option Nat := (xs.find? f.isNan).map f.quiet

/-- The sum of two non-NaN codes, the second with its sign inverted when n. -/
def FFmt.sumCodes (f : FFmt) (md : RMode) (ftz : Bool) (a b : Nat) (n : Bool) : FRes :=
  match f.isInf a, f.isInf b with
  | true, true => if f.neg a == (f.neg b != n) then .ok a else .ok (f.nan 1)
  | true, false => .ok a
  | false, true => .ok (f.code (f.neg b != n) f.inf)
  | false, false => f.round md ftz ((f.fin ftz a).add md ((f.fin ftz b).flip n)) false

/-- R132: addition, or subtraction when n. -/
def FFmt.add (f : FFmt) (md : RMode) (ftz n : Bool) (a b : Nat) : FRes :=
  match f.firstNan [a, b] with
  | some x => .ok x
  | none => f.sumCodes md ftz a b n

/-- A code that is zero, or read as zero. -/
def FFmt.isZero (f : FFmt) (ftz : Bool) (a : Nat) : Bool := decide ((f.fin ftz a).m = 0) && !f.isInf a

/-- R132: multiplication. -/
def FFmt.mul (f : FFmt) (md : RMode) (ftz : Bool) (a b : Nat) : FRes :=
  match f.firstNan [a, b] with
  | some x => .ok x
  | none =>
    if f.isInf a || f.isInf b then
      if f.isZero ftz a || f.isZero ftz b then .ok (f.nan 2) else .ok (f.code (f.neg a != f.neg b) f.inf)
    else f.round md ftz ((f.fin ftz a).mul (f.fin ftz b)) false

/-- R132: the fused forms: the product with its sign inverted when np, plus c with its sign inverted when nc. -/
def FFmt.fma (f : FFmt) (md : RMode) (ftz np nc : Bool) (a b c : Nat) : FRes :=
  match f.firstNan [a, b, c] with
  | some x => .ok x
  | none =>
    if f.isInf a || f.isInf b then
      if f.isZero ftz a || f.isZero ftz b then .ok (f.nan 2)
      else
        let n := (f.neg a != f.neg b) != np
        if f.isInf c && (f.neg c != nc) != n then .ok (f.nan 1) else .ok (f.code n f.inf)
    else if f.isInf c then .ok (f.code (f.neg c != nc) f.inf)
    else f.round md ftz ((((f.fin ftz a).mul (f.fin ftz b)).flip np).add md ((f.fin ftz c).flip nc)) false

/-- A code read under FTZ: a subnormal becomes zero of its sign. -/
def FFmt.flush (f : FFmt) (ftz : Bool) (a : Nat) : Nat := if ftz && decide (f.mag a < 2 ^ f.mw) then f.code (f.neg a) 0 else a
/-- The order of non-NaN codes as numbers, with -0 below +0 (R133). -/
def FFmt.key (f : FFmt) (a : Nat) : Int := if f.neg a then -(f.mag a : Int) - 1 else f.mag a
/-- R133: minimum, or maximum when mx. -/
def FFmt.minmax (f : FFmt) (ftz mx : Bool) (a b : Nat) : Nat :=
  match f.isNan a, f.isNan b with
  | true, true => f.quiet a
  | true, false => f.flush ftz b
  | false, true => f.flush ftz a
  | false, false =>
    let x := f.flush ftz a
    let y := f.flush ftz b
    if (f.key x ≤ f.key y) == !mx then x else y

/-- R136: the order of two non-NaN codes under FTZ, -0 equal to +0. -/
def FFmt.cmpKey (f : FFmt) (ftz : Bool) (a : Nat) : Int :=
  let x := f.flush ftz a
  if f.neg x then -(f.mag x : Int) else f.mag x
/-- R136: the eight conditions in fn order. -/
def FFmt.cmp (f : FFmt) (ftz : Bool) (cond a b : Nat) : Bool :=
  let un := f.isNan a || f.isNan b
  let x := f.cmpKey ftz a
  let y := f.cmpKey ftz b
  match cond with
  | 0 => !un && decide (x = y)
  | 1 => un || decide (x ≠ y)
  | 2 => !un && decide (x < y)
  | 3 => !un && decide (x ≤ y)
  | 4 => !un && decide (y < x)
  | 5 => !un && decide (y ≤ x)
  | 6 => !un
  | _ => un

/-- The integer square root of a number below 4^n, from the highest bit down, with r so far. -/
def isqrtDown : Nat → Nat → Nat → Nat
  | 0, _, r => r
  | n + 1, x, r => isqrtDown n x (if (r + 2 ^ n) * (r + 2 ^ n) ≤ x then r + 2 ^ n else r)

/-- R141: division, correctly rounded. -/
def FFmt.div (f : FFmt) (md : RMode) (ftz : Bool) (a b : Nat) : FRes :=
  match f.firstNan [a, b] with
  | some x => .ok x
  | none =>
    let n := f.neg a != f.neg b
    if f.isInf a then if f.isInf b then .ok (f.nan 7) else .ok (f.code n f.inf)
    else if f.isInf b then .ok (f.code n 0)
    else if f.isZero ftz b then if f.isZero ftz a then .ok (f.nan 7) else .ok (f.code n f.inf)
    else if f.isZero ftz a then .ok (f.code n 0)
    else
      let x := f.fin ftz a
      let y := f.fin ftz b
      let s := f.mw + 4 + y.m.log2
      let num := x.m * 2 ^ s
      f.round md ftz ⟨n, num / y.m, x.e - y.e - s⟩ (num % y.m != 0)

/-- R141: square root, correctly rounded. -/
def FFmt.sqrt (f : FFmt) (md : RMode) (ftz : Bool) (a : Nat) : FRes :=
  match f.firstNan [a] with
  | some x => .ok x
  | none =>
    if f.isZero ftz a then .ok (f.code (f.neg a) 0)
    else if f.neg a then .ok (f.nan 6)
    else if f.isInf a then .ok a
    else
      let x := f.fin ftz a
      let s : Nat := 2 * f.mw + 8 + (if x.e % 2 = 0 then 0 else 1)
      let big := x.m * 2 ^ s
      let r := isqrtDown (f.mw * 2 + 8) big 0
      f.round md ftz ⟨false, r, (x.e - s) / 2⟩ (decide (r * r ≠ big))

/-- R138: VDOT2.BF of two BF16 pairs and an F32. -/
def dot2 (md : RMode) (ftz : Bool) (x y c : Nat) : FRes :=
  let xl := x % 65536
  let xh := x / 65536
  let yl := y % 65536
  let yh := y / 65536
  match [xl, xh, yl, yh].find? fmtBF16.isNan with
  | some n => .ok ((if fmtBF16.neg n then 2 ^ 31 else 0) + 0x7FC00000 + n % 8)
  | none =>
    if fmtF32.isNan c then .ok (fmtF32.quiet c)
    else
      let inv (a b : Nat) : Bool := (fmtBF16.isInf a && fmtBF16.isZero ftz b) || (fmtBF16.isInf b && fmtBF16.isZero ftz a)
      if inv xl yl || inv xh yh then .ok (fmtF32.nan 2)
      else
        let infs := ([(xl, yl), (xh, yh)].filterMap fun p =>
            if fmtBF16.isInf p.1 || fmtBF16.isInf p.2 then some (fmtBF16.neg p.1 != fmtBF16.neg p.2) else none)
          ++ (if fmtF32.isInf c then [fmtF32.neg c] else [])
        match infs with
        | n :: r => if r.all (· == n) then .ok (fmtF32.code n fmtF32.inf) else .ok (fmtF32.nan 1)
        | [] =>
          let p (a b : Nat) := (fmtBF16.fin ftz a).mul (fmtBF16.fin ftz b)
          fmtF32.round md ftz (((p xl yl).add md (p xh yh)).add md (fmtF32.fin ftz c)) false

/-- R135: VCLASS. -/
def fclass (x : Nat) : Nat :=
  let n := fmtF32.neg x
  let a := fmtF32.mag x
  if fmtF32.isNan x then (if a / 2 ^ 22 % 2 = 1 then 2 ^ 9 else 2 ^ 8)
  else if fmtF32.isInf x then (if n then 2 ^ 0 else 2 ^ 7)
  else if a = 0 then (if n then 2 ^ 3 else 2 ^ 4)
  else if a < 2 ^ 23 then (if n then 2 ^ 2 else 2 ^ 5)
  else (if n then 2 ^ 1 else 2 ^ 6)

/-- R135: VRINT. -/
def frint (md : RMode) (ftz : Bool) (x : Nat) : FRes :=
  match fmtF32.firstNan [x] with
  | some n => .ok n
  | none =>
    if fmtF32.isInf x then .ok x
    else
      let v := fmtF32.fin ftz x
      if 0 ≤ v.e then .ok (fmtF32.flush ftz x)
      else .ok (fmtF32.round .rz false ⟨v.neg, roundAt 0 md v.neg v.m v.e false, 0⟩ false).bits

/-- R135: VFRACT. -/
def ffract (ftz : Bool) (x : Nat) : FRes :=
  match fmtF32.firstNan [x] with
  | some n => .ok n
  | none =>
    if fmtF32.isInf x then .ok (fmtF32.nan 7)
    else
      let v := fmtF32.fin ftz x
      if 0 ≤ v.e || v.m = 0 then .ok 0
      else
        let d := (-v.e).toNat
        let r := v.m % 2 ^ d
        .ok (fmtF32.round .rz ftz ⟨false, if v.neg && r != 0 then 2 ^ d - r else r, v.e⟩ false).bits

/-- R135: VSCALB with an integer, and R160 with the exponent of a scale. -/
def fscalb (md : RMode) (ftz : Bool) (x : Nat) (n : Int) : FRes :=
  match fmtF32.firstNan [x] with
  | some q => .ok q
  | none =>
    if fmtF32.isInf x then .ok x
    else
      let v := fmtF32.fin ftz x
      if v.m = 0 then .ok (fmtF32.code v.neg 0) else fmtF32.round md ftz ⟨v.neg, v.m, v.e + n⟩ false

/-- R135: VGETEXP. -/
def fgetexp (ftz : Bool) (x : Nat) : Int :=
  if fmtF32.isNan x || fmtF32.isInf x then 2 ^ 31 - 1
  else
    let v := fmtF32.fin ftz x
    if v.m = 0 then -(2 ^ 31) else (v.m.log2 : Int) + v.e

/-- R160: VSCALE.E8, or its inverse. -/
def fscaleE8 (md : RMode) (ftz inv : Bool) (x e : Nat) : FRes :=
  match fmtF32.firstNan [x] with
  | some q => .ok q
  | none =>
    if e = 0xFF then .ok (fmtF32.nan 3)
    else fscalb md ftz x (if inv then 127 - (e : Int) else (e : Int) - 127)

/-- A number as a conversion reads it (R151, R152, R155). -/
inductive CNum where
  | nan (neg : Bool) (cause : Nat)
  | inf (neg : Bool)
  | fin (x : Fin2)
  deriving DecidableEq, Repr

/-- A code of a float format as a number. -/
def FFmt.num (f : FFmt) (ftz : Bool) (x : Nat) : CNum :=
  if f.isNan x then .nan (f.neg x) (x % 8) else if f.isInf x then .inf (f.neg x) else .fin (f.fin ftz x)
/-- An integer as a number. -/
def intNum (v : Int) : CNum := .fin ⟨decide (v < 0), v.natAbs, 0⟩

/-- R150, R161: the formats a conversion may have for its target. -/
inductive CFmt where
  | f32 | bf16 | f16 | e4m3 | e5m2 | e2m3 | e3m2 | e2m1 | int8 | int4 | bead4 | i32 | n32
  deriving DecidableEq, Repr

/-- R152: Sat of R42 after rounding to an integer, in two's complement of w bits. -/
def satInt (lo hi v : Int) (w : Nat) : FRes :=
  let r := if v < lo then lo else if hi < v then hi else v
  ⟨(BitVec.ofInt w r).toNat, false, decide (r ≠ v)⟩

/-- R152: Convert into an integer format. R161's last sentence gives 0 for -0.6 under RNE, where R151 gives -1: R151 is followed (DEDUCED, log
entry 65). -/
def convInt (lo hi : Int) (w : Nat) (md : RMode) : CNum → FRes
  | .nan _ _ => ⟨0, false, true⟩
  | .inf n => ⟨(BitVec.ofInt w (if n then lo else hi)).toNat, false, true⟩
  | .fin x =>
    let k := roundAt 0 md x.neg x.m x.e false
    satInt lo hi (if x.neg then -(k : Int) else k) w

/-- R152: Convert into F32, BF16 or F16. -/
def convWide (f : FFmt) (md : RMode) (ftz : Bool) : CNum → FRes
  | .nan n c => .ok (f.code n (f.nan (c % 8)))
  | .inf n => .ok (f.code n f.inf)
  | .fin x => f.round md ftz x false

/-- R152: Convert into a narrow float format, where a result too large saturates. -/
def convSat (f : FFmt) (md : RMode) : CNum → FRes
  | .nan n _ => ⟨f.code n f.maxCode, false, true⟩
  | .inf n => ⟨f.code n f.maxCode, false, true⟩
  | .fin x =>
    let c := f.roundMag md x false
    if f.maxCode < c then ⟨f.code x.neg f.maxCode, false, true⟩ else .ok (f.code x.neg c)

/-- R151 to R155: Convert(x, F, m) under %fmt's NSAT and FTZ. -/
def convert (f : CFmt) (md : RMode) (ftz nsat : Bool) (x : CNum) : FRes :=
  match f with
  | .f32 => convWide fmtF32 md ftz x
  | .bf16 => convWide fmtBF16 md ftz x
  | .f16 => convWide fmtF16 md ftz x
  | .e4m3 =>
    if nsat then convSat fmtE4M3 md x
    else
      match x with
      | .nan n _ => .ok (fmtE4M3.code n 0x7F)
      | .inf n => ⟨fmtE4M3.code n 0x7F, true, false⟩
      | .fin v =>
        let c := fmtE4M3.roundMag md v false
        if fmtE4M3.maxCode < c then ⟨fmtE4M3.code v.neg 0x7F, true, false⟩ else .ok (fmtE4M3.code v.neg c)
  | .e5m2 =>
    if nsat then convSat fmtE5M2 md x
    else
      match x with
      | .nan n _ => .ok (fmtE5M2.code n 0x7F)
      | .inf n => .ok (fmtE5M2.code n 0x7C)
      | .fin v => fmtE5M2.round md false v false
  | .e2m3 => convSat fmtE2M3 md x
  | .e3m2 => convSat fmtE3M2 md x
  | .e2m1 => convSat fmtE2M1 md x
  | .int8 => convInt (-127) 127 8 md x
  | .int4 => convInt (-8) 7 4 md x
  | .bead4 => convInt (-7) 7 4 md x
  | .i32 => convInt (-(2 ^ 31)) (2 ^ 31 - 1) 32 md x
  | .n32 => convInt 0 (2 ^ 32 - 1) 32 md x

/-- R150: the narrow format a U code names. -/
def narrowFmt (t : Nat) : CFmt :=
  match t with
  | 0 => .e4m3
  | 1 => .e5m2
  | 2 => .e2m3
  | 3 => .e3m2
  | 4 => .e2m1
  | 5 => .int8
  | 6 => .int4
  | _ => .bead4

/-- R145: the bits of an element of the format a U code names. -/
def narrowBits (t : Nat) : Nat := if t = 2 || t = 3 then 6 else if t = 4 || 6 ≤ t then 4 else 8

/-- R148: an outlier's magnitude code as a number. -/
def beadOut (c : Nat) : Int := (if 8 ≤ c then -1 else 1) * (2 ^ (3 + c % 8) : Nat)
/-- A 4-bit two's complement code. -/
def int4Of (c : Nat) : Int := if 8 ≤ c then (c : Int) - 16 else c
/-- R148: element k of a BEAD4 word. -/
def beadElem (w k : Nat) : Int :=
  let b := w / 256 ^ (k / 2) % 256
  let lo := b % 16
  let hi := b / 16
  if lo = 8 then (if k % 2 = 0 then beadOut hi else 0)
  else if hi = 8 then (if k % 2 = 0 then 0 else beadOut lo)
  else int4Of (if k % 2 = 0 then lo else hi)

/-- R145, R157: element k of a word in the format a U code names. -/
def elemNum (t w k : Nat) : CNum :=
  let b := narrowBits t
  let c := w / 2 ^ (b * k) % 2 ^ b
  match t with
  | 0 => if fmtE4M3.isNan c then .nan false 4 else .fin (fmtE4M3.fin false c)
  | 1 => if fmtE5M2.isNan c then .nan false 4 else fmtE5M2.num false c
  | 2 => .fin (fmtE2M3.fin false c)
  | 3 => .fin (fmtE3M2.fin false c)
  | 4 => .fin (fmtE2M1.fin false c)
  | 5 => intNum (if 128 ≤ c then (c : Int) - 256 else c)
  | 6 => intNum (int4Of c)
  | _ => intNum (beadElem w k)

/-- R145, R158: a word with element k replaced by a code. -/
def setElem (t w k c : Nat) : Nat :=
  let b := narrowBits t
  let lo := 2 ^ (b * k)
  let x := w % lo + c % 2 ^ b * lo + w / (lo * 2 ^ b) * (lo * 2 ^ b)
  if t = 2 || t = 3 then x % 2 ^ 24 else x

/-- R159: emax of a format. -/
def emaxOf (t : Nat) : Int :=
  match t with
  | 0 => 8
  | 1 => 15
  | 2 => 2
  | 3 => 4
  | 4 => 2
  | 5 => 0
  | _ => 2

/-- R159: the scale of a block maximum. -/
def mxScale (t : Nat) (ftz : Bool) (x : Nat) : Nat :=
  if fmtF32.isNan x then 0xFF
  else if fmtF32.isInf x then 0xFE
  else
    let v := fmtF32.fin ftz x
    if v.m = 0 then 0
    else
      let e := (v.m.log2 : Int) + v.e - emaxOf t + 127
      if e < 0 then 0 else if 254 < e then 254 else e.toNat

end Sys2Proof.Machine
end

