-- ==== Sys2Proof/Machine/State.lean ====
section
/-! DEFINITION. The state of the device as plain data: the issuing group, the other groups, memory, and every table,
queue and register the spec gives the device. -/

namespace Sys2Proof.Machine

/-- R15, R61: the value of a vector register by its shape tag; a general register holds one slot of 96 words. -/
inductive VVal where
  | uniform (x : Word)
  | affine (base stride : Word)
  | general (slot : Nat) (lanes : List Word)
  /-- lanes that differ without a slot: a counted result of one word has reached only some of them (R60, R110) -/
  | mixed (lanes : List Word)
  deriving DecidableEq, Repr

/-- A vector register with the lanes whose word is marked poisoned (R381). -/
structure VReg where
  val : VVal
  poison : Mask
  deriving DecidableEq, Repr

/-- R142: the random state of a lane. -/
structure Rnd where
  x : Word
  y : Word
  z : Word
  w : Word
  deriving DecidableEq, Repr

/-- R88: a return entry. -/
structure RetEntry where
  addr : Addr
  depth : Nat
  deriving DecidableEq, Repr

/-- R92: a reconvergence entry. -/
structure ReconEntry where
  loop : Bool
  els : Bool
  m : Mask
  x : Mask
  f : Word
  deriving DecidableEq, Repr

/-- R71: the five wait counters. -/
inductive Ctr where
  | ld | st | mx | en | tm
  deriving DecidableEq, Repr

/-- A register write that arrives with a variable-latency result (R60, R71). -/
inductive RegWrite where
  /-- lanes of a vector register; uni marks a full load from one address, whose result is uniform (R171); race holds the
  lanes a later unit has written before the data arrived (R60) -/
  | vec (r : Nat) (mask : Mask) (vals : List Word) (poison : Mask) (uni : Bool) (race : Mask)
  | sreg (r : Nat) (x : Word) (poison : Bool) (race : Bool)
  | pred (r : Nat) (mask : Mask) (bits : Mask) (race : Mask)
  | scc (b : Bool)
  | gsrOr (x : Word)
  | ckint (x : Word)
  deriving DecidableEq, Repr

/-- R194, R332: a register of an MMAR's runs, from its issue to the WAIT that covers it: the unit's tag, whether it belongs to the b-run,
and whether a unit has written it since. -/
structure MxRun where
  tag : Nat
  reg : Nat
  b : Bool
  touched : Bool
  deriving DecidableEq, Repr

/-- The element operations of R224, R226 and R227. -/
inductive AtomOp where
  | addI32 | addF32 | addBf2 | minI | maxI | minN | maxN | and | or | xor | xchg | minF32 | maxF32
  | addI64 | xchg64 | cas
  deriving DecidableEq, Repr

/-- Where an element operation is performed (R229, R230). -/
inductive AtomPlace where
  | near | home | host | peer
  deriving DecidableEq, Repr

/-- Where an access is performed: the key in memory, the memory type (0 to 5 by R214, 6 scratch, 7 stack), the home slice
(R201), and whether the line goes through the directory. -/
structure Loc where
  key : Nat
  ty : Nat
  slice : Nat
  shared : Bool
  deriving DecidableEq, Repr

/-- An element operation of an atomic unit that has not yet been performed: its lane, its place, its data and whether they
are poisoned, its cache policies. -/
structure ElemOp where
  lane : Nat
  op : AtomOp
  loc : Loc
  n : Nat
  cmp : Nat
  data : Nat
  pz : Bool
  place : AtomPlace
  lpol : Nat
  spol : Nat
  deriving DecidableEq, Repr

/-- What kind of counted operation a pending entry is. -/
inductive PendKind where
  | load | store | atomic | pageReq | cache | tlbinv | harvest | haze | hazeDrain | spawn | sync | matrix | engine | term
  deriving DecidableEq, Repr

/-- A counted operation in flight (R71): its counter, the register writes it still owes, the element operations still to
be performed, the pages it waits for (R177), its requests at peers without a response (R411: the lanes and the port of each), and whether its
own unit has finished. -/
structure Pending where
  ctr : Ctr
  kind : PendKind
  tag : Nat
  writes : List RegWrite
  todo : List ElemOp
  dest : List Nat
  pages : List Nat
  peers : List (Mask × Nat)
  done : Bool
  deriving DecidableEq, Repr

/-- R320: an arrival at MMAR.J: its tag, its rows (lane, key, A words), its B words. -/
structure Arrival where
  tag : Nat
  rows : List (Nat × Nat × List (Word × Bool))
  bw : List (List (Word × Bool))
  deriving DecidableEq, Repr

/-- What a group that is not ready waits for. -/
inductive Wait where
  | ready
  | sleep (till : Nat)
  /-- BAR (0), or the BAR that IRGN.WG (1) and IRGE (2) perform (R262, R374, R375) -/
  | bar (cont : Nat)
  /-- WAIT: its thresholds (R72) -/
  | counts (ld st mx en tm : Nat)
  /-- a counter at its maximum, a release, or CHKERR: the counters' limits, and whether every engine command must have arrived
  (R71, R339, R383) -/
  | limits (ld st mx en tm : Nat) (arrived : Bool)
  /-- FENCE, while it waits for loads, stores or vector results (R191, R194) -/
  | fence (loads stores vectors : Bool)
  | cbar
  | electw (p : Nat) (lane : Option Nat)
  /-- MMAR.J, until the four groups of its set have arrived (R320): its tag, its rows (lane, key, A words), its B words -/
  | join (tag : Nat) (rows : List (Nat × Nat × List (Word × Bool))) (bw : List (List (Word × Bool)))
  /-- LLOCK or LTRY: the line, the scalar that gets the status, the clock at which its timeout expires (none: no limit) -/
  | lock (line : Nat) (d : Nat) (deadline : Option Nat)
  /-- LUNLOCK, until its release is resolved (R237) -/
  | unlock (line : Nat) (d : Nat)
  | sync (key : Nat) (gen : Nat)
  /-- a TFAIL whose page is there, or has been refused, runs again (R340) -/
  | rerun
  /-- a replayable fault (R367): the page, whether it was a store, the lane and its address -/
  | page (va : Nat) (store : Bool) (lane addr : Nat)
  /-- TFAIL, for the page request of a number (R340, R353) -/
  | term (seq : Nat)
  /-- LAUNCH, until its packet is decoded (R251): the scalar that gets the status -/
  | launch (d : Nat)
  /-- a store behind page requests and term jobs of its group, or a release, which waits for drains too (R183, R187, R339) -/
  | order (drains : Bool)
  /-- a release at SYS scope, until the zero-length read behind its posted writes completes (R404) -/
  | posted
  /-- killed, until its term jobs have ended (R339, R364): the group issues nothing more -/
  | dying
  /-- not started, or ended (R100) -/
  | ended
  deriving DecidableEq, Repr

/-- R374: an idempotent region the group is in: its scope, the depths recorded, the error restarts, and the counts of BAR,
CBAR and ELECTW at its start (R378) (DEDUCED, log entry 23). -/
structure Region where
  wg : Bool
  ret : Nat
  recon : Nat
  restarts : Nat
  nBar : Nat
  nCbar : Nat
  nElectw : Nat
  deriving DecidableEq, Repr

/-- A register as the checking scoreboard names it (R69, R70, R143). -/
inductive Ref where
  | v (n : Nat)
  | s (n : Nat)
  | p (n : Nat)
  | spr (n : Nat)
  | scc
  | rnd
  /-- the execution mask as a unit runs under it, and the parts of the two stacks on chip (R380): never waited for -/
  | mask
  | ret
  | recon
  deriving DecidableEq, Repr

/-- The value a register had before a fixed-latency producer's write (R70). -/
inductive RefVal where
  | vec (x : VReg)
  | word (x : Word) (poison : Bool)
  | mask (x : Mask)
  | rnd (x : List Rnd)
  deriving DecidableEq, Repr

/-- A fixed-latency result that is not ready before the clock given (R69), and the lanes it wrote. -/
structure Inflight where
  ref : Ref
  ready : Nat
  lanes : Mask
  old : RefVal
  deriving DecidableEq, Repr

/-- One group: everything R12, R55 to R107, R142 and R361 to R378 give it. -/
structure Group where
  id : Nat
  /-- order of becoming resident (R65) -/
  age : Nat
  core : Nat
  quarter : Nat
  place : Nat
  ctx : Nat
  root : Nat
  grid : Nat
  wg : Nat
  wgidX : Word
  wgidY : Word
  wgidZ : Word
  gidx : Nat
  member : Nat
  num : Nat
  real : Nat
  present : Mask
  exited : Mask
  mask : Mask
  gslots : Nat
  pc : Addr
  v : List VReg
  s : List Word
  sPoison : BitVec 64
  /-- R380: an uncorrectable error marks predicate 0 to 7, or the part on chip of the return (8) or the reconvergence stack (9) -/
  bad : BitVec 16
  p : List Mask
  gsr : Word
  fmt : Word
  sig : Word
  sigLatch : Word
  sw : Word
  mshape : Word
  mcloud : Word
  ckint : Word
  rpc : Addr
  seed : Word
  cych : Word
  rnd : List Rnd
  ret : List RetEntry
  retArea : Nat
  recon : List ReconEntry
  reconArea : Nat
  /-- R87: how many of the oldest entries of each stack a store into the control area has left undefined -/
  retLost : Nat
  reconLost : Nat
  recTouched : Bool
  handler : Option (Nat × Nat)
  region : Option Region
  wait : Wait
  pend : List Pending
  mxRuns : List MxRun
  nBar : Nat
  nCbar : Nat
  nElectw : Nat
  nJoin : Nat
  /-- R320, R380: arrivals at MMAR.J that still wait for their sets though the group has gone on to a trap handler -/
  arrived : List Arrival
  triggered : Bool
  active : Bool
  readySince : Nat
  notBefore : Nat
  inflight : List Inflight
  replay : Bool
  /-- R353: the pages refused to the TFAIL that waits -/
  termRefused : List Nat
  /-- R62: where the group's register block begins in its quarter, in units of 4 granules -/
  block : Nat
  /-- R369: taken by a pre-emption: the group issues nothing -/
  stopped : Bool
  /-- R371: its record is written and it is not resident -/
  saved : Bool
  /-- a refused page request (R367): the lane and address the trap reports -/
  refused : Option (Nat × Nat)
  deriving DecidableEq, Repr

/-- R100, R332: the register block of a group that has ended with stores, haze contributions or matrix operations outstanding: its
group with its context and number, its quarter, where it begins and how many units it has. -/
structure HeldBlock where
  grp : Nat
  ctx : Nat
  num : Nat
  core : Nat
  quarter : Nat
  block : Nat
  units : Nat
  deriving DecidableEq, Repr

/-- R246: a launch packet as decoded. -/
structure Packet where
  entry : Nat
  args : Nat
  seq : Nat
  flags : Nat
  x : Nat
  y : Nat
  z : Nat
  shape : Nat
  sw : Nat
  sa : Nat
  sc : Nat
  fmt : Nat
  root : Nat
  stack : Nat
  stride : Nat
  seed : Nat
  entries : Nat
  spawn : Nat
  resA : Nat
  overflow : Nat
  ovsize : Nat
  resB : Nat
  compl : Nat
  walk : Nat
  deriving DecidableEq, Repr

/-- A grid in progress: its packet, its origin (queue 255: LAUNCH), the child packets it holds (R254), how far its curve has
come (R256), how many positions have been started, the cluster of its present batch (R257), the grid it depends on
(R259). -/
structure Grid where
  id : Nat
  /-- the address its packet was read at: physical of a host queue's ring, virtual of LAUNCH (R371) -/
  addr : Nat
  queue : Nat
  pri : Nat
  pkt : Packet
  children : List Packet
  cursor : Nat
  started : Nat
  batch : Nat
  pred : Option Nat
  /-- what a placement depended on when it failed last (R64) -/
  tried : Option (List Nat)
  deriving DecidableEq, Repr

/-- R251: a LAUNCH whose packet waits to be decoded: its group, the scalar that gets the status, the packet's
address, its two halves. -/
structure LaunchReq where
  grp : Nat
  d : Nat
  va : Nat
  lo : Loc
  hi : Loc
  deriving DecidableEq, Repr

/-- R248: a completion record held while the host link is down (R407): queue, packet, address, bytes. -/
structure HeldRecord where
  queue : Nat
  id : Nat
  key : Nat
  bytes : List Byte
  deriving DecidableEq, Repr

/-- A workgroup: its place, its scratch reservation (R163, R253), the cloud it belongs to, whether its record is saved. -/
structure Wg where
  id : Nat
  grid : Nat
  cloud : Nat
  core : Nat
  member : Nat
  members : Nat
  x : Nat
  y : Nat
  z : Nat
  n : Nat
  child : Option Nat
  offW : Nat
  offA : Nat
  offC : Nat
  sizeW : Nat
  sizeA : Nat
  sizeC : Nat
  saving : Bool
  saved : Bool
  live : Bool
  deriving DecidableEq, Repr

/-- R368: a context block. -/
structure CtxBlock where
  ctx : Nat
  trapVec : Addr
  trapBase : Addr
  saveBase : Nat
  saveLen : Nat
  saveUsed : Nat
  full : Bool
  busy : Bool
  /-- the command in progress: 1 pre-empt, 2 resume; 3, 4: taken up -/
  cmd : Nat
  /-- R369, R372: no new work of the context starts until it is resumed -/
  stopped : Bool
  saveNext : Nat
  kills : Word
  ckSum : Word
  gnum : Nat
  priv : Bool
  held : List Nat
  restart : List Nat
  records : List (Nat × Nat)
  deriving DecidableEq, Repr

/-- R212: a TLB entry: the core (L1) or cluster (L2), the context, the page, the entry's word and where
the entry lies. -/
structure Tlb where
  l2 : Bool
  unit : Nat
  ctx : Nat
  va : Nat
  size : Nat
  pte : Addr
  pteAddr : Nat
  deriving DecidableEq, Repr

/-- R216: an unresolved page request. -/
structure PageReq where
  seq : Nat
  va : Nat
  ctx : Nat
  kind : Nat
  cluster : Nat
  written : Bool
  deriving DecidableEq, Repr

/-- R234: the states of a waiter node. -/
inductive NodeSt where
  | wait | proxy | stub
  deriving DecidableEq, Repr

/-- R234: a waiter node of the bead chain. -/
structure LockNode where
  grp : Nat
  core : Nat
  st : NodeSt
  linked : Bool
  deriving DecidableEq, Repr

/-- R234: a lock-table entry: its line with its type and class, its holder and nodes, whether the lock is on its way from one
holder to the next, and whether it was abandoned. -/
structure LockEntry where
  line : Nat
  ty : Nat
  shared : Bool
  slice : Nat
  holder : Option Nat
  nodes : List LockNode
  passing : Bool
  abn : Bool
  deriving DecidableEq, Repr

/-- R234 to R237: a message of the lock protocol. -/
inductive LockMsg where
  /-- LLOCK or LTRY on its way to the home: its group and core, the line, the scalar that gets the status -/
  | request (grp core : Nat) (l : Loc) (d : Nat) (try_ : Bool)
  /-- the home tells a core of the node behind its own -/
  | link (line grp : Nat)
  /-- the lock on its way to the next node: the core it leaves, and the queued term units of its holder that must end before it
  arrives (R188, R339) -/
  | handover (line from_ : Nat) (abandoned : Bool) (waits : List (Nat × Nat))
  /-- a holder without a known successor asks the home -/
  | release (line grp core : Nat) (abandoned : Bool)
  deriving DecidableEq, Repr

/-- R238: a saved group that waits for a lock: its number, the core clocks its timeout has left, and whether its LLOCK returns
SKIPPED. -/
structure SavedGroup where
  id : Nat
  left : Option Nat
  skipped : Bool
  deriving DecidableEq, Repr

/-- R276: an entry of the region table. -/
structure HazeRegion where
  idx : Nat
  base : Nat
  size : Nat
  i32 : Bool
  arr : Bool
  limit : Word
  ctx : Nat
  gen : Nat
  live : Bool
  retiring : Bool
  ovh : Bool
  deriving DecidableEq, Repr

/-- R280: a haze line of a core: its 16 partials, which of them are poisoned, and its share. -/
structure HazeLine where
  core : Nat
  line : Nat
  region : Nat
  parts : List Word
  pz : BitVec 16
  share : Word
  deriving DecidableEq, Repr

/-- R281: a haze entry at a home: its holders with their shares, the free share, and, in state RECALL, the holder
recalled and the core that waits. -/
structure HazeHome where
  line : Nat
  slice : Nat
  region : Nat
  holders : List (Nat × Word)
  free : Word
  recalled : Option (Nat × Nat)
  deriving DecidableEq, Repr

/-- R281 to R287: a message of the haze protocol. -/
inductive HazeMsg where
  /-- a contribution of a lane that has not reached its haze line (R283): group, tag of its unit, core, line, region,
  element, home slice, L1 policy, value -/
  | add (grp tag core line region elem slice lpol : Nat) (x : Word) (pz : Bool)
  | shareRequest (core line region slice : Nat)
  /-- to the holder: its new share, the share it loses, the core that waits -/
  | recall (core line region : Nat) (keep lose : Word) (for_ : Nat)
  | recallAck (core line region : Nat) (parts : List Word) (pz : BitVec 16) (lose : Word) (for_ : Nat)
  | grant (core line region : Nat) (share : Word)
  /-- a forced-drain set of a line (R285, R287); last frees the entry (HEND) -/
  | forced (cores : List Nat) (line region : Nat) (last : Bool) (grp tag : Nat)
  /-- an own drain, of the unit that made it (R284) -/
  | drain (grp tag core line region : Nat) (parts : List Word) (pz : BitVec 16)
  /-- a core gives its line up (R281) -/
  | ret (core line region : Nat) (parts : List Word) (pz : BitVec 16)
  | farAdd (grp tag core line region elem slice : Nat) (x : Word) (pz : Bool)
  deriving DecidableEq, Repr

/-- R298, R302, R304: a command an engine holds, with the parameters latched at issue; sync is the key of its sync word. Engines 0 to 383 are the copy
engines of the cores, 384 to 391 the decode engines of the clusters. -/
structure EngCmd where
  engine : Nat
  grp : Nat
  tag : Nat
  core : Nat
  ctx : Nat
  root : Nat
  priv : Bool
  /-- 0 to 4 CPY, CPY2, CPYG, CPYZ, CPYW; 5 to 8 DEC.JPEG, DEC.G4, DEC.PNG, DEC.QUERY -/
  op : Nat
  src : Nat
  dst : Nat
  b0 : Nat
  b1 : Nat
  b2 : Nat
  b3 : Nat
  sync : Nat
  members : List Nat
  wg : Nat
  accepted : Bool
  deriving DecidableEq, Repr

/-- R319 to R329: the matrix operations. -/
inductive MxKind where
  | mmar
  | mmat (zero : Bool)
  | mzero
  | mquant
  deriving DecidableEq, Repr

/-- R321: a row of MMAR: the group and lane that own it, the key of its C row, the 16 A words of the lane with their marks. -/
structure MxRow where
  grp : Nat
  lane : Nat
  key : Nat
  words : List (Word × Bool)
  deriving DecidableEq, Repr

/-- R326, R327: a tile of MMAT: the keys of its A operand and of its C tile, and its first column of B. -/
structure MxTile where
  a : Nat
  c : Nat
  col : Nat
  deriving DecidableEq, Repr

/-- A matrix operation the core's unit has received, with everything latched at issue (R325). -/
structure MxOp where
  core : Nat
  grp : Nat
  tag : Nat
  kind : MxKind
  fmt : Word
  m : Nat
  k : Nat
  n : Nat
  /-- columns of B in the W buffer, and B's key -/
  nt : Nat
  b : Nat
  tiles : List MxTile
  /-- MZERO's length, or MQUANT's control word -/
  x : Nat
  rows : List MxRow
  /-- B words of MMAR: 32 rows of 16 words with their marks -/
  bw : List (List (Word × Bool))
  /-- the storage the operation writes, and the operand storage it reads: keys and lengths (R194, R331) -/
  owns : List (Nat × Nat)
  reads : List (Nat × Nat)
  /-- the groups whose counter falls, with their tags -/
  owners : List (Nat × Nat)
  /-- the clock at which the unit received it, and the quarter that issued it (R331) -/
  clock : Nat
  quarter : Nat
  deriving DecidableEq, Repr

/-- R194, R332: the buffer storage of a matrix unit from its issue to the WAIT that covers it: its group and tag; what it writes and what
it reads; of MMAT.C the cloud, and the storage of other members, which is the engine's until a CBAR that follows that WAIT; whether that
WAIT has issued; whether something has written the storage. -/
structure MxOwn where
  grp : Nat
  tag : Nat
  cloud : Nat
  owns : List (Nat × Nat)
  reads : List (Nat × Nat)
  far : List (Nat × Nat)
  waited : Bool
  tainted : Bool
  deriving DecidableEq, Repr

/-- R338: the queued term operations. -/
inductive TermKind where
  | deref | unify (oc : Bool) | bind | match_ | choice (alt : Nat) (mask : Nat) | trailTop | commit
  deriving DecidableEq, Repr

/-- A job of a queued term unit: its lane and its operand terms. -/
structure TermJob where
  lane : Nat
  x : Nat
  y : Nat
  /-- TCHOICE's saved pairs, with their marks -/
  saved : List (Nat × Bool)
  running : Bool
  ended : Bool
  /-- R340: the page request the job waits for, the cell it reached, and whether software has refused the page: the job then ends there -/
  page : Option Nat
  cell : Nat
  refused : Bool
  deriving DecidableEq, Repr

/-- A queued term unit (R338): its group, and what the group's accesses need of it. -/
structure TermUnit where
  grp : Nat
  tag : Nat
  core : Nat
  quarter : Nat
  ctx : Nat
  root : Nat
  priv : Bool
  grid : Nat
  num : Nat
  kind : TermKind
  d : Nat
  /-- the clock at which the unit issued (R66) -/
  since : Nat
  jobs : List TermJob
  deriving DecidableEq, Repr

/-- R205, R208: a directory entry of a home slice: its sharers in the home cluster, the other clusters with a proxy entry, its
exclusive owner and placement counter, and, while invalidations are out, the acknowledgements missing and the request they
hold. -/
structure DirEntry where
  line : Nat
  slice : Nat
  cores : BitVec 48
  remote : BitVec 7
  owner : Option Nat
  counter : Nat
  acks : Nat
  next : Option (Nat × Bool)
  deriving DecidableEq, Repr

/-- R205: an entry of a cluster's proxy directory, and, while it invalidates, the acknowledgements missing and the core that
keeps its copy. -/
structure ProxyEntry where
  cluster : Nat
  line : Nat
  cores : BitVec 48
  acks : Nat
  keep : Option Nat
  deriving DecidableEq, Repr

/-- R206: who receives an invalidation: a core, for its home or its cluster's proxy, or a proxy, all of whose cores but one give
their copies up. -/
inductive InvTo where
  | core (c : Nat) (proxied : Bool)
  | proxy (cluster : Nat) (keep : Option Nat)
  deriving DecidableEq, Repr

/-- R206: an invalidation on its way, or its acknowledgement. -/
structure InvMsg where
  line : Nat
  rcv : InvTo
  deriving DecidableEq, Repr

/-- R212: an entry of a cluster's cache of non-leaf page-table entries: the context, the level's shift, the address bits above it,
the next table. -/
structure WalkEntry where
  cluster : Nat
  ctx : Nat
  shift : Nat
  pre : Nat
  next : Nat
  deriving DecidableEq, Repr

/-- R202, R212: a page whose walk waits in a cluster's translation miss table. -/
structure MissEntry where
  cluster : Nat
  ctx : Nat
  va : Nat
  size : Nat
  deriving DecidableEq, Repr

/-- R203: a share request, or (acked) the owner's acknowledgement; the leaf entry's physical address. -/
structure ShareMsg where
  pte : Nat
  owner : Nat
  page : Nat
  size : Nat
  acked : Bool
  deriving DecidableEq, Repr

/-- R167: a line an L1 holds: its core, the class of R167, the group whose access brought it in (R67), whether it is the place of a
haze line (R280), its dirty bytes, and, for host non-coherent memory (R166), the core's own bytes with the marks of their
8-byte words. -/
structure L1Line where
  core : Nat
  line : Nat
  cls : Nat
  grp : Nat
  haze : Bool
  data : List Byte
  dirty : BitVec 64
  pz : BitVec 8
  deriving DecidableEq, Repr

/-- R167: the class a home slice keeps for a line. -/
structure SliceLine where
  slice : Nat
  line : Nat
  cls : Nat
  deriving DecidableEq, Repr

/-- R67: the squall state of a core and its %sqctl and %fragstall. -/
structure CoreRegs where
  core : Nat
  sqctl : Word
  lim : Nat
  hits : Nat
  victims : List (Nat × Nat)
  fragstall : Word
  rowsDone : Word
  rowsSkipped : Word
  retireMark : Bool
  /-- the windows of 4,096 core clocks that have been closed (R67) -/
  window : Nat
  deriving DecidableEq, Repr

/-- R260: an item of a cluster queue: its grid, its entry, four words with their marks. -/
structure SpawnItem where
  grid : Nat
  entry : Nat
  data : List (Word × Bool)
  deriving DecidableEq, Repr

/-- R261: an entry the packing unit holds, and the fabric clock of its last new item. -/
structure HeldEntry where
  grid : Nat
  entry : Nat
  items : List SpawnItem
  last : Nat
  deriving DecidableEq, Repr

/-- R260, R261: the queue and packing unit of a cluster; the overflow ring's head and count by grid. -/
structure SpawnUnit where
  cluster : Nat
  queue : List SpawnItem
  held : List HeldEntry
  count : Word
  ovHead : List (Nat × Nat × Nat)
  deriving DecidableEq, Repr

/-- R249: a host launch queue. -/
structure LQueue where
  q : Nat
  base : Addr
  size : Nat
  tail : Nat
  head : Nat
  en : Bool
  pri : Nat
  acc : Word
  done : Word
  /-- the packets decoded whose completions LQDONE has not passed: packet, seq, whether the record is written -/
  order : List (Nat × Word × Bool)
  /-- R259: the packet decoded last, unless it was rejected -/
  last : Option Nat
  deriving DecidableEq, Repr

/-- R389, R394: an error in a stored word that no access has found yet: the word (the row of a register file, else the key in memory / 8),
its syndrome, whether it is uncorrectable, whether it was injected. -/
structure Latent where
  word : Nat
  syn : Nat
  bad : Bool
  inj : Bool
  deriving DecidableEq, Repr

/-- R395: a row, entry or line whose self-test is to come: as ADDR names it, whether its error was uncorrectable, whether it was injected, and
whether the error marked a word that bore no mark. -/
structure TestRow where
  row : Addr
  bad : Bool
  inj : Bool
  marked : Bool
  deriving DecidableEq, Repr

/-- R392, R394, R395: the log bank of an array instance, by its index (kind << 11) | instance, with the rows that wait for their self-test,
oldest first, and the errors that lie in the array. -/
structure LogBank where
  idx : Nat
  addr : Addr
  v : Bool
  ov : Bool
  sev : Nat
  inj : Bool
  test : Nat
  ctx : Nat
  syn : Nat
  ccnt : Word
  ucnt : Word
  ibit : Nat
  ikind : Nat
  arm : Bool
  spare : Nat
  tests : List TestRow
  latent : List Latent
  deriving DecidableEq, Repr

/-- R408: a CXL pool decoder. -/
structure PoolDec where
  base : Addr
  size : Word
  deriving DecidableEq, Repr

/-- R417: the firmware image in the package flash. -/
structure Flash where
  magic : Word
  length : Word
  svn : Word
  key : Word
  digest : List Byte
  pubkey : List Byte
  sig : List Byte
  pad : List Byte
  body : List Byte
  deriving DecidableEq, Repr

/-- R418: the fuses: key hashes, revoked keys, minimum security version. -/
structure Fuses where
  hashes : List (List Byte)
  revoked : List Nat
  minSvn : Nat
  deriving DecidableEq, Repr

/-- The registers of the management space outside the queues, contexts and banks (R216, R245, R406, R408 to R410,
R420, R422 to R424). -/
structure Mgmt where
  pqBase : Addr
  pqSize : Nat
  pqTail : Nat
  pqHead : Nat
  pqSeq : Nat
  dlBase : Addr
  dlSize : Nat
  dlTail : Nat
  dlHead : Nat
  dlDrop : Word
  eqBase : Addr
  eqSize : Nat
  eqTail : Nat
  eqHead : Nat
  eqSeq : Word
  eqAck : Word
  bootCnt : Word
  reason : Nat
  tries : Nat
  minMode : Bool
  ok : Bool
  fmin : Bool
  pool : List PoolDec
  myId : Nat
  peerWin : List (Nat × Nat)
  peerIn : Bool
  groupTable : List (Nat × Nat)
  localTable : List (Nat × Nat)
  coreRet : List Nat
  attNonce : List Byte
  attBusy : Bool
  attReport : List Byte
  measurement : List Byte
  pwrCap : Nat
  pwrNow : Nat
  clkNow : Nat
  /-- R425: the fabric clocks that had passed, and the core clock, when the core clock last changed its rate -/
  fabBase : Nat
  fabSince : Nat
  temp0 : Nat
  temp1 : Nat
  deriving DecidableEq, Repr

/-- The device. -/
structure State where
  /-- the group that issues next; its wait is ended when no group runs -/
  g : Group
  /-- the other groups of the device, oldest first -/
  others : List Group
  /-- memory: physical addresses below 2^52, the scratch buffers of the cores, the pool by CXL port, peers by device (State.place); canonical (Memory.wf) -/
  mem : List Host.Cell
  /-- the 8-byte words marked poisoned (R389), rising -/
  memPoison : List Nat
  wgs : List Wg
  grids : List Grid
  launchQ : List LaunchReq
  /-- R250: the queue of each priority that is served first next -/
  rr : List Nat
  heldRecs : List HeldRecord
  /-- R253: which context last reserved a range of scratch: key, bytes, context -/
  scratchOf : List (Nat × Nat × Nat)
  ctxs : List CtxBlock
  tlb : List Tlb
  walkCache : List WalkEntry
  misses : List MissEntry
  pageReqs : List PageReq
  locks : List LockEntry
  lockNet : List LockMsg
  savedGroups : List SavedGroup
  hazeRegions : List HazeRegion
  hazeLines : List HazeLine
  hazeHomes : List HazeHome
  hazeNet : List HazeMsg
  engQ : List EngCmd
  mxQ : List MxOp
  mxOwns : List MxOwn
  termQ : List TermUnit
  dir : List DirEntry
  proxies : List ProxyEntry
  invals : List InvMsg
  invAcks : List InvMsg
  shares : List ShareMsg
  l1 : List L1Line
  slices : List SliceLine
  /-- R395: the ways disabled in a set of a cache: the bank of the cache and the set, once for each way -/
  ways : List (Nat × Nat)
  /-- R165: the lines of the memory-side caches, by channel, youngest first -/
  msc : List (Nat × Nat)
  /-- R220: the snoop filter's entries by CXL port, oldest first -/
  filter : List (Nat × Nat)
  /-- R402: the host-coherent lines the host-memory home agent tracks, oldest first -/
  agent : List Nat
  wrec : List Nat
  cores : List CoreRegs
  spawn : List SpawnUnit
  lqs : List LQueue
  banks : List LogBank
  mgmt : Mgmt
  flash : Flash
  fuses : Fuses
  /-- events held while the event ring is full (R406): kind and detail -/
  heldEvents : List (Nat × Nat)
  /-- MSI-X vectors fired, oldest first (R400) -/
  msix : List Nat
  /-- posted writes to host MMIO, oldest first (R404) -/
  mmioOut : List (Nat × List Byte)
  /-- ports whose link is down (R407); 31 is the host port -/
  down : List Nat
  /-- requests for other devices held at the Rykel port they leave by, oldest first: port and header (R410, R411) -/
  hops : List (Nat × Nat)
  /-- messages forwarded by Rykel ports, oldest first: port and header (R410) -/
  rykelOut : List (Nat × Nat)
  /-- request buffers a port's receiver has signalled free: port and count (R411) -/
  bufs : List (Nat × Nat)
  /-- groups with posted writes that no zero-length read has followed (R404) -/
  zlr : List Nat
  tripped : Bool
  /-- core clocks since reset -/
  clock : Nat
  /-- the quarters' pipes (R55, R65): core, quarter, pipe, the clock at which it is free, the group it issued last -/
  pipes : List (Nat × Nat × Nat × Nat × Nat)
  /-- R66: the quarters that have started a swap in this clock -/
  swaps : List (Nat × Nat)
  /-- R100: register blocks of ended groups that are not yet free -/
  blocks : List HeldBlock
  nextId : Nat
  /-- the model's own: the number of the next free value (DESIGN CHOICE, log entry 2) -/
  free : Nat
  /-- the model's own: events from outside and choices the spec leaves open, taken before anything else -/
  agenda : List Instr
  /-- the model's own: groups that issue next where the spec leaves the interleaving open -/
  turns : List Nat
  deriving DecidableEq, Repr

/-- Why the machine stops. -/
inductive Fault where
  /-- Raised by the step once a die has reached 105 degrees (R425): all work has stopped until a reset. Safe: the spec
  says the device does nothing more. -/
  | tripped
  deriving DecidableEq, Repr

/-- Why an instruction has no meaning. -/
inductive Refusal where
  /-- Raised by an arm of exec whose instruction has no meaning yet. Safe: nothing is claimed of it. -/
  | notModelled (mnemonic : String)
  deriving DecidableEq, Repr

/-- A vector register of value 0 (R60). -/
def VReg.zero : VReg := ⟨.uniform 0, 0⟩

/-- A group that is not running: every register at the value the log names (DESIGN CHOICE, log entry 5). -/
def Group.blank : Group :=
  { id := 0, age := 0, core := 0, quarter := 0, place := 0, ctx := 0, root := 0, grid := 0, wg := 0, wgidX := 0, wgidY := 0, wgidZ := 0,
    gidx := 0, member := 0, num := 0, real := 0, present := 0, exited := 0, mask := 0, gslots := 0, pc := 0,
    v := List.replicate 64 VReg.zero, s := List.replicate 64 0, sPoison := 0, bad := 0, p := List.replicate 8 0,
    gsr := 0, fmt := 0, sig := 0xFFFF, sigLatch := 0xFFFF, sw := 0, mshape := 0, mcloud := 0, ckint := 0, rpc := 0, seed := 0,
    cych := 0, rnd := List.replicate 96 ⟨0, 0, 0, 0x6C078965⟩, ret := [], retArea := 0, recon := [], reconArea := 0,
    retLost := 0, reconLost := 0, recTouched := false, handler := none, region := none, wait := .ended, pend := [], mxRuns := [], nBar := 0, nCbar := 0, nElectw := 0,
    nJoin := 0, arrived := [], triggered := false, active := false, readySince := 0, notBefore := 0, inflight := [], replay := false,
    termRefused := [], block := 0, stopped := false, saved := false, refused := none }

/-- A packet of zeros. -/
def Packet.zero : Packet :=
  { entry := 0, args := 0, seq := 0, flags := 0, x := 0, y := 0, z := 0, shape := 0, sw := 0, sa := 0, sc := 0, fmt := 0, root := 0,
    stack := 0, stride := 0, seed := 0, entries := 0, spawn := 0, resA := 0, overflow := 0, ovsize := 0, resB := 0, compl := 0,
    walk := 0 }

/-- A context block at reset (R368). -/
def CtxBlock.zero (c : Nat) : CtxBlock :=
  { ctx := c, trapVec := 0, trapBase := 0, saveBase := 0, saveLen := 0, saveUsed := 0, full := false, busy := false, cmd := 0, stopped := false, saveNext := 0, kills := 0,
    ckSum := 0, gnum := 0, priv := false, held := [], restart := [], records := [] }

/-- A host queue at reset (R249). -/
def LQueue.zero (q : Nat) : LQueue :=
  { q := q, base := 0, size := 0, tail := 0, head := 0, en := false, pri := 0, acc := 0, done := 0, order := [], last := none }

/-- A log bank at reset (R392). -/
def LogBank.zero (i : Nat) : LogBank :=
  { idx := i, addr := 0, v := false, ov := false, sev := 0, inj := false, test := 0, ctx := 0, syn := 0, ccnt := 0, ucnt := 0,
    ibit := 0, ikind := 0, arm := false, spare := Config.spareRows i, tests := [], latent := [] }

/-- The per-core registers at reset (R64, R68, R330). -/
def CoreRegs.zero (c : Nat) : CoreRegs :=
  { core := c, sqctl := 0x1040, lim := 8, hits := 0, victims := [], fragstall := 0, rowsDone := 0, rowsSkipped := 0,
    retireMark := false, window := 0 }

/-- A cluster's queue and packing unit at reset (R260). -/
def SpawnUnit.zero (c : Nat) : SpawnUnit := { cluster := c, queue := [], held := [], count := 0, ovHead := [] }

/-- The management registers at reset (R216, R245, R406, R408, R409, R420, R424). -/
def Mgmt.zero : Mgmt :=
  { pqBase := 0, pqSize := 0, pqTail := 0, pqHead := 0, pqSeq := 0, dlBase := 0, dlSize := 0, dlTail := 0, dlHead := 0, dlDrop := 0,
    eqBase := 0, eqSize := 0, eqTail := 0, eqHead := 0, eqSeq := 0, eqAck := 0, bootCnt := 0, reason := 0, tries := 0,
    minMode := false, ok := false, fmin := false, pool := List.replicate 4 ⟨0, 0⟩, myId := 0, peerWin := [], peerIn := false,
    groupTable := [], localTable := [], coreRet := [], attNonce := List.replicate 32 0, attBusy := false,
    attReport := List.replicate 208 0, measurement := List.replicate 64 0, pwrCap := 2400, pwrNow := 0, clkNow := 1900, fabBase := 0, fabSince := 0, temp0 := 0,
    temp1 := 0 }

/-- An empty flash (DESIGN CHOICE, log entry 5). -/
def Flash.zero : Flash :=
  { magic := 0, length := 0, svn := 0, key := 0, digest := List.replicate 64 0, pubkey := List.replicate 32 0,
    sig := List.replicate 64 0, pad := List.replicate 80 0, body := [] }

/-- The device right after reset: no group, no grid, memory with nothing listed, every register at the value the spec
gives, or at the value log entry 5 names. -/
def State.reset : State :=
  { g := Group.blank, others := [], mem := [], memPoison := [], wgs := [], grids := [], launchQ := [], rr := [0, 0, 0, 0], heldRecs := [], scratchOf := [], ctxs := [], tlb := [], walkCache := [], misses := [],
    pageReqs := [], locks := [], lockNet := [], savedGroups := [], hazeRegions := [], hazeLines := [], hazeHomes := [], hazeNet := [], engQ := [],
    mxQ := [], mxOwns := [], termQ := [], dir := [], proxies := [], invals := [], invAcks := [], shares := [], l1 := [], slices := [], ways := [], msc := [], filter := [], agent := [], wrec := [], cores := [],
    spawn := [], lqs := [], banks := [], mgmt := Mgmt.zero, flash := Flash.zero, fuses := ⟨[], [], 0⟩, heldEvents := [], msix := [],
    mmioOut := [], down := [], hops := [], rykelOut := [], bufs := [], zlr := [], tripped := false, clock := 0, pipes := [], swaps := [], blocks := [], nextId := 1, free := 0,
    agenda := [], turns := [] }

end Sys2Proof.Machine
end

