-- ==== Sys2Proof/Machine/Memory.lean ====
section
/-! DEFINITION. Memory as one sorted list of cells (R1, R15): reading and writing bytes, little-endian numbers, and the
marks of poisoned 8-byte words (R389). A byte that nothing has written reads 0 (DESIGN CHOICE, log entry 4). -/

namespace Sys2Proof.Machine

/-- What an unlisted address reads as (DESIGN CHOICE, log entry 4). -/
def Memory.background : Byte := 0

/-- The cells are strictly rising by address and none holds the background. -/
def Memory.wfFrom (lo : Nat) : List Host.Cell → Bool
  | [] => true
  | c :: r => decide (lo ≤ c.1) && c.2 != Memory.background && Memory.wfFrom (c.1 + 1) r

/-- The canonical form of memory. -/
def Memory.wf (m : List Host.Cell) : Bool := Memory.wfFrom 0 m

/-- One byte of memory. -/
def Memory.get : List Host.Cell → Nat → Byte
  | [], _ => Memory.background
  | c :: r, a => if c.1 = a then c.2 else if a < c.1 then Memory.background else Memory.get r a

/-- A cell put in front, unless it holds the background. -/
def Memory.cons (a : Nat) (x : Byte) (r : List Host.Cell) : List Host.Cell :=
  if x = Memory.background then r else (a, x) :: r

/-- Writes one byte and keeps the canonical form. -/
def Memory.put : List Host.Cell → Nat → Byte → List Host.Cell
  | [], a, x => Memory.cons a x []
  | c :: r, a, x =>
    if a < c.1 then Memory.cons a x (c :: r)
    else if c.1 = a then Memory.cons a x r
    else c :: Memory.put r a x

/-- n bytes from a on. -/
def Memory.read (m : List Host.Cell) (a : Nat) : Nat → List Byte
  | 0 => []
  | n + 1 => Memory.get m a :: Memory.read m (a + 1) n

/-- Writes a list of bytes from a on. -/
def Memory.write (m : List Host.Cell) (a : Nat) : List Byte → List Host.Cell
  | [] => m
  | x :: r => Memory.write (Memory.put m a x) (a + 1) r

/-- R1: the number a little-endian byte string holds. -/
def leNat : List Byte → Nat
  | [] => 0
  | x :: r => x.toNat + 256 * leNat r

/-- R1: the n little-endian bytes of a number. -/
def leBytes : Nat → Nat → List Byte
  | 0, _ => []
  | n + 1, x => BitVec.ofNat 8 x :: leBytes n (x / 256)

/-- Inserts into a rising list without repeats. -/
def insertNat (a : Nat) : List Nat → List Nat
  | [] => [a]
  | b :: r => if a < b then a :: b :: r else if a = b then b :: r else b :: insertNat a r

/-- R389: some 8-byte word under the n bytes at a is marked. -/
def poisonAt (p : List Nat) (a n : Nat) : Bool := p.any fun w => decide (w * 8 < a + n ∧ a < w * 8 + 8)

/-- R381: marks every 8-byte word the n bytes at a touch. -/
def markPoison (p : List Nat) (a n : Nat) : List Nat :=
  (List.range ((a + n - 1) / 8 + 1 - a / 8)).foldl (fun q i => insertNat (a / 8 + i) q) p

/-- R389: a word overwritten in full is no longer marked. -/
def clearPoison (p : List Nat) (a n : Nat) : List Nat := p.filter fun w => !decide (a ≤ w * 8 ∧ w * 8 + 8 ≤ a + n)

/-- Bits [lo+n-1:lo] of a number. -/
def bits (x lo n : Nat) : Nat := x / 2 ^ lo % 2 ^ n
/-- Bit i of a number. -/
def bit (x i : Nat) : Bool := x / 2 ^ i % 2 == 1

/-! ### The arrays a write passes (R391, R394) -/

/-- R391: the bank of an array instance; its kind and its instance. -/
def bankIdx (kind inst : Nat) : Nat := kind * 2 ^ 11 + inst
def bankKind (i : Nat) : Nat := i / 2 ^ 11
def bankInst (i : Nat) : Nat := i % 2 ^ 11

/-- R200: the HBM channel of a physical address, 32 * stack + channel in stack. -/
def hbmChannel (pa : Nat) : Nat :=
  32 * bits pa 36 3
    + ((bits pa 10 5 ^^^ bits pa 15 5 ^^^ bits pa 20 5 ^^^ bits pa 25 5 ^^^ bits pa 30 5) ^^^ bits pa 35 1)

/-- R391: the array of a bank holds the byte by its address alone: a scratch buffer, a memory-side cache, an HBM channel
(DESIGN CHOICE, log entry 32). -/
def LogBank.holds (b : LogBank) (a : Nat) : Bool :=
  match bankKind b.idx with
  | 2 => decide (2 ^ 52 ≤ a) && bankInst b.idx == 3 * ((a - 2 ^ 52) / 2 ^ 21) + a % 2 ^ 21 / 0x80000
  | 4 => decide (a < 2 ^ 39) && bankInst b.idx == hbmChannel a
  | 5 => decide (a < 2 ^ 39) && bankInst b.idx == hbmChannel a
  | _ => false
/-- R394: an armed bank places its error in a word that is written. -/
def LogBank.plant (b : LogBank) (word : Nat) : LogBank :=
  if b.arm then { b with arm := false, latent := b.latent ++ [⟨word, b.ibit % 256, b.ikind != 0, true⟩] } else b
/-- R389, R394: n bytes are stored at a: the errors of words overwritten in full are gone, and an armed bank places its own. -/
def LogBank.stored (a n : Nat) (b : LogBank) : LogBank :=
  let b := if bankKind b.idx = 0 then b else { b with latent := b.latent.filter fun e => !decide (a ≤ e.word * 8 ∧ e.word * 8 + 8 ≤ a + n) }
  if !b.arm || n = 0 then b
  else match (List.range ((a + n - 1) / 64 + 1 - a / 64)).map (fun i => max a ((a / 64 + i) * 64)) |>.find? b.holds with
    | some x => b.plant (x / 8)
    | none => b

/-! ### Where a byte stands (R399, R408, R409) -/

/-- R408: an enabled pool decoder covers the address. -/
def PoolDec.covers (d : PoolDec) (pa : Nat) : Bool :=
  d.size.getLsbD 0 && decide (d.base.toNat ≤ pa ∧ pa < d.base.toNat + d.size.toNat / 2 * 2 ^ 30)
/-- R409: peer window w. -/
def State.peerWin (s : State) (w : Nat) : Nat := ((s.mgmt.peerWin.find? fun p => p.1 == w).map (·.2)).getD 0
/-- R399, R408, R409: the key of a byte in memory: of the pool by its CXL port and the pool address sent there; of a peer by the device its
window names and the address there; else the physical address, or the key of a scratch byte. -/
def State.place (s : State) (a : Nat) : Nat :=
  if a < 0x4000000000000 then a
  else if a < 0x4400000000000 then
    match s.mgmt.pool.findIdx? fun d => d.covers a with
    | some p => 2 ^ 60 + p * 2 ^ 52 + (a - (s.mgmt.pool.getD p ⟨0, 0⟩).base.toNat)
    | none => a
  else if 0xD000000000000 ≤ a ∧ a < 0xE000000000000 then 2 ^ 62 + s.peerWin (bits a 40 8) % 2 ^ 20 * 2 ^ 40 + bits a 0 40
  else a

/-- n bytes from an address on. -/
def State.memBytes (s : State) (a n : Nat) : List Byte := Memory.read s.mem (s.place a) n
/-- n bytes of memory as a number. -/
def State.memRead (s : State) (a n : Nat) : Nat := leNat (s.memBytes a n)
/-- The n bytes at a hold poison. -/
def State.memPoisoned (s : State) (a n : Nat) : Bool := poisonAt s.memPoison (s.place a) n
/-- R381, R389: marks the words the n bytes at a touch; forgets the marks of those they cover. -/
def State.markMem (s : State) (a n : Nat) : State := { s with memPoison := markPoison s.memPoison (s.place a) n }
def State.clearMem (s : State) (a n : Nat) : State := { s with memPoison := clearPoison s.memPoison (s.place a) n }
/-- Writes bytes; the words overwritten in full lose their marks and their errors (R389, R394). -/
def State.memStore (s : State) (a : Nat) (bs : List Byte) : State :=
  { s with mem := Memory.write s.mem (s.place a) bs, memPoison := clearPoison s.memPoison (s.place a) bs.length,
           banks := s.banks.map (LogBank.stored a bs.length) }
/-- Writes n bytes of a number. -/
def State.memWrite (s : State) (a n x : Nat) : State := s.memStore a (leBytes n x)
/-- R381: a store of a poisoned value. -/
def State.memWriteP (s : State) (a n x : Nat) (pz : Bool) : State :=
  let t := s.memWrite a n x
  if pz then t.markMem a n else t

/-- The key of offset off of a core's scratch buffers (R11, R162). -/
def scratchKey (core off : Nat) : Nat := 2 ^ 52 + core * 2 ^ 21 + off

end Sys2Proof.Machine
end

