-- ==== Sys2Proof/Machine/Regs.lean ====
section
/-! DEFINITION. The registers of a group: scalar registers and the execution mask (R57), vector registers with their
shapes and slots (R59 to R61), predicates (R116), special registers (R74, R75), and what a consumer sees of a result
that is not ready (R69, R70). -/

namespace Sys2Proof.Machine

/-- The values of lanes by shape, without the slot. -/
inductive VOp where
  | uniform (x : Word)
  | affine (base stride : Word)
  | general (lanes : List Word)
  deriving DecidableEq, Repr

/-- The values of a register without its slot. -/
def VVal.op : VVal → VOp
  | .uniform x => .uniform x
  | .affine b d => .affine b d
  | .general _ ls => .general ls
  | .mixed ls => .general ls

/-- R61: the value of lane l. -/
def VOp.lane : VOp → Nat → Word
  | .uniform x, _ => x
  | .affine b d, l => b + d * BitVec.ofNat 32 l
  | .general ls, l => ls.getD l 0

/-- The compact value of a register of that shape; a general one has none. -/
def VOp.val : VOp → VVal
  | .uniform x => .uniform x
  | .affine b d => .affine b d
  | .general _ => .uniform 0

/-- The register has a general slot. -/
def VOp.isGeneral : VOp → Bool
  | .general _ => true
  | _ => false

/-- R61: the value of lane l of a register. -/
def VReg.lane (x : VReg) (l : Nat) : Word := x.val.op.lane l

/-- The 96 lane numbers. -/
def lanes : List Nat := List.range 96
/-- A mask from a test of lanes. -/
def maskOf (f : Nat → Bool) : Mask := (List.range 96).foldr (fun l m => if f l then m ||| BitVec.twoPow 96 l else m) 0
/-- The lowest lane of a mask, or 96. -/
def lowestLane (m : Mask) : Nat := ((List.range 96).find? fun l => m.getLsbD l).getD 96
/-- The lanes of a mask, ascending. -/
def lanesOf (m : Mask) : List Nat := (List.range 96).filter fun l => m.getLsbD l
/-- The ones of a mask. -/
def countLanes (m : Mask) : Nat := (lanesOf m).length

/-- R57: the lanes whose mask bits may be 1. -/
def Group.live (g : Group) : Mask := g.present &&& ~~~g.exited
/-- R56: the helper lanes. -/
def Group.helpers (g : Group) : Mask := g.present &&& ~~~(BitVec.ofNat 96 (2 ^ g.real - 1))

/-- R57: e0, e1 and e2 as words k = 0, 1, 2 of the mask. -/
def maskWord (m : Mask) (k : Nat) : Word := (m >>> (32 * k)).setWidth 32
/-- The mask with word k replaced. -/
def setMaskWord (m : Mask) (k : Nat) (x : Word) : Mask :=
  (m &&& ~~~((0xFFFFFFFF : Mask) <<< (32 * k))) ||| (x.setWidth 96 <<< (32 * k))

/-- s56 to s58 are e0 to e2 (R57). -/
def isMaskReg (r : Nat) : Bool := decide (56 ≤ r ∧ r ≤ 58)

/-- The scalar register as the last write left it. -/
def Group.rawS (g : Group) (r : Nat) : Word := if isMaskReg r then maskWord g.mask (r - 56) else g.s.getD r 0
/-- The scalar register's word is marked poisoned (R381). -/
def Group.rawSP (g : Group) (r : Nat) : Bool := g.sPoison.getLsbD r

/-- R70: the value of a register from before the first producer whose result is not ready at the clock given. -/
def Group.stale (g : Group) (now : Nat) (r : Ref) : Option RefVal :=
  (g.inflight.find? fun e => decide (e.ref = r ∧ now < e.ready)).map (·.old)
/-- R69: a producer's latency counts for what the reference names. -/
def Ref.timed : Ref → Bool
  | .mask => false
  | .ret => false
  | .recon => false
  | _ => true
/-- R69, R70: the register's result is not ready. -/
def Group.notReady (g : Group) (now : Nat) (r : Ref) : Bool := r.timed && (g.stale now r).isSome

/-- A scalar register as a consumer issuing now reads it; bits of e0 to e2 of absent and exited lanes read 0 (R57). -/
def Group.rdS (g : Group) (now r : Nat) : Word :=
  match g.stale now (.s r) with
  | some (.word x _) => if isMaskReg r then x &&& maskWord g.live (r - 56) else x
  | _ => g.rawS r
/-- Its mark as a consumer issuing now reads it. -/
def Group.rdSP (g : Group) (now r : Nat) : Bool :=
  match g.stale now (.s r) with
  | some (.word _ p) => p
  | _ => g.rawSP r
/-- R381: a word of the execution mask is marked. -/
def Group.maskSpoilt (g : Group) (now : Nat) : Bool := g.rdSP now 56 || g.rdSP now 57 || g.rdSP now 58
/-- R380, R381: a unit that uses this consumes an uncorrectable error: a predicate, a stack on chip, the mask. A scalar's word and a vector's lanes
are left to the unit, which may hand their mark on. -/
def Group.spoilt (g : Group) (now : Nat) : Ref → Bool
  | .p n => g.bad.getLsbD n
  | .ret => g.bad.getLsbD 8
  | .recon => g.bad.getLsbD 9
  | .mask => g.maskSpoilt now
  | _ => false
/-- R58: the execution mask as a vector instruction issuing now uses it. -/
def Group.rdMask (g : Group) (now : Nat) : Mask :=
  if g.notReady now (.s 56) || g.notReady now (.s 57) || g.notReady now (.s 58) then
    (setMaskWord (setMaskWord (setMaskWord 0 0 (g.rdS now 56)) 1 (g.rdS now 57)) 2 (g.rdS now 58)) &&& g.live
  else g.mask
/-- R194, R332: the register belongs to a matrix unit that no WAIT has covered. -/
def Group.mxHeld (g : Group) (r : Nat) : Bool := g.mxRuns.any fun x => x.reg == r
/-- R331: a vector register as a matrix unit issuing now reads it: units that only read may share it. -/
def Group.rdVmx (g : Group) (now r : Nat) : VReg :=
  match g.stale now (.v r) with
  | some (.vec x) => x
  | _ => g.v.getD r VReg.zero
/-- A vector register as a consumer issuing now reads it; one that belongs to a matrix unit reads as free values. -/
def Group.rdV (g : Group) (now r : Nat) : VReg :=
  if g.mxHeld r then ⟨.general 0 ((List.range 96).map fun l => Config.heldWord now r l), 0⟩ else g.rdVmx now r
/-- A predicate as a consumer issuing now reads it. -/
def Group.rdP (g : Group) (now r : Nat) : Mask :=
  match g.stale now (.p r) with
  | some (.mask x) => x
  | _ => g.p.getD r 0
/-- R75: bit b of %gsr. -/
def Group.gsrBit (g : Group) (b : Nat) : Bool := g.gsr.getLsbD b
/-- R75: %gsr with bit b set to x. -/
def setBit (w : Word) (b : Nat) (x : Bool) : Word :=
  if x then w ||| BitVec.twoPow 32 b else w &&& ~~~(BitVec.twoPow 32 b)
/-- SCC as a consumer issuing now reads it. -/
def Group.rdScc (g : Group) (now : Nat) : Bool :=
  match g.stale now .scc with
  | some (.word x _) => x.getLsbD 0
  | _ => g.gsrBit 0
/-- %fmt as a consumer issuing now reads it (R69). -/
def Group.rdFmt (g : Group) (now : Nat) : Word :=
  match g.stale now (.spr 1) with
  | some (.word x _) => x
  | _ => g.fmt
/-- The random states as a consumer issuing now reads them (R143). -/
def Group.rdRnd (g : Group) (now : Nat) : List Rnd :=
  match g.stale now .rnd with
  | some (.rnd x) => x
  | _ => g.rnd
/-- R75: CHK, which enables the checking scoreboard. -/
def Group.chk (g : Group) : Bool := g.gsrBit 1
/-- R75: PRIV. -/
def Group.priv (g : Group) : Bool := g.gsrBit 2

/-- R74: a special register's word as the last write left it, by its number. -/
def Group.rawSpr (g : Group) (n : Nat) : Word :=
  match n with
  | 0 => g.gsr
  | 1 => g.fmt
  | 2 => g.sig
  | 3 => g.sw
  | 4 => g.mshape
  | 5 => g.mcloud
  | 12 => g.ckint
  | _ => 0

/-- The register as it stands, to be kept for consumers that issue too early (R70). -/
def Group.refVal (g : Group) : Ref → RefVal
  | .v n => .vec (g.v.getD n VReg.zero)
  | .s n => .word (g.rawS n) (g.rawSP n)
  | .p n => .mask (g.p.getD n 0)
  | .spr n => .word (g.rawSpr n) false
  | .scc => .word (g.gsr &&& 1) false
  | .rnd => .rnd g.rnd
  | .mask => .mask g.mask
  | .ret => .word 0 false
  | .recon => .word 0 false

/-- R70: a later write of lanes m of the register, ready at clock c, stands over an earlier one of no other lanes. -/
def Inflight.under (r : Ref) (c : Nat) (m : Mask) (e : Inflight) : Inflight :=
  if e.ref = r ∧ e.lanes &&& ~~~m = 0 then { e with ready := min e.ready c } else e
/-- R69: a fixed-latency producer of the lanes m of r whose result is ready at clock c issues now. -/
def Group.produceIn (g : Group) (r : Ref) (c : Nat) (m : Mask) : Group :=
  { g with inflight := g.inflight.map (Inflight.under r c m) ++ [⟨r, c, m, g.refVal r⟩] }
/-- R69: the same for a register without lanes. -/
def Group.produce (g : Group) (r : Ref) (c : Nat) : Group := g.produceIn r c (BitVec.allOnes 96)

/-- Sets bits of %ckint (R382). -/
def Group.ck (g : Group) (b : Nat) : Group := { g with ckint := setBit g.ckint b true }

/-- R60: a later unit writes scalar r, predicate r or lanes m of vector register r before a counted result arrives. -/
def RegWrite.raceS (r : Nat) : RegWrite → RegWrite
  | .sreg q x p _ => if q = r then .sreg q x p true else .sreg q x p false
  | w => w
/-- R60 for a predicate. -/
def RegWrite.raceP (r : Nat) (m : Mask) : RegWrite → RegWrite
  | .pred q k b c => if q = r then .pred q k b (c ||| m) else .pred q k b c
  | w => w
/-- R60 for a vector register. -/
def RegWrite.raceV (r : Nat) (m : Mask) : RegWrite → RegWrite
  | .vec q k x p u c => if q = r then .vec q k x p u (c ||| m) else .vec q k x p u c
  | w => w
/-- Marks a race in every counted result of the group that has not arrived (DESIGN CHOICE, log entry 54). -/
def Group.race (g : Group) (f : RegWrite → RegWrite) : Group :=
  { g with pend := g.pend.map fun p => { p with writes := p.writes.map f } }

/-- R194, R332: register r is written while a matrix unit owns it. -/
def Group.touchRun (g : Group) (r : Nat) : Group :=
  { g with mxRuns := g.mxRuns.map fun (x : MxRun) => if x.reg = r then { x with touched := true } else x }

/-- Writes a scalar register; a write of e0, e1 or e2 keeps bits of absent and exited lanes at 0 (R57). -/
def Group.putS (g : Group) (r : Nat) (x : Word) (pz : Bool) : Group :=
  let h : Group := if isMaskReg r then { g with mask := setMaskWord g.mask (r - 56) x &&& g.live } else { g with s := g.s.set r x }
  { h with sPoison := if pz then g.sPoison ||| BitVec.twoPow 64 r else g.sPoison &&& ~~~(BitVec.twoPow 64 r) }
/-- A unit's write of a scalar register, with the race of R60. -/
def Group.writeS (g : Group) (r : Nat) (x : Word) (pz : Bool) : Group := (g.race (RegWrite.raceS r)).putS r x pz
/-- Sets SCC. -/
def Group.writeScc (g : Group) (b : Bool) : Group := { g with gsr := setBit g.gsr 0 b }
/-- A result that is ready at once replaces what earlier producers left of the register. -/
def Group.settleRef (g : Group) (r : Ref) : Group := { g with inflight := g.inflight.filter fun e => e.ref != r }
/-- A scalar result that stands before the group is ready again. -/
def Group.nowS (g : Group) (r : Nat) (x : Word) : Group := (g.settleRef (.s r)).writeS r x false
/-- SCC likewise. -/
def Group.nowScc (g : Group) (b : Bool) : Group := (g.settleRef .scc).writeScc b
/-- R116: writes bits of a predicate in the lanes m, which are present; written in all of them it loses its mark (R389). -/
def Group.putP (g : Group) (r : Nat) (m bits : Mask) : Group :=
  { g with p := g.p.set r ((g.p.getD r 0 &&& ~~~m) ||| (bits &&& m)),
           bad := if g.present &&& ~~~m = 0 then g.bad &&& ~~~(BitVec.twoPow 16 r) else g.bad }
/-- A unit's write of a predicate, with the race of R60. -/
def Group.writeP (g : Group) (r : Nat) (m bits : Mask) : Group := (g.race (RegWrite.raceP r m)).putP r m bits

/-- R59: a write in the lanes m is full. -/
def Group.full (g : Group) (m : Mask) : Bool := decide (g.present &&& ~~~m = 0)
/-- R60: the slot of a general register. -/
def VVal.slot? : VVal → Option Nat
  | .general k _ => some k
  | _ => none
/-- R60: the lowest free slot. -/
def Group.freeSlot (g : Group) : Option Nat :=
  (List.range g.gslots).find? fun k => g.v.all fun x => x.val.slot? != some k
/-- R60: a counted result is still to arrive in register r. -/
def Group.owed (g : Group) (r : Nat) : Bool :=
  g.pend.any fun p => p.writes.any fun w => match w with
    | .vec q _ _ _ _ _ => q == r
    | _ => false

/-- R59, R60: a write of the values x in the lanes m of register r, full or partial; none when it needs a slot and no
slot is free. -/
def Group.putV (g : Group) (r : Nat) (m : Mask) (x : VOp) (pz : Mask) : Option Group :=
  let old := g.v.getD r VReg.zero
  let poison := (old.poison &&& ~~~m) ||| (pz &&& m)
  let compact : Option VVal :=
    if g.full m && !(g.owed r && old.val.slot?.isSome) then
      match x with
      | .uniform w => some (.uniform w)
      | .affine b d => some (.affine b d)
      | .general _ => none
    else none
  match compact with
  | some c => some { g with v := g.v.set r ⟨c, poison⟩ }
  | none =>
    let ls := lanes.map fun l => if m.getLsbD l then x.lane l else old.lane l
    match (match old.val.slot? with | some k => some k | none => g.freeSlot) with
    | some k => some { g with v := g.v.set r ⟨.general k ls, poison⟩ }
    | none => none

/-- A unit's write of a vector register, with the race of R60. -/
def Group.writeV (g : Group) (r : Nat) (m : Mask) (x : VOp) (pz : Mask) : Option Group :=
  ((g.race (RegWrite.raceV r m)).touchRun r).putV r m x pz

/-- R60: register r becomes general with the values it has, for a counted result that needs a slot. -/
def Group.takeSlot (g : Group) (r : Nat) : Option Group :=
  let old := g.v.getD r VReg.zero
  match old.val with
  | .general _ _ => some g
  | _ => g.freeSlot.map fun k => { g with v := g.v.set r ⟨.general k (lanes.map fun l => old.lane l), old.poison⟩ }

/-- R12: a group of the device by its number; the issuing group stands in g. -/
def State.group? (s : State) (id : Nat) : Option Group :=
  if s.g.id = id then some s.g else s.others.find? fun g => g.id == id
/-- Replaces the group with the number given. -/
def State.updGroup (s : State) (id : Nat) (f : Group → Group) : State :=
  if s.g.id = id then { s with g := f s.g } else { s with others := s.others.map fun g => if g.id = id then f g else g }
/-- Every group of the device. -/
def State.groups (s : State) : List Group := s.g :: s.others
/-- Applies a change to every group. -/
def State.mapGroups (s : State) (f : Group → Group) : State := { s with g := f s.g, others := s.others.map f }
/-- Changes the issuing group. -/
def State.mg (s : State) (f : Group → Group) : State := { s with g := f s.g }

/-- The next free value's number, and the state that has used it (DESIGN CHOICE, log entry 2). -/
def State.fresh (s : State) : State := { s with free := s.free + 1 }

/-- The position after n bytes, and the earliest clock of the next unit (R69). -/
def State.advance (s : State) (n st : Nat) : State :=
  s.mg fun g => { g with pc := g.pc + BitVec.ofNat 64 n, notBefore := s.clock + 1 + st }
/-- R82, R103: a control transfer to a target. -/
def State.jump (s : State) (target : Addr) (st : Nat) : State :=
  s.mg fun g => { g with pc := target, notBefore := s.clock + 1 + max st 2, sig := 0xFFFF }

/-- Why a unit ends without its effect. -/
inductive Stop where
  /-- RaiseTrap of R42: cause, detail, lane and address of R361 and R363 -/
  | trap (cause detail lane addr : Nat)
  /-- a replayable fault (R367): the page, whether the access stores, the lane and its address -/
  | page (base : Nat) (store : Bool) (lane addr : Nat)
  /-- poison consumed (R380), with its reach -/
  | consumed (reach : Nat)
  /-- the unit does not issue before a clock: a pipe or an order holds it (R55, R67) -/
  | hold (till : Nat)
  /-- the unit does not issue before a condition holds: a counter's limit (R71, R72) -/
  | await (w : Wait)
  deriving DecidableEq, Repr

/-- The effect of a unit: a new state, or an end without effect. -/
abbrev M := EStateM Stop State

/-- Applies a change of the issuing group's view to another group: that group stands in g meanwhile. -/
def State.onGroup (s : State) (id : Nat) (f : State → State) : State :=
  if s.g.id = id then f s
  else
    match s.others.find? fun g => g.id == id with
    | none => s
    | some k =>
      let t := f { s with g := k, others := s.others.map fun g => if g.id = id then s.g else g }
      match t.others.find? fun g => g.id == s.g.id with
      | none => t
      | some h => { t with g := h, others := t.others.map fun g => if g.id = s.g.id then t.g else g }

end Sys2Proof.Machine
end

