-- ==== Sys2Proof/Machine/Report.lean ====
section
/-! DEFINITION. What the device reports: events and MSI-X vectors toward the host (R400, R406), and the error logs of its
arrays (R391 to R395). -/

namespace Sys2Proof.Machine

/-- R399: the physical address of host memory at a host address. -/
def hostKey (a : Nat) : Nat := 0x8000000000000 + a

/-- R200, R421: where the HBM in service ends. -/
def State.hbmEnd (s : State) : Nat := if s.mgmt.minMode then 2 ^ 36 else 2 ^ 39
/-- R216, R245, R421: the device writes a ring in HBM; what lies in no range of HBM goes nowhere (DESIGN CHOICE, log entry 62). -/
def State.hbmStore (s : State) (a : Nat) (bs : List Byte) : State := if a + bs.length ≤ s.hbmEnd then s.memStore a bs else s
/-- R399, R406: the same of a ring in host memory, by host address. -/
def State.hostStore (s : State) (a : Nat) (bs : List Byte) : State := if a + bs.length ≤ 2 ^ 46 then s.memStore (hostKey a) bs else s

/-- R425: fabric clocks since reset: at 2.0 GHz, whatever the core clock's rate in MHz has been (DEDUCED, log entry 45). -/
def State.fabricClock (s : State) : Nat := s.mgmt.fabBase + (s.clock - s.mgmt.fabSince) * 2000 / s.mgmt.clkNow

/-- R406: the ring has no room for a record. -/
def State.eqFull (s : State) : Bool := decide (s.mgmt.eqSize ≤ (s.mgmt.eqTail + 2 ^ 32 - s.mgmt.eqHead) % 2 ^ 32)

/-- R406: writes one record, then fires vector 0. -/
def State.eqWrite (s : State) (kind detail : Nat) : State :=
  let seq := s.mgmt.eqSeq + 1
  let t := s.hostStore (s.mgmt.eqBase.toNat + 16 * (s.mgmt.eqTail % s.mgmt.eqSize)) (leBytes 4 seq.toNat ++ leBytes 4 kind ++ leBytes 8 detail)
  { t with mgmt := { t.mgmt with eqSeq := seq, eqTail := (t.mgmt.eqTail + 1) % 2 ^ 32 }, msix := t.msix ++ [0] }

/-- R407: the host link is down. -/
def State.hostDown (s : State) : Bool := s.down.contains 31

/-- R406: posts an event: passed over while posting is disabled, held in order while the ring is full or the link down. -/
def State.postEvent (s : State) (kind detail : Nat) : State :=
  if s.mgmt.eqSize = 0 then { s with mgmt := { s.mgmt with eqSeq := s.mgmt.eqSeq + 1 } }
  else if !s.heldEvents.isEmpty || s.eqFull || s.hostDown then { s with heldEvents := s.heldEvents ++ [(kind, detail)] }
  else s.eqWrite kind detail

/-- R406: writes held events while there is room. -/
def State.flushEvents (s : State) : List (Nat × Nat) → State
  | [] => { s with heldEvents := [] }
  | e :: r =>
    if s.eqFull || s.hostDown then { s with heldEvents := e :: r }
    else State.flushEvents (s.eqWrite e.1 e.2) r

/-- R400: fires an MSI-X vector. -/
def State.fire (s : State) (v : Nat) : State := { s with msix := s.msix ++ [v] }

/-- R391: the management offset of a bank. -/
def bankOffset (i : Nat) : Nat := 0x200000 + 0x40 * i
/-- R392: a bank as it stands. -/
def State.bank (s : State) (i : Nat) : LogBank := (s.banks.find? fun b => b.idx == i).getD (LogBank.zero i)
/-- Replaces a bank. -/
def State.setBank (s : State) (b : LogBank) : State := { s with banks := b :: s.banks.filter fun c => c.idx != b.idx }
/-- R392: counters saturate. -/
def satInc (x : Word) : Word := if x = 0xFFFFFFFF then x else x + 1

/-- R395: a row joins those that wait for their self-test; one that waits already keeps its place. -/
def addTest (r : TestRow) (ts : List TestRow) : List TestRow :=
  if ts.any fun t => t.row == r.row then
    ts.map fun t => if t.row = r.row then ⟨t.row, t.bad || r.bad, t.inj && r.inj, t.marked || r.marked⟩ else t
  else ts ++ [r]
/-- R393, R395: an error of severity sev is found in a bank's array; its row waits for the self-test. -/
def State.logError (s : State) (i sev addr ctx syn : Nat) (inj : Bool) : State :=
  let b := s.bank i
  let b := if sev = 0 then { b with ccnt := satInc b.ccnt } else { b with ucnt := satInc b.ucnt }
  let b := { b with test := 1, tests := addTest ⟨BitVec.ofNat 64 addr, sev != 0, inj, sev != 0 && !s.memPoisoned addr 8⟩ b.tests }
  let write := !b.v || (b.sev = 0 && sev != 0)
  let b :=
    if write then { b with v := true, ov := false, sev := sev, addr := BitVec.ofNat 64 addr, ctx := ctx, syn := syn, inj := inj }
    else if b.sev != 0 && sev != 0 then { b with ov := true } else b
  let s := s.setBank b
  if write && sev != 0 then (s.postEvent 2 (bankOffset i)).fire 1 else s

/-- R406: a link event: port and cause. -/
def State.linkEvent (s : State) (port cause : Nat) : State := s.postEvent 3 (port + 256 * cause)

end Sys2Proof.Machine
end

