-- ==== Sys2Proof/Machine/Lines.lean ====
section
/-! DEFINITION. The lines the L1s, the slices and the memory-side caches hold, by class and age (R165 to R168), the squall detector's
victim tags (R67), and the entries of the home and proxy directories (R205). Only lines of host non-coherent memory carry
data of their own here: every other copy is kept consistent, so its bytes are those of memory. -/

namespace Sys2Proof.Machine

/-- R6: the cluster of a core. -/
def clusterOf (core : Nat) : Nat := core / 48
/-- R165: the line of an address. -/
def lineOf (a : Nat) : Nat := a / 64 * 64
/-- The set of a line in an L1 or a slice (DESIGN CHOICE, log entry 7). -/
def l1Set (line : Nat) : Nat := line / 64 % 2048

/-- R165: line classes. -/
def clsFirst : Nat := 0
def clsNormal : Nat := 1
def clsLast : Nat := 2

/-- R167: the class a policy gives a line it allocates. -/
def polClass (pol : Nat) : Nat := if pol = 1 then clsFirst else if pol = 2 then clsLast else clsNormal

/-- Per-core registers of a core. -/
def State.core (s : State) (c : Nat) : CoreRegs := (s.cores.find? fun k => k.core == c).getD (CoreRegs.zero c)
/-- Replaces them. -/
def State.setCore (s : State) (k : CoreRegs) : State := { s with cores := k :: s.cores.filter fun j => j.core != k.core }

/-- R395: the ways of a set in service. -/
def State.waysOf (s : State) (kind inst set n : Nat) : Nat :=
  n - (s.ways.filter fun w => w == (bankIdx kind inst, set)).length

/-! ### Memory-side caches (R165, R200) -/

/-- The set of a line in a memory-side cache (DESIGN CHOICE, log entry 7). -/
def mscSet (line : Nat) : Nat := line / 64 % 1024
/-- R165, R167: an access to HBM that no other cache serves goes through its channel's cache, of 16 ways by least recent use. -/
def State.mscTouch (s : State) (line : Nat) : State :=
  if 2 ^ 39 ≤ line then s
  else
    let c := hbmChannel line
    let rest := s.msc.filter fun m => m != (c, line)
    let set := rest.filter fun m => m.1 == c && mscSet m.2 == mscSet line
    let rest := if s.waysOf 4 c (mscSet line) 16 ≤ set.length then (match set.getLast? with | some v => rest.filter fun m => m != v | none => rest) else rest
    { s with msc := (c, line) :: rest }

/-! ### Directory entries (R205) -/

/-- R205: the bit of a cluster in the remote vector of a home cluster, and the cluster of a bit. -/
def remoteBit (home c : Nat) : Nat := if c < home then c else c - 1
def remoteCluster (home i : Nat) : Nat := if i < home then i else i + 1

/-- R205: the directory entry of a line. -/
def State.dirEntry (s : State) (line : Nat) : Option DirEntry := s.dir.find? fun d => d.line == line
/-- Replaces a directory entry where it stands. -/
def State.setDir (s : State) (d : DirEntry) : State := { s with dir := s.dir.map fun e => if e.line = d.line then d else e }
/-- R205: a cluster's proxy entry of a line. -/
def State.proxy? (s : State) (cluster line : Nat) : Option ProxyEntry :=
  s.proxies.find? fun p => p.cluster == cluster && p.line == line
/-- Replaces a proxy entry where it stands. -/
def State.setProxy (s : State) (p : ProxyEntry) : State :=
  { s with proxies := s.proxies.map fun e => if e.cluster = p.cluster ∧ e.line = p.line then p else e }
/-- R206: a dirty line that is written back clears its core's bit, at its home or in its cluster's proxy. -/
def State.clearSharer (s : State) (core line : Nat) : State :=
  match s.dirEntry line with
  | none => s
  | some d =>
    let bitOff (v : BitVec 48) : BitVec 48 := v &&& ~~~(BitVec.twoPow 48 (core % 48))
    let d := if d.owner = some core then { d with owner := none } else d
    if clusterOf core = d.slice / 48 then s.setDir { d with cores := bitOff d.cores }
    else
      match s.proxy? (clusterOf core) line with
      | some p => (s.setDir d).setProxy { p with cores := bitOff p.cores }
      | none => s.setDir d

/-! ### Haze lines (R280) -/

/-- A haze line of a core. -/
def State.hazeLine? (s : State) (core line : Nat) : Option HazeLine :=
  s.hazeLines.find? fun l => l.core == core && l.line == line
/-- Replaces a haze line, or puts it last. -/
def State.setHazeLine (s : State) (l : HazeLine) : State :=
  { s with hazeLines := (s.hazeLines.filter fun k => !(k.core == l.core && k.line == l.line)) ++ [l] }
/-- The context that declared a haze region, and that of the region of a core's haze line. -/
def State.hazeCtx (s : State) (region : Nat) : Nat := ((s.hazeRegions.find? fun r => r.idx == region).map (·.ctx)).getD 0xFFF
def State.lineCtx (s : State) (core line : Nat) : Nat := ((s.hazeLine? core line).map fun l => s.hazeCtx l.region).getD 0xFFF
/-- Removes a haze line with its place in the L1. -/
def State.dropHazeLine (s : State) (core line : Nat) : State :=
  { s with hazeLines := s.hazeLines.filter fun k => !(k.core == core && k.line == line),
           l1 := s.l1.filter fun l => !(l.haze && l.core == core && l.line == line) }
/-- The line of a core's L1, if it holds it. -/
def State.l1Find (s : State) (core line : Nat) : Option L1Line :=
  s.l1.find? fun l => !l.haze && l.core == core && l.line == line

/-! ### Errors that an access finds (R389, R394, R398) -/

/-- R392: the row of a scratch buffer's 8-byte word (DESIGN CHOICE, log entry 18). -/
def scratchRow (key : Nat) : Nat := key % 2 ^ 21 % 0x80000 / 8
/-- R392: what the log of a bank says of a word: a row, or an address; and the word of what it says. -/
def wordAddr (i word : Nat) : Nat := if bankKind i = 0 then word else if bankKind i = 2 then scratchRow (8 * word) else 8 * word
def addrWord (i addr : Nat) : Nat :=
  if bankKind i = 0 then addr
  else if bankKind i = 2 then (scratchKey (bankInst i / 3) (0x80000 * (bankInst i % 3) + 8 * addr)) / 8
  else addr / 8

/-- R289, R389: an uncorrectable word is marked in place: in a core's own copy or its haze line when its L1 holds one, else in memory. -/
def State.markWord (s : State) (i word : Nat) : State :=
  let line := lineOf (8 * word)
  let core := bankInst i
  if bankKind i = 1 ∧ ((s.l1Find core line).map fun k => !k.data.isEmpty) = some true then
    { s with l1 := s.l1.map fun k => if !k.haze && k.core == core && k.line == line then { k with pz := k.pz ||| BitVec.twoPow 8 (word % 8) } else k }
  else if bankKind i = 1 ∧ (s.hazeLine? core line).isSome then
    { s with hazeLines := s.hazeLines.map fun k =>
        if k.core = core ∧ k.line = line then { k with pz := k.pz ||| BitVec.ofNat 16 (3 * 4 ^ (word % 8)) } else k }
  else s.markMem (8 * word) 8

/-- The error lies in a word that the n bytes at a touch; for a write, in one that it does not overwrite in full. -/
def Latent.under (e : Latent) (a n : Nat) (write : Bool) : Bool :=
  decide (e.word * 8 < a + n ∧ a < e.word * 8 + 8) && !(write && decide (a ≤ e.word * 8 ∧ e.word * 8 + 8 ≤ a + n))
/-- R398: the error's bits lie in one of the n bytes at a: its syndrome names the first of them (DESIGN CHOICE, log entry 32). -/
def Latent.inside (e : Latent) (a n : Nat) : Bool :=
  [e.syn % 64 / 8, (e.syn % 64 + 1) / 8].any fun i => decide (a ≤ e.word * 8 + i ∧ e.word * 8 + i < a + n)
/-- R389, R398: an access of a context to n bytes at a finds the errors under it in the arrays it passes: each is logged, and corrected or
marked. -/
def State.findIn (s : State) (which : Nat → Bool) (ctx a n : Nat) (write : Bool) : State :=
  if s.banks.all fun b => b.latent.isEmpty then s
  else
    let hit (b : LogBank) (e : Latent) : Bool := which b.idx && e.under a n write
    let found := s.banks.flatMap fun b => (b.latent.filter (hit b)).map fun e => (b.idx, e)
    let t := { s with banks := s.banks.map fun (b : LogBank) => { b with latent := b.latent.filter fun e => !hit b e } }
    found.foldl (fun (u : State) x =>
      let v := u.logError x.1 (if x.2.bad then 1 else 0) (wordAddr x.1 x.2.word) ctx x.2.syn x.2.inj
      if x.2.bad then v.markWord x.1 x.2.word else v) t
/-- R389: an access to memory: scratch, L1 data, slices, memory-side caches, HBM. -/
def State.findErrors (s : State) (ctx a n : Nat) (write : Bool) : State :=
  s.findIn (fun i => decide (1 ≤ bankKind i ∧ bankKind i ≤ 5)) ctx a n write
/-- R289: the partials of a core's haze line are read in its L1. -/
def State.findPartials (s : State) (ctx core line : Nat) : State := s.findIn (· == bankIdx 1 core) ctx line 64 false
/-- R394: a write reaches the arrays named: an armed bank among them places its error. -/
def State.plantAt (s : State) (is : List Nat) (word : Nat) : State :=
  { s with banks := s.banks.map fun b => if is.contains b.idx then b.plant word else b }
/-- R394: a write of a core at a checked place reaches its L1 when that holds the line, else the line's slice. -/
def State.plantCaches (s : State) (core : Nat) (l : Loc) : State :=
  s.plantAt [if (s.l1Find core (lineOf l.key)).isSome then bankIdx 1 core else bankIdx 3 l.slice] (l.key / 8)
/-- R389, R394: the parity error of a unit's buffers that its next word meets, if there is one: it is logged. -/
def State.takeParity (s : State) (i ctx : Nat) : Option State :=
  let b := s.bank i
  let log (b : LogBank) (syn : Nat) (inj : Bool) : State :=
    { ((s.setBank b).logError i 2 (Config.freeWord s.free).toNat ctx syn inj) with free := s.free + 1 }
  if b.arm then some (log { b with arm := false } (b.ibit % 256) true)
  else match b.latent with
    | e :: r => some (log { b with latent := r } e.syn e.inj)
    | [] => none

/-! ### Haze lines given up (R280, R281) -/

/-- Puts a message at the end of the net. -/
def State.sendHaze (s : State) (m : HazeMsg) : State := { s with hazeNet := s.hazeNet ++ [m] }
/-- R280, R281: a core gives its haze line up: the partials travel to the home. -/
def State.hazeReturn (s : State) (core line : Nat) : State :=
  let s := s.findPartials (s.lineCtx core line) core line
  match s.hazeLine? core line with
  | none => s
  | some l => (s.dropHazeLine core line).sendHaze (.ret core line l.region l.parts l.pz)

/-! ### The L1s (R165 to R168) -/

/-- Removes a line from an L1 without writing anything. -/
def State.l1Drop (s : State) (core line : Nat) : State :=
  { s with l1 := s.l1.filter fun l => !(!l.haze && l.core == core && l.line == line) }
/-- R206: every coherent copy of a line leaves the L1s. -/
def State.dropCopies (s : State) (line : Nat) : State :=
  { s with l1 := s.l1.filter fun l => !(!l.haze && l.line == line && l.data.isEmpty) }

/-- Writes the dirty bytes of a word of a line of host non-coherent memory, with the word's mark (R166, R381). -/
def State.putOwnWord (s : State) (l : L1Line) (w : Nat) : State :=
  let ds := (List.range 8).filter fun i => l.dirty.getLsbD (8 * w + i)
  let t := ds.foldl (fun u i => u.memStore (l.line + 8 * w + i) [l.data.getD (8 * w + i) 0]) s
  let t := if ds.length = 8 then t.clearMem (l.line + 8 * w) 8 else t
  if !ds.isEmpty && l.pz.getLsbD w then t.markMem (l.line + 8 * w) 8 else t
/-- R166, R404, R407: writes the dirty bytes of a line to host memory, as posted writes of the group that brought it in; while the host link
is down they are dropped, which sets its HST. -/
def State.l1WriteBack (s : State) (l : L1Line) : State :=
  if l.data.isEmpty || l.dirty = 0 then s
  else if s.hostDown then s.updGroup l.grp fun g => g.ck 5
  else
    let t := (List.range 8).foldl (fun t w => t.putOwnWord l w) s
    { t with zlr := insertNat l.grp t.zlr }

/-- R167: the victim of a set: the oldest first-class line, else the oldest normal one, else the oldest last-class one; the
list is youngest first. -/
def oldestFirst {α : Type} (cls : α → Nat) (ls : List α) : Option α :=
  let o := ls.reverse
  match o.find? fun l => cls l == clsFirst with
  | some l => some l
  | none => match o.find? fun l => cls l == clsNormal with
    | some l => some l
    | none => o.head?

/-- R167: at most 6 lines of an L1's set are last-class: beyond that the oldest becomes normal. -/
def capL1 (ls : List L1Line) (core set : Nat) : List L1Line :=
  let mine := ls.filter fun l => l.core == core && l1Set l.line == set && l.cls == clsLast
  if mine.length ≤ 6 then ls
  else
    match mine.getLast? with
    | none => ls
    | some k => ls.map fun l => if l.core = core ∧ l.line = k.line ∧ l.haze = k.haze then { l with cls := clsNormal } else l

/-- R67: an access of a group to a line whose tag is kept counts a victim hit, and the tag has served (DESIGN CHOICE, log entry 7). -/
def State.victimHit (s : State) (core line grp : Nat) : State :=
  let k := s.core core
  if k.victims.contains (line, grp) then
    s.setCore { k with hits := k.hits + 1, victims := k.victims.filter fun v => v != (line, grp) }
  else s

/-- R67, R167, R206: a line leaves an L1: a haze line is returned, dirty bytes are written; a tag is kept of the last 256. -/
def State.l1Evict (s : State) (l : L1Line) : State :=
  let t :=
    if l.haze then (s.hazeReturn l.core l.line).dropHazeLine l.core l.line
    else
      let t := (s.l1WriteBack l).l1Drop l.core l.line
      if l.dirty != 0 && l.data.isEmpty then (t.clearSharer l.core l.line).mscTouch l.line else t
  let k := t.core l.core
  t.setCore { k with victims := ((l.line, l.grp) :: k.victims).take 256 }

/-- R167, R168: an access touches a line of the core's L1, as data or as the place of a haze line; data are the bytes of a new
line that carries its own. -/
def State.l1Use (s : State) (haze : Bool) (core line grp pol : Nat) (data : List Byte) (pz : BitVec 8) : State :=
  let s := s.victimHit core line grp
  let mine (l : L1Line) : Bool := l.haze == haze && l.core == core && l.line == line
  if pol = 3 then s
  else
    match s.l1.find? mine with
    | some l =>
      let l' := { l with cls := if pol = 0 then l.cls else polClass pol }
      { s with l1 := capL1 (l' :: s.l1.filter fun k => !mine k) core (l1Set line) }
    | none =>
      let set := s.l1.filter fun l => l.core == core && l1Set l.line == l1Set line
      let t := if s.waysOf 1 core (l1Set line) 12 ≤ set.length then (match oldestFirst (·.cls) set with | some v => s.l1Evict v | none => s) else s
      { t with l1 := capL1 (⟨core, line, polClass pol, grp, haze, data, 0, pz⟩ :: t.l1) core (l1Set line) }
/-- R167, R168: an access touches a line of coherent memory. -/
def State.l1Touch (s : State) (core line grp pol : Nat) : State := s.l1Use false core line grp pol [] 0

/-- Bytes off to off + n - 1 of a line. -/
def byteMask (off n : Nat) : BitVec 64 := BitVec.ofNat 64 ((2 ^ n - 1) * 2 ^ off)
/-- R206: a store makes bytes of a core's copy dirty. -/
def State.l1Dirty (s : State) (core key n : Nat) : State :=
  { s with l1 := s.l1.map fun l =>
      if !l.haze && l.core == core && l.line == lineOf key then { l with dirty := l.dirty ||| byteMask (key % 64) n } else l }
/-- R205: a core's copy is brought to its home: it is clean. -/
def State.l1Clean (s : State) (core line : Nat) : State :=
  { s with l1 := s.l1.map fun l => if !l.haze && l.core == core && l.line == line then { l with dirty := 0 } else l }

/-! ### The slices (R165 to R168) -/

/-- R167: at most 8 lines of a slice's set are last-class. -/
def capSlice (ls : List SliceLine) (slice set : Nat) : List SliceLine :=
  let mine := ls.filter fun l => l.slice == slice && l1Set l.line == set && l.cls == clsLast
  if mine.length ≤ 8 then ls
  else
    match mine.getLast? with
    | none => ls
    | some k => ls.map fun l => if l.slice = slice ∧ l.line = k.line then { l with cls := clsNormal } else l

/-- R167, R168: an access touches a line of a slice; one that misses goes on to memory. -/
def State.sliceTouch (s : State) (slice line pol : Nat) : State :=
  let mine (l : SliceLine) : Bool := l.slice == slice && l.line == line
  match s.slices.find? mine with
  | some l =>
    if pol = 3 then s
    else
      let l' := { l with cls := if pol = 0 then l.cls else polClass pol }
      { s with slices := capSlice (l' :: s.slices.filter fun k => !mine k) slice (l1Set line) }
  | none =>
    let s := s.mscTouch line
    if pol = 3 then s
    else
      let set := s.slices.filter fun l => l.slice == slice && l1Set l.line == l1Set line
      let ls := if s.waysOf 3 slice (l1Set line) 16 ≤ set.length then (match oldestFirst (·.cls) set with | some v => s.slices.filter fun k => k != v | none => s.slices)
                else s.slices
      { s with slices := capSlice (⟨slice, line, polClass pol⟩ :: ls) slice (l1Set line) }

end Sys2Proof.Machine
end

