-- ==== Sys2Proof/Machine/HazeNet.lean ====
section
/-! DEFINITION. The haze protocol (R276 to R290): haze lines at the cores, entries at the homes, and the messages between
them, handled one at a time. -/

namespace Sys2Proof.Machine

/-- R282: half of a share. -/
def halfShare (i32 : Bool) (g : Word) : Word :=
  if i32 then g >>> 1
  else
    let v := fmtF32.fin false g.toNat
    BitVec.ofNat 32 (fmtF32.round .rz false ⟨false, v.m, v.e - 1⟩ false).bits
/-- R282: the difference of two shares, exact. -/
def subShare (i32 : Bool) (a b : Word) : Word :=
  if i32 then a - b else BitVec.ofNat 32 (fmtF32.add .rne false true a.toNat b.toNat).bits
/-- R281: the sum of two shares. -/
def addShare (i32 : Bool) (a b : Word) : Word :=
  if i32 then a + b else BitVec.ofNat 32 (fmtF32.add .rne false false a.toNat b.toNat).bits

/-- R280: the magnitude of a partial as a key that orders like it; a NaN, an infinity and a poisoned partial count as
infinite. -/
def partMag (i32 : Bool) (x : Word) (pz : Bool) : Nat :=
  if pz then 2 ^ 33
  else if i32 then x.toInt.natAbs
  else if 0x7F800000 ≤ x.toNat % 2 ^ 31 then 2 ^ 33 else x.toNat % 2 ^ 31
/-- R280: the tracker of a line. -/
def HazeLine.tracker (l : HazeLine) (i32 : Bool) : Nat :=
  (l.parts.zipIdx.map fun p => partMag i32 p.1 (l.pz.getLsbD p.2)).foldl max 0

/-- R276: a region of the table. -/
def State.hazeRegion (s : State) (i : Nat) : Option HazeRegion := s.hazeRegions.find? fun r => r.idx == i
/-- The region's elements are I32. -/
def State.hazeI32 (s : State) (i : Nat) : Bool := ((s.hazeRegion i).map (·.i32)).getD false
/-- Sets OVH of a region. -/
def State.setOvh (s : State) (i : Nat) : State :=
  { s with hazeRegions := s.hazeRegions.map fun r => if r.idx = i then { r with ovh := true } else r }
/-- R281: the entry of a line at its home. -/
def State.hazeHome? (s : State) (line : Nat) : Option HazeHome := s.hazeHomes.find? fun h => h.line == line
/-- Replaces an entry. -/
def State.setHazeHome (s : State) (h : HazeHome) : State :=
  { s with hazeHomes := h :: s.hazeHomes.filter fun k => k.line != h.line }
/-- Frees an entry. -/
def State.dropHazeHome (s : State) (line : Nat) : State := { s with hazeHomes := s.hazeHomes.filter fun k => k.line != line }

/-- The home slice of a line that has holders. -/
def State.hazeSlice (s : State) (line : Nat) : Nat := ((s.hazeHome? line).map (·.slice)).getD 384
/-- R284, R289, R392: adds one partial into the home element, at a slice, for a context. -/
def State.homeAdd (s : State) (ctx slice region key : Nat) (x : Word) (pz : Bool) : State :=
  -- R284: a partial of +0 leaves the home value as it is
  if x = 0 ∧ pz = false then s
  else
  let s := (s.findErrors ctx key 4 false).plantAt [bankIdx 3 slice] (key / 8)
  if pz then (s.memWriteP key 4 x.toNat true).setOvh region
  else if s.hazeI32 region then
    if s.memPoisoned key 4 then s.setOvh region
    else s.memWrite key 4 ((s.memRead key 4 + x.toNat) % 2 ^ 32)
  else
    let y := s.memRead key 4
    let r := fmtF32.add .rne false false y x.toNat
    if s.memPoisoned key 4 then s.setOvh region
    else
      let t := s.memWrite key 4 r.bits
      if r.ovf || fmtF32.isNan r.bits || fmtF32.isNan y || fmtF32.isNan x.toNat then t.setOvh region else t
/-- R289: a poisoned contribution of a group is logged. -/
def State.logPoisoned (s : State) (grp core key : Nat) (pz : Bool) : State :=
  if pz then s.logError (bankIdx 1 core) 1 (key / 8 * 8) (((s.group? grp).map (·.ctx)).getD 0xFFF) 0 false else s
/-- R284: adds the 16 partials of a line. -/
def State.homeAddAll (s : State) (region line : Nat) (parts : List Word) (pz : BitVec 16) : State :=
  parts.zipIdx.foldl (fun t p => t.homeAdd (s.hazeCtx region) (s.hazeSlice line) region (line + 4 * p.2) p.1 (pz.getLsbD p.2)) s

/-- The partials of a line set to zero. -/
def HazeLine.zeroed (l : HazeLine) : HazeLine := { l with parts := List.replicate 16 0, pz := 0 }

/-- Replaces a haze line where it stands: what the home does to it is no use by its core. -/
def State.updHazeLine (s : State) (l : HazeLine) : State :=
  { s with hazeLines := s.hazeLines.map fun k => if k.core = l.core ∧ k.line = l.line then l else k }
/-- R284: a core drains a line's partials to the home at once and keeps the line. -/
def State.drainNow (s : State) (core line : Nat) : State :=
  let s := s.findPartials (s.lineCtx core line) core line
  match s.hazeLine? core line with
  | none => s
  | some l => (s.updHazeLine l.zeroed).homeAddAll l.region line l.parts l.pz

/-- R281: the home serves a return: partials added, the share freed, the entry freed with the last holder. -/
def State.serveRet (s : State) (core line region : Nat) (parts : List Word) (pz : BitVec 16) : State :=
  let t := s.homeAddAll region line parts pz
  match t.hazeHome? line with
  | none => t
  | some h =>
    let share := ((h.holders.find? fun p => p.1 == core).map (·.2)).getD 0
    let hs := h.holders.filter fun p => p.1 != core
    if hs.isEmpty then t.dropHazeHome line
    else t.setHazeHome { h with holders := hs, free := addShare (t.hazeI32 region) h.free share }

/-- R284: the core and line of a message on the write-back channel. -/
def HazeMsg.sent : HazeMsg → Option (Nat × Nat)
  | .drain _ _ c l _ _ _ => some (c, l)
  | .ret c l _ _ _ => some (c, l)
  | .farAdd _ _ c l _ _ _ _ _ => some (c, l)
  | _ => none
/-- R211: the channel of a message to a home, its core and slice: such messages arrive in the order sent. -/
def State.hazePath (s : State) : HazeMsg → Option (Bool × Nat × Nat)
  | .drain _ _ c l _ _ _ => some (true, c, s.hazeSlice l)
  | .ret c l _ _ _ => some (true, c, s.hazeSlice l)
  | .farAdd _ _ c _ _ _ k _ _ => some (true, c, k)
  | .shareRequest c _ _ k => some (false, c, k)
  | _ => none
/-- The line of a message to a home. -/
def HazeMsg.homeLine : HazeMsg → Nat
  | .shareRequest _ l _ _ => l
  | m => (m.sent.map (·.2)).getD 0
/-- What such a message does at the home. -/
def State.serveSent (s : State) : HazeMsg → State
  | .drain _ _ _ line region parts pz => s.homeAddAll region line parts pz
  | .ret core line region parts pz => s.serveRet core line region parts pz
  | .farAdd grp _ core line region elem slice x pz =>
    (s.logPoisoned grp core (line + 4 * elem) pz).homeAdd (s.hazeCtx region) slice region (line + 4 * elem) x pz
  | _ => s
/-- R284: what the cores named have sent of a line arrives first. -/
def State.arrivals (s : State) (cores : List Nat) (line : Nat) : State :=
  let mine (m : HazeMsg) : Bool := match m.sent with
    | some (c, l) => l == line && cores.contains c
    | none => false
  (s.hazeNet.filter mine).foldl State.serveSent { s with hazeNet := s.hazeNet.filter fun m => !mine m }

/-- R284, R285: a forced-drain set: the partials of every core named are collected, then added, in ascending core index
(the order of arrival in an ARR region is this order too) (DESIGN CHOICE, log entry 30). -/
def State.forcedSet (s : State) (cores : List Nat) (line : Nat) : State :=
  (List.range 384).foldl (fun t c => if cores.contains c then t.drainNow c line else t) (s.arrivals cores line)

/-- R286: every holder of a line drains as one set. -/
def State.drainHolders (s : State) (line : Nat) : State :=
  match s.hazeHome? line with
  | none => s
  | some h => s.forcedSet (h.holders.map (·.1)) line

/-- The core and line of a contribution that has not reached its haze line. -/
def HazeMsg.adds : HazeMsg → Option (Nat × Nat)
  | .add _ _ c l _ _ _ _ _ _ => some (c, l)
  | _ => none

/-- The unit a message belongs to: its group and tag. -/
def HazeMsg.unit : HazeMsg → Option (Nat × Nat)
  | .add g t _ _ _ _ _ _ _ _ => some (g, t)
  | .drain g t _ _ _ _ _ => some (g, t)
  | .farAdd g t _ _ _ _ _ _ _ => some (g, t)
  | .forced _ _ _ _ g t => some (g, t)
  | _ => none

/-- R283: partials of a core, with contributions of its units in them, are on their way to a home. -/
def HazeMsg.carries (core : Nat) : HazeMsg → Bool
  | .ret c _ _ _ _ => c == core
  | .recallAck c _ _ parts _ _ _ => c == core && !parts.isEmpty
  | _ => false
/-- R283, R287: a haze unit of a group on a core still has a contribution or a drain on its way. -/
def hazeOut (net : List HazeMsg) (grp tag core : Nat) : Bool := net.any fun m => m.unit == some (grp, tag) || m.carries core

/-- A share request or grant of the core for the line is on its way. -/
def State.asking (s : State) (core line : Nat) : Bool :=
  s.hazeNet.any fun m => match m with
    | .shareRequest c l _ _ => c == core && l == line
    | .grant c l _ _ => c == core && l == line
    | .recall _ l _ _ _ c => c == core && l == line
    | .recallAck _ l _ _ _ _ c => c == core && l == line
    | _ => false

/-- R281: the line's entry is in state RECALL. -/
def State.recalling (s : State) (line : Nat) : Bool :=
  match s.hazeHome? line with
  | some h => h.recalled.isSome
  | none => false

/-- The message cannot be served yet: an earlier one it must follow, an outstanding request, or a recall (DESIGN CHOICE, log entry 30). -/
def State.hazeBlocked (s : State) (i : Nat) (m : HazeMsg) : Bool :=
  ((s.hazePath m).isSome && (s.hazeNet.take i).any fun k => s.hazePath k == s.hazePath m
    -- one that has arrived and waits for its own line's recall holds back no other line
    && (k.homeLine == m.homeLine || !s.recalling k.homeLine))
  || (m.adds.isSome && (s.hazeNet.take i).any fun k => k.adds == m.adds)
  || (match m with
    | .add _ _ c l _ _ _ _ _ _ => (s.hazeLine? c l).isNone && s.asking c l
    | .shareRequest c l _ _ => s.recalling l || s.hazeNet.any fun k => match k with
      | .ret d k _ _ _ => d == c && k == l
      | _ => false
    | .drain _ _ _ l _ _ _ => s.recalling l
    | .ret _ l _ _ _ => s.recalling l
    | .farAdd _ _ _ l _ _ _ _ _ => s.recalling l
    -- R283: a core serves a recall when its own grant has come and between its units' contributions to the line
    | .recall c l _ _ _ _ => s.hazeNet.any fun k => k.adds == some (c, l) || match k with
      | .grant d q _ _ => d == c && q == l
      | _ => false
    | .forced _ l _ _ _ _ => s.recalling l
    | _ => false)

/-- Removes message i. -/
def State.dropMsg (s : State) (i : Nat) : State := { s with hazeNet := s.hazeNet.eraseIdx i }

/-- R281: the holder with the largest share, ties to the lowest core. -/
def largestHolder : List (Nat × Word) → Option (Nat × Word)
  | [] => none
  | h :: r =>
    match largestHolder r with
    | none => some h
    | some k => if k.2.toNat < h.2.toNat || (k.2 = h.2 && decide (h.1 < k.1)) then some h else some k

/-- R281: the home serves a share request. -/
def State.serveShare (s : State) (core line region slice : Nat) : State :=
  let i32 := s.hazeI32 region
  match s.hazeHome? line with
  | none =>
    let limit := ((s.hazeRegion region).map (·.limit)).getD 0
    if (limit.toNat % 2 ^ 31 = 0 && !(i32 && limit != 0)) || decide (2048 ≤ (s.hazeHomes.filter fun h => h.slice == slice).length) then s.sendHaze (.grant core line region 0)
    else
      (s.setHazeHome ⟨line, slice, region, [(core, limit)], 0, none⟩).sendHaze (.grant core line region limit)
  | some h =>
    if 8 ≤ h.holders.length then s.sendHaze (.grant core line region 0)
    else if h.free != 0 then
      (s.setHazeHome { h with holders := h.holders ++ [(core, h.free)], free := 0 }).sendHaze (.grant core line region h.free)
    else
      match largestHolder h.holders with
      | none => s.sendHaze (.grant core line region 0)
      | some k =>
        let half := halfShare i32 k.2
        if half = 0 then s.sendHaze (.grant core line region 0)
        else
          let keep := subShare i32 k.2 half
          (s.setHazeHome { h with recalled := some (k.1, core) }).sendHaze (.recall k.1 line region keep half core)

/-- R280: makes a haze line in the L1, by the policy of the contribution that waits for it; a core with 6,144 lines returns its
least recently used one first. -/
def State.makeHazeLine (s : State) (core line region : Nat) (share : Word) : State :=
  let first : Nat × Nat := match s.hazeNet.find? fun k => k.adds == some (core, line) with
    | some (.add g _ _ _ _ _ _ lpol _ _) => (g, if lpol = 3 then 0 else lpol)
    | _ => (0, 0)
  let mine := s.hazeLines.filter fun l => l.core == core
  let t := if 6144 ≤ mine.length then (match mine with | l :: _ => s.hazeReturn core l.line | [] => s) else s
  (t.l1Use true core line first.1 first.2 [] 0).setHazeLine ⟨core, line, region, List.replicate 16 0, 0, share⟩

/-- R283: a contribution of a unit added into the core's partial, with the drain when the tracker passes the share. -/
def State.addPartial (s : State) (grp tag : Nat) (l : HazeLine) (elem lpol : Nat) (x : Word) (pz : Bool) : State :=
  let s := (s.findPartials (((s.group? grp).map (·.ctx)).getD 0xFFF) l.core l.line).logPoisoned grp l.core (l.line + 4 * elem) pz
  let l := (s.hazeLine? l.core l.line).getD l
  let i32 := s.hazeI32 l.region
  let p := l.parts.getD elem 0
  let r : FRes := if i32 then .ok ((p + x).toNat) else fmtF32.add .rne false false p.toNat x.toNat
  let bad := pz || l.pz.getLsbD elem
  let l' := { l with parts := l.parts.set elem (BitVec.ofNat 32 r.bits),
                     pz := if bad then l.pz ||| BitVec.twoPow 16 elem else l.pz }
  let t := if r.ovf then s.updGroup grp fun g => { g with gsr := setBit g.gsr 3 true } else s
  let t := (t.l1Use true l.core l.line grp lpol [] 0).plantAt [bankIdx 1 l.core] ((l.line + 4 * elem) / 8)
  if partMag i32 l.share false < l'.tracker i32 then
    (t.setHazeLine l'.zeroed).sendHaze (.drain grp tag l.core l.line l.region l'.parts l'.pz)
  else t.setHazeLine l'

/-- R287: the table entry of a retiring region is free once its last drain is done. -/
def State.hazeEnd (s : State) (region : Nat) : State :=
  if s.hazeNet.any fun m => match m with | .forced _ _ r last _ _ => r == region && last | _ => false then s
  else { s with hazeRegions := s.hazeRegions.map fun r =>
    if r.idx = region && r.retiring then { r with live := false, retiring := false } else r }

/-- One message is served: number i of the net. A message that cannot be served yet stays (DESIGN CHOICE, log entry 30). -/
def State.hazeServe (s : State) (i : Nat) : State :=
  match s.hazeNet[i]? with
  | none => s
  | some m =>
    if s.hazeBlocked i m then s
    else
      match m with
      | .add grp tag core line region elem slice lpol x pz =>
        match s.hazeLine? core line with
        | some l => (s.dropMsg i).addPartial grp tag l elem lpol x pz
        | none => s.sendHaze (.shareRequest core line region slice)
      | .shareRequest core line region slice => (s.dropMsg i).serveShare core line region slice
      | .recall core line region keep lose for_ =>
        let t := (s.dropMsg i).findPartials (s.lineCtx core line) core line
        match t.hazeLine? core line with
        | none => t.sendHaze (.recallAck core line region [] 0 lose for_)
        | some l =>
          if partMag (t.hazeI32 region) keep false < l.tracker (t.hazeI32 region) then
            (t.updHazeLine { l.zeroed with share := keep }).sendHaze (.recallAck core line region l.parts l.pz lose for_)
          else (t.updHazeLine { l with share := keep }).sendHaze (.recallAck core line region [] 0 lose for_)
      | .recallAck core line region parts pz lose for_ =>
        let t := (s.dropMsg i).homeAddAll region line parts pz
        match t.hazeHome? line with
        | none => t.sendHaze (.grant for_ line region 0)
        | some h =>
          let hs := h.holders.map fun p => if p.1 = core then (p.1, subShare (t.hazeI32 region) p.2 lose) else p
          (t.setHazeHome { h with holders := hs ++ [(for_, lose)], recalled := none }).sendHaze (.grant for_ line region lose)
      | .grant core line region share =>
        let t := s.dropMsg i
        if share != 0 then t.makeHazeLine core line region share
        else
          -- R281: the contribution that asked travels as a far add; a later one asks again
          match t.hazeNet.findIdx? fun k => k.adds == some (core, line) with
          | none => t
          | some j =>
            match t.hazeNet[j]? with
            | some (.add grp tag c l r e k _ x pz) => (t.dropMsg j).sendHaze (.farAdd grp tag c l r e k x pz)
            | _ => t
      | .forced cores line region last grp tag =>
        let t := (s.dropMsg i).forcedSet cores line
        if last then
          State.hazeEnd { t with hazeLines := t.hazeLines.filter fun l => l.line != line,
                                 l1 := t.l1.filter fun l => !(l.haze && l.line == line),
                                 hazeHomes := t.hazeHomes.filter fun h => h.line != line } region
        else t
      | m => (s.dropMsg i).serveSent m

/-- The first message that can be served. -/
def State.hazeNext (s : State) : Option Nat :=
  (List.range s.hazeNet.length).find? fun i => match s.hazeNet[i]? with
    | some m => !s.hazeBlocked i m
    | none => false

/-- Serves messages in order until none can be served or the fuel is out. -/
def State.hazeRun : Nat → State → State
  | 0, s => s
  | n + 1, s =>
    match s.hazeNext with
    | none => s
    | some i => State.hazeRun n (s.hazeServe i)

/-- R183, R285: every contribution on its way arrives: what a unit that must see them waits for. -/
def State.hazeFlush (s : State) : State := if s.hazeNet.isEmpty then s else s.hazeRun (16 * s.hazeNet.length + 64)

/-- R203, R221, R290: haze lines are returned, and their partials have been added. -/
def State.hazeGive (s : State) (which : HazeLine → Bool) : State :=
  let t := s.hazeFlush
  ((t.hazeLines.filter which).foldl (fun u l => u.hazeReturn l.core l.line) t).hazeFlush
/-- R290: a core returns every haze line it holds. -/
def State.hazeReturnAll (s : State) (core : Nat) : State := s.hazeGive fun l => l.core == core
/-- R203: a core returns its haze lines in a range of physical addresses. -/
def State.hazeReturnRange (s : State) (core lo n : Nat) : State :=
  s.hazeGive fun l => l.core == core && decide (lo < l.line + 64 ∧ l.line < lo + n)

/-- R276, R277: the live region that contains a virtual address in a context. -/
def State.liveRegionAt (s : State) (ctx va : Nat) : Option HazeRegion :=
  s.hazeRegions.find? fun r => r.live && !r.retiring && r.ctx == ctx && decide (r.base ≤ va ∧ va < r.base + r.size)

/-- R277: the region a handle names: live, or also retiring for HQUERY. -/
def State.handleRegion (s : State) (ctx : Nat) (h : Word) (retiring : Bool) : Option HazeRegion :=
  if h.toNat / 64 % 1024 = 0 then
    s.hazeRegions.find? fun r => r.idx == h.toNat % 64 && r.live && (retiring || !r.retiring) && r.gen == h.toNat / 65536 && r.ctx == ctx
  else none

end Sys2Proof.Machine
end

