-- ==== Sys2Proof/Machine/Caches.lean ====
section
/-! DEFINITION. The directory of Shared lines with its proxies and their messages (R205 to R208), the snoop filter of the CXL ports
(R220, R221), and the lines the host-memory home agent tracks (R402). -/

namespace Sys2Proof.Machine

/-! ### Entries and their replacement (R205, R207) -/

/-- R205: the set of a line in a home directory and in a proxy (DESIGN CHOICE, log entry 7). -/
def dirSet (line : Nat) : Nat := line / 64 % 1024
def proxySet (line : Nat) : Nat := line / 64 % 4096

/-- R207: a home entry is given up with every copy it names. -/
def State.dropDir (s : State) (line : Nat) : State :=
  { (s.dropCopies line) with dir := s.dir.filter fun d => d.line != line, proxies := s.proxies.filter fun p => p.line != line }
/-- R205, R207: a home entry is allocated; the least recently allocated one of a full set of 16 makes room. -/
def State.dirAlloc (s : State) (line slice : Nat) : State :=
  let set := s.dir.filter fun d => d.slice == slice && dirSet d.line == dirSet line
  let t := if 16 ≤ set.length then (match set with | d :: _ => s.dropDir d.line | [] => s) else s
  { t with dir := t.dir ++ [⟨line, slice, 0, 0, none, 0, 0, none⟩] }

/-- R207: a proxy entry is given up: the copies it names go, and the home's remote bit falls; one that owes the home an answer gives it, and
its own messages to its cores are over. -/
def State.dropProxy (s : State) (cluster line : Nat) : State :=
  let own (m : InvMsg) : Bool := m.line == line && match m.rcv with
    | .core c p => p && clusterOf c == cluster
    | .proxy _ _ => false
  let owed : List InvMsg := match s.proxy? cluster line with
    | some p => if p.acks = 0 then [] else [⟨line, .proxy cluster p.keep⟩]
    | none => []
  let t := { s with invals := s.invals.filter fun m => !own m, invAcks := s.invAcks.filter (fun m => !own m) ++ owed,
                     l1 := s.l1.filter fun l => !(!l.haze && l.line == line && l.data.isEmpty && clusterOf l.core == cluster),
                    proxies := s.proxies.filter fun p => !(p.cluster == cluster && p.line == line) }
  match t.dirEntry line with
  | none => t
  | some d =>
    t.setDir { d with remote := d.remote &&& ~~~(BitVec.twoPow 7 (remoteBit (d.slice / 48) cluster)),
                      owner := if d.owner.map clusterOf = some cluster then none else d.owner }
/-- R205, R207: a proxy entry is allocated; the least recently allocated one of a full set of 16 makes room. -/
def State.proxyAlloc (s : State) (cluster line : Nat) : State :=
  let set := s.proxies.filter fun p => p.cluster == cluster && proxySet p.line == proxySet line
  let t := if 16 ≤ set.length then (match set with | p :: _ => s.dropProxy cluster p.line | [] => s) else s
  { t with proxies := t.proxies ++ [⟨cluster, line, 0, 0, none⟩] }

/-! ### Granting (R205, R206, R208, R219) -/

/-- R219: the write record (DEDUCED, log entry 28). -/
def State.record (s : State) (pa : Nat) : State := { s with wrec := insertNat (pa / 65536) s.wrec }

/-- R205, R208: what a grant leaves in the home's entry. -/
def DirEntry.grant (d : DirEntry) (core : Nat) (excl : Bool) : DirEntry :=
  let home := d.slice / 48
  let near := clusterOf core = home
  let b := BitVec.twoPow 48 (core % 48)
  let r := BitVec.twoPow 7 (remoteBit home (clusterOf core))
  let passes := match d.owner with
    | some o => o != core
    | none => false
  if excl then
    { d with cores := if near then b else 0, remote := if near then 0 else r, owner := some core,
             counter := if passes then min 3 (d.counter + 1) else d.counter, acks := 0, next := none }
  else
    { d with cores := if near then d.cores ||| b else d.cores, remote := if near then d.remote else d.remote ||| r,
             owner := if passes then none else d.owner, acks := 0, next := none }

/-- R205, R206, R219: the home grants a line to a reader, or exclusively; a core of another cluster stands in its proxy. -/
def State.grantLine (s : State) (d : DirEntry) (core : Nat) (excl : Bool) : State :=
  let line := d.line
  let c := clusterOf core
  let b := BitVec.twoPow 48 (core % 48)
  let t := s.setDir (d.grant core excl)
  let t := if excl then { t with proxies := t.proxies.filter fun p => !(p.line == line && p.cluster != c) } else t
  let t :=
    if c = d.slice / 48 then (if excl then { t with proxies := t.proxies.filter fun p => p.line != line } else t)
    else
      let t := if (t.proxy? c line).isNone then t.proxyAlloc c line else t
      match t.proxy? c line with
      | some p => t.setProxy { p with cores := if excl then b else p.cores ||| b }
      | none => t
  let t := match d.owner with
    | some o => if !excl && o != core then t.l1Clean o line else t
    | none => t
  if excl then t.record line else t

/-! ### The messages (R206) -/

/-- R205, R206: who must give a line up before a core has it alone. -/
def State.sharers (s : State) (d : DirEntry) (core : Nat) : List InvMsg :=
  let home := d.slice / 48
  let c := clusterOf core
  let near := ((List.range 48).filter fun i => d.cores.getLsbD i && 48 * home + i != core).map fun i =>
    (⟨d.line, .core (48 * home + i) false⟩ : InvMsg)
  let far := ((List.range 7).filter fun i => d.remote.getLsbD i).filterMap fun i =>
    let k := remoteCluster home i
    let others := match s.proxy? k d.line with
      | some p => (p.cores &&& ~~~(if k = c then BitVec.twoPow 48 (core % 48) else 0)) != 0
      | none => true
    if others then some (⟨d.line, .proxy k (if k = c then some core else none)⟩ : InvMsg) else none
  near ++ far

/-- R205, R206: a miss reaches the home. Without other copies it is granted; otherwise an exclusive request sends
invalidations and waits for their acknowledgements. -/
def State.missRequest (s : State) (core line slice : Nat) (excl : Bool) : State :=
  let s := if (s.dirEntry line).isNone then s.dirAlloc line slice else s
  match s.dirEntry line with
  | none => s
  | some d =>
    if d.acks != 0 then s
    else
      let ms := s.sharers d core
      if excl && !ms.isEmpty then
        let t := s.setDir { d with acks := ms.length, next := some (core, excl) }
        { t with invals := t.invals ++ ms }
      else s.grantLine d core excl

/-- R211: the home or proxy, and the core or proxy, between which an invalidation or its acknowledgement travels. -/
def State.invPath (s : State) (m : InvMsg) : Nat × Nat :=
  match m.rcv with
  | .core c true => (384 + clusterOf c, c)
  | .core c false => (((s.dirEntry m.line).map (·.slice)).getD 0, c)
  | .proxy k _ => (((s.dirEntry m.line).map (·.slice)).getD 0, 384 + k)
/-- R211: message n of a list has an earlier one of its path before it. -/
def State.invBlocked (s : State) (ms : List InvMsg) (n : Nat) (m : InvMsg) : Bool := (ms.take n).any fun k => s.invPath k == s.invPath m

/-- R206: an invalidation is received, in the order sent (R211): a core acknowledges with or without a copy; a proxy first invalidates
the cores it names. -/
def State.invalidate (s : State) (n : Nat) : State :=
  match s.invals[n]? with
  | none => s
  | some m =>
    if s.invBlocked s.invals n m then s
    else
    let t := { s with invals := s.invals.eraseIdx n }
    let ack (u : State) : State := { u with invAcks := u.invAcks ++ [m] }
    match m.rcv with
    | .core c _ => ack (t.l1Drop c m.line)
    | .proxy k keep =>
      match t.proxy? k m.line with
      | none => ack t
      | some p =>
        let cs := ((List.range 48).filter fun i => p.cores.getLsbD i).map (48 * k + ·) |>.filter fun c => some c != keep
        if cs.isEmpty then ack t
        else
          let u := t.setProxy { p with acks := cs.length, keep := keep }
          { u with invals := u.invals ++ cs.map fun c => ⟨m.line, .core c true⟩ }

/-- R206: the home counts an acknowledgement and grants when none is missing. -/
def State.homeAck (s : State) (line : Nat) : State :=
  match s.dirEntry line with
  | none => s
  | some d =>
    if d.acks ≤ 1 then
      match d.next with
      | some (c, x) => s.grantLine d c x
      | none => s.setDir { d with acks := 0 }
    else s.setDir { d with acks := d.acks - 1 }

/-- R206: a proxy counts an acknowledgement of a core and answers the home when none is missing. -/
def State.proxyAck (s : State) (k line : Nat) : State :=
  match s.proxy? k line with
  | none => s
  | some p =>
    if p.acks ≤ 1 then
      let b : BitVec 48 := match p.keep with
        | some c => BitVec.twoPow 48 (c % 48)
        | none => 0
      let t := if p.keep.isSome then s.setProxy { p with acks := 0, keep := none, cores := b }
               else { s with proxies := s.proxies.filter fun q => !(q.cluster == k && q.line == line) }
      { t with invAcks := t.invAcks ++ [⟨line, .proxy k p.keep⟩] }
    else s.setProxy { p with acks := p.acks - 1 }

/-- R206: an acknowledgement arrives where it is counted. -/
def State.invalidateAck (s : State) (n : Nat) : State :=
  match s.invAcks[n]? with
  | none => s
  | some m =>
    if s.invBlocked s.invAcks n m then s
    else
    let t := { s with invAcks := s.invAcks.eraseIdx n }
    match m.rcv with
    | .core c true => t.proxyAck (clusterOf c) m.line
    | _ => t.homeAck m.line

/-- Serves every invalidation and acknowledgement, by fuel. -/
def State.dirRun : Nat → State → State
  | 0, s => s
  | n + 1, s =>
    if !s.invals.isEmpty then State.dirRun n (s.invalidate 0)
    else if !s.invAcks.isEmpty then State.dirRun n (s.invalidateAck 0)
    else s

/-- Every message of the directory arrives (DEDUCED, log entry 56). -/
def State.dirFlush (s : State) : State :=
  if s.invals.isEmpty && s.invAcks.isEmpty then s else s.dirRun (128 * (s.invals.length + s.invAcks.length))

/-- R205: an access of a core to a Shared line goes through the directory (DEDUCED, log entry 56). -/
def State.dirAccess (s : State) (core line slice : Nat) (excl : Bool) : State :=
  ((s.dirFlush).missRequest core line slice excl).dirFlush

/-- R168, R230: an access is performed at a Shared line's home: no L1 keeps a copy, and the directory names no sharer. -/
def State.dirHome (s : State) (line slice : Nat) : State :=
  let t := s.dirFlush.dropCopies line
  let t := if (t.dirEntry line).isNone then t.dirAlloc line slice else t
  match t.dirEntry line with
  | some d => { t.setDir { d with cores := 0, remote := 0, owner := none } with proxies := t.proxies.filter fun p => p.line != line }
  | none => t

/-- R208: an AUTO atomic to a Shared line is NEAR below counter 2. -/
def State.autoNear (s : State) (line : Nat) : Bool :=
  match s.dirEntry line with
  | some d => decide (d.counter < 2)
  | none => true
/-- R208: the counter falls at a NEAR atomic that hits a line its core already owns. -/
def State.nearHit (s : State) (core line : Nat) : State :=
  match s.dirEntry line with
  | some d => if d.owner = some core ∧ (s.l1Find core line).isSome then s.setDir { d with counter := d.counter - 1 } else s
  | none => s

/-! ### Copies of a line leave the device's caches (R204, R217, R221, R402) -/

/-- Every coherent copy of a line goes, with the entries that name it. -/
def State.purgeLine (s : State) (line : Nat) : State :=
  let t := s.dropDir line
  { t with slices := t.slices.filter fun l => l.line != line }

/-! ### Pool lines and host lines the device may cache (R220, R402, R408) -/

/-- R408: some enabled pool decoder covers the address. -/
def State.poolOk (s : State) (pa : Nat) : Bool := !s.mgmt.minMode && s.mgmt.pool.any fun d => d.covers pa
/-- R408: the CXL port of a pool address. -/
def State.poolPort (s : State) (pa : Nat) : Nat := (s.mgmt.pool.findIdx? fun d => d.covers pa).getD 0

/-- R220: the set of a line in a port's part of the filter: 65,536 sets of 16 ways (DESIGN CHOICE, log entry 7). -/
def filterSet (line : Nat) : Nat := line / 64 % 65536
/-- R220: a pool line is about to be cached: it has an entry, for which the least recently allocated one of a full set makes room. -/
def State.filterAdmit (s : State) (line : Nat) : State :=
  let p := s.poolPort line
  if s.filter.contains (p, line) then s
  else
    let set := s.filter.filter fun e => e.1 == p && filterSet e.2 == filterSet line
    let t := if 16 ≤ set.length then
        (match set with | e :: _ => { (s.purgeLine e.2) with filter := s.filter.filter fun k => k != e } | [] => s) else s
    { t with filter := t.filter ++ [(p, line)] }
/-- R402: a host-coherent line is about to be cached: the agent tracks 2 Mi lines, the least recently allocated one of which makes
room. -/
def State.agentAdmit (s : State) (line : Nat) : State :=
  if s.agent.contains line then s
  else
    let t := if 2 ^ 21 ≤ s.agent.length then
        (match s.agent with | k :: r => { (s.purgeLine k) with agent := r } | [] => s) else s
    { t with agent := t.agent ++ [line] }
/-- R220, R402: a line of a memory type is about to be cached on the device. -/
def State.admitLine (s : State) (ty line : Nat) : State :=
  if ty = 1 then s.filterAdmit line else if ty = 2 then s.agentAdmit line else s

end Sys2Proof.Machine
end

