-- ==== Sys2Proof/Machine/Addr.lean ====
section
/-! DEFINITION. Addresses: the apertures of R15, home slices (R201), page-table entries (R213, R214), physical ranges (R399, R408, R409), scratch
reservations and the cloud window (R16, R163), stack slots (R164). -/

namespace Sys2Proof.Machine

/-- R15: the apertures. -/
inductive Aperture where
  | global | scratch | cloud | stack
  deriving DecidableEq, Repr

/-- R15: the aperture of an address, none where it lies in no listed range. -/
def apertureOf (a : Nat) : Option Aperture :=
  if a < 0x0200000000000000 then some .global
  else if 0xFFE0000000000000 ≤ a ∧ a < 0xFFE0000000140000 then some .scratch
  else if 0xFFE1000000000000 ≤ a ∧ a < 0xFFE1000008000000 then some .cloud
  else if 0xFFF0000000000000 ≤ a then some .stack
  else none

/-- Memory types of scratch and stack. -/
def tyScratch : Nat := 6
def tyStack : Nat := 7

/-- R201: the home slice of a Shared line. -/
def sharedSlice (pa ty owner : Nat) : Nat :=
  let c := if ty = 0 then bits pa 36 3 else clusterOf owner
  48 * c + (bits pa 6 16 ^^^ bits pa 22 16 ^^^ bits pa 38 14) % 48

/-- R399, R421: the type is allowed for the physical range of a page. -/
def paOk (minMode : Bool) (pa ty : Nat) : Bool :=
  if pa < 2 ^ 39 then ty == 0 && (!minMode || decide (pa < 2 ^ 36))
  else if 0x4000000000000 ≤ pa ∧ pa < 0x4400000000000 then ty == 1
  else if 0x8000000000000 ≤ pa ∧ pa < 0x8400000000000 then ty == 2 || ty == 3
  else if 0xD000000000000 ≤ pa ∧ pa < 0xE000000000000 then ty == 4
  else if 0xE000000000000 ≤ pa ∧ pa < 0xE400000000000 then ty == 5
  else if 0xF000000000000 ≤ pa ∧ pa < 0xF000001000000 then ty == 5
  else false

/-- R214: fields of a leaf entry. -/
def pteOwner (e : Nat) : Nat := bits e 52 9
def ptePa (e : Nat) : Nat := bits e 16 36 * 2 ^ 16
def pteCls (e : Nat) : Nat := bits e 13 2
def pteType (e : Nat) : Nat := bits e 7 3

/-- R214: an entry with OWNER, CLS and ACC as the walker writes them. -/
def pteClaim (e owner cls : Nat) : Nat :=
  let x := e - pteOwner e * 2 ^ 52 - pteCls e * 2 ^ 13
  (x + owner * 2 ^ 52 + cls * 2 ^ 13) ||| 2 ^ 11

/-- R213, R214: a leaf is well formed for its size. -/
def leafOk (minMode : Bool) (e size : Nat) : Bool :=
  bits e 61 3 == 0 && !bit e 15 && decide (pteType e ≤ 5) && ptePa e % size == 0 && paOk minMode (ptePa e) (pteType e)

/-- R213: the levels of the walk: shift and width of the index, and what a leaf there maps. -/
def walkLevels : List (Nat × Nat × Option Nat) :=
  [(48, 9, none), (39, 9, none), (30, 9, some (2 ^ 30)), (21, 9, some (2 ^ 21)), (16, 5, some (2 ^ 16))]

/-- R212: the entry maps the address for the context (DEDUCED, log entry 9). -/
def Tlb.hits (t : Tlb) (ctx va : Nat) : Bool := t.ctx == ctx && decide (t.va ≤ va ∧ va < t.va + t.size)

/-- A translation: the leaf's word, its page and size. -/
structure Leaf where
  pte : Nat
  va : Nat
  size : Nat
  deriving DecidableEq, Repr

/-- A place off bytes further in the same page. -/
def Loc.plus (l : Loc) (off : Nat) : Loc :=
  { l with key := l.key + off,
           slice := if l.shared then 48 * (l.slice / 48) + (bits (l.key + off) 6 16 ^^^ bits (l.key + off) 22 16 ^^^ bits (l.key + off) 38 14) % 48
                    else l.slice }

/-- R214: the permission an access needs. -/
inductive Perm where
  | rd | w | x
  deriving DecidableEq, Repr

/-- R170: the outcome of the check of one address. -/
inductive Chk where
  | ok (l : Loc)
  | trap (cause : Nat)
  /-- a non-resident page, by its first address -/
  | nonres (page : Nat)
  /-- the walk waits (R202, R212) -/
  | busy
  /-- the walk met a poisoned table entry, which is consumed as an address (R381) -/
  | poison
  deriving DecidableEq, Repr

/-- R409: the window of a peer address is valid. -/
def State.peerOk (s : State) (pa : Nat) : Bool := !s.mgmt.minMode && bit (s.peerWin (bits pa 40 8)) 20

/-- R170, item 4: what a physical page of each type needs beyond its entry (R393, R408, R409). -/
def State.typeOk (s : State) (pa ty : Nat) (priv : Bool) : Bool :=
  if ty = 1 then s.poolOk pa
  else if ty = 4 then s.peerOk pa
  else if ty = 5 ∧ 0xF000000000000 ≤ pa then priv
  else true

/-- R162: the buffer of a scratch offset: 0 W, 1 A, 2 C. -/
def bufOf (off : Nat) : Nat := if off < 0x80000 then 0 else if off < 0x100000 then 1 else 2
/-- R162: where a buffer's offsets begin. -/
def bufBase (b : Nat) : Nat := if b = 0 then 0 else if b = 1 then 0x80000 else 0x100000
/-- R163: where a workgroup's reservation begins in a buffer, and its size. -/
def Wg.res (w : Wg) (b : Nat) : Nat × Nat :=
  if b = 0 then (w.offW, w.sizeW) else if b = 1 then (w.offA, w.sizeA) else (w.offC, w.sizeC)

/-- R163: an access of n bytes at a scratch offset of a workgroup: its key. -/
def Wg.scratch (w : Wg) (off n : Nat) : Option Nat :=
  let b := bufOf off
  let o := off - bufBase b
  let r := w.res b
  if o + n ≤ r.2 then some (scratchKey w.core (bufBase b + r.1 + o)) else none

/-- The workgroup of a number. -/
def State.wg? (s : State) (id : Nat) : Option Wg := s.wgs.find? fun w => w.id == id
/-- The grid of a number. -/
def State.grid? (s : State) (id : Nat) : Option Grid := s.grids.find? fun g => g.id == id
/-- Replaces a workgroup. -/
def State.updWg (s : State) (id : Nat) (f : Wg → Wg) : State :=
  { s with wgs := s.wgs.map fun w => if w.id = id then f w else w }
/-- Replaces a grid. -/
def State.updGrid (s : State) (id : Nat) (f : Grid → Grid) : State :=
  { s with grids := s.grids.map fun w => if w.id = id then f w else w }

/-- R14, R253: the workgroup stands in a cloud of more than one member (DEDUCED, log entry 8). -/
def Wg.inCloud (w : Wg) : Bool := decide (1 < w.members)
/-- The member m of a workgroup's cloud that has not given its reservation up: it is live, or its engine commands still run (R311). -/
def State.member? (s : State) (w : Wg) (m : Nat) : Option Wg :=
  s.wgs.find? fun v => (v.live || s.engQ.any fun c => c.wg == v.id) && v.cloud == w.cloud && v.member == m && v.members == w.members

/-- R164: the slot base of a group, in lane slots. -/
def Group.slotBase (g : Group) : Nat := 96 * g.num

/-- R164: the relocated address of offset off of a lane slot. -/
def State.stackKey (s : State) (g : Group) (lane off : Nat) : Nat :=
  match s.grid? g.grid with
  | none => off
  | some k => k.pkt.stack + (g.slotBase + lane) * k.pkt.stride + off
/-- R164: the stride of a group's stack slots. -/
def State.stride (s : State) (g : Group) : Nat := ((s.grid? g.grid).map fun k => k.pkt.stride).getD 0

end Sys2Proof.Machine
end

