-- ==== Sys2Proof/Machine/Crypto.lean ====
section
/-! DEFINITION. SHA-512 and Ed25519 (R417, R418, R422, R423), as FIPS 180-4 and RFC 8032 define them (PRESUMED, log entry 35). -/

namespace Sys2Proof.Machine

/-! ### FIPS 180-4 -/

/-- 4.2.3: the constants of the rounds. -/
def shaRounds : List (BitVec 64) :=
  [0x428A2F98D728AE22, 0x7137449123EF65CD, 0xB5C0FBCFEC4D3B2F, 0xE9B5DBA58189DBBC]
  ++ [0x3956C25BF348B538, 0x59F111F1B605D019, 0x923F82A4AF194F9B, 0xAB1C5ED5DA6D8118]
  ++ [0xD807AA98A3030242, 0x12835B0145706FBE, 0x243185BE4EE4B28C, 0x550C7DC3D5FFB4E2]
  ++ [0x72BE5D74F27B896F, 0x80DEB1FE3B1696B1, 0x9BDC06A725C71235, 0xC19BF174CF692694]
  ++ [0xE49B69C19EF14AD2, 0xEFBE4786384F25E3, 0x0FC19DC68B8CD5B5, 0x240CA1CC77AC9C65]
  ++ [0x2DE92C6F592B0275, 0x4A7484AA6EA6E483, 0x5CB0A9DCBD41FBD4, 0x76F988DA831153B5]
  ++ [0x983E5152EE66DFAB, 0xA831C66D2DB43210, 0xB00327C898FB213F, 0xBF597FC7BEEF0EE4]
  ++ [0xC6E00BF33DA88FC2, 0xD5A79147930AA725, 0x06CA6351E003826F, 0x142929670A0E6E70]
  ++ [0x27B70A8546D22FFC, 0x2E1B21385C26C926, 0x4D2C6DFC5AC42AED, 0x53380D139D95B3DF]
  ++ [0x650A73548BAF63DE, 0x766A0ABB3C77B2A8, 0x81C2C92E47EDAEE6, 0x92722C851482353B]
  ++ [0xA2BFE8A14CF10364, 0xA81A664BBC423001, 0xC24B8B70D0F89791, 0xC76C51A30654BE30]
  ++ [0xD192E819D6EF5218, 0xD69906245565A910, 0xF40E35855771202A, 0x106AA07032BBD1B8]
  ++ [0x19A4C116B8D2D0C8, 0x1E376C085141AB53, 0x2748774CDF8EEB99, 0x34B0BCB5E19B48A8]
  ++ [0x391C0CB3C5C95A63, 0x4ED8AA4AE3418ACB, 0x5B9CCA4F7763E373, 0x682E6FF3D6B2B8A3]
  ++ [0x748F82EE5DEFB2FC, 0x78A5636F43172F60, 0x84C87814A1F0AB72, 0x8CC702081A6439EC]
  ++ [0x90BEFFFA23631E28, 0xA4506CEBDE82BDE9, 0xBEF9A3F7B2C67915, 0xC67178F2E372532B]
  ++ [0xCA273ECEEA26619C, 0xD186B8C721C0C207, 0xEADA7DD6CDE0EB1E, 0xF57D4F7FEE6ED178]
  ++ [0x06F067AA72176FBA, 0x0A637DC5A2C898A6, 0x113F9804BEF90DAE, 0x1B710B35131C471B]
  ++ [0x28DB77F523047D84, 0x32CAAB7B40C72493, 0x3C9EBE0A15C9BEBC, 0x431D67C49C100D4C]
  ++ [0x4CC5D4BECB3E42B6, 0x597F299CFC657E2A, 0x5FCB6FAB3AD6FAEC, 0x6C44198C4A475817]
/-- 5.3.5: the first hash value. -/
def shaStart : List (BitVec 64) :=
  [0x6A09E667F3BCC908, 0xBB67AE8584CAA73B, 0x3C6EF372FE94F82B, 0xA54FF53A5F1D36F1]
  ++ [0x510E527FADE682D1, 0x9B05688C2B3E6C1F, 0x1F83D9ABFB41BD6B, 0x5BE0CD19137E2179]
/-- 4.1.3: the four functions of one word, and the two of three. -/
def shaBig0 (x : BitVec 64) : BitVec 64 := x.rotateRight 28 ^^^ x.rotateRight 34 ^^^ x.rotateRight 39
def shaBig1 (x : BitVec 64) : BitVec 64 := x.rotateRight 14 ^^^ x.rotateRight 18 ^^^ x.rotateRight 41
def shaSmall0 (x : BitVec 64) : BitVec 64 := x.rotateRight 1 ^^^ x.rotateRight 8 ^^^ x >>> 7
def shaSmall1 (x : BitVec 64) : BitVec 64 := x.rotateRight 19 ^^^ x.rotateRight 61 ^^^ x >>> 6
def shaChoose (x y z : BitVec 64) : BitVec 64 := (x &&& y) ^^^ (~~~x &&& z)
def shaMajority (x y z : BitVec 64) : BitVec 64 := (x &&& y) ^^^ (x &&& z) ^^^ (y &&& z)
/-- A word of eight bytes, the highest first. -/
def shaWord (bs : List Byte) : BitVec 64 := bs.foldl (fun x b => x <<< 8 ||| b.setWidth 64) 0
/-- Its bytes. -/
def shaBytes (x : BitVec 64) : List Byte := (List.range 8).map fun i => (x >>> (56 - 8 * i)).setWidth 8
/-- 6.4.2: the message schedule, newest first. -/
def shaSchedule : Nat → List (BitVec 64) → List (BitVec 64)
  | 0, w => w
  | n + 1, w => shaSchedule n ((shaSmall1 (w.getD 1 0) + w.getD 6 0 + shaSmall0 (w.getD 14 0) + w.getD 15 0) :: w)
/-- 6.4.2: one round on the working variables a to h. -/
def shaRound (v : List (BitVec 64)) (k : BitVec 64 × BitVec 64) : List (BitVec 64) :=
  match v with
  | [a, b, c, d, e, f, g, h] =>
    let t1 := h + shaBig1 e + shaChoose e f g + k.1 + k.2
    [t1 + (shaBig0 a + shaMajority a b c), a, b, c, d + t1, e, f, g]
  | _ => v
/-- 6.4.2: the hash value after a block of 128 bytes. -/
def shaBlock (hash : List (BitVec 64)) (block : List Byte) : List (BitVec 64) :=
  let w := (List.range 16).map fun i => shaWord ((block.drop (8 * i)).take 8)
  List.zipWith (· + ·) hash ((shaRounds.zip (shaSchedule 64 w.reverse).reverse).foldl shaRound hash)
/-- The hash value after the blocks, by fuel. -/
def shaBlocks : Nat → List Byte → List (BitVec 64) → List (BitVec 64)
  | 0, _, hash => hash
  | n + 1, bs, hash => shaBlocks n (bs.drop 128) (shaBlock hash (bs.take 128))
/-- 5.1.2: the message with its padding. -/
def shaPad (bs : List Byte) : List Byte :=
  bs ++ (0x80 :: List.replicate ((239 - bs.length % 128) % 128) 0) ++ (List.range 16).map fun i => BitVec.ofNat 8 (8 * bs.length / 256 ^ (15 - i))
/-- SHA-512 of a byte string. -/
@[irreducible] def sha512 (bs : List Byte) : List Byte :=
  let m := shaPad bs
  (shaBlocks (m.length / 128) m shaStart).flatMap shaBytes

/-! ### RFC 8032, 5.1 -/

/-- The prime of the field, and the order of the base point. -/
def edPrime : Nat := 2 ^ 255 - 19
def edOrder : Nat := 2 ^ 252 + 27742317777372353535851937790883648493
/-- The constant d of the curve. -/
def edD : Nat := 37095705934669439343138083508754565189542113879843219016388785533085940283555
/-- x to the power e in the field, e below 2^256. -/
def edPow (x e : Nat) : Nat :=
  (List.range 256).foldl (fun r i => if e.testBit (255 - i) then r * r % edPrime * x % edPrime else r * r % edPrime) 1
/-- a - b in the field, b below the prime. -/
def edSub (a b : Nat) : Nat := (a + (edPrime - b)) % edPrime
/-- A point in extended coordinates. -/
structure EdPoint where
  x : Nat
  y : Nat
  z : Nat
  t : Nat
  deriving DecidableEq, Repr
/-- The neutral point. -/
def edZero : EdPoint := ⟨0, 1, 1, 0⟩
/-- A point from its coordinates. -/
def edPoint (x y : Nat) : EdPoint := ⟨x, y, 1, x * y % edPrime⟩
/-- The base point. -/
def edBase : EdPoint := edPoint 15112221349535400772501151409588531511454012693041857206046113283949847762202
  46316835694926478169428394003475163141307993866256225615783033603165251855960
/-- 5.1.4: the sum of points. -/
def edAdd (p q : EdPoint) : EdPoint :=
  let a := edSub p.y p.x * edSub q.y q.x % edPrime
  let b := (p.y + p.x) * (q.y + q.x) % edPrime
  let c := p.t * 2 * edD % edPrime * q.t % edPrime
  let d := p.z * 2 * q.z % edPrime
  let e := edSub b a
  let f := edSub d c
  let g := (d + c) % edPrime
  let h := (b + a) % edPrime
  ⟨e * f % edPrime, g * h % edPrime, f * g % edPrime, e * h % edPrime⟩
/-- n times a point, n below 2^256. -/
def edMul (n : Nat) (p : EdPoint) : EdPoint :=
  (List.range 256).foldl (fun r i => if n.testBit (255 - i) then edAdd (edAdd r r) p else edAdd r r) edZero
/-- Two points are the same. -/
def edSame (p q : EdPoint) : Bool :=
  p.x * q.z % edPrime == q.x * p.z % edPrime && p.y * q.z % edPrime == q.y * p.z % edPrime
/-- Bytes as a number, the lowest first. -/
def edNat (bs : List Byte) : Nat := bs.foldr (fun b n => b.toNat + 256 * n) 0
/-- A number as 32 bytes. -/
def edBytes (n : Nat) : List Byte := (List.range 32).map fun i => BitVec.ofNat 8 (n / 256 ^ i)
/-- 5.1.2: the encoding of a point. -/
def edEncode (p : EdPoint) : List Byte :=
  let inv := edPow p.z (edPrime - 2)
  edBytes (p.y * inv % edPrime + p.x * inv % edPrime % 2 * 2 ^ 255)
/-- 5.1.3: the point a number of 256 bits encodes. -/
def edDecode (n : Nat) : Option EdPoint :=
  let y := n % 2 ^ 255
  let sign := n / 2 ^ 255
  let u := edSub (y * y) 1
  let v := (edD * (y * y % edPrime) + 1) % edPrime
  let x0 := u * edPow v 3 % edPrime * edPow (u * edPow v 7 % edPrime) ((edPrime - 5) / 8) % edPrime
  let vx := v * (x0 * x0 % edPrime) % edPrime
  let x := if vx = u then x0 else x0 * edPow 2 ((edPrime - 1) / 4) % edPrime
  if edPrime ≤ y ∨ (vx ≠ u ∧ vx ≠ edSub 0 u) ∨ (x = 0 ∧ sign = 1) then none
  else some (edPoint (if x % 2 = sign then x else edSub 0 x) y)
/-- 5.1.7: whether a signature of 64 bytes is that of a message under a public key of 32. RFC 8032 permits both the equation and its multiple
by 8; which one the device takes is a free value of Config. -/
@[irreducible] def ed25519Verify (key msg sig : List Byte) : Bool :=
  let s := edNat ((sig.drop 32).take 32)
  match edDecode (edNat (key.take 32)), edDecode (edNat (sig.take 32)) with
  | some a, some r =>
    let k := edNat (sha512 (sig.take 32 ++ key.take 32 ++ msg)) % edOrder
    let p := edMul s edBase
    let q := edAdd r (edMul k a)
    decide (s < edOrder) && (if Config.edStrict then edSame p q else edSame (edMul 8 p) (edMul 8 q))
  | _, _ => false
/-- 5.1.5: the secret scalar of a secret of 32 bytes. -/
def edSecret (seed : List Byte) : Nat :=
  let n := edNat ((sha512 seed).take 32) % 2 ^ 254
  n - n % 8 + 2 ^ 254
/-- 5.1.5: its public key. -/
def edPublic (seed : List Byte) : List Byte := edEncode (edMul (edSecret seed) edBase)
/-- 5.1.6: the signature of a message under a secret of 32 bytes. -/
def ed25519Sign (seed msg : List Byte) : List Byte :=
  let r := edNat (sha512 ((sha512 seed).drop 32 ++ msg)) % edOrder
  let rb := edEncode (edMul r edBase)
  let k := edNat (sha512 (rb ++ edPublic seed ++ msg)) % edOrder
  rb ++ edBytes ((r + k * edSecret seed) % edOrder)

/-- R422: the public identity key of a measurement. -/
@[irreducible] def identityKey (m : List Byte) : List Byte := edPublic (Config.identitySecret m)
/-- R423: a signature under the identity key of a measurement. -/
@[irreducible] def identitySign (m msg : List Byte) : List Byte := ed25519Sign (Config.identitySecret m) msg

end Sys2Proof.Machine
end

