-- ==== Sys2Proof/Machine/Mgmt.lean ====
section
/-! DEFINITION. The registers of the management space (R216, R245, R249, R368, R392, R396, R406, R408 to R410, R420,
R422 to R424), read and written as 32-bit words, and the page-request queue (R216). -/

namespace Sys2Proof.Machine

/-- R368: the block of a context. -/
def State.ctx (s : State) (c : Nat) : CtxBlock := (s.ctxs.find? fun b => b.ctx == c).getD (CtxBlock.zero c)
/-- Replaces a block. -/
def State.setCtx (s : State) (b : CtxBlock) : State := { s with ctxs := b :: s.ctxs.filter fun k => k.ctx != b.ctx }
/-- R249: a host queue. -/
def State.lq (s : State) (q : Nat) : LQueue := (s.lqs.find? fun l => l.q == q).getD (LQueue.zero q)
/-- Replaces a queue. -/
def State.setLq (s : State) (l : LQueue) : State := { s with lqs := l :: s.lqs.filter fun k => k.q != l.q }

/-- The low or high word of a 64-bit register. -/
def half (x : Addr) (hi : Bool) : Word := if hi then (x >>> 32).setWidth 32 else x.setWidth 32
/-- A 64-bit register with its low or high word replaced. -/
def setHalf (x : Addr) (hi : Bool) (w : Word) : Addr :=
  if hi then (x &&& 0xFFFFFFFF) ||| (w.setWidth 64 <<< 32) else (x &&& 0xFFFFFFFF00000000) ||| w.setWidth 64
/-- A word of four bytes of a byte register. -/
def wordAt (bs : List Byte) (i : Nat) : Word := BitVec.ofNat 32 (leNat ((bs.drop i).take 4))
/-- A byte register with four bytes replaced. -/
def setWordAt (bs : List Byte) (i : Nat) (w : Word) : List Byte := bs.take i ++ leBytes 4 w.toNat ++ bs.drop (i + 4)

/-- R396, R421: a word of CORERET. -/
def State.coreRetWord (s : State) (w : Nat) : Word :=
  (List.range 32).foldl (fun x i =>
    let c := 32 * w + i
    if s.mgmt.coreRet.contains c || (s.mgmt.minMode && decide (48 ≤ c)) then setBit x i true else x) 0

/-- R420: BOOTST. -/
def State.bootst (s : State) : Word :=
  BitVec.ofNat 32 (s.mgmt.reason % 256 * 2 ^ 16 + s.mgmt.tries % 4 * 2 ^ 14 + (if s.mgmt.minMode then 2 else 0)
    + (if s.mgmt.ok then 1 else 0))

/-- A word of a table of numbered entries. -/
def tableWord (t : List (Nat × Nat)) (i : Nat) : Word := BitVec.ofNat 32 (((t.find? fun p => p.1 == i).map (·.2)).getD 0)
/-- Replaces an entry of such a table. -/
def setTable (t : List (Nat × Nat)) (i x : Nat) : List (Nat × Nat) := (i, x) :: t.filter fun p => p.1 != i

/-- R392: the words of a log bank. -/
def bankWord (b : LogBank) (o : Nat) : Option Word :=
  match o with
  | 0x00 => some (half b.addr false)
  | 0x04 => some (half b.addr true)
  | 0x08 => some (BitVec.ofNat 32 ((if b.v then 2 ^ 31 else 0) + (if b.ov then 2 ^ 30 else 0) + b.sev % 4 * 2 ^ 28
      + (if b.inj then 2 ^ 27 else 0) + b.test % 8 * 2 ^ 24 + b.ctx % 4096 * 2 ^ 12 + b.syn % 256))
  | 0x0C => some b.ccnt
  | 0x10 => some b.ucnt
  | 0x14 => some (BitVec.ofNat 32 (b.ibit % 256 * 256 + b.ikind % 4 * 2 + (if b.arm then 1 else 0)))
  | 0x18 => some (BitVec.ofNat 32 (b.spare))
  | _ => some 0

/-- R368: the words of a context block. -/
def ctxWord (b : CtxBlock) (o : Nat) : Option Word :=
  match o with
  | 0x00 => some (half b.trapVec false)
  | 0x04 => some (half b.trapVec true)
  | 0x08 => some (half b.trapBase false)
  | 0x0C => some (half b.trapBase true)
  | 0x10 => some (BitVec.ofNat 32 b.saveBase)
  | 0x14 => some (BitVec.ofNat 32 (b.saveBase / 2 ^ 32))
  | 0x18 => some (BitVec.ofNat 32 b.saveLen)
  | 0x1C => some (BitVec.ofNat 32 b.saveUsed)
  | 0x20 => some ((if b.full then 32 else 0) + (if b.busy then 16 else 0))
  | 0x24 => some b.kills
  | 0x28 => some b.ckSum
  | 0x2C => some (BitVec.ofNat 32 b.gnum)
  | 0x30 => some (if b.priv then 1 else 0)
  | _ => some 0

/-- R249: the words of a host queue. -/
def lqWord (l : LQueue) (o : Nat) : Option Word :=
  match o with
  | 0x00 => some (half l.base false)
  | 0x04 => some (half l.base true)
  | 0x08 => some (BitVec.ofNat 32 l.size)
  | 0x10 => some (BitVec.ofNat 32 l.tail)
  | 0x18 => some (BitVec.ofNat 32 l.head)
  | 0x20 => some (BitVec.ofNat 32 ((if l.en then 4 else 0) + l.pri % 4))
  | 0x28 => some l.acc
  | 0x30 => some l.done
  | _ => none

/-- Single registers below 0x3000 as words; none where no register stands. -/
def Mgmt.word (m : Mgmt) (bootst : Word) (o : Nat) : Option Word :=
  let n (x : Nat) : Option Word := some (BitVec.ofNat 32 x)
  match o with
  | 0x2000 => some (half m.pqBase false)
  | 0x2004 => some (half m.pqBase true)
  | 0x2008 => n m.pqSize
  | 0x2010 => n m.pqTail
  | 0x2018 => n m.pqHead
  | 0x2040 => some (half m.dlBase false)
  | 0x2044 => some (half m.dlBase true)
  | 0x2048 => n m.dlSize
  | 0x2050 => n m.dlTail
  | 0x2058 => n m.dlHead
  | 0x2060 => some m.dlDrop
  | 0x2080 => some (half m.eqBase false)
  | 0x2084 => some (half m.eqBase true)
  | 0x2088 => n m.eqSize
  | 0x2090 => n m.eqTail
  | 0x2098 => n m.eqHead
  | 0x20A0 => some m.eqSeq
  | 0x20A8 => some m.eqAck
  | 0x20B0 => some m.bootCnt
  | 0x20C0 => some bootst
  | 0x20C8 => some (if m.fmin then 1 else 0)
  | 0x2240 => some (if m.attBusy then 2 else 0)
  | 0x2400 => n m.pwrCap
  | 0x2408 => n m.pwrNow
  | 0x2410 => n m.clkNow
  | 0x2418 => n (m.temp1 % 256 * 256 + m.temp0 % 256)
  | 0x5800 => n m.myId
  | 0x5808 => some (if m.peerIn then 1 else 0)
  | _ => none

/-- The word at a management offset, a multiple of 4; none where the spec puts no register. -/
def State.mgmtWord (s : State) (o : Nat) : Option Word :=
  if 0x2100 ≤ o ∧ o < 0x2140 then
    let d := s.mgmt.pool.getD ((o - 0x2100) / 16) ⟨0, 0⟩
    match o % 16 with
    | 0 => some (if s.mgmt.minMode then 0 else half d.base false)
    | 4 => some (if s.mgmt.minMode then 0 else half d.base true)
    | 8 => some (if s.mgmt.minMode then 0 else d.size)
    | _ => none
  else if 0x2200 ≤ o ∧ o < 0x2220 then some (wordAt (identityKey s.mgmt.measurement) (o - 0x2200))
  else if 0x2220 ≤ o ∧ o < 0x2240 then some (wordAt s.mgmt.attNonce (o - 0x2220))
  else if 0x2300 ≤ o ∧ o < 0x23D0 then some (wordAt s.mgmt.attReport (o - 0x2300))
  else if 0x3000 ≤ o ∧ o < 0x3030 then some (s.coreRetWord ((o - 0x3000) / 4))
  else if 0x4000 ≤ o ∧ o < 0x5000 then lqWord (s.lq ((o - 0x4000) / 0x40)) (o % 0x40)
  else if 0x5000 ≤ o ∧ o < 0x5800 then
    let w := if s.mgmt.minMode then 0 else s.peerWin ((o - 0x5000) / 8)
    some (BitVec.ofNat 32 (if o % 8 = 0 then w else w / 2 ^ 32))
  else if 0x8000 ≤ o ∧ o < 0x9000 then some (tableWord s.mgmt.groupTable ((o - 0x8000) / 4))
  else if 0x9000 ≤ o ∧ o < 0xA000 then some (tableWord s.mgmt.localTable ((o - 0x9000) / 4))
  else if 0x10000 ≤ o ∧ o < 0x50000 then ctxWord (s.ctx ((o - 0x10000) / 64)) (o % 64)
  else if 0x200000 ≤ o ∧ o < 0x360000 then bankWord (s.bank ((o - 0x200000) / 64)) (o % 64)
  else s.mgmt.word s.bootst o

/-- R4, R216: one byte at a management offset; where no register stands, and in the write-only fields of PQCOMP, it is the free value given;
PQCOMP's reserved bits read as zero. -/
def State.mgmtByte (s : State) (a : Nat) (free : Byte) : Byte :=
  if a = 0x2020 then free &&& 1
  else if 0x2020 < a ∧ a < 0x2024 then 0
  else match s.mgmtWord (a / 4 * 4) with
    | some w => BitVec.ofNat 8 (w.toNat / 256 ^ (a % 4))
    | none => free
/-- n bytes at a management offset. -/
def State.mgmtRead (s : State) (o n : Nat) : Nat × State :=
  let bs := (List.range n).map fun i => s.mgmtByte (o + i) (Config.freeByte (s.free + i))
  (leNat bs, { s with free := s.free + n })

/-- A power of two from lo to hi. -/
def pow2In (x lo hi : Nat) : Bool := decide (lo ≤ x ∧ x ≤ hi) && x == 2 ^ x.log2

/-- R216: writes the record of a page request when the ring has room. -/
def State.pqWrite (s : State) (r : PageReq) : State :=
  let m := s.mgmt
  let a := m.pqBase.toNat + 16 * (m.pqTail % m.pqSize)
  let w0 := bits r.va 16 41 * 2 ^ 16 + r.kind * 2 ^ 12 + r.ctx
  let t := s.hbmStore a (leBytes 8 w0 ++ leBytes 4 r.seq ++ leBytes 4 r.cluster)
  let tail := (m.pqTail + 1) % 2 ^ 32
  (({ t with mgmt := { t.mgmt with pqTail := tail },
             pageReqs := t.pageReqs.map fun (q : PageReq) => if q.seq = r.seq then { q with written := true } else q }).postEvent 4 tail).fire 2
/-- R216: the ring is full. -/
def State.pqFull (s : State) : Bool := decide (s.mgmt.pqSize ≤ (s.mgmt.pqTail + 2 ^ 32 - s.mgmt.pqHead) % 2 ^ 32)
/-- R216: writes waiting requests while there is room. -/
def State.pqFlush (s : State) : State :=
  (s.pageReqs.filter fun r => !r.written).foldl (fun t r => if t.mgmt.pqSize = 0 || t.pqFull then t else t.pqWrite r) s

/-- R216: asks for a page: the sequence number of its record, none while the queue is disabled. Requests for one page of a
context join (DESIGN CHOICE, log entry 22). -/
def State.requestPage (s : State) (ctx va kind cluster : Nat) : Option Nat × State :=
  if s.mgmt.pqSize = 0 then (none, s)
  else
    match s.pageReqs.find? fun r => r.ctx == ctx && r.va == va with
    | some r => (some r.seq, s)
    | none =>
      let seq := s.mgmt.pqSeq
      let t := { s with mgmt := { s.mgmt with pqSeq := (seq + 1) % 2 ^ 32 },
                        pageReqs := s.pageReqs ++ [(⟨seq, va, ctx, kind, cluster, false⟩ : PageReq)] }
      (some seq, t.pqFlush)

/-- R177: a resolved page leaves the requests a PAGEREQ waits for. -/
def Pending.pageDone (seq : Nat) (p : Pending) : Pending :=
  if p.pages.contains seq then
    let rest := p.pages.filter fun q => q != seq
    { p with pages := rest, done := (rest.isEmpty && decide (p.kind = .pageReq)) || p.done }
  else p

/-- R216, R367: what a completion does to a group: requests fall, a suspended unit replays or is refused. -/
def Group.pageDone (g : Group) (seq ctx va : Nat) (refuse : Bool) : Group :=
  let g := { g with pend := g.pend.map (Pending.pageDone seq) }
  match g.wait with
  | .page w _ lane addr =>
    if g.ctx = ctx ∧ w = va then
      { g with wait := .ready, replay := true, refused := if refuse then some (lane, addr) else none }
    else g
  | .term q => if q = seq then { g with wait := .rerun, termRefused := if refuse then va :: g.termRefused else g.termRefused } else g
  | _ => g

/-- R340: term jobs that wait for the page go on, or end with error 5. -/
def TermUnit.pageDone (seq : Nat) (refuse : Bool) (u : TermUnit) : TermUnit :=
  { u with jobs := u.jobs.map fun (j : TermJob) => if j.page = some seq then { j with page := none, refused := refuse } else j }

/-- R216: a write of PQCOMP: seq, and whether the page is refused. -/
def State.pqComplete (s : State) (seq : Nat) (refuse : Bool) : State :=
  match s.pageReqs.find? fun r => r.seq == seq && r.written with
  | none => s
  | some r =>
    let t := { s with pageReqs := s.pageReqs.filter fun q => q.seq != seq }
    let t := t.mapGroups fun g => g.pageDone seq r.ctx r.va refuse
    State.pqFlush { t with termQ := t.termQ.map (TermUnit.pageDone seq refuse) }

/-- R216, R367: the queue is disabled: requests that wait for room are dropped, and who waits for them asks again (DEDUCED, log entry 48). -/
def State.pqDisable (s : State) : State :=
  (s.pageReqs.filter fun r => !r.written).foldl (fun (t : State) r =>
    let u := t.mapGroups fun g => g.pageDone r.seq r.ctx r.va false
    { u with termQ := u.termQ.map (TermUnit.pageDone r.seq false), pageReqs := u.pageReqs.filter fun q => q.seq != r.seq })
    { s with mgmt := { s.mgmt with pqSize := 0 } }
/-- R216: a write of PQSIZE (DEDUCED, log entry 48). -/
def State.putPqSize (s : State) (x : Nat) : State :=
  if x = 0 then s.pqDisable
  else if pow2In x 64 65536 then State.pqFlush { s with mgmt := { s.mgmt with pqSize := x } }
  else s

/-- R249: a write of LQTAIL. -/
def LQueue.setTail (l : LQueue) (x : Nat) : LQueue :=
  let ahead := (x + 2 ^ 32 - l.head) % 2 ^ 32
  if l.en then (if ahead ≤ l.size then { l with tail := x } else l)
  else if ahead ≤ (l.tail + 2 ^ 32 - l.head) % 2 ^ 32 then { l with tail := x } else l

/-- R249: a word written to a host queue. -/
def LQueue.put (l : LQueue) (o : Nat) (x : Word) : LQueue :=
  match o with
  | 0x00 => if l.en then l else { l with base := setHalf l.base false x }
  | 0x04 => if l.en then l else { l with base := setHalf l.base true x }
  | 0x08 => if !l.en && pow2In x.toNat 16 4096 then { l with size := x.toNat } else l
  | 0x10 => l.setTail x.toNat
  | 0x20 => { l with en := x.getLsbD 2, pri := x.toNat % 4 }
  | _ => l

/-- R255: a group of the context holds a number. -/
def State.numbersHeld (s : State) (c : Nat) : Bool := !(s.ctx c).held.isEmpty

/-- R368: a word written to a context block. -/
def State.putCtx (s : State) (c o : Nat) (x : Word) : State :=
  let b := s.ctx c
  let set (k : CtxBlock) : State := s.setCtx k
  match o with
  | 0x00 => set { b with trapVec := setHalf b.trapVec false (x &&& 0xFFFFFFFE) }
  | 0x04 => set { b with trapVec := setHalf b.trapVec true x }
  | 0x08 => set { b with trapBase := setHalf b.trapBase false (x &&& 0xFFFFF000) }
  | 0x0C => set { b with trapBase := setHalf b.trapBase true x }
  | 0x10 => set { b with saveBase := (setHalf (BitVec.ofNat 64 b.saveBase) false (x &&& 0xFFFFF000)).toNat }
  | 0x14 => set { b with saveBase := (setHalf (BitVec.ofNat 64 b.saveBase) true x).toNat }
  | 0x18 => set { b with saveLen := x.toNat }
  | 0x20 =>
    let cmd := x.toNat % 4
    if b.busy || cmd = 0 || cmd = 3 then s else set { b with busy := true, cmd := cmd }
  | 0x24 => set { b with kills := b.kills &&& ~~~x }
  | 0x28 => set { b with ckSum := b.ckSum &&& ~~~x }
  | 0x2C => if s.numbersHeld c then s else set { b with gnum := min x.toNat (2 ^ 20) }
  | 0x30 => set { b with priv := x.getLsbD 0 }
  | _ => s

/-- R392: a word written to a log bank. -/
def State.putBank (s : State) (i o : Nat) (x : Word) : State :=
  let b := s.bank i
  match o with
  | 0x08 => if x.getLsbD 31 then s.setBank { b with v := false, ov := false } else s
  | 0x0C => s.setBank { b with ccnt := b.ccnt &&& ~~~x }
  | 0x10 => s.setBank { b with ucnt := b.ucnt &&& ~~~x }
  | 0x14 => s.setBank { b with ibit := x.toNat / 256 % 256, ikind := x.toNat / 2 % 4, arm := x.getLsbD 0 }
  | _ => s

/-- R409: a peer window with a word written; a reserved ID stores V = 0. -/
def peerWinOf (x : Nat) : Nat := if x % 2 ^ 20 < 2 ^ 19 then x % 2 ^ 21 else x % 2 ^ 20

/-- R406: a write of EQSIZE: 0 passes the held events over, each with its sequence number; an empty ring takes them. -/
def State.putEqSize (s : State) (x : Nat) : State :=
  if x = 0 then
    { s with heldEvents := [], mgmt := { s.mgmt with eqSize := 0, eqSeq := s.mgmt.eqSeq + BitVec.ofNat 32 s.heldEvents.length } }
  else if pow2In x 64 65536 then
    State.flushEvents { s with mgmt := { s.mgmt with eqSize := x, eqTail := s.mgmt.eqHead } } s.heldEvents
  else s

/-- The single registers below 0x6000, a word written; the low 12 bits of a ring base that is to be 4 KiB aligned are dropped (DESIGN CHOICE, log
entry 68). -/
def State.putSingle (s : State) (o : Nat) (x : Word) : State :=
  let m := s.mgmt
  let set (k : Mgmt) : State := { s with mgmt := k }
  match o with
  | 0x2000 => set { m with pqBase := setHalf m.pqBase false (x &&& 0xFFFFF000) }
  | 0x2004 => set { m with pqBase := setHalf m.pqBase true x }
  | 0x2008 => s.putPqSize x.toNat
  | 0x2018 => (set { m with pqHead := x.toNat }).pqFlush
  | 0x2040 => set { m with dlBase := setHalf m.dlBase false (x &&& 0xFFFFF000) }
  | 0x2044 => set { m with dlBase := setHalf m.dlBase true x }
  | 0x2048 => if x = 0 || pow2In x.toNat 8 4096 then set { m with dlSize := x.toNat } else s
  | 0x2058 => set { m with dlHead := x.toNat }
  | 0x2060 => set { m with dlDrop := m.dlDrop &&& ~~~x }
  | 0x2080 => set { m with eqBase := setHalf m.eqBase false (x &&& 0xFFFFF000) }
  | 0x2084 => set { m with eqBase := setHalf m.eqBase true x }
  | 0x2088 => s.putEqSize x.toNat
  | 0x2098 => (set { m with eqHead := x.toNat }).flushEvents s.heldEvents
  | 0x20A8 => set { m with eqAck := x }
  | 0x20C8 => set { m with fmin := x.getLsbD 0, tries := if x.getLsbD 1 then 0 else m.tries,
                           reason := if x.getLsbD 1 then 0 else m.reason }
  | 0x2240 => if x.getLsbD 0 && !m.attBusy then set { m with attBusy := true } else s
  | 0x2400 => set { m with pwrCap := max 1000 (min 2400 (x.toNat % 65536)) }
  | 0x5800 => set { m with myId := x.toNat % 2 ^ 20 }
  | 0x5808 => set { m with peerIn := x.getLsbD 0 }
  | _ => s

/-- A word written at a management offset, a multiple of 4. -/
def State.putMgmt (s : State) (o : Nat) (x : Word) : State :=
  let m := s.mgmt
  if 0x2100 ≤ o ∧ o < 0x2140 then
    let i := (o - 0x2100) / 16
    let d := m.pool.getD i ⟨0, 0⟩
    if m.minMode then s
    else
      match o % 16 with
      | 0 => { s with mgmt := { m with pool := m.pool.set i { d with base := setHalf d.base false (x &&& 0xC0000000) } } }
      | 4 => { s with mgmt := { m with pool := m.pool.set i { d with base := setHalf d.base true (x &&& 0xFFFFF) } } }
      | 8 => { s with mgmt := { m with pool := m.pool.set i { d with size := x } } }
      | _ => s
  else if 0x2220 ≤ o ∧ o < 0x2240 then
    if m.attBusy then s else { s with mgmt := { m with attNonce := setWordAt m.attNonce (o - 0x2220) x } }
  else if 0x4000 ≤ o ∧ o < 0x5000 then s.setLq ((s.lq ((o - 0x4000) / 0x40)).put (o % 0x40) x)
  else if 0x5000 ≤ o ∧ o < 0x5800 then
    if o % 8 = 0 && !m.minMode then
      { s with mgmt := { m with peerWin := setTable m.peerWin ((o - 0x5000) / 8) (peerWinOf x.toNat) } }
    else s
  else if 0x8000 ≤ o ∧ o < 0x9000 then
    { s with mgmt := { m with groupTable := setTable m.groupTable ((o - 0x8000) / 4) (x.toNat % 2 ^ 18) } }
  else if 0x9000 ≤ o ∧ o < 0xA000 then
    { s with mgmt := { m with localTable := setTable m.localTable ((o - 0x9000) / 4) (x.toNat % 2 ^ 18) } }
  else if 0x10000 ≤ o ∧ o < 0x50000 then s.putCtx ((o - 0x10000) / 64) (o % 64) x
  else if 0x200000 ≤ o ∧ o < 0x360000 then s.putBank ((o - 0x200000) / 64) (o % 64) x
  else s.putSingle o x

/-- R245, R368, R392: words in which a 1 written clears: the bytes that a narrower store leaves out clear nothing. -/
def clearsOnOne (o : Nat) : Bool :=
  o == 0x2060 || (decide (0x10000 ≤ o ∧ o < 0x50000) && (o % 64 == 0x24 || o % 64 == 0x28))
    || (decide (0x200000 ≤ o ∧ o < 0x360000) && (o % 64 == 0x08 || o % 64 == 0x0C || o % 64 == 0x10))

/-- A store of n bytes at a management offset. PQCOMP acts on a store of its 8 bytes (DESIGN CHOICE, log entry 10). -/
def State.mgmtWrite (s : State) (o n x : Nat) : State :=
  if o = 0x2020 then if n = 8 then s.pqComplete (x / 2 ^ 32 % 2 ^ 32) (bit x 0) else s
  else if n = 8 then (s.putMgmt o (BitVec.ofNat 32 x)).putMgmt (o + 4) (BitVec.ofNat 32 (x / 2 ^ 32))
  else if n = 4 then s.putMgmt o (BitVec.ofNat 32 x)
  else
    let w := if clearsOnOne (o / 4 * 4) then 0 else ((s.mgmtWord (o / 4 * 4)).getD 0).toNat
    let lo := 256 ^ (o % 4)
    s.putMgmt (o / 4 * 4) (BitVec.ofNat 32 (w % lo + x * lo + w / (lo * 256 ^ n) * (lo * 256 ^ n)))

end Sys2Proof.Machine
end

