-- ==== Sys2Proof/Machine/Access.lean ====
section
/-! DEFINITION. Performing one checked access at its place (R166 to R168, R175, R286, R399, R404, R407 to R411), with the
caches it touches, the haze lines it drains, poison, the errors it finds, and the storage of matrix operations in flight. -/

namespace Sys2Proof.Machine

/-- Two byte ranges overlap. -/
def overlaps (a n b m : Nat) : Bool := decide (a < b + m ∧ b < a + n)

/-- R194, R332: bytes that are the engine's for a group: storage of a unit before the WAIT that covers it; then, of MMAT.C in other members,
for every group but the issuing one. -/
def MxOwn.covers (e : MxOwn) (grp : Option Nat) (key n : Nat) : Bool :=
  if e.waited then grp != some e.grp && e.far.any fun r => overlaps key n r.1 r.2
  else (e.owns ++ e.reads).any fun r => overlaps key n r.1 r.2
/-- R194: a matrix unit owns some of the bytes, as operand or accumulator. -/
def State.mxOwned (s : State) (grp key n : Nat) : Bool := s.mxOwns.any fun e => e.covers (some grp) key n
/-- R194, R268: a write to storage of a matrix unit leaves its result open; an engine's write is no group's. -/
def State.mxTaint (s : State) (grp : Option Nat) (key n : Nat) : State :=
  if s.mxOwns.isEmpty then s
  else { s with mxOwns := s.mxOwns.map fun (e : MxOwn) => if e.covers grp key n then { e with tainted := true } else e }

/-- R410: the port toward a peer device, none where it is unreachable (DESIGN CHOICE, log entry 31). -/
def State.route (s : State) (core dev : Nat) : Option Nat :=
  let m := s.mgmt
  let mask := (if dev / 1024 = m.myId / 1024 then tableWord m.localTable (dev % 1024) else tableWord m.groupTable (dev / 1024)).toNat
  let ports := (List.range 18).filter fun i => bit mask i
  if ports.isEmpty then none else ports[Config.routeHash m.myId core dev % ports.length]?

/-- R407, R411: the port through which an access to a peer address fails: unreachable or down (DESIGN CHOICE, log entry 31). -/
def State.peerFails (s : State) (core pa : Nat) : Option Nat :=
  match s.route core (s.peerWin (bits pa 40 8) % 2 ^ 20) with
  | none => some 0
  | some p => if s.down.contains p then some p else none

/-- R389, R394: an armed station or port corrupts the next flit that passes it: one failure, and the retry delivers it (DESIGN CHOICE, log
entry 32). -/
def State.passFlit (s : State) (i addr ctx : Nat) : State :=
  let b := s.bank i
  if !b.arm then s
  else
    let a := if bankKind i = 10 then addr else (Config.freeWord s.free).toNat
    { ((s.setBank { b with arm := false }).logError i 2 a ctx 1 true) with free := s.free + 1 }

/-- R7, R10: where a ring stop stands: its number, its cluster, and whether it is on ring pair B; a stop of an outward station is on every ring. -/
structure RingStop where
  num : Nat
  cluster : Nat
  pairB : Option Bool
  deriving DecidableEq, Repr

/-- R7: the stop of a core and its slice; of an HBM channel and its memory-side cache. -/
def coreStop (c : Nat) : RingStop := ⟨c, clusterOf c, some (decide (24 ≤ c % 48))⟩
def channelStop (k : Nat) : RingStop := ⟨384 + k, k / 32, some (decide (16 ≤ k % 32))⟩
/-- R10: the stop of the host port; of a CXL port; of a Rykel port (DESIGN CHOICE of which port is which, log entry 32). -/
def hostStop : RingStop := ⟨640, 0, some false⟩
def cxlStop (p : Nat) : RingStop := ⟨641 + p, 2 + p, none⟩
def rykelStop (p : Nat) : RingStop :=
  let c := 4 * (p / 9)
  let edge := if p / 9 = 0 then 2 else 4
  match p % 9 with
  | 0 => ⟨645 + p, c, some true⟩
  | 1 => ⟨645 + p, c, some true⟩
  | 2 => ⟨645 + p, c + 1, some true⟩
  | 3 => ⟨645 + p, c + 2, some true⟩
  | 4 => ⟨645 + p, c + 3, some true⟩
  | 5 => ⟨645 + p, edge, some false⟩
  | 6 => ⟨645 + p, edge, some false⟩
  | _ => ⟨645 + p, edge + 1, some false⟩

/-- R8, R9: the station a message crosses from a row of clusters to the next one below or above, in a column: the S3 of the outer clusters, and
at the die bridge that of the cluster it leaves. -/
def rowStation (col row : Nat) (down : Bool) : Nat :=
  4 * (2 * (if row = 0 then 0 else if row = 1 then (if down then 1 else 2) else 3) + col) + 3
/-- R8, R9: the outward stations between two clusters: the column first, by S2, then the rows, by the S3s and the die bridge. -/
def clusterRoute (c d : Nat) : List Nat :=
  let col := d % 2
  let r0 := c / 2
  let r1 := d / 2
  (if c % 2 = col then [] else [4 * c + 2])
    ++ (if r0 ≤ r1 then (List.range (r1 - r0)).map fun i => rowStation col (r0 + i) true
        else (List.range (r0 - r1)).map fun i => rowStation col (r0 - 1 - i) false)
/-- R7, R9: the stations a message from one stop to another crosses, as banks of R391 number them. -/
def stationRoute (a b : RingStop) : List Nat :=
  if a.cluster = b.cluster then
    match a.pairB, b.pairB with
    | some x, some y => if x = y then [] else [4 * a.cluster + (if Config.bridgeS1 a.num then 1 else 0)]
    | _, _ => []
  else clusterRoute a.cluster b.cluster

/-- R6, R10, R201: the stops an access of a core to a place goes through: the home slice, then, when that does not hold the line, memory, the
port of the pool or the host port; a peer's port. -/
def State.stops (s : State) (core : Nat) (l : Loc) : List RingStop :=
  let home : List RingStop := [coreStop core, coreStop l.slice]
  let beyond (p : RingStop) : List RingStop :=
    if s.slices.any fun k => k.slice == l.slice && k.line == lineOf l.key then home else home ++ [p]
  if l.ty = 1 then beyond (cxlStop (s.poolPort l.key))
  else if l.ty = 2 then beyond hostStop
  else if l.ty = 3 ∨ (l.ty = 5 ∧ l.key < 0xF000000000000) then [coreStop core, hostStop]
  else if l.ty = 4 then
    match s.route core (s.peerWin (bits l.key 40 8) % 2 ^ 20) with
    | some p => [coreStop core, rykelStop p]
    | none => []
  else if l.ty = 5 then []
  else beyond (channelStop (hbmChannel l.key))
/-- The stations of a way through stops, and back. -/
def pathStations : List RingStop → List Nat
  | a :: b :: r => stationRoute a b ++ pathStations (b :: r)
  | _ => []
/-- R6 to R10, R394: the flits of an access: those of the request and those of its response cross stations, and at a peer the port (DESIGN
CHOICE, log entry 32). -/
def State.flits (s : State) (core ctx : Nat) (l : Loc) : State :=
  if s.banks.isEmpty || l.ty = tyScratch || (s.l1Find core (lineOf l.key)).isSome then s
  else if l.ty = 4 ∧ (s.peerFails core l.key).isSome then s
  else
    let way := s.stops core l
    let t := (pathStations way ++ pathStations way.reverse).foldl (fun (u : State) i => u.passFlit (bankIdx 9 i) l.key ctx) s
    if l.ty = 4 then
      match s.route core (s.peerWin (bits l.key 40 8) % 2 ^ 20) with
      | some p => t.passFlit (bankIdx 10 p) l.key ctx
      | none => t
    else t
/-- R389: a store's payload whose flits have failed 16 times is delivered poisoned. -/
def State.payload (s : State) (grp : Nat) (pz : Bool) : Bool × State :=
  if s.banks.all fun b => b.latent.isEmpty then (pz, s)
  else
    let mine (b : LogBank) : Bool := decide (9 ≤ bankKind b.idx) && b.latent.any fun e => e.word == grp
    let clear (b : LogBank) : LogBank := if decide (9 ≤ bankKind b.idx) then { b with latent := b.latent.filter fun e => e.word != grp } else b
    (pz || s.banks.any mine, { s with banks := s.banks.map clear })
/-- The context of a group, none's for the device's own accesses. -/
def State.ctxOf (s : State) (grp : Nat) : Nat := ((s.group? grp).map (·.ctx)).getD 0xFFF

/-- What a load of one element gives: the value, its mark, and whether a link failed (R382 HST). -/
structure Rd where
  val : Nat
  pz : Bool
  hst : Bool
  deriving DecidableEq, Repr

/-- R166 to R168, R205, R220, R402: the caches an access of n bytes to coherent memory touches. -/
def State.touch (s : State) (core grp : Nat) (l : Loc) (n lpol spol : Nat) (store : Bool) : State :=
  let line := lineOf l.key
  let hit := (s.l1Find core line).isSome
  if !hit && lpol = 3 then
    -- R168: past the L1; a store to a Shared line is performed at its home
    let t := (if spol = 3 then s else s.admitLine l.ty line).victimHit core line grp
    (if l.shared && store then t.dirHome line l.slice else t).sliceTouch l.slice line spol
  else
    let t := (s.admitLine l.ty line).l1Touch core line grp lpol
    let t := if hit then t else t.sliceTouch l.slice line spol
    let owned := ((t.dirEntry line).map fun d => d.owner == some core).getD false
    let t := if l.shared && !(hit && (!store || owned)) then t.dirAccess core line l.slice store else t
    if store then t.l1Dirty core l.key n else t

/-- R286: an exact access to a line of a haze region drains its holders first. -/
def State.exactAccess (s : State) (l : Loc) : State :=
  if s.hazeNet.isEmpty && s.hazeHomes.isEmpty then s else s.hazeFlush.drainHolders (lineOf l.key)

/-- The marks of the 8 words of a line in memory. -/
def State.lineMarks (s : State) (line : Nat) : BitVec 8 :=
  (List.range 8).foldl (fun m w => if s.memPoisoned (line + 8 * w) 8 then m ||| BitVec.twoPow 8 w else m) 0
/-- R166: a core's own copy of a line of host non-coherent memory with its marks, fetched when it has none. -/
def State.ownLine (s : State) (core grp : Nat) (line lpol : Nat) : (List Byte × BitVec 8) × State :=
  match s.l1Find core line with
  | some l => ((l.data, l.pz), s.l1Touch core line grp lpol)
  | none =>
    let d := s.memBytes line 64
    let m := s.lineMarks line
    ((d, m), s.l1Use false core line grp lpol d m)
/-- The words of a line that bytes off to off + n - 1 touch, and those they cover. -/
def wordsTouched (off n : Nat) : BitVec 8 :=
  (List.range 8).foldl (fun m w => if off < 8 * w + 8 ∧ 8 * w < off + n then m ||| BitVec.twoPow 8 w else m) 0
def wordsCovered (off n : Nat) : BitVec 8 :=
  (List.range 8).foldl (fun m w => if off ≤ 8 * w ∧ 8 * w + 8 ≤ off + n then m ||| BitVec.twoPow 8 w else m) 0

/-- Reads n bytes at a checked place. -/
def State.readLoc (s : State) (core grp : Nat) (l : Loc) (n lpol spol : Nat) : Rd × State :=
  let s := (if l.ty = 5 then s else s.findErrors (s.ctxOf grp) l.key n false).flits core (s.ctxOf grp) l
  if l.ty = tyScratch then
    if s.mxOwned grp l.key n then
      (⟨leNat ((List.range n).map fun i => Config.freeByte (s.free + i)), false, false⟩, { s with free := s.free + n })
    else (⟨s.memRead l.key n, s.memPoisoned l.key n, false⟩, s)
  else if l.ty = 3 then
    if s.hostDown then (⟨0, true, true⟩, s)
    else
      let (d, t) := s.ownLine core grp (lineOf l.key) lpol
      (⟨leNat ((d.1.drop (l.key % 64)).take n), d.2 &&& wordsTouched (l.key % 64) n != 0, false⟩, t)
  else if l.ty = 4 then
    match s.peerFails core l.key with
    | some p => (⟨0, true, true⟩, s.linkEvent p 3)
    | none => (⟨s.memRead l.key n, s.memPoisoned l.key n, false⟩, s)
  else if l.ty = 5 then
    if 0xF000000000000 ≤ l.key then
      let r := s.mgmtRead (l.key - 0xF000000000000) n
      (⟨r.1, false, false⟩, r.2)
    else if s.hostDown then (⟨0, true, true⟩, s)
    else
      (⟨leNat ((List.range n).map fun i => Config.mmioByte (l.key - 0xE000000000000 + i) s.free), false, false⟩, s.fresh)
  else if l.ty = 2 ∧ s.hostDown then (⟨0, true, true⟩, s)
  else
    let t := (s.exactAccess l).touch core grp l n lpol spol false
    (⟨t.memRead l.key n, t.memPoisoned l.key n, false⟩, t)

/-- R404: a posted write to host MMIO; 16 bytes travel as two writes. -/
def State.mmioStore (s : State) (a n x : Nat) : State :=
  if n = 16 then { s with mmioOut := s.mmioOut ++ [(a, leBytes 8 x), (a + 8, leBytes 8 (x / 2 ^ 64))] }
  else { s with mmioOut := s.mmioOut ++ [(a, leBytes n x)] }

/-- R166, R381: n bytes stored into a core's own copy. -/
def L1Line.put (k : L1Line) (off n x : Nat) (pz : Bool) : L1Line :=
  { k with data := k.data.take off ++ leBytes n x ++ k.data.drop (off + n), dirty := k.dirty ||| byteMask off n,
           pz := if pz then k.pz ||| wordsTouched off n else k.pz &&& ~~~(wordsCovered off n) }
/-- R166: a store into a core's own copy of host non-coherent memory, or past it when the L1 does not allocate (R168). -/
def State.storeOwn (s : State) (core grp : Nat) (l : Loc) (n x lpol : Nat) (pz : Bool) : State :=
  let line := lineOf l.key
  if lpol = 3 && (s.l1Find core line).isNone then (s.victimHit core line grp).memWriteP l.key n x pz
  else
    let t := (s.ownLine core grp line lpol).2.plantAt [bankIdx 1 core] (l.key / 8)
    { t with l1 := t.l1.map fun k => if !k.haze && k.core == core && k.line == line then k.put (l.key % 64) n x pz else k }

/-- Writes n bytes at a checked place; the flag says that a link failed. -/
def State.writeLoc (s : State) (core grp ctx : Nat) (l : Loc) (n x : Nat) (pz : Bool) (lpol spol : Nat) : Bool × State :=
  let (pz, s) := if l.ty = 5 ∨ l.ty = tyScratch then (pz, s) else s.payload grp pz
  let s := (if l.ty = 5 then s else s.findErrors ctx l.key n true).flits core ctx l
  if l.ty = tyScratch then (false, (s.mxTaint (some grp) l.key n).memWriteP l.key n x pz)
  else if l.ty = 3 then
    if s.hostDown then (true, s)
    else
      let t := (s.storeOwn core grp l n x lpol pz).record l.key
      (false, { t with zlr := insertNat grp t.zlr })
  else if l.ty = 4 then
    match s.peerFails core l.key with
    | some p => (true, s.linkEvent p 3)
    | none => (false, (s.memWriteP l.key n x pz).record l.key)
  else if l.ty = 5 then
    if 0xF000000000000 ≤ l.key then
      if n = 16 then
        (false, ((s.mgmtWrite (l.key - 0xF000000000000) 8 (x % 2 ^ 64)).mgmtWrite (l.key - 0xF000000000000 + 8) 8 (x / 2 ^ 64)))
      else (false, s.mgmtWrite (l.key - 0xF000000000000) n x)
    else if s.hostDown then (true, s)
    else
      let t := s.mmioStore (l.key - 0xE000000000000) n x
      (false, { t with zlr := insertNat grp t.zlr })
  else if l.ty = 2 ∧ s.hostDown then (true, s)
  else
    let t := (s.exactAccess l).touch core grp l n lpol spol true
    let t := if l.ty = tyStack then t else t.record l.key
    (false, (t.memWriteP l.key n x pz).plantCaches core l)

/-- R166, R407: an agent other than a core reads or writes host non-coherent memory, past every L1. -/
def State.readBeside (s : State) (l : Loc) (n : Nat) : Rd × State :=
  if s.hostDown then (⟨0, true, true⟩, s) else (⟨s.memRead l.key n, s.memPoisoned l.key n, false⟩, s)
def State.writeBeside (s : State) (grp ctx : Nat) (l : Loc) (n x : Nat) (pz : Bool) : Bool × State :=
  if s.hostDown then (true, s)
  else
    let t := ((s.findErrors ctx l.key n true).memWriteP l.key n x pz).record l.key
    (false, { t with zlr := insertNat grp t.zlr })

/-- R224 to R226: what an element operation writes: the new value and whether it overflowed (DEDUCED, log entry 27). -/
def AtomOp.apply (op : AtomOp) (n x y cmp : Nat) : Option Nat × Bool :=
  let w := 2 ^ (8 * n)
  let sg (v : Nat) : Int := (BitVec.ofNat 32 v).toInt
  match op with
  | .addI32 => (some ((x + y) % w), false)
  | .addI64 => (some ((x + y) % w), false)
  | .addF32 => let r := fmtF32.add .rne false false x y; (some r.bits, r.ovf)
  | .addBf2 =>
    let lo := fmtBF16.add .rne false false (x % 65536) (y % 65536)
    let hi := fmtBF16.add .rne false false (x / 65536) (y / 65536)
    (some (lo.bits + 65536 * hi.bits), lo.ovf || hi.ovf)
  | .minI => (some (if sg x ≤ sg y then x else y), false)
  | .maxI => (some (if sg x ≤ sg y then y else x), false)
  | .minN => (some (min x y), false)
  | .maxN => (some (max x y), false)
  | .and => (some (x &&& y), false)
  | .or => (some (x ||| y), false)
  | .xor => (some (x ^^^ y), false)
  | .xchg => (some y, false)
  | .xchg64 => (some y, false)
  | .minF32 => (some (fmtF32.minmax false false x y), false)
  | .maxF32 => (some (fmtF32.minmax false true x y), false)
  | .cas => (if x = cmp then some y else none, false)

/-- R229, R403: the forms a host AtomicOp can carry. -/
def AtomOp.hostForm : AtomOp → Bool
  | .addI32 => true
  | .addI64 => true
  | .xchg => true
  | .xchg64 => true
  | .cas => true
  | _ => false

/-- R229: the memory type permits the form. -/
def atomTypeOk (ty : Nat) (op : AtomOp) : Bool := if ty = 3 then op.hostForm else ty != 5

/-- What an element operation gives: the old value, its mark, an overflow, a failed link. -/
structure At where
  old : Nat
  pz : Bool
  ovf : Bool
  hst : Bool
  deriving DecidableEq, Repr

/-- R230: a FAR atomic goes to the line's home slice: no L1 keeps a copy. -/
def State.farTouch (s : State) (core grp : Nat) (l : Loc) (spol : Nat) : State :=
  let line := lineOf l.key
  let t := ((s.admitLine l.ty line).victimHit core line grp).dropCopies line
  (if l.shared then t.dirHome line l.slice else t).sliceTouch l.slice line spol

/-- R208, R229, R230, R402: the caches an atomic touches, by its place: the host-memory home agent first holds a host-coherent line
alone. -/
def State.atomTouch (s : State) (core grp : Nat) (l : Loc) (n : Nat) (far : Bool) (lpol spol : Nat) : State :=
  let line := lineOf l.key
  let s := s.exactAccess l
  if l.ty = 2 then ((s.agentAdmit line).victimHit core line grp).purgeLine line
  else if far then s.farTouch core grp l spol
  else (if l.shared then s.nearHit core line else s).touch core grp l n lpol spol true

/-- R175: the bytes of an element that the core has written in its own copy of a line of host memory stand before an AtomicOp of the core to
the same bytes: they go to the host first (DEDUCED, log entry 29). -/
def State.ownFirst (s : State) (core grp : Nat) (l : Loc) (n : Nat) : State :=
  let line := lineOf l.key
  let t := s.victimHit core line grp
  match t.l1Find core line with
  | none => t
  | some k => ((List.range n).filter fun i => k.dirty.getLsbD (l.key % 64 + i)).foldl
      (fun (u : State) i => u.memWriteP (l.key + i) 1 (k.data.getD (l.key % 64 + i) 0).toNat (k.pz.getLsbD ((l.key % 64 + i) / 8))) t
/-- R175: what an AtomicOp leaves of an element is what the core's own copy holds of it afterwards. -/
def State.ownAfter (s : State) (core : Nat) (l : Loc) (n : Nat) : State :=
  let off := l.key % 64
  { s with l1 := s.l1.map fun (k : L1Line) =>
      if !k.haze && k.core == core && k.line == lineOf l.key then
        { k.put off n (s.memRead l.key n) (s.memPoisoned l.key n) with dirty := k.dirty &&& ~~~(byteMask off n) } else k }

/-- R228, R229: performs an element operation indivisibly at a checked place (DEDUCED, log entry 27). -/
def State.atomLoc (s : State) (core grp ctx : Nat) (l : Loc) (op : AtomOp) (n y cmp : Nat) (ypz far : Bool) (lpol spol : Nat) : At × State :=
  if (l.ty = 2 ∨ l.ty = 3) ∧ s.hostDown then (⟨0, true, false, true⟩, s.linkEvent 31 4)
  else if l.ty = 4 ∧ (s.peerFails core l.key).isSome then
    (⟨0, true, false, true⟩, s.linkEvent ((s.peerFails core l.key).getD 0) 3)
  else
    -- R398: an error found now in bytes of the word that a narrow atomic leaves alone is no concern of its group
    let aside := decide (n < 8) && !s.memPoisoned l.key n && !s.banks.any fun b => b.latent.any fun e => e.bad && e.inside l.key n
    let s := (s.findErrors ctx l.key n false).flits core ctx l
    let t := if l.ty = 0 ∨ l.ty = 1 ∨ l.ty = 2 ∨ l.ty = tyStack then s.atomTouch core grp l n far lpol spol
             else if l.ty = 3 then s.ownFirst core grp l n else s
    let t := if l.ty = tyScratch then t.mxTaint (some grp) l.key n else t
    let owned := l.ty = tyScratch ∧ t.mxOwned grp l.key n
    let x := if owned then leNat ((List.range n).map fun i => Config.freeByte (t.free + i)) else t.memRead l.key n
    let t := if owned then { t with free := t.free + n } else t
    let pz := t.memPoisoned l.key n && !aside
    let seen (u : State) : State := if l.ty = 3 then u.ownAfter core l n else u
    match op.apply n x y cmp with
    | (none, _) => (⟨x, pz, false, false⟩, seen t)
    | (some v, ovf) =>
      let spoil := pz || ypz
      let v := if spoil && (op = .addF32) then fmtF32.nan 5
               else if spoil && (op = .addBf2) then fmtBF16.nan 5 * 65537 else v
      let mark := spoil && !(op = .addF32 || op = .addBf2)
      let t := if l.ty ≤ 4 then t.record l.key else t
      let t := seen (t.memWriteP l.key n v mark)
      (⟨x, pz, ovf, false⟩, if l.ty ≤ 2 ∨ l.ty = tyStack then t.plantCaches core l else t)

/-! ### Element operations still to be performed (R228 to R230) -/

/-- The result of an element operation takes its place in a write list: word k of the old value in the k-th register. -/
def RegWrite.setOld (lane k old : Nat) (pz : Bool) : RegWrite → RegWrite
  | .vec r m xs p u race =>
    .vec r m (xs.set lane (BitVec.ofNat 32 (old / 2 ^ (32 * k)))) (if pz then p ||| BitVec.twoPow 96 lane else p) u race
  | .sreg r x p race => if k < 8 then .sreg r (BitVec.ofNat 32 (old / 2 ^ (32 * k))) pz race else .sreg r x p race
  | w => w

/-- The %ckint bit of the place an access found poison in (R382). -/
def poisonBit (l : Loc) : Nat := if l.ty = 6 then 2 else 1
/-- A word with one bit. -/
def bitWord (b : Nat) : Word := BitVec.twoPow 32 b

/-- A unit's entry with the result of one of its element operations; the SCC of R227 compares the old value. -/
def Pending.result (p : Pending) (o : ElemOp) (a : At) : Pending :=
  let ws := p.writes.mapIdx fun i w => if i < p.dest.length then w.setOld o.lane i a.old a.pz else w
  let ws := ws.map fun w => match w with | .scc _ => RegWrite.scc (a.old == o.cmp) | w => w
  { p with writes := ws
      ++ (if a.ovf then [RegWrite.gsrOr 8] else [])
      ++ (if a.hst then [RegWrite.ckint (bitWord 5)] else if a.pz then [RegWrite.ckint (bitWord (poisonBit o.loc))] else []) }

/-- R411: the first request of a load or store at a peer that had no response ends in an error: the load's lanes are poisoned, the store counts
as performed, and HST is set. -/
def Pending.peerError (p : Pending) : Pending :=
  match p.peers with
  | [] => p
  | (m, _) :: rest =>
    { p with
      peers := rest
      writes := (p.writes.map fun w => match w with
        | .vec r k xs z u race => RegWrite.vec r k xs (z ||| m &&& k) u race
        | .sreg r x _ race => .sreg r x true race
        | w => w) ++ [RegWrite.ckint (bitWord 5)] }

/-- Performs one element operation of a unit of the group with the number and place given. -/
def State.performOp (s : State) (core grp ctx : Nat) (p : Pending) (o : ElemOp) : Pending × State :=
  let r := s.atomLoc core grp ctx o.loc o.op o.n o.data o.cmp o.pz (o.place != .near) o.lpol o.spol
  (p.result o r.1, r.2)

/-- Performs every element operation of a unit, in lane order. -/
def State.performTodo (s : State) (core grp ctx : Nat) (p : Pending) : Pending × State :=
  p.todo.foldl (fun (a : Pending × State) o => a.2.performOp core grp ctx a.1 o) ({ p with todo := [], done := true }, s)

/-- Performs the element operations of every unit of the issuing group, oldest first. -/
def State.performAll (s : State) : State :=
  if s.g.pend.all fun p => p.todo.isEmpty then s
  else
    let r := s.g.pend.foldl (fun (a : List Pending × State) p =>
      if p.todo.isEmpty then (a.1 ++ [p], a.2)
      else
        let q := a.2.performTodo s.g.core s.g.id s.g.ctx p
        (a.1 ++ [q.1], q.2)) ([], s)
    r.2.mg fun g => { g with pend := r.1 }

end Sys2Proof.Machine
end

