-- ==== Sys2Proof/Machine/Translate.lean ====
section
/-! DEFINITION. Translation: the walk, the TLBs, the walker caches and the miss tables (R202 to R204, R212 to R215), and the checks of
R170. -/

namespace Sys2Proof.Machine

/-! ### The walk (R212, R213) -/

/-- R212: the next table a cluster's cache of non-leaf entries holds for a level. -/
def State.walkHit (s : State) (cluster ctx sh va : Nat) : Option Nat :=
  (s.walkCache.find? fun e => e.cluster == cluster && e.ctx == ctx && e.shift == sh && e.pre == va / 2 ^ sh).map (·.next)
/-- R212: a non-leaf entry is kept, of 256 a cluster the ones read last (DESIGN CHOICE, log entry 9). -/
def State.walkKeep (s : State) (cluster ctx sh va next : Nat) : State :=
  let mine := s.walkCache.filter fun e => e.cluster == cluster
  let t := if 256 ≤ mine.length then (match mine.getLast? with | some k => s.walkCache.filter fun e => e != k | none => s.walkCache) else s.walkCache
  { s with walkCache := ⟨cluster, ctx, sh, va / 2 ^ sh, next⟩ :: t }

/-- R213: one entry of a table: the leaf it is, with the bytes it maps, or the next table; none is the protection trap. R213 wants tables
aligned to their size and names no trap for one that is not: the walk goes on at the address as it stands (DESIGN CHOICE, log entry 9). A
poisoned entry names nothing (R381). -/
def State.walkEntry (s : State) (a : Nat) (leaf : Option Nat) (last : Bool) : Option (Sum (Nat × Nat) Nat) :=
  let e := s.memRead a 8
  if s.memPoisoned a 8 || !bit e 0 then none
  else if bit e 1 then
    match leaf with
    | none => none
    | some size => if leafOk s.mgmt.minMode e size then some (.inl (e, size)) else none
  else if last || bits e 52 12 != 0 || bits e 2 6 != 0 then none
  else some (.inr (bits e 8 44 * 2 ^ 8))

/-- R213: the walk through memory: the leaf's place, its word and the bytes it maps; none is the protection trap. -/
def State.walk (s : State) (va : Nat) : Nat → List (Nat × Nat × Option Nat) → Option (Nat × Nat × Nat)
  | _, [] => none
  | tbl, (sh, n, leaf) :: rest =>
    let a := tbl + 8 * bits va sh n
    match s.walkEntry a leaf rest.isEmpty with
    | none => none
    | some (.inl (e, size)) => some (a, e, size)
    | some (.inr next) => State.walk s va next rest
/-- R389: a walk that claims nothing finds the errors of the entries it reads. -/
def State.walkFind (s : State) (ctx va : Nat) : Nat → List (Nat × Nat × Option Nat) → State
  | _, [] => s
  | tbl, (sh, n, leaf) :: rest =>
    let a := tbl + 8 * bits va sh n
    let t := s.findErrors ctx a 8 false
    match t.walkEntry a leaf rest.isEmpty with
    | some (.inr next) => State.walkFind t ctx va next rest
    | _ => t
/-- What a walk comes to: a leaf's place, its word and the bytes it maps; the protection trap; a poisoned entry. -/
inductive Walked where
  | leaf (at_ e size : Nat)
  | fault
  | poison
  deriving DecidableEq, Repr

/-- R212, R213: the walk of a cluster's walker, through its cache of non-leaf entries; it finds the errors of the entries it reads (R389). -/
def State.walkVia (s : State) (cluster ctx va : Nat) : Nat → List (Nat × Nat × Option Nat) → Walked × State
  | _, [] => (.fault, s)
  | tbl, (sh, n, leaf) :: rest =>
    match s.walkHit cluster ctx sh va with
    | some next => State.walkVia s cluster ctx va next rest
    | none =>
      let a := tbl + 8 * bits va sh n
      let t := s.findErrors ctx a 8 false
      if t.memPoisoned a 8 then (.poison, t)
      else match t.walkEntry a leaf rest.isEmpty with
        | none => (.fault, t)
        | some (.inl (e, size)) => (.leaf a e size, t)
        | some (.inr next) => State.walkVia (t.walkKeep cluster ctx sh va next) cluster ctx va next rest

/-! ### TLBs and miss tables (R212) -/

/-- The set of a page in an L2 TLB of 16,384 entries, 8-way (DESIGN CHOICE, log entry 9). -/
def l2Set (va size : Nat) : Nat := va / size % 2048
/-- R212: fills an L1 TLB, of 128 entries a core, and the quadrant's L2 TLB; the entries filled first make room (DESIGN CHOICE, log entry 9). -/
def State.tlbFill (s : State) (core ctx va size e at_ : Nat) : State :=
  let base := va / size * size
  let n1 : Tlb := ⟨false, core, ctx, base, size, BitVec.ofNat 64 e, at_⟩
  let n2 : Tlb := ⟨true, clusterOf core, ctx, base, size, BitVec.ofNat 64 e, at_⟩
  let rest := s.tlb.filter fun t =>
    !((t.l2 == false && t.unit == core || t.l2 == true && t.unit == clusterOf core) && t.hits ctx va)
  let mine1 (t : Tlb) : Bool := !t.l2 && t.unit == core
  let mine2 (t : Tlb) : Bool := t.l2 && t.unit == clusterOf core && l2Set t.va t.size == l2Set base size
  let drop (mine : Tlb → Bool) (n : Nat) (ts : List Tlb) : List Tlb :=
    if n ≤ (ts.filter mine).length then ts.eraseP mine else ts
  { s with tlb := drop mine2 8 (drop mine1 128 rest) ++ [n1, n2] }

/-- R212: a page whose walk waits takes an entry of its cluster's miss table. -/
def State.missAdd (s : State) (cluster ctx va size : Nat) : State :=
  let m : MissEntry := ⟨cluster, ctx, va / size * size, size⟩
  if s.misses.contains m then s else { s with misses := s.misses ++ [m] }
/-- The page's walk is over. -/
def State.missDone (s : State) (cluster ctx va : Nat) : State :=
  if s.misses.isEmpty then s
  else { s with misses := s.misses.filter fun m => !(m.cluster == cluster && m.ctx == ctx && decide (m.va ≤ va ∧ va < m.va + m.size)) }
/-- R212: a miss table of 512 entries is full, and the page has none. -/
def State.missFull (s : State) (cluster ctx va : Nat) : Bool :=
  decide (512 ≤ (s.misses.filter fun m => m.cluster == cluster).length)
  && !(s.misses.any fun m => m.cluster == cluster && m.ctx == ctx && decide (m.va ≤ va ∧ va < m.va + m.size))

/-! ### Page classes (R202, R203) -/

/-- R203: the owner core serves a share request: TLB entries dropped, accesses translated through them performed, haze lines
returned, the page's lines written back and dropped from its L1 and its slice. -/
def State.shareServe (s : State) (n : Nat) : State :=
  match s.shares[n]? with
  | none => s
  | some m =>
    if m.acked then s
    else
      let t := { s with tlb := s.tlb.filter fun k =>
        !(k.pteAddr == m.pte && (k.l2 == false && k.unit == m.owner || k.l2 == true && k.unit == clusterOf m.owner)) }
      let t := ((t.groups.filter fun g => g.core == m.owner).map (·.id)).foldl (fun u id => u.onGroup id State.performAll) t
      let t := t.hazeReturnRange m.owner m.page m.size
      let inPage (line : Nat) : Bool := decide (m.page ≤ line ∧ line < m.page + m.size)
      let mine := t.l1.filter fun l => !l.haze && l.core == m.owner && inPage l.line
      let t := mine.foldl (fun u l =>
        let v := (u.l1WriteBack l).l1Drop l.core l.line
        if l.dirty != 0 then v.mscTouch l.line else v) t
      { t with slices := t.slices.filter fun l => !(l.slice == m.owner && inPage l.line),
               shares := t.shares.set n { m with acked := true } }

/-- R202: the acknowledgement lets the walker set CLS to Shared. -/
def State.shareAckServe (s : State) (n : Nat) : State :=
  match s.shares[n]? with
  | none => s
  | some m =>
    if !m.acked then s
    else
      let e := s.memRead m.pte 8
      let t := if pteCls e = 3 then s.memWrite m.pte 8 (pteClaim e (pteOwner e) 2) else s
      -- R244: lock entries of the page follow their lines to the new home slices, and so do requests on their way
      let home (line : Nat) : Nat := sharedSlice line (pteType e) (pteOwner e)
      let mine (line : Nat) : Bool := decide (m.page ≤ line ∧ line < m.page + m.size)
      { t with shares := s.shares.eraseIdx n,
               locks := t.locks.map fun k => if mine k.line then { k with slice := home k.line, shared := true } else k,
               lockNet := t.lockNet.map fun k => match k with
                 | .request g c l d b => if mine l.key then .request g c { l with slice := home l.key, shared := true } d b else k
                 | _ => k }

/-- Serves every share request and acknowledgement, by fuel. -/
def State.shareRun : Nat → State → State
  | 0, s => s
  | n + 1, s =>
    match s.shares with
    | [] => s
    | m :: _ => State.shareRun n (if m.acked then s.shareAckServe 0 else s.shareServe 0)

/-- R202: the class of a leaf at a miss by a core: unclaimed pages are claimed, a Private page of another core starts its
transition; the word the walker leaves. -/
def State.classify (s : State) (core at_ e size : Nat) : State :=
  match pteCls e with
  | 0 => s.memWrite at_ 8 (pteClaim e core 1)
  | 1 =>
    if pteOwner e = core then s.memWrite at_ 8 (pteClaim e core 1)
    else
      let t := s.memWrite at_ 8 (pteClaim e (pteOwner e) 3)
      { t with shares := t.shares ++ [⟨at_, pteOwner e, ptePa e, size, false⟩] }
  | 2 => s.memWrite at_ 8 (pteClaim e (pteOwner e) 2)
  | _ => s

/-! ### Translating and checking (R170, R212, R213) -/

/-- What a translation gives: a leaf, the protection trap, that the walk waits (R202, R212), or a poisoned entry. -/
inductive Xlated where
  | leaf (l : Leaf)
  | fault
  | busy
  | poison
  deriving DecidableEq, Repr

/-- R202, R212, R213: a miss in both TLBs: the walk, the page's class, the fill (DEDUCED, log entry 9). -/
def State.xlateMiss (s : State) (core ctx root va : Nat) : Xlated × State :=
  let c := clusterOf core
  if s.missFull c ctx va then (.busy, s)
  else
    match s.walkVia c ctx va root walkLevels with
    | (.fault, s) => (.fault, s)
    | (.poison, s) => (.poison, s)
    | (.leaf at_ e size, s) =>
      if !bit e 2 then (.leaf ⟨e, va / size * size, size⟩, s)
      else
        let t := s.classify core at_ e size
        let t := t.shareRun (2 * t.shares.length)
        let e' := t.memRead at_ 8
        if pteCls e' = 3 then (.busy, t.missAdd c ctx va size)
        else (.leaf ⟨e', va / size * size, size⟩, (t.missDone c ctx va).tlbFill core ctx va size e' at_)

/-- R212, R213: translates an address for a core in a context; a resident leaf fills the TLBs and takes its class (DEDUCED, log entry 9). -/
def State.xlate (s : State) (core ctx root va : Nat) : Xlated × State :=
  match s.tlb.find? fun t => !t.l2 && t.unit == core && t.hits ctx va with
  | some t => (.leaf ⟨t.pte.toNat, t.va, t.size⟩, s)
  | none =>
    match s.tlb.find? fun t => t.l2 && t.unit == clusterOf core && t.hits ctx va &&
        (pteCls t.pte.toNat == 2 || pteOwner t.pte.toNat == core) with
    | some t => (.leaf ⟨t.pte.toNat, t.va, t.size⟩, s.tlbFill core ctx va t.size t.pte.toNat t.pteAddr)
    | none => s.xlateMiss core ctx root va

/-- R170: what an address of the global window needs of its page: translation, permissions, residency. -/
def State.checkPage (s : State) (core ctx root : Nat) (priv : Bool) (va : Nat) (p : Perm) : Chk × State :=
  match s.xlate core ctx root va with
  | (.fault, t) => (.trap 3, t)
  | (.busy, t) => (.busy, t)
  | (.poison, t) => (.poison, t)
  | (.leaf lf, t) =>
    let e := lf.pte
    let perm := match p with | .rd => bit e 3 | .w => bit e 4 | .x => bit e 5
    let pa := ptePa e + (va - lf.va)
    if !perm || (bit e 6 && !priv) then (.trap 3, t)
    else if !bit e 2 then (.nonres lf.va, t)
    else
      let shared := pteCls e == 2
      let slice := if shared then sharedSlice pa (pteType e) (pteOwner e) else pteOwner e
      (.ok ⟨pa, pteType e, slice, shared⟩, t)
/-- R170: checks a global-window address: its page, then what its memory type needs. -/
def State.checkGlobal (s : State) (core ctx root : Nat) (priv : Bool) (va : Nat) (p : Perm) : Chk × State :=
  match s.checkPage core ctx root priv va p with
  | (.ok l, t) => if t.typeOk l.key l.ty priv then (.ok l, t) else (.trap 3, t)
  | r => r

/-- R15, R170: checks one access of n bytes at an address by a group's lane: steering, reservation, slot, translation. The
alignment is checked before (DEDUCED, log entries 44 and 53). -/
def State.steer (s : State) (g : Group) (lane a n : Nat) (p : Perm) : Chk × State :=
  match apertureOf a with
  | none => (.trap 3, s)
  | some .global => s.checkGlobal g.core g.ctx g.root g.priv a p
  | some .scratch =>
    match (s.wg? g.wg).bind fun w => w.scratch (a - 0xFFE0000000000000) n with
    | some k => (.ok ⟨k, tyScratch, g.core, false⟩, s)
    | none => (.trap 3, s)
  | some .cloud =>
    let m := (a - 0xFFE1000000000000) / 2 ^ 21
    let off := (a - 0xFFE1000000000000) % 2 ^ 21
    match s.wg? g.wg with
    | none => (.trap 9, s)
    | some w =>
      if !w.inCloud || w.members ≤ m || 0x140000 ≤ off then (.trap 9, s)
      else
        match (s.member? w m).bind fun v => v.scratch off n with
        | some k => (.ok ⟨k, tyScratch, g.core, false⟩, s)
        | none => (.trap 3, s)
  | some .stack =>
    let off := a - 0xFFF0000000000000
    if off + n ≤ s.stride g then (.ok ⟨s.stackKey g lane off, tyStack, g.core, false⟩, s) else (.trap 3, s)

/-- R169, R170: checks an access of n bytes with its alignment, the first failing check deciding. -/
def State.checkAccess (s : State) (g : Group) (lane a n align : Nat) (p : Perm) : Chk × State :=
  if a % align != 0 then (.trap 2, s)
  else
    match apertureOf a with
    | none => (.trap 3, s)
    | some ap =>
      -- R169: an access that leaves its own range
      if apertureOf ((a + n - 1) % 2 ^ 64) != some ap || 2 ^ 64 < a + n then (.trap 2, s) else s.steer g lane a n p

end Sys2Proof.Machine
end

