-- ==== Sys2Proof/Machine/EngineRun.lean ====
section
/-! DEFINITION. What an engine command does (R295, R299, R301 to R309): the moves of the copy engine, the areas of the
decode engine, the arrival at a sync word, and the cancellation of R311. A command's accesses are performed together, at
its arrival (DESIGN CHOICE, log entry 15). -/

namespace Sys2Proof.Machine

/-- Storage whose content the spec leaves undefined: every byte takes a fresh free value (R5). -/
def State.smear (s : State) (a n : Nat) : State :=
  { s with mem := Memory.write s.mem (s.place a) ((List.range n).map fun i => Config.freeByte (s.free + i)), free := s.free + n,
           memPoison := clearPoison s.memPoison (s.place a) n }
/-- R268: an engine leaves storage undefined, which is a write to storage of a matrix unit too. -/
def State.smearBy (s : State) (a n : Nat) : State := (s.mxTaint none a n).smear a n

/-! ### Sync words (R294, R295) -/

/-- R294, R295: the word after an arrival of n bytes (DEDUCED, log entry 38). -/
def arriveWord (w n : Nat) : Nat :=
  let t := bits w 0 24
  if t = 0 then w
  else
    let total := bits w 24 24 + n
    t + total % t * 2 ^ 24 + (bits w 48 16 + total / t) % 65536 * 2 ^ 48
/-- R297: the word after SWSET. -/
def setWord (w x : Nat) : Nat := bits x 0 24 + bits w 48 16 * 2 ^ 48
/-- Replaces the word at a key, for a context; a poisoned word stays poisoned, since its generation is kept. -/
def State.syncWrite (s : State) (ctx key : Nat) (f : Nat → Nat) : State :=
  let s := s.findErrors ctx key 8 false
  let pz := s.memPoisoned key 8
  (s.mxTaint none key 8).memWriteP key 8 (f (s.memRead key 8)) pz
/-- R295: an arrival. -/
def State.arriveAt (s : State) (ctx key n : Nat) : State := s.syncWrite ctx key fun w => arriveWord w n

/-! ### Accesses of an engine -/

/-- A command as it runs: the state, and the storage it has read and written. -/
structure EngRun where
  s : State
  rd : List (Nat × Nat)
  wr : List (Nat × Nat)
  /-- R202: a walk waits, and the command with it -/
  busy : Bool
  /-- the bytes read and still to be written, each with its destination: a copy takes every byte before it writes one, so that a
  byte written is the source byte wherever R302 does not leave it undefined -/
  out : List (Nat × Nat × Bool)
  deriving DecidableEq, Repr

/-- The error is the end of the command by R309. -/
abbrev EngM := EStateM Unit EngRun

/-- The command as a group whose accesses are checked. -/
def EngCmd.as (c : EngCmd) : Group :=
  { Group.blank with id := c.grp, core := c.core, ctx := c.ctx, root := c.root, wg := c.wg, gsr := if c.priv then 4 else 0 }

/-- Checks one byte's address. -/
def EngCmd.loc (c : EngCmd) (p : Perm) (a : Nat) : EngM Loc := fun r =>
  match apertureOf (a % 2 ^ 64) with
  | some .stack => .error () r
  | _ =>
    match r.s.steer c.as 0 (a % 2 ^ 64) 1 p with
    | (.ok l, t) => .ok l { r with s := t }
    | (.busy, t) => .error () { r with s := t, busy := true }
    | (_, t) => .error () { r with s := t }

/-- R407, R411: an access of a command at a link that fails sets HST of its group. -/
def EngCmd.failed (c : EngCmd) (hst : Bool) (s : State) : State := if hst then s.updGroup c.grp fun g => g.ck 5 else s
/-- Reads one byte and its mark. An engine is an agent of its own (R181): a core's copy of host non-coherent memory is not seen by it
(R166). -/
def EngCmd.readByte (c : EngCmd) (a : Nat) : EngM (Nat × Bool) := do
  let l ← c.loc .rd a
  let r ← get
  let x := if l.ty = 3 then r.s.readBeside l 1 else r.s.readLoc c.core c.grp l 1 3 3
  set { r with s := c.failed x.1.hst x.2, rd := r.rd ++ [(l.key, 1)] }
  return (x.1.val % 256, x.1.pz)

/-- Reads k bytes. -/
def EngCmd.readBytes (c : EngCmd) (a k : Nat) : EngM (List (Nat × Bool)) := (List.range k).mapM fun i => c.readByte (a + i)

/-- R391: the bank of the command's engine. -/
def EngCmd.bank (c : EngCmd) : Nat := if c.op < 5 then bankIdx 6 c.core else bankIdx 7 (clusterOf c.core)
/-- The bank of an engine by its number: 384 copy engines, then the decode engines. -/
def engineBank (e : Nat) : Nat := if e < 384 then bankIdx 6 e else bankIdx 7 (e - 384)
/-- R389, R394: a parity error of an engine's buffer spoils the next word the engine writes. -/
def State.spoilEngine (s : State) (c : EngCmd) (key n : Nat) : State :=
  match s.takeParity c.bank c.ctx with
  | none => s
  | some t => (t.markMem key n).updGroup c.grp fun g => g.ck 4

/-- Writes bytes that lie in one 8-byte word. -/
def EngCmd.writeChunk (c : EngCmd) (a : Nat) (bs : List (Nat × Bool)) : EngM Unit := do
  let l ← c.loc .w a
  let r ← get
  let x := bs.foldr (fun b n => b.1 + 256 * n) 0
  let pz := bs.any (·.2)
  let t := if l.ty = 3 then r.s.writeBeside c.grp c.ctx l bs.length x pz else r.s.writeLoc c.core c.grp c.ctx l bs.length x pz 3 3
  set { r with s := (c.failed t.1 t.2).spoilEngine c l.key bs.length, wr := r.wr ++ [(l.key, bs.length)] }

/-- Writes bytes word by word, by fuel. -/
def EngCmd.writeFrom (c : EngCmd) : Nat → Nat → List (Nat × Bool) → EngM Unit
  | 0, _, _ => pure ()
  | f + 1, a, bs =>
    if bs.isEmpty then pure ()
    else do
      let k := 8 - a % 8
      c.writeChunk a (bs.take k)
      EngCmd.writeFrom c f (a + k) (bs.drop k)
/-- Writes bytes. -/
def EngCmd.writeBytes (c : EngCmd) (a : Nat) (bs : List (Nat × Bool)) : EngM Unit := c.writeFrom (bs.length + 1) a bs

/-- Bytes to be written from a on. -/
def emit (a : Nat) (bs : List (Nat × Bool)) : EngM Unit := modify fun (r : EngRun) =>
  { r with out := r.out ++ bs.zipIdx.map fun b => (a + b.2, b.1) }
/-- Reads n bytes at a that are to be written from d on, by fuel. -/
def EngCmd.move (c : EngCmd) (d a : Nat) : Nat → EngM Unit
  | 0 => pure ()
  | n + 1 => do
    let b ← c.readByte a
    emit d [b]
    EngCmd.move c (d + 1) (a + 1) n

/-- The bytes at the front of a list that follow address a within its 8-byte word, and the rest. -/
def wordRun (a : Nat) : List (Nat × Nat × Bool) → List (Nat × Bool) × List (Nat × Nat × Bool)
  | [] => ([], [])
  | (b, x) :: r =>
    if b = a ∧ (a + 1) / 8 = a / 8 then let q := wordRun (a + 1) r; (x :: q.1, q.2)
    else if b = a then ([x], r)
    else ([], (b, x) :: r)
/-- Writes bytes, those of a word together, by fuel. -/
def EngCmd.writeOut (c : EngCmd) : Nat → List (Nat × Nat × Bool) → EngM Unit
  | 0, _ => pure ()
  | _, [] => pure ()
  | f + 1, (a, x) :: r => do
    let q := wordRun a ((a, x) :: r)
    c.writeChunk a q.1
    EngCmd.writeOut c f q.2
/-- R302, R309: reads, then writes what was read, also when the reading stops at an error. -/
def EngCmd.moving (c : EngCmd) (f : EngM Unit) : EngM Unit := fun r =>
  match f r with
  | .ok _ t => c.writeOut t.out.length t.out t
  | .error _ t =>
    match c.writeOut t.out.length t.out t with
    | .ok _ u => .error () u
    | .error _ u => .error () u

/-- R309: an engine error is logged in the engine's bank and sets ENG of the issuing group; the entry index is the engine's
own (DESIGN CHOICE, log entry 33). -/
def State.engineError (s : State) (c : EngCmd) : State :=
  let t := (s.logError c.bank 1 (Config.freeWord s.free).toNat c.ctx ((Config.freeWord (s.free + 1)).toNat % 256) false)
  { t with free := t.free + 2 }.updGroup c.grp fun g => g.ck 4
/-- R303: a metadata error is logged (DESIGN CHOICE, log entry 33). -/
def EngCmd.logMeta (c : EngCmd) : EngM Unit := modify fun (r : EngRun) =>
  { r with s := { (r.s.logError (bankIdx 6 c.core) 1 (Config.freeWord r.s.free).toNat c.ctx
      ((Config.freeWord (r.s.free + 1)).toNat % 256) false) with free := r.s.free + 2 } }

/-- R303, R397: a parity error of the engine's buffer met by a bitmap or an index. -/
def EngCmd.lostMeta (c : EngCmd) : EngM Bool := fun r =>
  match r.s.takeParity c.bank c.ctx with
  | some t => .ok true { r with s := t.updGroup c.grp fun g => g.ck 4 }
  | none => .ok false r

/-! ### The copy commands (R302, R303) -/

/-- A row of n zero bytes, marked or not. -/
def zeros (n : Nat) (pz : Bool) : List (Nat × Bool) := List.replicate n (0, pz)

/-- R302, R309: a CPYG row lies wholly in the aperture of S: buffer C for a scratch S. -/
def EngCmd.rowOk (c : EngCmd) (row : Nat) : Bool :=
  if c.b1 = 0 then true
  else
    match apertureOf c.src, apertureOf row with
    | some .global, some .global => decide (row + c.b1 ≤ 0x0200000000000000)
    | some .scratch, some .scratch => bufOf (row - 0xFFE0000000000000) == 2
        && decide (row - 0xFFE0000000000000 + c.b1 ≤ 0x140000)
    | some .cloud, some .cloud => bufOf ((row - 0xFFE1000000000000) % 2 ^ 21) == 2
        && decide ((row - 0xFFE1000000000000) % 2 ^ 21 + c.b1 ≤ 0x140000)
    | _, _ => false
/-- R302: the buffer-C row lies inside the reservation. -/
def EngCmd.rowHeld (c : EngCmd) (row : Nat) : EngM Unit := fun r =>
  if c.b1 = 0 ∨ apertureOf row = some .global then .ok () r
  else
    match r.s.steer c.as 0 row c.b1 .rd with
    | (.ok _, _) => .ok () r
    | _ => .error () r

/-- R302: one row of CPYG. -/
def EngCmd.gatherRow (c : EngCmd) (j : Nat) : EngM Unit := do
  let idx ← c.readBytes (0xFFE0000000000000 + c.b3 + 4 * j) 4
  let lost ← c.lostMeta
  let dst := c.dst + j * c.b1
  let x := idx.foldr (fun b n => b.1 + 256 * n) 0
  if lost || idx.any (·.2) then
    c.logMeta
    emit dst (zeros c.b1 true)
  else if x = 0xFFFFFFFF then emit dst (zeros c.b1 false)
  else
    let row := c.src + x * c.b2
    if !c.rowOk row then throw ()
    c.rowHeld row
    c.move dst row c.b1

/-- R302: the element size of CPYZ. -/
def EngCmd.zSize (c : EngCmd) : Nat := 2 ^ bits c.b0 24 2

/-- R302: the elements of a block from the bytes that follow its bitmap. -/
def expandBlock (size bm : Nat) : Nat → List (Nat × Bool) → List (Nat × Bool)
  | 0, _ => []
  | n + 1, bs =>
    if bit bm (31 - n) then bs.take size ++ expandBlock size bm n (bs.drop size)
    else zeros size false ++ expandBlock size bm n bs

/-- R302, R303: the blocks of CPYZ from block k at source position p; lost says that a bitmap was lost before. -/
def EngCmd.expand (c : EngCmd) : Nat → Nat → Nat → Bool → EngM Unit
  | 0, _, _, _ => pure ()
  | n + 1, k, p, lost => do
    let size := c.zSize
    let dst := c.dst + k * 32 * size
    if lost then
      emit dst (zeros (32 * size) true)
      EngCmd.expand c n (k + 1) p true
    else
      let b ← c.readBytes p 4
      let spoilt ← c.lostMeta
      if spoilt || b.any (·.2) then
        c.logMeta
        emit dst (zeros (32 * size) true)
        EngCmd.expand c n (k + 1) p true
      else
        let bm := b.foldr (fun x n => x.1 + 256 * n) 0
        let len := ((List.range 32).filter fun i => bit bm i).length * size
        let bs ← c.readBytes (p + 4) len
        emit dst (expandBlock size bm 32 bs)
        EngCmd.expand c n (k + 1) ((p + 4 + len + 3) / 4 * 4) false

/-- R302: where CPYW writes for a member. -/
def EngCmd.memberDst (c : EngCmd) (cloud : Bool) (m : Nat) : Nat :=
  if cloud then 0xFFE1000000000000 + m * 2 ^ 21 + (c.dst - 0xFFE0000000000000) else c.dst

/-- R302: the moves of a copy command. -/
def EngCmd.copy (c : EngCmd) (cloud : Bool) : EngM Unit :=
  c.moving <| match c.op with
  | 0 => c.move c.dst c.src c.b0
  | 1 => (List.range c.b0).forM fun r => c.move (c.dst + r * c.b3) (c.src + r * c.b2) c.b1
  | 2 => (List.range c.b0).forM fun j => c.gatherRow j
  | 3 => c.expand (bits c.b0 0 24) 0 c.src false
  | _ => c.members.forM fun m => c.move (c.memberDst cloud m) c.src c.b0

/-- R301: the nominal bytes of a command. -/
def EngCmd.nominal (c : EngCmd) : Nat :=
  match c.op with
  | 0 => c.b0
  | 1 => c.b0 * c.b1
  | 2 => c.b0 * c.b1
  | 3 => bits c.b0 0 24 * 32 * c.zSize
  | 4 => c.b0 * c.members.length
  | 8 => 64
  | _ => c.b1

/-! ### The decode commands (R304 to R308) -/

/-- R305: rounds up to a multiple of 64. -/
def up64 (n : Nat) : Nat := (n + 63) / 64 * 64
/-- R304: the patch side, the pad byte, the channel mode and the patch limit. -/
def EngCmd.side (c : EngCmd) : Nat := bits c.b2 0 6
def EngCmd.pad (c : EngCmd) : Nat := bits c.b2 16 8
def EngCmd.mode (c : EngCmd) : Nat := bits c.b2 8 2
def EngCmd.limit (c : EngCmd) : Nat := bits c.b3 0 16

/-- R305: the bytes of a patch in the area. -/
def patchBytes (side ch : Nat) : Nat := up64 (side * side * ch)
/-- R306: the patches that fit a capacity. -/
def patchFit (cap side ch : Nat) : Nat :=
  let most := (cap - 64) / patchBytes side ch
  ((List.range (most + 1)).reverse.find? fun k => decide (64 + up64 (4 * k) + k * patchBytes side ch ≤ cap)).getD 0

/-- R305: the header. -/
def decHeader (k w h ch side status cols rows : Nat) : List Nat :=
  let le (n x : Nat) : List Nat := (List.range n).map fun i => x / 256 ^ i % 256
  le 4 k ++ le 2 w ++ le 2 h ++ le 1 ch ++ le 1 side ++ le 2 status ++ le 2 cols ++ le 2 rows ++ le 4 (64 + up64 (4 * k)) ++ le 44 0

/-- R305: the bytes of one patch of the grid. -/
def patchOf (w h ch side pad : Nat) (img : List Nat) (row col : Nat) : List Nat :=
  let body := (List.range side).flatMap fun y => (List.range side).flatMap fun x => (List.range ch).map fun c =>
    let py := row * side + y
    let px := col * side + x
    if py < h ∧ px < w then img.getD ((py * w + px) * ch + c) 0 else pad
  body ++ List.replicate (patchBytes side ch - body.length) 0

/-- R304, R309: the stream, up to a source fault: the bytes, whether one was poisoned, whether it ended in a fault. -/
def EngCmd.stream (c : EngCmd) : Nat → Nat → List (Nat × Bool) → EngRun → List (Nat × Bool) × Bool × EngRun
  | 0, _, acc, r => (acc, false, r)
  | n + 1, a, acc, r =>
    match c.readByte a r with
    | .ok b t => EngCmd.stream c n (a + 1) (acc ++ [b]) t
    | .error _ t => (acc, true, t)

/-- R307, R308: what the decoder of a command finds in a stream. A query tells a JPEG and a PNG stream by their first bytes and takes any other
for T.6, whose width is given and whose height is not known (DEDUCED, log entry 34). -/
def EngCmd.picture (c : EngCmd) (bs : List Nat) : Picture :=
  let w := bits c.b3 16 16
  match c.op with
  | 5 => decodeJpeg false c.mode bs
  | 6 => decodeFax c.mode w bs
  | 7 => decodePng c.mode bs
  | _ =>
    if bs.take 2 = [255, 0xD8] then decodeJpeg true c.mode bs
    else if bs.take 8 = pngSignature then (pngHead c.mode bs).1
    else ⟨0, w, 0, some (modeChannels c.mode 1), []⟩

/-- R305 to R308: a decode command: its header, table and patches; whether it met a source fault. A fault behind the header is none to a query
(DEDUCED, log entry 34). -/
def EngCmd.decode (c : EngCmd) (r : EngRun) : Bool × EngRun :=
  let x0 := c.stream c.b0 c.src [] r
  let pz := x0.1.any (·.2)
  let d := c.picture (x0.1.map (·.1))
  -- a query that cannot tell what its stream is, or whose header is not whole, has met its fault
  let known := d.status != 2 && (decide (8 ≤ x0.1.length) || (x0.1.head?.map fun b => b.1 != 0xFF && b.1 != 0x89).getD false)
  let fault := x0.2.1 && !(c.op == 8 && known)
  let status := if fault then 4 else d.status
  let w := d.w
  let h := d.h
  let ch := d.ch.getD (if Config.greyUnparsed (x0.1.map (·.1)) [c.op, c.b0, c.b1, c.b2, c.b3] then 1 else 3)
  let x := x0
  let side := c.side
  let cols := (w + side - 1) / side
  let rows := (h + side - 1) / side
  let area := 0xFFE0000000000000 + c.dst
  let put (a : Nat) (bs : List Nat) (q : EngRun) : EngRun :=
    match c.writeBytes a (bs.map fun b => (b, pz)) q with
    | .ok _ t => t
    | .error _ t => t
  if status = 0 || status = 1 then
    if c.op = 8 then (false, put area (decHeader 0 w h ch side status cols rows) x.2.2)
    else
      let k0 := min (cols * rows) (patchFit c.b1 side ch)
      let k := if c.limit = 0 then k0 else min k0 c.limit
      let st := if k = cols * rows then 0 else 1
      let table := (List.range k).flatMap fun j =>
        let e := j / cols * 65536 + j % cols
        [e % 256, e / 256 % 256, e / 65536 % 256, e / 16777216]
      let q := put area (decHeader k w h ch side st cols rows) x.2.2
      let q := put (area + 64) (table ++ List.replicate (up64 (4 * k) - 4 * k) 0) q
      (false, (List.range k).foldl (fun (t : EngRun) j =>
        put (area + 64 + up64 (4 * k) + j * patchBytes side ch) (patchOf w h ch side c.pad d.samples (j / cols) (j % cols)) t) q)
  else
    let q := put area (decHeader 0 w h ch side status cols rows) x.2.2
    -- R306: the area after the header is undefined
    let q := if c.op = 8 then q
      else match c.loc .w (area + 64) q with
        | .ok l t => { t with s := t.s.smearBy l.key (c.b1 - 64) }
        | .error _ t => t
    (fault, q)

/-! ### Running, arriving, cancelling (R301, R302, R309, R311) -/

/-- The part two ranges share. -/
def sharedPart (x y : Nat × Nat) : Option (Nat × Nat) :=
  let lo := max x.1 y.1
  let hi := min (x.1 + x.2) (y.1 + y.2)
  if lo < hi then some (lo, hi - lo) else none

/-- R302: destination bytes that the command also reads are undefined. -/
def EngRun.overlap (r : EngRun) : State :=
  (r.wr.flatMap fun w => r.rd.filterMap fun x => sharedPart w x).foldl (fun (t : State) p => t.smear p.1 p.2) r.s

/-- The workgroup of the command stands in a cloud. -/
def State.cmdCloud (s : State) (c : EngCmd) : Bool := ((s.wg? c.wg).map Wg.inCloud).getD false

/-- R301, R309: a command's accesses, then its arrival; none while a walk waits (R202). -/
def State.runCommand (s : State) (c : EngCmd) : Option State :=
  let t : Option State :=
    if c.op < 5 then
      match c.copy (s.cmdCloud c) ⟨s, [], [], false, []⟩ with
      | .ok _ r => some r.overlap
      | .error _ r => if r.busy then none else some (r.overlap.engineError c)
    else
      let d := c.decode ⟨s, [], [], false, []⟩
      if d.2.busy then none else some (if d.1 then d.2.s.engineError c else d.2.s)
  t.map fun t => t.arriveAt c.ctx c.sync c.nominal

/-- R311: a cancelled command: what an accepted one has written is undefined; it does not arrive. -/
def State.cancelCommand (s : State) (c : EngCmd) : State :=
  if !c.accepted then s
  else
    let wr :=
      if c.op < 5 then
        match c.copy (s.cmdCloud c) ⟨s, [], [], false, []⟩ with
        | .ok _ r => r.wr
        | .error _ r => r.wr
      else (c.decode ⟨s, [], [], false, []⟩).2.wr
    wr.foldl (fun (t : State) p => t.smearBy p.1 p.2) s

end Sys2Proof.Machine
end

