-- ==== Sys2Proof/Machine/LockNet.lean ====
section
/-! DEFINITION. Line locks (R232 to R245): the lock table of the homes, the bead chain, its messages handled one at a time,
abandonment, timeouts and deadlock records. -/

namespace Sys2Proof.Machine

/-- R234: the entry of a line. -/
def State.lockEntry (s : State) (line : Nat) : Option LockEntry := s.locks.find? fun e => e.line == line
/-- Replaces an entry. -/
def State.setLock (s : State) (e : LockEntry) : State := { s with locks := s.locks.filter (fun k => k.line != e.line) ++ [e] }
/-- Frees an entry. -/
def State.dropLock (s : State) (line : Nat) : State := { s with locks := s.locks.filter fun k => k.line != line }
/-- R233: the locks a group holds. -/
def State.heldBy (s : State) (grp : Nat) : List LockEntry := s.locks.filter fun e => e.holder == some grp
/-- R234: the entry keeps nothing but an abandoned mark. -/
def LockEntry.idle (e : LockEntry) : Bool := e.holder.isNone && e.nodes.isEmpty && !e.passing
/-- The place of an entry's line. -/
def LockEntry.loc (e : LockEntry) : Loc := ⟨e.line, e.ty, e.slice, e.shared⟩
/-- The nodes that count: WAIT or PROXY. -/
def LockEntry.waiters (e : LockEntry) : List LockNode := e.nodes.filter fun n => n.st != .stub

/-- The status a lock instruction writes; the group goes on. -/
def Group.lockResult (d status : Nat) (g : Group) : Group :=
  { (g.nowS d (BitVec.ofNat 32 status)) with wait := .ready }
/-- Sends a message. -/
def State.sendLock (s : State) (m : LockMsg) : State := { s with lockNet := s.lockNet ++ [m] }

/-- R233: a table of 512 entries a slice has room for a line: an idle entry is reused, oldest first. -/
def State.lockRoom (s : State) (slice : Nat) : Option State :=
  let mine := s.locks.filter fun e => e.slice == slice
  if mine.length < 512 then some s
  else (mine.find? LockEntry.idle).map fun e => s.dropLock e.line

/-- R233: waiter nodes of a core in use. -/
def State.lockNodes (s : State) (core : Nat) : Nat :=
  (s.locks.map fun e => (e.nodes.filter fun n => n.core == core && n.st != .proxy).length).foldl (· + ·) 0

/-- R234, R236: a line goes to a core exclusive with its lock. -/
def State.bringLine (s : State) (core grp : Nat) (l : Loc) : State :=
  let hit := (s.l1Find core l.key).isSome
  let t := (s.admitLine l.ty l.key).l1Touch core l.key grp 0
  let t := if hit then t else t.sliceTouch l.slice l.key 0
  if l.shared then t.dirAccess core l.key l.slice true else t
/-- R236, R237: the L1 of a core holds a line, exclusive. -/
def State.hasLine (s : State) (core : Nat) (l : Loc) : Bool :=
  (s.l1Find core l.key).isSome && (!l.shared || ((s.dirEntry l.key).map fun d => d.owner == some core).getD false)

/-- R234, R235, R241: the home serves a request of a group. -/
def State.serveLock (s : State) (grp core : Nat) (l : Loc) (d : Nat) (try_ : Bool) : State :=
  let fail (st : Nat) : State := s.updGroup grp (Group.lockResult d st)
  if 4 ≤ (s.heldBy grp).length || ((s.lockEntry l.key).map fun e => e.holder == some grp).getD false then fail 5
  else
    match s.lockEntry l.key with
    | none =>
      match s.lockRoom l.slice with
      | none => fail 5
      | some t => ((t.setLock ⟨l.key, l.ty, l.shared, l.slice, some grp, [], false, false⟩).bringLine core grp l).updGroup grp (Group.lockResult d 0)
    | some e =>
      if e.idle then
        ((s.setLock { e with holder := some grp, abn := false }).bringLine core grp l).updGroup grp
          (Group.lockResult d (if e.abn then 1 else 0))
      else if try_ then fail 3
      else if 192 ≤ s.lockNodes core then fail 5
      else (s.setLock { e with nodes := e.nodes ++ [⟨grp, core, .wait, false⟩] }).sendLock (.link l.key grp)

/-- R237, R238: the lock arrives at the next node in WAIT, with the line when the L1 of the core it comes from holds it; stubs forward
it and proxies are skipped. -/
def State.passLock (s : State) (e : LockEntry) (from_ : Nat) (ab : Bool) : List LockNode → State
  | [] => if ab then s.setLock { e with holder := none, nodes := [], passing := false, abn := true } else s.dropLock e.line
  | n :: r =>
    match n.st with
    | .stub => s.passLock e from_ ab r
    | .proxy =>
      State.passLock { s with savedGroups := s.savedGroups.map fun k =>
        if k.id = n.grp then { k with skipped := true } else k } e from_ ab r
    | .wait =>
      let t := s.setLock { e with holder := some n.grp, nodes := r, passing := false, abn := false }
      let t := if s.hasLine from_ e.loc then t.bringLine n.core n.grp e.loc else t
      match t.group? n.grp with
      | some g =>
        match g.wait with
        | .lock _ d _ => t.updGroup n.grp (Group.lockResult d (if ab then 1 else 0))
        | _ => t
      | none => t

/-- R237: the lock leaves a core toward the next node. -/
def State.handover (s : State) (line from_ : Nat) (ab : Bool) : State :=
  match s.lockEntry line with
  | none => s
  | some e => s.passLock e from_ ab e.nodes
/-- R237, R239: a lock is sent on its way, after the queued term units given. -/
def State.passOn (s : State) (e : LockEntry) (from_ : Nat) (ab : Bool) (waits : List (Nat × Nat)) : State :=
  (s.setLock { e with holder := none, passing := true }).sendLock (.handover e.line from_ ab waits)

/-- A holder's release is resolved: its LUNLOCK, if it waits, writes 0. -/
def Group.unlockDone (line : Nat) (g : Group) : Group :=
  match g.wait with
  | .unlock l d => if l = line then g.lockResult d 0 else g
  | _ => g

/-- R237: the home serves a release: frees the entry, or has the lock handed over. -/
def State.serveRelease (s : State) (line grp core : Nat) (ab : Bool) : State :=
  let t := s.updGroup grp (Group.unlockDone line)
  match t.lockEntry line with
  | none => t
  | some e =>
    if e.holder != some grp then t
    else if e.nodes.isEmpty then (if ab then t.setLock { e with holder := none, abn := true } else t.dropLock line)
    else t.passOn e core ab []

/-- R234: the core of the node before learns of its successor. -/
def State.serveLink (s : State) (line grp : Nat) : State :=
  match s.lockEntry line with
  | none => s
  | some e => s.setLock { e with nodes := e.nodes.map fun n => if n.grp = grp then { n with linked := true } else n }

/-- R211: the core and the home slice between which a message travels. -/
def State.lockPath (s : State) : LockMsg → Option (Nat × Nat)
  | .request _ core l _ _ => some (core, l.slice)
  | .release line _ core _ => some (core, ((s.lockEntry line).map (·.slice)).getD 0)
  | _ => none
/-- R211, R339: message n cannot be served yet: an earlier one of its core to its home, or term jobs that must end first. -/
def State.lockBlocked (s : State) (n : Nat) (m : LockMsg) : Bool :=
  (match s.lockPath m with
    | some p => (s.lockNet.take n).any fun k => s.lockPath k == some p
    | none => false)
  || match m with
    | .handover _ _ _ ws => s.termQ.any fun u => ws.contains (u.grp, u.tag)
    | _ => false
/-- The first message that can be served. -/
def State.lockNext (s : State) : Option Nat :=
  (List.range s.lockNet.length).find? fun n => match s.lockNet[n]? with
    | some m => !s.lockBlocked n m
    | none => false

/-- Serves message n of the net, unless it cannot be served yet. -/
def State.lockServe (s : State) (n : Nat) : State :=
  match s.lockNet[n]? with
  | none => s
  | some m =>
    if s.lockBlocked n m then s
    else
      let t := { s with lockNet := s.lockNet.eraseIdx n }
      match m with
      | .request grp core l d try_ => t.serveLock grp core l d try_
      | .link line grp => t.serveLink line grp
      | .handover line core ab _ => t.handover line core ab
      | .release line grp core ab => t.serveRelease line grp core ab

/-- R237: a holder gives the lock up: to a successor its core knows at once, otherwise by asking the home. -/
def State.giveUp (s : State) (e : LockEntry) (grp core : Nat) (ab : Bool) : State :=
  match e.nodes with
  | n :: _ => if n.linked then (s.updGroup grp (Group.unlockDone e.line)).passOn e core ab [] else s.sendLock (.release e.line grp core ab)
  | [] => s.sendLock (.release e.line grp core ab)

/-- R239, R240: the nodes of a group become stubs. -/
def LockEntry.withdraw (e : LockEntry) (grp : Nat) : LockEntry :=
  { e with nodes := e.nodes.map fun n => if n.grp = grp then { n with st := .stub } else n }

/-- R239: every lock a group on a core holds is abandoned, and its waiting nodes become stubs. -/
def State.abandonLocks (s : State) (grp core : Nat) : State :=
  let t := (s.heldBy grp).foldl (fun u e => u.passOn e core true []) s
  let drop (m : LockMsg) : Bool := match m with
    | .request q _ _ _ _ => q != grp
    | .release _ q _ _ => q != grp
    | _ => true
  { t with lockNet := t.lockNet.filter drop,
           locks := t.locks.map fun (e : LockEntry) => e.withdraw grp }

/-- R242: the ID of a group. -/
def Group.gid (g : Group) : Nat := g.ctx * 2 ^ 16 + g.place * 2 ^ 11 + g.quarter * 2 ^ 9 + g.core
/-- R242: the ID by the model's number, of a saved group also. -/
def State.gidOf (s : State) (grp : Nat) : Nat :=
  match s.group? grp with
  | some g => g.gid
  | none => 0

/-- R240: the line a group waits for, in WAIT or PROXY. -/
def State.awaits (s : State) (grp : Nat) : Option Nat :=
  (s.locks.find? fun e => e.nodes.any fun n => n.grp == grp && n.st != .stub).map (·.line)

/-- R240: the deadlock walk from a line: the locks met with their holders when it comes back to the starting group. -/
def State.lockWalk (s : State) (start : Nat) : Nat → Nat → List (Nat × Nat) → Option (List (Nat × Nat))
  | 0, _, _ => none
  | n + 1, line, acc =>
    match (s.lockEntry line).bind (·.holder) with
    | none => none
    | some h =>
      let acc := acc ++ [(line, h)]
      if h = start then some acc
      else
        match s.awaits h with
        | none => none
        | some l => State.lockWalk s start n l acc

/-- R245: writes a deadlock record, or counts a dropped one; DLTAIL and DLHEAD run free modulo 2^32 (DESIGN CHOICE, log entry 68). -/
def State.deadlockRecord (s : State) (start : Nat) (cycle : List (Nat × Nat)) : State :=
  let m := s.mgmt
  if m.dlSize = 0 || decide (m.dlSize ≤ (m.dlTail + 2 ^ 32 - m.dlHead) % 2 ^ 32) then
    { s with mgmt := { m with dlDrop := satInc m.dlDrop } }
  else
    let body := cycle.flatMap fun p => leBytes 8 p.1 ++ leBytes 4 (s.gidOf p.2) ++ leBytes 4 0
    let rec_ := leBytes 4 (s.gidOf start) ++ leBytes 4 cycle.length ++ leBytes 24 0 ++ body
    let t := s.hbmStore (m.dlBase.toNat + 512 * (m.dlTail % m.dlSize)) (rec_ ++ List.replicate (512 - rec_.length) 0)
    ({ t with mgmt := { t.mgmt with dlTail := (m.dlTail + 1) % 2 ^ 32 } }).fire 3

/-- R240: the timeout of a waiting group expires: its node is withdrawn, then the walk decides the status. -/
def State.lockTimeout (s : State) (grp : Nat) : State :=
  match s.group? grp with
  | none => s
  | some g =>
    match g.wait with
    | .lock line d (some t) =>
      if g.stopped || decide (s.clock < t) then s
      else
        let u := { s with
          lockNet := s.lockNet.filter fun m => match m with | .request q _ _ _ _ => q != grp | _ => true,
          locks := s.locks.map fun (e : LockEntry) => if e.line = line then e.withdraw grp else e }
        match u.lockWalk grp 16 line [] with
        | some cycle => (u.deadlockRecord grp cycle).updGroup grp (Group.lockResult d 4)
        | none => u.updGroup grp (Group.lockResult d 3)
    | _ => s

end Sys2Proof.Machine
end

