-- ==== Sys2Proof/Machine/Ops.lean ====
section
/-! DEFINITION. The operations every unit shares: issue and its conditions (R55, R65 to R72), the end of a group (R100),
rendezvous (R102, R262), taking a trap and returning from it (R361 to R367), idempotent regions (R374 to R380), and
fetching a unit (R17, R28, R43). -/

namespace Sys2Proof.Machine

/-- What a meaning answers. -/
abbrev Out := Host.Outcome State Fault Refusal

/-- R149, R150: the value %fmt takes when a word is written to it. -/
def fmtWrite (x : Word) : Word :=
  let n := x.toNat
  let af := bits n 4 4
  let bf := bits n 8 4
  let acc := bits n 12 4
  BitVec.ofNat 32 (n % 16 + (if af ≤ 8 then af else 0) * 16 + (if bf ≤ 8 then bf else 0) * 256
    + (if acc ≤ 1 then acc else 0) * 4096 + bits n 16 1 * 65536)

/-- R75: what a word written leaves in %gsr: PRIV keeps its value. -/
def gsrWrite (old x : Word) : Word := (x &&& 0x1B) ||| (old &&& 4)
/-- R322: what %mshape keeps of a word. -/
def mshapeWrite (x : Word) : Word := x &&& 0x1FFF
/-- R323: what %mcloud keeps of a word. -/
def mcloudWrite (x : Word) : Word := if x.toNat % 4 = 3 then x &&& 4 else x &&& 7

/-- The groups of a workgroup that have not ended. -/
def State.wgGroups (s : State) (wg : Nat) : List Group := s.groups.filter fun g => g.wg == wg && g.wait != .ended

/-! ### Wait counters (R71) -/

/-- R71: how many operations a counter counts. -/
def Group.count (g : Group) (c : Ctr) : Nat := (g.pend.filter fun p => p.ctr == c).length
/-- R71: the greatest value of a counter. -/
def ctrMax : Ctr → Nat
  | .ld => 63
  | .st => 63
  | .mx => 7
  | .en => 7
  | .tm => 7
/-- R383: every engine command of the group has arrived. -/
def State.arrived (s : State) (grp : Nat) : Bool := !(s.engQ.any fun c => c.grp == grp)
/-- R72, R383: the condition a group waits for holds. -/
def State.countsOk (s : State) (g : Group) (ld st mx en tm : Nat) (arr : Bool) : Bool :=
  decide (g.count .ld ≤ ld) && decide (g.count .st ≤ st) && decide (g.count .mx ≤ mx) && decide (g.count .en ≤ en)
    && decide (g.count .tm ≤ tm) && (!arr || s.arrived g.id)

/-- R191, R194: nothing of the kinds named that the group issued before is outstanding: loads (atomics, page requests and term jobs' loads
among them, R181, R183), stores (atomics and drains among them), vector results. -/
def Group.fenceOk (g : Group) (clock : Nat) (loads stores vectors : Bool) : Bool :=
  g.pend.all (fun p =>
    !(loads && (p.kind == .load || p.kind == .atomic || p.kind == .pageReq || p.kind == .term))
    && !(stores && (p.kind == .store || p.kind == .atomic || p.kind == .cache || p.kind == .hazeDrain || p.kind == .term))
    && !(vectors && p.writes.any fun w => match w with | .vec _ _ _ _ _ _ => true | _ => false))
  && !(vectors && g.inflight.any fun e => decide (clock < e.ready) && (match e.ref with | .v _ => true | _ => false))

/-- R183, R187: no page request and no term job of the group is outstanding, and for a release no drain of a haze region. -/
def Group.orderOk (g : Group) (drains : Bool) : Bool :=
  g.pend.all fun p => p.kind != .pageReq && p.kind != .term && !(drains && p.kind == .hazeDrain)

/-- R71, R60: one register write of a counted result arrives (DESIGN CHOICE, log entry 54). -/
def RegWrite.land (g : Group) (k : Nat) : RegWrite → Group
  | .vec r m xs pz uni race =>
    -- a lane that has exited since keeps its value (R110)
    let still := m &&& ~~~g.exited
    let keep := race &&& still &&& ~~~(Config.freeMask k)
    let g := g.touchRun r
    if !uni then (g.putV r (still &&& ~~~keep) (.general xs) pz).getD g
    else
      let x : VOp := .uniform (xs.getD (lowestLane m) 0)
      let old := g.v.getD r VReg.zero
      let into := still &&& ~~~keep
      if old.val.slot?.isSome then (g.putV r into x pz).getD g
      else if into = m then { g with v := g.v.set r ⟨x.val, pz &&& m⟩ }
      -- a result of one word that reaches only some lanes of a register without a slot (R60, R110)
      else { g with v := g.v.set r ⟨.mixed (lanes.map fun l => if into.getLsbD l then x.lane l else old.lane l),
                                    (old.poison &&& ~~~into) ||| (pz &&& into)⟩ }
  | .sreg r x p race => if (race && !(Config.freeMask k).getLsbD 0) || (p && isMaskReg r) then g else g.putS r x p
  | .pred r m b race => g.putP r (m &&& ~~~g.exited &&& ~~~(race &&& ~~~(Config.freeMask k))) b
  | .scc b => g.writeScc b
  | .gsrOr x => { g with gsr := g.gsr ||| x }
  | .ckint x => { g with ckint := g.ckint ||| x }

/-- R71: the oldest operation a counter counts completes, if it is done: its results arrive and the counter falls. -/
def Group.retire (g : Group) (c : Ctr) (k : Nat) : Group :=
  match g.pend.find? fun p => p.ctr == c with
  | none => g
  | some p =>
    if p.done then
      -- the entry leaves first, so that its own slot is no longer owed to it
      let g := { g with pend := g.pend.eraseP fun q => q.ctr == c }
      p.writes.foldl (fun h w => w.land h k) g
    else g
/-- The oldest operation of a counter can complete. -/
def Group.canRetire (g : Group) (c : Ctr) : Bool := ((g.pend.find? fun p => p.ctr == c).map (·.done)).getD false

/-- R283, R287: a haze unit is done when none of its contributions or drains is on its way. -/
def Group.hazeMark (net : List HazeMsg) (g : Group) : Group :=
  if g.pend.any fun p => !p.done && (p.kind == .haze || p.kind == .hazeDrain) then
    { g with pend := g.pend.map fun (p : Pending) =>
        if p.kind = .haze ∨ p.kind = .hazeDrain then
          { p with done := !hazeOut net g.id p.tag g.core } else p }
  else g
/-- The group of a number as its haze units stand. -/
def State.hazeMark (s : State) (grp : Nat) : State := s.updGroup grp (Group.hazeMark s.hazeNet)

/-! ### Rendezvous (R102, R262) -/

/-- Readies a group of a rendezvous, no earlier than 4 core clocks after the last arrival. -/
def Group.wake (clock : Nat) (g : Group) : Group := { g with wait := .ready, notBefore := max g.notBefore (clock + 4) }

/-- A waiting group of a rendezvous meets all others that have not ended. -/
def allArrived (gs : List Group) (waits : Wait → Bool) (count : Group → Nat) : Bool :=
  match gs.find? fun g => waits g.wait with
  | none => false
  | some w => gs.all fun g => decide (count w ≤ count g)

/-- R102: the group elected, and its lane. -/
def elected (gs : List Group) : Option (Nat × Nat) :=
  let cs := gs.filterMap fun g => match g.wait with
    | .electw _ (some l) => some (g.gidx, g.id, l)
    | _ => none
  (cs.foldl (fun a c => match a with
    | none => some c
    | some b => if c.1 < b.1 then some c else a) none).map fun c => c.2

/-- R102: what ELECTW writes to a group. -/
def Group.electResult (win : Option (Nat × Nat)) (clock : Nat) (g : Group) : Group :=
  match g.wait with
  | .electw p _ =>
    match win with
    | some (id, l) =>
      if id = g.id then ((g.writeP p g.live (BitVec.twoPow 96 l)).writeScc true).wake clock
      else ((g.writeP p g.live 0).writeScc false).wake clock
    | none => ((g.writeP p g.live 0).writeScc false).wake clock
  | _ => g

def Wait.isBar : Wait → Bool
  | .bar _ => true
  | _ => false
def Wait.isElectw : Wait → Bool
  | .electw _ _ => true
  | _ => false

/-! ### Control stacks and the region record (R85 to R93, R374) -/

/-- R92: the word of bytes 24 to 31 of an entry. -/
def ReconEntry.tail (e : ReconEntry) : List Byte :=
  leBytes 4 e.f.toNat ++ leBytes 4 ((if e.loop then 1 else 0) + (if e.els then 2 else 0))
/-- R92: the 32 bytes of a reconvergence entry. -/
def ReconEntry.bytes (e : ReconEntry) : List Byte := leBytes 12 e.m.toNat ++ leBytes 12 e.x.toNat ++ e.tail
/-- R92: the entry 32 bytes hold. -/
def ReconEntry.ofBytes (b : List Byte) : ReconEntry :=
  let k := leNat ((b.drop 28).take 1)
  ⟨bit k 0, bit k 1, BitVec.ofNat 96 (leNat (b.take 12)), BitVec.ofNat 96 (leNat ((b.drop 12).take 12)),
    BitVec.ofNat 32 (leNat ((b.drop 24).take 4))⟩
/-- R88: the 64 bits of a return entry. -/
def RetEntry.word (e : RetEntry) : Nat := e.addr.toNat % 2 ^ 57 / 2 * 2 + e.depth * 2 ^ 57
/-- R88: the entry of a CALL: of the address, bits [56:1]. -/
def RetEntry.at (a : Addr) (depth : Nat) : RetEntry := ⟨a &&& 0x01FFFFFFFFFFFFFE, depth⟩
/-- R88: the entry 64 bits hold. -/
def RetEntry.ofWord (w : Nat) : RetEntry := ⟨BitVec.ofNat 64 (w % 2 ^ 57 / 2 * 2), bits w 57 5⟩

/-- R91: the reconvergence depth. -/
def Group.reconDepth (g : Group) : Nat := g.recon.length + g.reconArea
/-- R85: the return depth. -/
def Group.retDepth (g : Group) : Nat := g.ret.length + g.retArea

/-- R87: return entry n of the control area, from 0; undefined when a store has touched the area since it was written. -/
def State.areaRet (s : State) (g : Group) (n : Nat) : RetEntry :=
  if n < g.retLost then RetEntry.ofWord ((Config.freeWord (s.free + n)).toNat * 2 ^ 31 + (Config.freeWord (s.free + 64 + n)).toNat)
  else RetEntry.ofWord (s.memRead (s.stackKey g 0 (8 * n)) 8)
/-- R87: reconvergence entry n of the control area, undefined likewise (an undefined F is a value %fmt can hold). -/
def State.areaRecon (s : State) (g : Group) (n : Nat) : ReconEntry :=
  if n < g.reconLost then ReconEntry.ofBytes ((List.range 32).map fun i => Config.freeByte (s.free + 32 * n + i))
  else ReconEntry.ofBytes (s.memBytes (s.stackKey g 0 (0x180 + 32 * n)) 32)

/-- The newest entries of the return stack, at most 16, oldest first, and how many stay in the area: the form in which
records hold it (DESIGN CHOICE, log entry 11). -/
def State.topRet (s : State) (g : Group) : List RetEntry × Nat :=
  let more := min g.retArea (16 - g.ret.length)
  (((List.range more).map fun i => s.areaRet g (g.retArea - more + i)) ++ g.ret, g.retArea - more)
/-- The newest entries of the reconvergence stack, at most 8. -/
def State.topRecon (s : State) (g : Group) : List ReconEntry × Nat :=
  let more := min g.reconArea (8 - g.recon.length)
  (((List.range more).map fun i => s.areaRecon g (g.reconArea - more + i)) ++ g.recon, g.reconArea - more)

/-- The bytes of entries on chip, padded with zeros. -/
def retBytes (es : List RetEntry) : List Byte := (es.flatMap fun e => leBytes 8 e.word) ++ List.replicate (128 - 8 * es.length) 0
def reconBytes (es : List ReconEntry) : List Byte := (es.flatMap ReconEntry.bytes) ++ List.replicate (256 - 32 * es.length) 0

/-- R374: the region record of the issuing group. -/
def State.regionBytes (s : State) (wg : Bool) (restarts : Nat) : List Byte :=
  let g := s.g
  leBytes 8 g.rpc.toNat
    ++ leBytes 8 ((if wg then 1 else 0) + g.retDepth * 2 ^ 8 + g.reconDepth * 2 ^ 16 + restarts * 2 ^ 24)
    ++ ((g.s.take 16).flatMap fun x => leBytes 4 x.toNat)
    ++ leBytes 12 g.mask.toNat
    ++ leBytes 4 g.gsr.toNat ++ leBytes 4 g.fmt.toNat ++ leBytes 4 g.sw.toNat ++ leBytes 4 g.mshape.toNat ++ leBytes 4 g.mcloud.toNat
    ++ List.replicate 16 0 ++ retBytes (s.topRet g).1 ++ reconBytes (s.topRecon g).1

/-- R374: begins a region of the issuing group at its %rpc: the record is written to lane slot 1. -/
def State.beginRegion (s : State) (wg : Bool) (rpc : Addr) : State :=
  let s := s.mg fun g => { g with rpc := rpc }
  let t := s.memStore (s.stackKey s.g 1 0) (s.regionBytes wg 0)
  -- a poisoned scalar is recorded as a poisoned word
  let t := (List.range 16).foldl (fun u i =>
    if s.g.sPoison.getLsbD i then u.markMem (s.stackKey s.g 1 (0x10 + 4 * i)) 4 else u) t
  -- and so is what an error marks of the mask and of the stacks (R380)
  let t := (List.range 3).foldl (fun (u : State) i =>
    if s.g.rawSP (56 + i) then u.markMem (s.stackKey s.g 1 (0x50 + 4 * i)) 4 else u) t
  let t := if s.g.bad.getLsbD 8 then t.markMem (s.stackKey s.g 1 0x80) 0x80 else t
  let t := if s.g.bad.getLsbD 9 then t.markMem (s.stackKey s.g 1 0x100) 0x100 else t
  t.mg fun g => { g with region := some ⟨wg, g.retDepth, g.reconDepth, 0, g.nBar, g.nCbar, g.nElectw⟩, recTouched := false }

/-- What the BAR of IRGN.WG (1) or IRGE (2) is followed by, for a group that it releases. -/
def State.afterBar (s : State) (id : Nat) : State :=
  match s.group? id with
  | none => s
  | some g =>
    match g.wait with
    | .bar 1 => s.onGroup id fun t => t.beginRegion true (t.g.pc)
    | .bar 2 => s.updGroup id fun g => { g with region := none }
    | _ => s

/-- R262: releases the groups of a workgroup that wait at BAR once all have arrived. -/
def State.settleBar (s : State) (wg : Nat) : State :=
  let gs := s.wgGroups wg
  if allArrived gs Wait.isBar (·.nBar) then
    let ids := (gs.filter fun g => g.wait.isBar).map (·.id)
    ids.foldl (fun t id => (t.afterBar id).updGroup id (Group.wake s.clock)) s
  else s
/-- R102: the same for ELECTW, with the election. -/
def State.settleElectw (s : State) (wg : Nat) : State :=
  let gs := s.wgGroups wg
  if allArrived gs Wait.isElectw (·.nElectw) then
    s.mapGroups fun g => if g.wg = wg then g.electResult (elected gs) s.clock else g
  else s
/-- R262: the groups that meet at a workgroup's CBAR: those of its cloud, or its own outside a cloud. -/
def State.cloudGroups (s : State) (wg : Nat) : List Group :=
  match s.wg? wg with
  | none => s.wgGroups wg
  | some w =>
    if w.inCloud then
      s.groups.filter fun g => g.wait != .ended && ((s.wg? g.wg).map fun v => v.cloud == w.cloud && v.inCloud).getD false
    else s.wgGroups wg
/-- R332: a CBAR of a cloud has been passed: storage of MMAT.C units whose WAIT came before it is every member's again. -/
def State.mxShare (s : State) (cloud : Nat) : State :=
  let mine (e : MxOwn) : Bool := e.waited && e.cloud == cloud
  let t := (s.mxOwns.filter fun e => mine e && e.tainted).foldl (fun (u : State) e => e.far.foldl (fun v r => v.smear r.1 r.2) u) s
  { t with mxOwns := t.mxOwns.filter fun e => !mine e }

/-- R262: releases the groups of a cloud that wait at CBAR. -/
def State.settleCbar (s : State) (wg : Nat) : State :=
  let gs := s.cloudGroups wg
  if allArrived gs (· == .cbar) (·.nCbar) then
    let ids := (gs.filter fun g => g.wait == .cbar).map (·.id)
    let t := if s.mxOwns.isEmpty then s else match s.wg? wg with
      | some w => s.mxShare w.cloud
      | none => s
    t.mapGroups fun g => if ids.contains g.id then g.wake s.clock else g
  else s
/-- R320: a group's arrivals at MMAR.J whose sets are not complete, oldest first. -/
def Group.arrivals (g : Group) : List Arrival := g.arrived ++ (match g.wait with | .join t rs bw => [⟨t, rs, bw⟩] | _ => [])
/-- R320: the rows and B columns of a joint operation once every group of the set that has not ended has arrived. -/
def State.joinOp (s : State) (set : List Group) : Option MxOp :=
  if set.isEmpty || set.any fun g => g.arrivals.isEmpty then none
  else
    let rows : List MxRow := set.flatMap fun g => match g.arrivals with
      | a :: _ => a.rows.map fun r => ⟨g.id, r.1, r.2.1, r.2.2⟩
      | [] => []
    let part (q k : Nat) : List (Word × Bool) := match (set.find? fun g => g.gidx % 4 == q).bind fun g => g.arrivals.head? with
      | some a => a.bw.getD k (List.replicate 4 (0, false))
      | none => List.replicate 4 (0, false)
    let owners : List (Nat × Nat) := set.filterMap fun g => g.arrivals.head?.map fun a => (g.id, a.tag)
    match set with
    | [] => none
    | g :: _ =>
      some { core := g.core, grp := g.id, tag := (owners.headD (0, 0)).2, kind := .mmar, fmt := 0, m := 0, k := 32, n := 32, nt := 32,
             b := 0, tiles := [], x := 0, rows := rows,
             bw := (List.range 32).map fun k => (List.range 4).flatMap fun q => part q k,
             owns := rows.map fun r => (r.key, 128), reads := [], owners := owners, clock := s.clock, quarter := s.g.quarter }

/-- R331: an operation joins those its core's unit has received: of one clock, in ascending quarter order. -/
def mxInsert (o : MxOp) : List MxOp → List MxOp
  | [] => [o]
  | p :: r => if p.core = o.core ∧ p.clock = o.clock ∧ o.quarter < p.quarter then o :: p :: r else p :: mxInsert o r

/-- R320: the set of a group's oldest arrival is complete: a group that waits at the join becomes ready. -/
def Group.joined (g : Group) (now : Nat) : Group :=
  match g.arrived with
  | _ :: r => { g with arrived := r }
  | [] => { g with wait := .ready, notBefore := max g.notBefore (now + 1) }
/-- R320: joins of the sets of a workgroup. -/
def State.settleJoin (s : State) (wg : Nat) : State :=
  (List.range 8).foldl (fun t j =>
    let set := (t.wgGroups wg).filter fun g => g.gidx / 4 == j
    match t.joinOp set with
    | none => t
    | some o =>
      let ids := set.map (·.id)
      { (t.mapGroups fun g => if ids.contains g.id then g.joined t.clock else g) with mxQ := mxInsert o t.mxQ }) s

/-- Every rendezvous of a workgroup and its cloud is looked at again. -/
def State.settle (s : State) (wg : Nat) : State := (((s.settleBar wg).settleElectw wg).settleJoin wg).settleCbar wg

/-! ### The random state of lanes (R142, R143) -/

/-- R143: one advance of a lane's random state. -/
def Rnd.next (r : Rnd) : Rnd :=
  let t := r.x ^^^ (r.x <<< 11)
  ⟨r.y, r.z, r.w, r.w ^^^ (r.w >>> 19) ^^^ t ^^^ (t >>> 8)⟩
/-- R143: the state VSEED gives a lane. -/
def Rnd.seed (x seed : Word) (l : Nat) : Rnd :=
  (⟨x, BitVec.ofNat 32 l, seed, 0x6C078965⟩ : Rnd).next.next.next.next
/-- R142: the random state of a group at launch. -/
def Group.launchRnd (g : Group) : List Rnd :=
  let x := g.wgidX ^^^ (g.wgidY <<< 12) ^^^ (g.wgidZ <<< 22) ^^^ (BitVec.ofNat 32 g.gidx <<< 28)
  lanes.map fun l => Rnd.seed x g.seed l

/-! ### The end of a group (R100, R364, R384) -/

/-- R93: the bits of exited lanes leave every reconvergence entry. -/
def Group.clearExited (g : Group) : Group :=
  { g with recon := g.recon.map fun e => { e with m := e.m &&& g.live, x := e.x &&& g.live } }

/-- R100: a workgroup is over when no group of it is left. -/
def State.closeWg (s : State) (wg : Nat) : State :=
  if (s.wgGroups wg).isEmpty then
    { s.updWg wg (fun w => { w with live := false }) with
      others := s.others.filter (fun g => g.wg != wg) }
  else s

/-- R62: the units of a register block for a group of g general slots. -/
def blockUnits (g : Nat) : Nat := (g + 5) / 4
/-- R100, R332: something that a group that has ended issued is still to be performed: its register block stays. -/
def State.blockBusy (s : State) (grp : Nat) : Bool :=
  (s.hazeNet.any fun m => m.unit.any fun u => u.1 == grp) || s.mxQ.any fun o => o.owners.any fun w => w.1 == grp
/-- R100: the register blocks of ended groups that are not yet free. -/
def State.heldBlocks (s : State) : List HeldBlock := s.blocks.filter fun b => s.blockBusy b.grp

/-- R100, R255: a register block that nothing holds any more is free, and with it its group's number. -/
def State.releaseBlocks (s : State) : State :=
  if s.blocks.isEmpty then s
  else (s.blocks.filter fun b => !s.blockBusy b.grp).foldl (fun (t : State) b =>
    let c := t.ctx b.ctx
    t.setCtx { c with held := c.held.filter fun n => n != b.num }) { s with blocks := s.heldBlocks }

/-- R194: the units of the issuing group with the tags given give their storage up: what a write has left open is undefined. -/
def State.mxLet (s : State) (tags : List Nat) : State :=
  let mine (e : MxOwn) : Bool := e.grp == s.g.id && !e.waited && tags.contains e.tag
  let lost (e : MxOwn) : Bool := mine e && (e.tainted || s.g.mxRuns.any fun r => r.tag == e.tag && r.touched)
  let t := (s.mxOwns.filter lost).foldl (fun (u : State) e => e.owns.foldl (fun v r => v.smear r.1 r.2) u) s
  { t.mg fun g => { g with mxRuns := g.mxRuns.filter fun r => !tags.contains r.tag }
    with mxOwns := t.mxOwns.filterMap fun e =>
      if !mine e then some e else if e.far.isEmpty then none else some { e with waited := true, tainted := false } }
/-- R194: the tags of the issuing group's matrix units that no WAIT has covered, in the order of issue. -/
def State.mxTags (s : State) : List Nat := (s.mxOwns.filter fun e => e.grp == s.g.id && !e.waited).map (·.tag)
/-- R194, R71: a WAIT on MXCNT with threshold n covers every unit but the n issued last. -/
def State.mxCover (s : State) (n : Nat) : State :=
  if s.mxOwns.isEmpty then s else s.mxLet (s.mxTags.take (s.mxTags.length - n))
/-- R194, R332: a group ends or its work is thrown away before a WAIT has covered its matrix units: what those that are complete have left
reaches nobody by a release, so it is undefined; those in flight are left undefined when they complete. -/
def State.mxDrop (s : State) : State :=
  if s.mxOwns.isEmpty then s.mg fun g => { g with mxRuns := [] }
  else
    let mine (e : MxOwn) : Bool := e.grp == s.g.id && !e.waited
    let ended (e : MxOwn) : Bool := !(s.mxQ.any fun o => o.owners.contains (e.grp, e.tag))
    let t := (s.mxOwns.filter fun e => mine e && ended e).foldl (fun (u : State) e => e.owns.foldl (fun v r => v.smear r.1 r.2) u) s
    -- a b-run it has written leaves the rows of every group of the set open (R332)
    let open_ := (s.mxQ.filter fun o => s.g.mxRuns.any fun x => x.b && x.touched && o.owners.contains (s.g.id, x.tag)).flatMap (·.owners)
    { t.mg fun g => { g with mxRuns := [] } with
      mxOwns := (t.mxOwns.filter fun e => !mine e).map fun (e : MxOwn) => if open_.contains (e.grp, e.tag) then { e with tainted := true } else e }

/-- R100: the issuing group ends. -/
def State.endGroup (s : State) : State :=
  let g := s.g
  let s := ((s.performAll).abandonLocks g.id g.core).mxDrop
  let busy := s.blockBusy g.id
  let s := { s with launchQ := s.launchQ.filter fun r => r.grp != g.id,
                    blocks := s.blocks ++ if busy then [(⟨g.id, g.ctx, g.num, g.core, g.quarter, g.block, blockUnits g.gslots⟩ : HeldBlock)] else [] }
  let b := s.ctx g.ctx
  let s := s.setCtx { b with ckSum := b.ckSum ||| s.g.ckint, held := if busy then b.held else b.held.filter fun n => n != g.num }
  let s := s.mg fun g => { g with exited := g.present, mask := 0, wait := .ended, pend := [], region := none, handler := none,
                                  inflight := [], arrived := [] }
  (s.settle g.wg).closeWg g.wg

/-- R364: the issuing group is killed: it ends as by EXIT, and so not before its term jobs have ended (R339). -/
def State.killGroup (s : State) : State :=
  let b := s.ctx s.g.ctx
  let t := s.setCtx { b with kills := satInc b.kills }
  if s.g.pend.any fun p => p.kind == .term then
    t.mg fun g => { g with wait := .dying, mask := 0, region := none, handler := none, refused := none, replay := false }
  else t.endGroup
/-- The group raises no trap any more. -/
def Group.gone (g : Group) : Bool := g.wait == .ended || g.wait == .dying
/-- R339, R364: a killed group whose term jobs have ended ends. -/
def State.endDying (s : State) (id : Nat) : State :=
  if ((s.group? id).map fun g => g.wait == .dying && !(g.pend.any fun p => p.kind == .term)) == some true then
    s.onGroup id State.endGroup
  else s

/-! ### Fetching (R15, R17, R43) -/

/-- What fetching a halfword gives. -/
inductive Fetched where
  | half (x : Nat)
  | trap (cause addr : Nat)
  | page (base : Nat)
  /-- a poisoned word, with the bit of %ckint it sets (R382) -/
  | poison (ck : Nat)
  /-- the walk waits (R202) -/
  | busy
  deriving DecidableEq, Repr

/-- R15, R170: fetches the halfword at an address. -/
def State.fetchHalf (s : State) (a : Nat) : Fetched × State :=
  if apertureOf a != some .global then (.trap 3 a, s)
  else
    match s.checkGlobal s.g.core s.g.ctx s.g.root s.g.priv a .x with
    | (.trap c, t) => (.trap c a, t)
    | (.nonres p, t) => (.page p, t)
    | (.busy, t) => (.busy, t)
    | (.poison, t) => (.poison 1, t)
    | (.ok l, t) =>
      if (l.ty = 2 || l.ty = 3) && t.hostDown then (.poison 5, t)
      else if l.ty = 4 || l.ty = 5 then
        let (r, u) := t.readLoc s.g.core s.g.id l 2 0 0
        (if r.pz then .poison (if r.hst then 5 else 1) else .half r.val, u)
      else
        let t := t.findErrors s.g.ctx l.key 2 false
        if t.memPoisoned l.key 2 then (.poison 1, t) else (.half (t.memRead l.key 2), t)

/-- R17, R28: fetches the halfwords of the unit at an address, one at a time until the unit is whole. R17 gives an odd address no consequence: its
bytes are fetched as they lie (DESIGN CHOICE, log entry 60). -/
def State.fetchUnit (s : State) (pc : Addr) : Nat → List Nat → Except Fetched (List Nat) × State
  | 0, hs => (.ok hs, s)
  | n + 1, hs =>
    match s.fetchHalf ((pc.toNat + 2 * hs.length) % 2 ^ 64) with
    | (.half x, t) =>
      if (unitHalves 4 {} (hs ++ [x])).isSome then (.ok (hs ++ [x]), t) else State.fetchUnit t pc n (hs ++ [x])
    | (f, t) => (.error f, t)

/-- R103: one byte folded into a CRC-16 of polynomial 0x1021. -/
def crcByte (c b : Nat) : Nat :=
  (List.range 8).foldl (fun r _ => if bit r 15 then (r * 2 % 65536) ^^^ 0x1021 else r * 2 % 65536) (c ^^^ (b * 256))
/-- R103: the halfwords of a unit folded into %sig, each with its low byte first (DEDUCED, log entry 25). -/
def foldSig (sig : Word) (hs : List Nat) : Word :=
  BitVec.ofNat 32 (hs.foldl (fun c h => crcByte (crcByte c (h % 256)) (h / 256 % 256)) (sig.toNat % 65536))

/-! ### Taking a trap, and returning from one (R361 to R367) -/

/-- R362: the address of the issuing group's trap frame. -/
def State.frameAddr (s : State) : Nat := (s.ctx s.g.ctx).trapBase.toNat + 256 * s.g.num

/-- R364: the place of the frame, when it can be written and read. -/
def State.frameLoc (s : State) : Option Loc × State :=
  let a := s.frameAddr
  if 0x0200000000000000 < a + 256 then (none, s)
  else
    match s.checkGlobal s.g.core s.g.ctx s.g.root s.g.priv a .w with
    | (.ok _, t) =>
      match t.checkGlobal s.g.core s.g.ctx s.g.root s.g.priv a .rd with
      | (.ok l, u) => (some l, u)
      | (_, u) => (none, u)
    | (_, t) => (none, t)

/-- R363: the cause word and the flags word of a frame. -/
def causeWord (cause detail lane : Nat) : Word := BitVec.ofNat 32 (cause % 256 + detail % 256 * 256 + lane % 128 * 65536)
def Group.flagsWord (g : Group) : Word := if g.priv then 1 else 0

/-- R363: the fields of a trap frame: offset, bytes, value, mark. -/
def Group.frame (g : Group) (cause detail lane addr : Nat) (tpc : Addr) (sig : Word) : List (Nat × Nat × Nat × Bool) :=
  [(0x00, 8, tpc.toNat, false), (0x08, 4, (causeWord cause detail lane).toNat, false), (0x0C, 4, g.flagsWord.toNat, false),
   (0x10, 8, addr, false), (0x18, 4, (maskWord g.mask 0).toNat, g.rawSP 56), (0x1C, 4, (maskWord g.mask 1).toNat, g.rawSP 57),
   (0x20, 4, (maskWord g.mask 2).toNat, g.rawSP 58), (0x24, 4, g.gsr.toNat, false), (0x28, 4, g.fmt.toNat, false),
   (0x2C, 4, sig.toNat, false), (0x30, 4, (g.rawS 60).toNat, g.rawSP 60), (0x34, 4, (g.rawS 61).toNat, g.rawSP 61),
   (0x38, 4, (g.rawS 62).toNat, g.rawSP 62), (0x3C, 4, (g.rawS 63).toNat, g.rawSP 63)]
  ++ (List.range 24).map fun i => (0x40 + 8 * i, 8, 0, false)

/-- R363: writes a frame at its place with plain stores. -/
def State.writeFrame (s : State) (l : Loc) (fs : List (Nat × Nat × Nat × Bool)) : State :=
  fs.foldl (fun t f => (t.writeLoc s.g.core s.g.id s.g.ctx (l.plus f.1) f.2.1 f.2.2.1 f.2.2.2 0 0).2) s

/-- The marks of e0, e1 and e2. -/
def maskMarks : BitVec 64 := 7 * 2 ^ 56

/-- Results of the registers a trap entry or ERET writes are ready at once. -/
def Group.settleTrapRefs (g : Group) : Group :=
  { g with inflight := g.inflight.filter fun e => match e.ref with
      | .s r => decide (r < 56 ∨ r = 59)
      | .spr _ => false
      | .scc => false
      | _ => true }

/-- R362: the group enters its handler at address vec. -/
def Group.enterHandler (g : Group) (vec : Addr) (frame : Nat) (cause detail lane : Nat) (clock : Nat) : Group :=
  let h := g.settleTrapRefs
  let h := ((h.writeS 60 (BitVec.ofNat 32 frame) false).writeS 61 (BitVec.ofNat 32 (frame / 2 ^ 32)) false)
  let h := (h.writeS 62 (causeWord cause detail lane) false).writeS 63 g.flagsWord false
  { h with mask := g.live, sPoison := h.sPoison &&& ~~~maskMarks, pc := vec, sig := 0xFFFF, handler := some (g.retDepth, g.reconDepth), notBefore := clock + 3,
           replay := false, refused := none, wait := .ready, arrived := g.arrivals }

/-- R361, R362, R364: the issuing group takes a trap. The frame holds the address to resume at and %sig as given. -/
def State.takeTrap (s : State) (cause detail lane addr : Nat) (tpc : Addr) (sig : Word) : State :=
  let vec := (s.ctx s.g.ctx).trapVec
  if vec = 0 then s.killGroup
  else
    match s.frameLoc with
    | (none, t) => t.killGroup
    | (some l, t) =>
      let frame := s.g.frame cause detail lane addr tpc sig
      let u := t.writeFrame l frame
      if s.g.handler.isSome then u.killGroup
      else
        match u.fetchUnit vec 8 [] with
        | (.error _, v) => v.killGroup
        | (.ok _, v) => v.mg fun g => g.enterHandler vec s.frameAddr cause detail lane s.clock

/-- R365: what ERET reads from the frame: TPC, MASK, GSR, FMT, SIG, SAV; a word is poisoned where marked. -/
def State.readFrame (s : State) (l : Loc) : List (Nat × Bool) × State :=
  [(0x00, 8), (0x18, 4), (0x1C, 4), (0x20, 4), (0x24, 4), (0x28, 4), (0x2C, 4), (0x30, 4), (0x34, 4), (0x38, 4), (0x3C, 4)].foldl
    (fun (a : List (Nat × Bool) × State) f =>
      let r := a.2.readLoc s.g.core s.g.id (l.plus f.1) f.2 0 0
      (a.1 ++ [(r.1.val, r.1.pz)], r.2)) ([], s)

/-- R365: the group restored from a frame; a code of FMT that R150 does not list stands as 0 (DEDUCED, log entry 66). -/
def Group.leaveHandler (g : Group) (f : List (Nat × Bool)) (clock st : Nat) : Group :=
  let x (i : Nat) : Nat := (f.getD i (0, false)).1
  let w (i : Nat) : Word := BitVec.ofNat 32 (x i)
  let z (i : Nat) : Bool := (f.getD i (0, false)).2
  let h := g.settleTrapRefs
  let h := (((h.writeS 60 (w 7) (z 7)).writeS 61 (w 8) (z 8)).writeS 62 (w 9) (z 9)).writeS 63 (w 10) (z 10)
  { h with mask := setMaskWord (setMaskWord (setMaskWord 0 0 (w 1)) 1 (w 2)) 2 (w 3) &&& g.live, sPoison := h.sPoison &&& ~~~maskMarks,
           gsr := gsrWrite g.gsr (w 4), fmt := fmtWrite (w 5), sig := w 6,
           pc := BitVec.ofNat 64 (x 0), handler := none, notBefore := clock + 1 + max st 2 }

/-! ### The places of a group's registers in its quarter's register file (R62, R389) -/

/-- The word of predicate k (0 to 7), or of the part on chip of a stack (8, 9): past the words of the register units (DESIGN CHOICE, log entry 18). -/
def Group.ctlRow (g : Group) (k : Nat) : Nat := 49152 + 32 * g.place + k
/-- A word lies in what a group holds of its quarter's register file. -/
def Group.hasRow (g : Group) (row : Nat) : Bool :=
  decide (192 * g.block ≤ row ∧ row < 192 * (g.block + blockUnits g.gslots)) || decide (g.ctlRow 0 ≤ row ∧ row < g.ctlRow 32)
/-- R389, R394: all that a group holds of its quarter's register file is written, as it starts, is restored or restarts. -/
def State.wroteBlock (s : State) (g : Group) : State :=
  let b := s.bank (bankIdx 0 (4 * g.core + g.quarter))
  if !b.arm && b.latent.isEmpty then s
  else s.setBank (({ b with latent := b.latent.filter fun e => !g.hasRow e.word } : LogBank).plant (192 * g.block))

/-! ### Idempotent regions: restart and discard (R374 to R380) -/

/-- R378: the scratch reservation of a workgroup is undefined. -/
def State.smearScratch (s : State) (w : Wg) : State :=
  ((s.smear (scratchKey w.core w.offW) w.sizeW).smear (scratchKey w.core (0x80000 + w.offA)) w.sizeA).smear
    (scratchKey w.core (0x100000 + w.offC)) w.sizeC

/-- R333: a stopped matrix operation leaves its destinations undefined. -/
def State.stopMatrix (s : State) (grp : Nat) : State :=
  let mine (o : MxOp) : Bool := o.owners.any fun w => w.1 == grp
  let t := (s.mxQ.filter mine).foldl (fun u o => o.owns.foldl (fun v r => v.smear r.1 r.2) u) s
  -- no counter of another owner is left standing
  let t := (s.mxQ.filter mine).foldl (fun u o => o.owners.foldl (fun v w => v.updGroup w.1 fun g =>
    { g with pend := g.pend.map fun (p : Pending) => if p.tag = w.2 ∧ p.kind = .matrix then { p with done := true } else p }) u) t
  { t with mxQ := t.mxQ.filter fun o => !mine o }

/-- R358: a discarded lane's header and overlay, and the areas its header gives for the trail and the choice points, are undefined, within
its slot and past what the control unit keeps there (R5, R87). -/
def State.smearTerm (s : State) (lane : Nat) : State :=
  let word (o : Nat) : Nat := s.memRead (s.stackKey s.g lane o) 4
  let area (t : State) (o : Nat × Nat) : State :=
    if 0x480 ≤ o.1 ∧ o.1 < o.2 ∧ o.2 ≤ s.stride s.g then t.smear (s.stackKey s.g lane o.1) (o.2 - o.1) else t
  [(0x480, 0x1500), (word 0x480, word 0x488), (word 0x48C, word 0x494)].foldl area s
/-- R358: the lanes of a group whose jobs are stopped. -/
def State.jobLanes (s : State) (grp : Nat) : List Nat :=
  ((s.termQ.filter fun u => u.grp == grp).flatMap fun u => (u.jobs.filter fun j => !j.ended).map (·.lane)).eraseDups

/-- R379: the issuing group's unfinished work is thrown away; what it has done stays done. -/
def State.discardWork (s : State) : State :=
  let id := s.g.id
  let s := (s.jobLanes id).foldl State.smearTerm s
  let s := (s.performAll).abandonLocks id s.g.core
  let s := s.hazeReturnAll s.g.core
  let s := (s.stopMatrix id).mxDrop
  let s := (s.engQ.filter fun c => c.grp == id).foldl (fun (t : State) c => t.cancelCommand c) s
  { s with engQ := s.engQ.filter fun c => c.grp != id, termQ := s.termQ.filter fun u => u.grp != id,
           launchQ := s.launchQ.filter fun r => r.grp != id }

/-- R374: the words of a region record at its place. -/
def State.recordWord (s : State) (off n : Nat) : Nat := s.memRead (s.stackKey s.g 1 0 + off) n
/-- R374: the mark of a recorded scalar. -/
def State.recordPoison (s : State) (off n : Nat) : Bool := s.memPoisoned (s.stackKey s.g 1 0 + off) n

/-- R380, R381: the record holds a poisoned word that no scalar register can take: the words of %rpc, the depths, the mask, the special
registers and the entries of the stacks. -/
def State.recordSpoiled (s : State) (nRet nRecon : Nat) : Bool :=
  s.recordPoison 0 0x10 || s.recordPoison 0x50 0x20 || (nRet != 0 && s.recordPoison 0x80 (8 * nRet))
    || (nRecon != 0 && s.recordPoison 0x100 (32 * nRecon))

/-- R378: the issuing group, whose work has been discarded, resumes at its %rpc as its record holds it (DEDUCED, log entry 23). An
uncorrectable error in the record itself reaches the group, and so every restart until the fourth error traps (R380). -/
def State.restartRecord (s : State) (error : Bool) : State :=
  match s.g.region with
  | none => s
  | some r =>
    let s := s.findErrors s.g.ctx (s.stackKey s.g 1 0) 0x200 false
    if s.g.recTouched then s.killGroup
    else if s.recordSpoiled (min 16 r.ret) (min 8 r.recon) then
      ((s.memWrite (s.stackKey s.g 1 0x0B) 1 3).mg fun g =>
        { (g.ck 6) with region := some { r with restarts := 3 }, pend := [], inflight := [], wait := .ready }).takeTrap 10 0 127 0 s.g.rpc 0xFFFF
    else
      let s := if error then s.memWrite (s.stackKey s.g 1 0x0B) 1 (r.restarts + 1) else s
      let w (off : Nat) : Word := BitVec.ofNat 32 (s.recordWord off 4)
      let nRet := min 16 r.ret
      let nRecon := min 8 r.recon
      let live := s.g.live
      let ret := (List.range nRet).map fun i => RetEntry.ofWord (s.recordWord (0x80 + 8 * i) 8)
      let recon := (List.range nRecon).map fun i =>
        let e := ReconEntry.ofBytes (s.memBytes (s.stackKey s.g 1 0 + 0x100 + 32 * i) 32)
        { e with m := e.m &&& live, x := e.x &&& live }
      let marks := (List.range 16).foldl (fun (p : BitVec 64) i =>
        if s.recordPoison (0x10 + 4 * i) 4 then p ||| BitVec.twoPow 64 i else p) 0
      (s.wroteBlock s.g).mg fun g => { g with
        pc := g.rpc, sig := 0xFFFF, sigLatch := 0xFFFF,
        s := (List.range 64).map fun i => if i < 16 then w (0x10 + 4 * i) else 0, sPoison := marks, bad := 0,
        mask := setMaskWord (setMaskWord (setMaskWord 0 0 (w 0x50)) 1 (w 0x54)) 2 (w 0x58) &&& live,
        gsr := gsrWrite g.gsr (w 0x5C), fmt := fmtWrite (w 0x60), sw := w 0x64, mshape := mshapeWrite (w 0x68),
        mcloud := mcloudWrite (w 0x6C), cych := 0,
        v := List.replicate 64 VReg.zero, p := List.replicate 8 0, rnd := g.launchRnd,
        ret := ret, retArea := r.ret - nRet, recon := recon, reconArea := r.recon - nRecon,
        retLost := min g.retLost (r.ret - nRet), reconLost := min g.reconLost (r.recon - nRecon),
        pend := [], inflight := [], arrived := [], handler := none, wait := .ready, replay := false, refused := none,
        nBar := r.nBar, nCbar := r.nCbar, nElectw := r.nElectw, notBefore := s.clock + 1,
        ckint := if error then setBit g.ckint 6 true else g.ckint,
        region := some { r with restarts := if error then r.restarts + 1 else r.restarts } }

/-- R378: the issuing group's work is discarded, and it restarts. -/
def State.restartGroup (s : State) (error : Bool) : State :=
  if s.g.region.isNone then s else s.discardWork.restartRecord error

/-- R378: the groups of a workgroup that a restart of its workgroup-scope region takes back: those that have not ended and have a record; one
that has left every region has none (DEDUCED, log entry 57). -/
def State.regionGroups (s : State) (wg : Nat) : List Nat :=
  ((s.wgGroups wg).filter fun g => g.wait != .dying && g.region.isSome).map (·.id)

/-- R377, R378, R380: a workgroup-scope region restarts every group of the workgroup, and its scratch is undefined; a group in whose own region
this is the fourth error takes the trap. -/
def State.restartWg (s : State) (wg reach : Nat) : State :=
  let t := (s.regionGroups wg).foldl (fun u id => u.onGroup id fun v =>
    if (v.g.region.map fun r => decide (r.restarts < 3)).getD false then v.restartGroup true
    else v.takeTrap 10 reach 127 0 v.g.pc v.g.sig) s
  match t.wg? wg with
  | some w => t.smearScratch w
  | none => t
/-- R380: the group stands in a workgroup-scope region that an error restarts. -/
def Group.restartsWg (g : Group) : Bool := (g.region.map fun r => r.wg && decide (r.restarts < 3)).getD false

/-- R380: an uncorrectable error of a reach at one group, which then stands in g: restart or trap cause 10. -/
def State.errorAt (s : State) (reach : Nat) (tpc : Addr) (sig : Word) : State :=
  if s.g.gone then s
  else
  match s.g.region with
  | some r =>
    if (r.wg || reach = 0) && decide (r.restarts < 3) then
      if r.wg then s.restartWg s.g.wg reach else s.restartGroup true
    else s.takeTrap 10 reach 127 0 tpc sig
  | none => s.takeTrap 10 reach 127 0 tpc sig

/-- R377, R380: an error reaches several groups of one workgroup: when one of them stands in a workgroup-scope region it covers, the workgroup
restarts once, and those without a region trap; otherwise each answers for itself (DEDUCED, log entry 57). -/
def State.errorWg (s : State) (wg reach : Nat) (gs : List Group) : State :=
  let hit (t : State) (g : Group) : State :=
    t.onGroup g.id fun v => v.errorAt reach v.g.pc (if g.id = s.g.id then v.g.sigLatch else v.g.sig)
  if gs.any Group.restartsWg then (gs.filter fun g => g.region.isNone).foldl hit (s.restartWg wg reach) else gs.foldl hit s

/-- R380: an error of reach 2 or 3 found at the issuing group's quarter or core reaches every group there, by workgroup. -/
def State.errorWide (s : State) (reach : Nat) : State :=
  let there := s.groups.filter fun g => !g.gone && !g.saved && g.core == s.g.core && (reach != 2 || g.quarter == s.g.quarter)
  ((there.map (·.wg)).eraseDups).foldl (fun t wg => t.errorWg wg reach (there.filter fun g => g.wg == wg)) s

/-- R380: an error of a reach at the issuing group: the group itself, at reach 1 every other group of its workgroup, and at
reaches 2 and 3 every group of its quarter or core. -/
def State.errorReach (s : State) (reach : Nat) : State :=
  if reach = 0 then s.errorAt 0 s.g.pc s.g.sigLatch
  else if reach = 1 then s.errorWg s.g.wg 1 (s.wgGroups s.g.wg)
  else s.errorWide reach

/-! ### Errors in the register files (R389, R394) -/

/-- R61, R62: the 8-byte word of a quarter's register file that holds lane l of register r (DESIGN CHOICE, log entry 18). -/
def Group.regRow (g : Group) (r l : Nat) : Nat :=
  192 * g.block + (match (g.v.getD r VReg.zero).val.slot? with
    | some k => 96 + 48 * k + l / 2
    | none => r)
/-- The words a register lies in: of a scalar pair at 64 and on. -/
def Group.refRows (g : Group) : Ref → List Nat
  | .v r => if (g.v.getD r VReg.zero).val.slot?.isSome then (List.range 48).map fun j => g.regRow r (2 * j) else [g.regRow r 0]
  | .s r => [192 * g.block + 64 + r / 2]
  | .p n => [g.ctlRow n]
  | .ret => [g.ctlRow 8]
  | .recon => [g.ctlRow 9]
  | .mask => [192 * g.block + 92, 192 * g.block + 93]
  | _ => []
/-- R61, R62, R380: an uncorrectable word of a quarter's register file marks the registers it holds. -/
def Group.spoilRow (g : Group) (row : Nat) : Group :=
  let off := row - 192 * g.block
  if g.ctlRow 0 ≤ row then { g with bad := g.bad ||| BitVec.twoPow 16 (row - g.ctlRow 0) }
  else if off < 64 then
    let x := g.v.getD off VReg.zero
    { g with v := g.v.set off { x with poison := BitVec.allOnes 96 } }
  else if off < 96 then
    let r := 2 * (off - 64)
    { g with sPoison := g.sPoison ||| BitVec.twoPow 64 r ||| BitVec.twoPow 64 (r + 1) }
  else
    let k := (off - 96) / 48
    let l := (off - 96) % 48 * 2
    { g with v := g.v.map fun x => if x.val.slot? = some k then { x with poison := x.poison ||| BitVec.ofNat 96 (3 * 2 ^ l) } else x }
/-- R389: the issuing group's access to words of its register file finds the errors in them. -/
def State.findRows (s : State) (rows : List Nat) : State :=
  let b := s.bank (bankIdx 0 (4 * s.g.core + s.g.quarter))
  if b.latent.isEmpty then s
  else
    (b.latent.filter fun e => rows.contains e.word).foldl (fun (t : State) e =>
      let u := t.logError b.idx (if e.bad then 1 else 0) e.word s.g.ctx e.syn e.inj
      if e.bad then u.mg (·.spoilRow e.word) else u)
      (s.setBank { b with latent := b.latent.filter fun e => !rows.contains e.word })
/-- The registers that fixed-latency units have written between two states of a group, with the lanes. -/
def Group.refsWritten (old new : Group) : List (Ref × Mask) :=
  (new.inflight.filter fun e => !old.inflight.contains e).map fun e => (e.ref, e.lanes)
/-- The registers a counted result writes, with the lanes. -/
def RegWrite.refs : RegWrite → List (Ref × Mask)
  | .vec r m _ _ _ _ => [(.v r, m)]
  | .sreg r _ _ _ => [(.s r, BitVec.allOnes 96)]
  | .pred r m _ _ => [(.p r, m)]
  | _ => []
/-- The lanes of a register that were written. -/
def lanesWritten (ws : List (Ref × Mask)) (r : Ref) : Mask := ws.foldl (fun m w => if w.1 = r then m ||| w.2 else m) 0
/-- The words of the register file that were written between two states of a group, known to include the registers ws, each with whether all of it
was written; a result that stands at once is seen by what it changes (DESIGN CHOICE, log entry 18). -/
def Group.rowsWritten (old new : Group) (ws : List (Ref × Mask)) : List (Nat × Bool) :=
  ((List.range 64).flatMap fun r =>
    let x := new.v.getD r VReg.zero
    let y := old.v.getD r VReg.zero
    let m := lanesWritten ws (.v r)
    if x = y ∧ m = 0 then []
    else if x.val.slot?.isSome then
      let hit (l : Nat) : Bool := m.getLsbD l || x.lane l != y.lane l
      (List.range 48).filterMap fun j =>
        if hit (2 * j) || hit (2 * j + 1) then some (new.regRow r (2 * j), (hit (2 * j) && hit (2 * j + 1)) || y.val.slot?.isNone) else none
    else [(new.regRow r 0, true)])
  ++ ((List.range 32).filterMap fun j =>
    let hit (r : Nat) : Bool := lanesWritten ws (.s r) != 0 || new.rawS r != old.rawS r
    if hit (2 * j) || hit (2 * j + 1) then some (192 * new.block + 64 + j, hit (2 * j) && hit (2 * j + 1)) else none)
  ++ (List.range 8).filterMap fun n =>
    let m := lanesWritten ws (.p n)
    if m != 0 || new.p.getD n 0 != old.p.getD n 0 then some (new.ctlRow n, new.full m) else none
/-- R389, R394, R398: what the issuing group has written since it stood as given: errors of words it wrote in part are found, those of words
overwritten in full are gone, and an armed register file places its own. -/
def State.wroteRows (s : State) (old : Group) (refs : List (Ref × Mask)) : State :=
  let i := bankIdx 0 (4 * s.g.core + s.g.quarter)
  let b := s.bank i
  if !b.arm && b.latent.isEmpty then s
  else
    let ws := Group.rowsWritten old s.g refs
    let t := s.findRows ((ws.filter fun w => !w.2).map (·.1))
    let c := t.bank i
    let c := { c with latent := c.latent.filter fun e => !ws.contains (e.word, true) }
    t.setBank (match ws with
      | [] => c
      | w :: _ => c.plant w.1)

/-- R381: a poisoned result that arrives for e0, e1 or e2. -/
def Pending.spoilsMask (p : Pending) : Bool := p.done && p.writes.any fun w => match w with
  | .sreg r _ pz _ => pz && isMaskReg r
  | _ => false
/-- R71: a group's counter falls by one, when it can; a poisoned result for the mask is consumed (R381). -/
def State.retire (s : State) (grp : Nat) (c : Ctr) : State :=
  let s := s.hazeMark grp
  let unit := (s.group? grp).bind fun g => g.pend.find? fun p => p.ctr == c
  let spoils := unit.map Pending.spoilsMask
  let t := (s.updGroup grp fun g => g.retire c s.free).fresh
  let t := if s.banks.isEmpty then t else match s.group? grp with
    | some g => t.onGroup grp fun u => u.wroteRows g ((unit.map fun p => p.writes.flatMap RegWrite.refs).getD [])
    | none => t
  if spoils = some true then t.onGroup grp fun u => u.errorAt 0 u.g.pc u.g.sig else t

/-! ### Issue (R55, R65 to R72) -/

/-- R65: the issue classes; memv is the memory class for the units that run in beats (R55). -/
inductive Cls where
  | vec | sfu | scal | mem | memv
  deriving DecidableEq, Repr

/-- R55: beats of a unit: how many thirds of the mask hold an active lane, at least one clock. -/
def beats (m : Mask) : Nat := max 1 ((List.range 3).filter fun k => maskWord m k != 0).length

/-- The pipe of a class. -/
def Cls.pipe : Cls → Nat
  | .vec => 0
  | .sfu => 1
  | .scal => 2
  | .mem => 3
  | .memv => 3
/-- R55, R65: for how many clocks a unit occupies its pipe. -/
def Cls.occupies (m : Mask) : Cls → Nat
  | .vec => beats m
  | .sfu => beats m
  | .memv => beats m
  | _ => 1
/-- The clock from which a pipe of the issuing group's quarter is free. -/
def State.pipeFrom (s : State) (p : Nat) : Nat :=
  ((s.pipes.find? fun e => e.1 == s.g.core && e.2.1 == s.g.quarter && e.2.2.1 == p).map (·.2.2.2.1)).getD 0
/-- R65: the group a pipe of a quarter issued last. -/
def State.pipeLast (s : State) (core quarter p : Nat) : Option Nat :=
  (s.pipes.find? fun e => e.1 == core && e.2.1 == quarter && e.2.2.1 == p).map (·.2.2.2.2)
/-- R55: a unit of the issuing group occupies its pipe. -/
def State.occupy (s : State) (p till : Nat) : State :=
  { s with pipes := (s.g.core, s.g.quarter, p, till, s.g.id) :: s.pipes.filter fun e =>
      !(e.1 == s.g.core && e.2.1 == s.g.quarter && e.2.2.1 == p) }
/-- R67: the squall limit holds memory units of the issuing group back. -/
def State.squallHolds (s : State) : Bool :=
  let lim := (s.core s.g.core).lim
  decide (lim < 8) && decide (lim ≤ (s.others.filter fun g => g.core == s.g.core && g.quarter == s.g.quarter && g.active
    && g.wait != .ended && decide (g.age < s.g.age)).length)

/-- The clock before which the unit cannot issue, when its class is held. -/
def State.classHeld (s : State) (c : Cls) : Option Nat :=
  if s.clock < s.pipeFrom c.pipe then some (s.pipeFrom c.pipe)
  else if c.pipe = 3 && s.squallHolds then some (s.clock + 1)
  else none

/-- The unit does not issue before a clock; %sig stands as before it. -/
def State.hold (s : State) (till : Nat) : State := s.mg fun g => { g with notBefore := till, sig := g.sigLatch }
/-- The unit does not issue before a condition holds. -/
def State.await (s : State) (w : Wait) : State := s.mg fun g => { g with wait := w, sig := g.sigLatch }

/-- R367: a replayable fault of the issuing group (DESIGN CHOICE, log entry 22). -/
def State.pageFault (s : State) (base : Nat) (store : Bool) (lane addr : Nat) : State :=
  if s.mgmt.pqSize = 0 then s.takeTrap 4 (if store then 2 else 1) lane addr s.g.pc s.g.sigLatch
  else
    let t := (s.requestPage s.g.ctx base (if store then 2 else 1) (clusterOf s.g.core)).2
    t.await (.page base store lane addr)

/-- R55, R65, R69: a unit that ended without its effect has issued: its pipe is taken for n clocks, and nothing of the group
follows before its stall count has passed (R82, R362: the handler no more than any other target). -/
def State.spent (s : State) (cls : Cls) (n st : Nat) : State :=
  (s.mg fun g => { g with notBefore := max g.notBefore (s.clock + 1 + st) }).occupy cls.pipe (s.clock + n)

/-- What becomes of a unit that ends without its effect. -/
def State.stopped (s : State) (cls : Cls) (n st : Nat) : Stop → State
  | .trap cause detail lane addr => (s.takeTrap cause detail lane addr s.g.pc s.g.sigLatch).spent cls n st
  | .page base store lane addr => (s.pageFault base store lane addr).spent cls n st
  | .consumed reach => (s.errorReach reach).spent cls n st
  | .hold till => s.hold till
  | .await w => s.await w

/-- R43: a unit that cannot be decoded, or that is privileged and lacks privilege, traps when its turn comes: it has no class and
reads no register. -/
def State.decodeTrap (s : State) (cause detail st : Nat) : State :=
  (s.takeTrap cause detail 127 0 s.g.pc s.g.sigLatch).mg fun g => { g with notBefore := max g.notBefore (s.clock + 1 + st) }
/-- R43, item 6, R53: a unit that is privileged when c holds. -/
def State.needsPriv (s : State) (c : Bool) (st : Nat) (t : State) : Out := .next (if c && !s.g.priv then s.decodeTrap 3 0 st else t)

/-- The end comes before the checking scoreboard: the unit waits before it issues (R71, R72), or an error reaches the group,
which R385 takes before a trap. -/
def Stop.first : Stop → Bool
  | .hold _ => true
  | .await (.counts _ _ _ _ _) => true
  | .await (.limits _ _ _ _ _ _) => true
  | .await (.fence _ _ _) => true
  | .await (.order _) => true
  | .await .posted => true
  | .consumed _ => true
  | _ => false

/-- The unit has not issued: it waits. -/
def Stop.waits : Stop → Bool
  | .hold _ => true
  | .await _ => true
  | _ => false
/-- R380, R381: what a unit comes to in a state where an error marks what it uses: unless it waits, the error is consumed. -/
def State.consumes (s : State) (refs : List Ref) (r : EStateM.Result Stop State Unit) : EStateM.Result Stop State Unit :=
  if refs.any (s.g.spoilt s.clock) then
    match r with
    | .error e t => if e.waits then .error e t else .error (.consumed 0) (s.mg (·.ck 0))
    | .ok _ _ => .error (.consumed 0) (s.mg (·.ck 0))
  else r

/-- R65, R69, R70: issues a unit of a class and a stall count that reads the registers refs: held, trapped by the checking
scoreboard, or performed by its body, which also moves the pc. CHK counts as the last SSETR left it, without its latency (DESIGN CHOICE, log
entry 59). -/
def issue (cls : Cls) (st : Nat) (refs : List Ref) (body : M Unit) (s : State) : State :=
  match s.classHeld cls with
  | some c => s.hold c
  | none =>
    let n := cls.occupies (s.g.rdMask s.clock)
    let early := s.g.chk && refs.any (s.g.notReady s.clock)
    -- the errors under its sources are found as they are read (R389)
    let s := s.findRows (refs.flatMap s.g.refRows)
    match s.consumes refs (body s) with
    | .ok _ t =>
      if early then s.stopped cls n st (.trap 5 0 127 0)
      else (t.wroteRows s.g (Group.refsWritten s.g t.g)).occupy cls.pipe (s.clock + n)
    | .error e t => if early && !e.first then s.stopped cls n st (.trap 5 0 127 0) else t.stopped cls n st e

/-- A unit of len bytes with stall count st: its body, then the next unit. -/
def unit (cls : Cls) (st len : Nat) (refs : List Ref) (body : M Unit) (s : State) : State :=
  issue cls st refs (fun s => match body s with
    | .ok _ t => .ok () (t.advance len st)
    | .error e t => .error e t) s

/-- The registers of the execution mask. -/
def maskRefs : List Ref := [.s 56, .s 57, .s 58, .mask]

/-- R55: a unit under the execution mask: with an all-zero mask it only takes its slot. -/
def vunit (cls : Cls) (st len : Nat) (refs : List Ref) (body : M Unit) (s : State) : State :=
  if s.g.rdMask s.clock = 0 then unit cls st len maskRefs (pure ()) s
  else unit cls st len (maskRefs ++ refs) body s

/-- Ends the unit with a trap that concerns no lane. -/
def raise (cause detail : Nat) : M Unit := throw (.trap cause detail 127 0)

/-- R380, R381: a poisoned register word is consumed: REG is set, and the error reaches the group (DEDUCED, log entry 26). -/
def consumeReg (pz : Bool) : M Unit := fun s => if pz then .error (.consumed 0) (s.mg (·.ck 0)) else .ok () s

/-- R71: a counter at its maximum holds the unit back. -/
def awaitCtr (c : Ctr) : M Unit := fun s =>
  if s.g.count c < ctrMax c then .ok () s
  else
    let lim (k : Ctr) : Nat := if k = c then ctrMax k - 1 else ctrMax k
    .error (.await (.limits (lim .ld) (lim .st) (lim .mx) (lim .en) (lim .tm) false)) s

/-- R183: a store waits for the loads of its group that have not returned, which are page requests and those of term jobs: every other
load is performed when it issues (DEDUCED, log entry 15). -/
def loadHold : M Unit := fun s => if s.g.orderOk false then .ok () s else .error (.await (.order false)) s
/-- R187, R287, R339: a release waits for page requests, term jobs and drains. -/
def releaseHold : M Unit := fun s => if s.g.orderOk true then .ok () s else .error (.await (.order true)) s
/-- R187, R404: a release at SYS scope waits for the zero-length read behind the posted writes it covers: those of its group, and those of
others that its group may have observed, for which it waits until none is left (DEDUCED, log entry 61). -/
def postedHold (scope : Nat) : M Unit := fun s => if scope = 4 && !s.zlr.isEmpty then .error (.await .posted) s else .ok () s
/-- R187, R339, R404: the release of an ordered store or atomic: order 2 REL, 3 SC. -/
def orderHold (q : Option MQ) : M Unit :=
  match q with
  | some m => if 2 ≤ m.ord.toNat then (do
      releaseHold
      postedHold m.scope.toNat) else pure ()
  | none => pure ()

/-- A counted operation joins those in flight. -/
def Group.addPend (g : Group) (p : Pending) : Group := { g with pend := g.pend ++ [p] }

end Sys2Proof.Machine
end

