-- ==== Sys2Proof/Machine/Flags.lean ====
section
/-! DEFINITION. Conditions, carries and the sticky flags: SCC of the scalar forms (R77, R78), the conditions of the vector
compares (R127), and OVF.F and SAT.A of %gsr (R75, R121). -/

namespace Sys2Proof.Machine

/-- R77, R78, R127: the seven integer conditions, by code. -/
def condition (c : Nat) (x y : Word) : Bool :=
  match c with
  | 0 => x == y
  | 1 => x != y
  | 2 => BitVec.slt x y
  | 3 => BitVec.sle x y
  | 4 => BitVec.ult x y
  | 5 => BitVec.ule x y
  | _ => (x &&& y) != 0

/-- SCC as a number. -/
def sccNat (b : Bool) : Nat := if b then 1 else 0
/-- R77: SADDC's carry out of bit 31. -/
def carryOut (x y : Word) (c : Bool) : Bool := decide (2 ^ 32 ≤ x.toNat + y.toNat + sccNat c)
/-- R77: SSUBB's borrow. -/
def borrowOut (x y : Word) (c : Bool) : Bool := decide (x.toNat < y.toNat + sccNat c)

/-- R121: OVF.F and SAT.A are set, never cleared. -/
def Group.raiseFlags (g : Group) (ovf sat : Bool) : Group :=
  let g := if ovf then { g with gsr := setBit g.gsr 3 true } else g
  if sat then { g with gsr := setBit g.gsr 4 true } else g

/-- R42: Sat to a signed word, with the flag. -/
def satWord (v : Int) : FRes :=
  if v < -2147483648 then ⟨0x80000000, false, true⟩
  else if 2147483647 < v then ⟨0x7FFFFFFF, false, true⟩
  else .ok (BitVec.ofInt 32 v).toNat

/-- R77, R123: shifts by the low six bits of a count; 32 and more shift everything out. -/
def shl (x y : Word) : Word := x <<< (y.toNat % 64)
def shrN (x y : Word) : Word := x >>> (y.toNat % 64)
def shrI (x y : Word) : Word := BitVec.sshiftRight x (y.toNat % 64)
/-- R77, R123: rotation by the low five bits. -/
def rotl (x y : Word) : Word := x.rotateLeft (y.toNat % 32)
/-- R77: the high halves of products. -/
def mulhI (x y : Word) : Word := BitVec.ofInt 32 (x.toInt * y.toInt / 4294967296)
def mulhN (x y : Word) : Word := BitVec.ofNat 32 (x.toNat * y.toNat / 4294967296)
/-- Minima and maxima. -/
def minI (x y : Word) : Word := if BitVec.sle x y then x else y
def maxI (x y : Word) : Word := if BitVec.sle x y then y else x
def minN (x y : Word) : Word := if BitVec.ule x y then x else y
def maxN (x y : Word) : Word := if BitVec.ule x y then y else x
/-- Ones, leading zeros, reversal. -/
def popc (x : Word) : Word := BitVec.ofNat 32 ((List.range 32).filter fun i => x.getLsbD i).length
def clz (x : Word) : Word := BitVec.ofNat 32 (if x = 0 then 32 else 31 - x.toNat.log2)
def brev (x : Word) : Word := x.reverse

/-- R79: the top of a bit field and its width, from the control word. -/
def bfPos (y : Word) : Nat := y.toNat % 32
def bfLen (y : Word) : Nat := min (bfPos y + y.toNat / 256 % 64) 32 - bfPos y
/-- R79: the field of x, zero- or sign-extended. -/
def bfeN (x y : Word) : Word := BitVec.ofNat 32 (x.toNat / 2 ^ bfPos y % 2 ^ bfLen y)
def bfeI (x y : Word) : Word :=
  let n := bfLen y
  if n = 0 then 0
  else
    let v := x.toNat / 2 ^ bfPos y % 2 ^ n
    BitVec.ofInt 32 (if v / 2 ^ (n - 1) % 2 = 1 then (v : Int) - 2 ^ n else v)
/-- R79: x inserted into d. -/
def bfi (x y d : Word) : Word :=
  let p := bfPos y
  let n := bfLen y
  let m := BitVec.ofNat 32 ((2 ^ n - 1) * 2 ^ p)
  (d &&& ~~~m) ||| (BitVec.ofNat 32 (x.toNat % 2 ^ n * 2 ^ p) &&& m)

/-- R126: VPERMB. -/
def permb (x y : Word) : Word :=
  let byte (j : Nat) : Nat :=
    let sel := y.toNat / 256 ^ j % 256
    let src := x.toNat / 256 ^ (sel % 4) % 256
    if sel / 128 = 1 then 0 else if sel / 64 % 2 = 1 then (if src / 128 = 1 then 255 else 0) else src
  BitVec.ofNat 32 (byte 0 + byte 1 * 256 + byte 2 * 65536 + byte 3 * 16777216)

/-- R124, R33: the immediate of an SI or VI unit. -/
def immWord (i : BitVec 9) (l : Option (BitVec 24)) : Word :=
  match l with
  | none => i.signExtend 32
  | some x => BitVec.ofNat 32 (x.toNat * 512 + i.toNat)

end Sys2Proof.Machine
end

