-- ==== Sys2Proof/Machine/Operands.lean ====
section
/-! DEFINITION. Operand forms: scalar sources and results, vector sources after routing (R108 to R115), result shapes
(R122), writes of vector registers and predicates with their latencies (R59, R60, R69), and the sizes of units (R28). -/

namespace Sys2Proof.Machine

/-- R28: bytes of a 32-bit unit with its prefixes. -/
def len3 (l : Option (BitVec 24)) (r : Option Route) (q : Option MQ) : Nat :=
  4 + (if l.isSome then 4 else 0) + (if r.isSome then 4 else 0) + (if q.isSome then 4 else 0)
def lenL (l : Option (BitVec 24)) : Nat := len3 l none none
def lenR (r : Option Route) : Nat := len3 none r none
def lenM (q : Option MQ) : Nat := len3 none none q
def lenRM (r : Option Route) (q : Option MQ) : Nat := len3 none r q

/-- R69: latencies in core clocks. -/
def latScalar : Nat := 2
def latVector : Nat := 4
def latCross : Nat := 4

/-! ### Scalar registers -/

/-- R381: a scalar source consumed by the unit. -/
def State.useS (s : State) (r : Nat) : Bool := s.g.rdSP s.clock r
/-- A pair of scalars as a number. -/
def Group.rdPair (g : Group) (now r : Nat) : Nat := (g.rdS now r).toNat + (g.rdS now (r + 1)).toNat * 2 ^ 32
/-- Marks of a run of n scalars. -/
def Group.anySP (g : Group) (now r n : Nat) : Bool := (List.range n).any fun i => g.rdSP now (r + i)
/-- The references of a run of n scalars. -/
def sRefs (r n : Nat) : List Ref := (List.range n).map fun i => .s (r + i)

/-- R69: writes a scalar result that is ready after a latency. -/
def Group.setS (g : Group) (clock lat r : Nat) (x : Word) (pz : Bool) : Group := (g.produce (.s r) (clock + lat)).writeS r x pz
/-- R69: writes SCC, ready after a latency. -/
def Group.setScc (g : Group) (clock lat : Nat) (b : Bool) : Group := (g.produce .scc (clock + lat)).writeScc b
/-- R69: writes a predicate's bits in the lanes m, ready after a latency. -/
def Group.setP (g : Group) (clock lat r : Nat) (m bits : Mask) : Group := (g.produceIn (.p r) (clock + lat) m).writeP r m bits

/-- A unit's scalar result; a poisoned word written to e0, e1 or e2 is consumed (R381). -/
def putScalar (lat r : Nat) (x : Word) (pz : Bool) : M Unit := fun s =>
  if pz && isMaskReg r then .error (.consumed 0) (s.mg (·.ck 0))
  else .ok () (s.mg fun g => (if pz then g.ck 0 else g).setS s.clock lat r x pz)
/-- A unit's SCC. -/
def putScc (lat : Nat) (b : Bool) : M Unit := fun s => .ok () (s.mg fun g => g.setScc s.clock lat b)

/-! ### Routing (R108 to R115) -/

/-- A vector source as the unit sees it: the values, the lanes whose word is poisoned, the latency its route adds. -/
structure Opd where
  val : VOp
  pz : Mask
  lat : Nat
  deriving DecidableEq, Repr

/-- R57, R108: Read(v, p). -/
def Group.readLane (g : Group) (now v p : Nat) : Word := if 96 ≤ p ∨ !g.present.getLsbD p then 0 else (g.rdV now v).lane p
/-- The mark of the word Read gives. -/
def Group.readPz (g : Group) (now v p : Nat) : Bool :=
  decide (p < 96) && g.present.getLsbD p && (g.rdV now v).poison.getLsbD p

/-- R108: what lane l reads under PERM: register and lane; none reads 0. -/
def Group.permAt (g : Group) (now v idx l : Nat) : Option (Nat × Nat) :=
  let x := ((g.rdV now idx).lane l).toNat
  let o := x / 128 % 8
  if 63 < v + o then none else some (v + o, x % 128)

/-- R114: a source whose lanes read partner lanes. -/
def Group.partner (g : Group) (now v lat : Nat) (part : Nat → Nat) : Opd :=
  let x := g.rdV now v
  let pz := maskOf fun l => g.readPz now v (part l)
  match x.val.op with
  | .uniform w =>
    if lanes.all fun l => !g.present.getLsbD l || (decide (part l < 96) && g.present.getLsbD (part l)) then ⟨.uniform w, pz, 0⟩
    else ⟨.general (lanes.map fun l => g.readLane now v (part l)), pz, 0⟩
  | _ => ⟨.general (lanes.map fun l => g.readLane now v (part l)), pz, lat⟩

/-- R108, R114, R115: a vector source under a route field. -/
def Group.opd (g : Group) (now v : Nat) (f : BitVec 9) : Opd :=
  let arg := f.toNat % 128
  match f.toNat / 128 with
  | 0 => ⟨(g.rdV now v).val.op, (g.rdV now v).poison, 0⟩
  | 1 => g.partner now v 2 fun l => (l + arg) % 96
  | 2 =>
    ⟨.uniform (g.readLane now v arg), if g.readPz now v arg then BitVec.allOnes 96 else 0,
      match (g.rdV now v).val.op with | .uniform _ => 0 | _ => 1⟩
  | _ =>
    if arg < 64 then g.partner now v (if arg < 32 then 1 else 2) fun l => l ^^^ arg
    else
      let idx := arg - 64
      ⟨.general (lanes.map fun l => match g.permAt now v idx l with | some (r, p) => g.readLane now r p | none => 0),
        maskOf fun l => (g.rdV now idx).poison.getLsbD l ||
          (match g.permAt now v idx l with | some (r, p) => g.readPz now r p | none => false), 3⟩

/-- R69, R113: the registers a vector source reads under a route field; of a PERM window those an active lane's index selects (DESIGN CHOICE, log
entry 59). -/
def Group.opdRefs (g : Group) (now v : Nat) (f : BitVec 9) : List Ref :=
  if f.toNat / 64 = 7 then
    let idx := f.toNat % 64
    .v idx :: ((List.range 8).filter fun o => decide (v + o ≤ 63) &&
      (lanesOf (g.rdMask now)).any fun l => (((g.rdV now idx).lane l).toNat / 128 % 8) == o).map fun o => Ref.v (v + o)
  else [.v v]

/-- The route fields of a unit. -/
def rtA (r : Option Route) : BitVec 9 := match r with | some x => x.a | none => 0
def rtB (r : Option Route) : BitVec 9 := match r with | some x => x.b | none => 0

/-- R122: a scalar or an immediate as an operand. -/
def scalarOpd (x : Word) (pz : Bool) : Opd := ⟨.uniform x, if pz then BitVec.allOnes 96 else 0, 0⟩
/-- Register d as a third source, never routed (R119). -/
def Group.third (g : Group) (now d : Nat) : Opd := g.opd now d 0

/-! ### Result shapes (R122) -/

/-- A uniform operand as an affine one. -/
def VOp.affine? : VOp → Option (Word × Word)
  | .uniform x => some (x, 0)
  | .affine b d => some (b, d)
  | .general _ => none
/-- The operand is uniform. -/
def VOp.isUniform : VOp → Bool
  | .uniform _ => true
  | _ => false

/-- R122: the rows that give an affine result: at least one operand affine, none general. In these rows and the next two, operands that are all
uniform are left to the row for them (DEDUCED, log entry 64). -/
def affAdd : List VOp → Option VOp
  | [.uniform _, .uniform _] => none
  | [a, b] => match a.affine?, b.affine? with
    | some (x, d), some (y, e) => some (.affine (x + y) (d + e))
    | _, _ => none
  | _ => none
def affSub : List VOp → Option VOp
  | [.uniform _, .uniform _] => none
  | [a, b] => match a.affine?, b.affine? with
    | some (x, d), some (y, e) => some (.affine (x - y) (d - e))
    | _, _ => none
  | _ => none
def affMul : List VOp → Option VOp
  | [.affine x d, .uniform u] => some (.affine (x * u) (d * u))
  | [.uniform u, .affine x d] => some (.affine (x * u) (d * u))
  | _ => none
def affShl : List VOp → Option VOp
  | [.affine x d, .uniform u] => if u.toNat % 64 < 32 then some (.affine (shl x u) (shl d u)) else none
  | _ => none
/-- VMAD.S: a, the scalar, d. -/
def affMad : List VOp → Option VOp
  | [.uniform _, .uniform _, .uniform _] => none
  | [a, .uniform s, d] => match a.affine?, d.affine? with
    | some (x, e), some (y, f) => some (.affine (x * s + y) (e * s + f))
    | _, _ => none
  | _ => none
/-- No affine row. -/
def affNone : List VOp → Option VOp := fun _ => none
/-- VMOV keeps the operand's shape. -/
def affCopy : List VOp → Option VOp
  | [a] => some a
  | _ => none

/-! ### Vector results -/

/-- One register a unit writes. -/
structure VWrite where
  r : Nat
  val : VOp
  pz : Mask
  deriving DecidableEq, Repr

/-- R59, R60, R69: writes the registers of a unit in the lanes m; the error is the register that finds no free slot. -/
def Group.commitV (g : Group) (ready : Nat) (m : Mask) : List VWrite → Except Nat Group
  | [] => .ok g
  | w :: ws =>
    match (g.produceIn (.v w.r) ready m).writeV w.r m w.val w.pz with
    | some h => h.commitV ready m ws
    | none => .error w.r

/-- A unit's vector results: all of them, or the shape-overflow trap. -/
def putVectors (lat : Nat) (m : Mask) (ws : List VWrite) : M Unit := fun s =>
  match s.g.commitV (s.clock + lat) m ws with
  | .ok h => .ok () { s with g := h }
  | .error r => .error (.trap 8 r 127 0) s

/-- One value per lane with the flags it sets. -/
def eachLane (m : Mask) (uni : Bool) (f : Nat → FRes) : VOp × Bool × Bool :=
  if uni then
    let r := f (lowestLane m)
    (.uniform (BitVec.ofNat 32 r.bits), r.ovf, r.sat)
  else
    let rs := lanes.map fun l => if m.getLsbD l then f l else .ok 0
    (.general (rs.map fun r => BitVec.ofNat 32 r.bits), rs.any (·.ovf), rs.any (·.sat))

/-- What a lane operation is: its class and latency, its affine row (R122), its result in a lane from the words of its
operands, and, for a float result, the NaN a poisoned operand gives (R121). -/
structure LaneOp where
  cls : Cls := .vec
  lat : Nat := 4
  aff : List VOp → Option VOp := affNone
  f : List Word → FRes
  nan : Option Nat := none

/-- R119, R122, R381: computes a lane operation on its operands: the values, the poisoned lanes, the flags (DEDUCED, log entry 26). -/
def LaneOp.result (op : LaneOp) (m : Mask) (os : List Opd) : VOp × Mask × Bool × Bool :=
  let pz := (os.foldl (fun p o => p ||| o.pz) 0) &&& m
  match op.aff (os.map (·.val)) with
  | some v => (v, pz, false, false)
  | none =>
    let uni := os.all fun o => o.val.isUniform
    match op.nan with
    | none =>
      let r := eachLane m uni fun l => op.f (os.map fun o => o.val.lane l)
      (r.1, pz, r.2.1, r.2.2)
    | some n =>
      let r := eachLane m (uni && (pz = 0 || pz = m)) fun l => if pz.getLsbD l then .ok n else op.f (os.map fun o => o.val.lane l)
      (r.1, 0, r.2.1, r.2.2)

/-- The body of a lane operation with one destination. -/
def LaneOp.body (op : LaneOp) (d : Nat) (os : Group → Nat → List Opd) : M Unit := fun s =>
  let now := s.clock
  let m := s.g.rdMask now
  let xs := os s.g now
  let r := op.result m xs
  let pz := (xs.foldl (fun p o => p ||| o.pz) 0) &&& m
  match s.g.commitV (now + op.lat + (xs.map (·.lat)).sum) m [⟨d, r.1, r.2.1⟩] with
  | .ok h => .ok () { s with g := (if pz = 0 then h else h.ck 0).raiseFlags r.2.2.1 r.2.2.2 }
  | .error k => .error (.trap 8 k 127 0) s

/-- A lane operation as a unit: its operands, the registers it reads. -/
def LaneOp.run (op : LaneOp) (st len d : Nat) (refs : Group → Nat → List Ref) (os : Group → Nat → List Opd) (s : State) : Out :=
  .next (vunit op.cls st len (refs s.g s.clock) (op.body d os) s)

/-- Stall count of a 16-bit word (R20). -/
def stall16 (o : H16) : Nat := if o.st = 1 then 3 else 0

/-- %fmt is read implicitly by float arithmetic (R69). -/
def fmtRefs (fl : Bool) : List Ref := if fl then [.spr 1] else []

/-- R119: a V3 unit: a and b. -/
def LaneOp.ab (op : LaneOp) (fl : Bool) (o : RDAB) (s : State) : Out :=
  op.run o.st.toNat (lenR o.rt) o.d.toNat
    (fun g now => g.opdRefs now o.a.toNat (rtA o.rt) ++ g.opdRefs now o.b.toNat (rtB o.rt) ++ fmtRefs fl)
    (fun g now => [g.opd now o.a.toNat (rtA o.rt), g.opd now o.b.toNat (rtB o.rt)]) s
/-- A V3 unit that reads d as its third source. -/
def LaneOp.abd (op : LaneOp) (fl : Bool) (o : RDAB) (s : State) : Out :=
  op.run o.st.toNat (lenR o.rt) o.d.toNat
    (fun g now => g.opdRefs now o.a.toNat (rtA o.rt) ++ g.opdRefs now o.b.toNat (rtB o.rt) ++ [.v o.d.toNat] ++ fmtRefs fl)
    (fun g now => [g.opd now o.a.toNat (rtA o.rt), g.opd now o.b.toNat (rtB o.rt), g.third now o.d.toNat]) s
/-- A unary V3 unit. -/
def LaneOp.un (op : LaneOp) (fl : Bool) (o : RDA) (s : State) : Out :=
  op.run o.st.toNat (lenR o.rt) o.d.toNat (fun g now => g.opdRefs now o.a.toNat (rtA o.rt) ++ fmtRefs fl)
    (fun g now => [g.opd now o.a.toNat (rtA o.rt)]) s
/-- R19: a 16-bit unit: d is the destination and the first source. -/
def LaneOp.h16 (op : LaneOp) (fl : Bool) (o : H16) (s : State) : Out :=
  op.run (stall16 o) 2 o.d.toNat (fun _ _ => [.v o.d.toNat, .v o.b.toNat] ++ fmtRefs fl)
    (fun g now => [g.opd now o.d.toNat 0, g.opd now o.b.toNat 0]) s
/-- R124: a VI unit. -/
def LaneOp.imm (op : LaneOp) (o : VDAI) (s : State) : Out :=
  op.run o.st.toNat (len3 o.limm o.rt none) o.d.toNat (fun g now => g.opdRefs now o.a.toNat (rtA o.rt))
    (fun g now => [g.opd now o.a.toNat (rtA o.rt), scalarOpd (immWord o.i o.limm) false]) s
/-- R125, R134: a VS unit: b is a scalar. -/
def LaneOp.vs (op : LaneOp) (fl : Bool) (o : RDAB) (s : State) : Out :=
  op.run o.st.toNat (lenR o.rt) o.d.toNat
    (fun g now => g.opdRefs now o.a.toNat (rtA o.rt) ++ [.s o.b.toNat] ++ fmtRefs fl)
    (fun g now => [g.opd now o.a.toNat (rtA o.rt), scalarOpd (g.rdS now o.b.toNat) (g.rdSP now o.b.toNat)]) s
/-- A VS unit that reads d as its third source. -/
def LaneOp.vsd (op : LaneOp) (fl : Bool) (o : RDAB) (s : State) : Out :=
  op.run o.st.toNat (lenR o.rt) o.d.toNat
    (fun g now => g.opdRefs now o.a.toNat (rtA o.rt) ++ [.s o.b.toNat, .v o.d.toNat] ++ fmtRefs fl)
    (fun g now => [g.opd now o.a.toNat (rtA o.rt), scalarOpd (g.rdS now o.b.toNat) (g.rdSP now o.b.toNat),
      g.third now o.d.toNat]) s

/-! ### Predicate results -/

/-- R127, R136, R381: a compare of two operands into a predicate: a poisoned operand of an active lane is consumed. -/
def compareBody (d : Nat) (a b : Opd) (f : Word → Word → Bool) : M Unit := fun s =>
  let now := s.clock
  let m := s.g.rdMask now
  if (a.pz ||| b.pz) &&& m != 0 then .error (.consumed 0) (s.mg (·.ck 0))
  else
    let bits := maskOf fun l => m.getLsbD l && f (a.val.lane l) (b.val.lane l)
    .ok () (s.mg fun g => g.setP now (4 + a.lat + b.lat) d m bits)

/-- A two-operand function on words as a lane result. -/
def fn2 (f : Word → Word → Word) : List Word → FRes
  | [x, y] => .ok (f x y).toNat
  | _ => .ok 0
/-- A one-operand function. -/
def fn1 (f : Word → Word) : List Word → FRes
  | [x] => .ok (f x).toNat
  | _ => .ok 0
/-- A three-operand function. -/
def fn3 (f : Word → Word → Word → Word) : List Word → FRes
  | [x, y, z] => .ok (f x y z).toNat
  | _ => .ok 0

end Sys2Proof.Machine
end

