-- ==== Sys2Proof/Machine/Sched.lean ====
section
/-! DEFINITION. Which group issues next: readiness (R65, R66, R69, R99), the active and the pending set, swaps, and the
passing of one core clock. -/

namespace Sys2Proof.Machine

/-- R292, R297: the generation of a sync word (DEDUCED, log entry 38). -/
def State.syncGen (s : State) (key : Nat) : Nat := s.memRead (key + 6) 2

/-- What a group waits for holds. -/
def State.waitDone (s : State) (g : Group) : Bool :=
  match g.wait with
  | .ready => true
  | .rerun => true
  | .sleep t => decide (t ≤ s.clock)
  | .counts ld st mx en tm => s.countsOk g ld st mx en tm false
  | .limits ld st mx en tm arr => s.countsOk g ld st mx en tm arr
  | .sync key gen => s.syncGen key != gen
  | .fence l st v => g.fenceOk s.clock l st v
  | .order d => g.orderOk d
  | .posted => s.zlr.isEmpty
  | _ => false
/-- The group can issue its next unit now; one that is stopped still ends the TFAIL it has begun (R73). -/
def State.ready (s : State) (g : Group) : Bool := (!g.stopped || g.wait == .rerun) && s.waitDone g && decide (g.notBefore ≤ s.clock)

/-- R338: the unit is a TUNIFY. -/
def TermUnit.isUnify (u : TermUnit) : Bool := match u.kind with
  | .unify _ => true
  | _ => false
/-- R66: the group is at a long-latency dependence: it waits at a WAIT, at a queued LLOCK (its home has given it a node), at a sync word or
for a page, or a TUNIFY of it has run for 32 core clocks. -/
def State.longWait (s : State) (g : Group) : Bool :=
  (match g.wait with
   | .counts _ _ _ _ _ => !s.waitDone g
   | .lock _ _ _ => (s.awaits g.id).isSome
   | .sync _ _ => !s.waitDone g
   | .page _ _ _ _ => true
   | _ => false)
  || s.termQ.any fun u => u.grp == g.id && u.isUnify && decide (u.since + 32 ≤ s.clock)

/-- The group stands on a quarter. -/
def Group.onQuarter (g : Group) (core quarter : Nat) : Bool := g.core == core && g.quarter == quarter
/-- The group is resident and has not ended. -/
def Group.running (g : Group) : Bool := match g.wait with
  | .ended => false
  | _ => !g.saved
/-- Groups stand by age, oldest first. -/
def insertByAge (g : Group) : List Group → List Group
  | [] => [g]
  | h :: r => if g.age < h.age then g :: h :: r else h :: insertByAge g r

/-- Every group, oldest first. -/
def State.byAge (s : State) : List Group := insertByAge s.g s.others
/-- R65: the active groups of a quarter. -/
def State.activeOn (s : State) (core quarter : Nat) : List Group :=
  s.byAge.filter fun g => g.onQuarter core quarter && g.active && g.running
/-- R66, R99: the pending groups of a quarter that are ready, oldest first. -/
def State.pendingReady (s : State) (core quarter : Nat) : List Group :=
  s.byAge.filter fun g => g.onQuarter core quarter && !g.active && g.running && s.ready g
/-- R66: the quarter has started its swap of this clock. -/
def State.swapped (s : State) (core quarter : Nat) : Bool := s.swaps.contains (core, quarter)

/-- R66: moves one group out of the active set and another in; the swap takes two core clocks (DEDUCED, log entry 52). -/
def State.swapActive (s : State) (core quarter out in_ : Nat) : State :=
  { s.mapGroups fun g =>
      if g.id = out then { g with active := false, readySince := s.clock }
      else if g.id = in_ then { g with active := true, notBefore := max g.notBefore (s.clock + 2) } else g
    with swaps := (core, quarter) :: s.swaps }

/-- The quarters on which groups stand. -/
def State.quarters (s : State) : List (Nat × Nat) :=
  (s.groups.filter Group.running).foldl (fun qs g => if qs.contains (g.core, g.quarter) then qs else qs ++ [(g.core, g.quarter)]) []

/-- R66: the 256-clock rule: a pending group that has been ready so long replaces the youngest active group that is not
ready, or the youngest. -/
def State.replacePending (s : State) (core quarter : Nat) : State :=
  if s.swapped core quarter then s
  else
  match (s.pendingReady core quarter).find? fun g => decide (g.readySince + 256 ≤ s.clock) with
  | none => s
  | some p =>
    let act := (s.activeOn core quarter).reverse
    match act.find? fun g => !s.ready g with
    | some a => s.swapActive core quarter a.id p.id
    | none => match act with
      | a :: _ => s.swapActive core quarter a.id p.id
      | [] => s.updGroup p.id fun g => { g with active := true }

/-- R66: a quarter's swap of a clock: the oldest ready pending group takes a free place of the active set, or the place of a
group at a long-latency dependence; otherwise the 256-clock rule applies (DEDUCED, log entry 52). -/
def State.refill (s : State) (core quarter : Nat) : State :=
  match s.pendingReady core quarter with
  | [] => s
  | p :: _ =>
    let act := s.activeOn core quarter
    if act.length < 8 then s.updGroup p.id fun g => { g with active := true }
    else if s.swapped core quarter then s
    else
      match act.find? s.longWait with
      | some a => s.swapActive core quarter a.id p.id
      | none => s.replacePending core quarter

/-- The group of a number comes to issue; the one before it goes back among the others, unless it has ended with its
workgroup. -/
def State.focus (s : State) (id : Nat) : State :=
  if s.g.id = id then s
  else
    match s.others.find? fun g => g.id == id with
    | none => s
    | some k =>
      let rest := s.others.filter fun g => g.id != id
      let gone := s.g.wait == .ended && !((s.wg? s.g.wg).map (·.live)).getD false
      { s with g := k, others := if gone then rest else insertByAge s.g rest }

/-- The groups that can issue in this clock, oldest first. -/
def State.issuable (s : State) : List Group :=
  s.byAge.filter fun g => g.active && s.ready g

/-- The group whose turn the model's schedule names, when it can issue. -/
def State.takeTurn (s : State) : Option State :=
  match s.turns with
  | [] => none
  | id :: r =>
    let t := { s with turns := r }
    match t.group? id with
    | some g => if g.active && t.ready g then some (t.focus id) else none
    | none => none

/-- One core clock passes: results that have become ready are what every consumer sees. -/
def State.tick (s : State) : State :=
  let now := s.clock + 1
  { s with clock := now, swaps := [],
           g := { s.g with inflight := s.g.inflight.filter fun e => decide (now < e.ready) },
           others := if s.others.all fun g => g.active || !g.running then s.others
             else s.others.map fun g => if !g.active && g.running && !s.ready g then { g with readySince := now } else g }

end Sys2Proof.Machine
end

