-- ==== Sys2Proof/Machine/MemAccess.lean ====
section
/-! DEFINITION. Loads, stores, page requests, prefetch and cache maintenance (R169 to R179), and what every memory unit
shares: base and offset operands, the checks of every lane, slots taken at issue, and the pending entry (R60, R71). -/

namespace Sys2Proof.Machine

/-- R35, R36, R167: the L1 and slice policies of a unit. -/
def lpol (q : Option MQ) : Nat := match q with | some m => m.l1.toNat | none => 0
def spol (q : Option MQ) : Nat := match q with | some m => m.slice.toNat | none => 0

/-- R175, R230: the group's own earlier element operations are performed before its next memory unit. -/
def settleOwn : M Unit := modify State.performAll

/-- R169, R381: the base pair; a poisoned word of it is consumed. -/
def basePair (a : Nat) : M Nat := fun s =>
  if s.g.anySP s.clock a 2 then .error (.consumed 0) (s.mg (·.ck 0)) else .ok (s.g.rdPair s.clock a) s

/-- R169: base plus a signed 32-bit offset, modulo 2^64. -/
def offAddr (base : Nat) (w : Word) : Nat := (BitVec.ofNat 64 base + w.signExtend 64).toNat

/-- R169, R381: the offsets of the active lanes; a poisoned one is consumed. -/
def laneOffsets (b : Nat) (f : BitVec 9) : M (Nat → Word) := fun s =>
  let o := s.g.opd s.clock b f
  if o.pz &&& s.g.rdMask s.clock != 0 then .error (.consumed 0) (s.mg (·.ck 0)) else .ok o.val.lane s

/-- The outcome of a lane's check for a unit that goes on. -/
inductive LaneChk where
  | at (l : Loc)
  /-- a helper lane whose address fails a check (R170) -/
  | zero
  /-- a non-resident page, for the forms that report it -/
  | nonres (page : Nat)
  deriving DecidableEq, Repr

/-- R56: the lane is a helper. -/
def Group.helper (g : Group) (l : Nat) : Bool := g.helpers.getLsbD l

/-- R170: checks one lane's access. -/
def checkLane (n align : Nat) (p : Perm) (nr : Bool) (x : Nat × Nat) : M (Nat × LaneChk) := fun s =>
  match s.checkAccess s.g x.1 x.2 n align p with
  | (.ok l, t) => .ok (x.1, .at l) t
  | (.trap c, t) => if s.g.helper x.1 then .ok (x.1, .zero) t else .error (.trap c 0 x.1 x.2) t
  | (.nonres page, t) =>
    if nr then .ok (x.1, .nonres page) t
    else if s.g.helper x.1 then .ok (x.1, .zero) t
    else .error (.page page (p == .w) x.1 x.2) t
  | (.busy, t) => .error (.hold (t.clock + 1)) t
  | (.poison, t) => if s.g.helper x.1 then .ok (x.1, .zero) t else .error (.consumed 0) (t.mg (·.ck 1))

/-- R176: checks the one access of a scalar unit, relocated through lane slot 0; no lane is concerned (DEDUCED, log entry 13). -/
def checkScalar (n : Nat) (p : Perm) (a : Nat) : M Loc := fun s =>
  match s.checkAccess s.g 0 a n n p with
  | (.ok l, t) => .ok l t
  | (.trap c, t) => .error (.trap c 0 127 a) t
  | (.nonres page, t) => .error (.page page (p == .w) 127 a) t
  | (.busy, t) => .error (.hold (t.clock + 1)) t
  | (.poison, t) => .error (.consumed 0) (t.mg (·.ck 1))

/-- R251: checks LAUNCH's load of 128 bytes as one access: the places of its two halves, which stand on two pages at most. By R170 the
protection of both comes before the residency of either. -/
def checkPacket (a : Nat) : M (Loc × Loc) := fun s =>
  let (lo, t) := s.checkAccess s.g 0 a 128 64 .rd
  let (hi, u) : Chk × State := match lo with
    | .trap c => (Chk.trap c, t)
    | .busy => (.busy, t)
    | .poison => (.poison, t)
    | .ok l =>
      if apertureOf a = some Aperture.global then t.checkGlobal t.g.core t.g.ctx t.g.root t.g.priv (a + 64) .rd else (.ok (l.plus 64), t)
    | .nonres _ => t.checkGlobal t.g.core t.g.ctx t.g.root t.g.priv (a + 64) .rd
  match lo, hi with
  | _, .trap c => .error (.trap c 0 127 a) u
  | _, .busy => .error (.hold (u.clock + 1)) u
  | _, .poison => .error (.consumed 0) (u.mg (·.ck 1))
  | .nonres page, _ => .error (.page page false 127 a) u
  | _, .nonres page => .error (.page page false 127 a) u
  | .ok l, .ok h => .ok (l, h) u
  | _, _ => .error (.trap 3 0 127 a) u

/-- R174, R56: the active lanes that are no helpers. -/
def Group.storing (g : Group) (now : Nat) : List Nat := lanesOf (g.rdMask now &&& ~~~g.helpers)

/-! ### Results that arrive later (R60, R71) -/

/-- R60: the lanes of a register that counted results still owe. -/
def Group.owedLanes (g : Group) (r : Nat) : Mask :=
  g.pend.foldl (fun m p => p.writes.foldl (fun k w => match w with
    | .vec q x _ _ _ _ => if q = r then k ||| x else k
    | _ => k) m) 0
/-- R60: a counted scalar result is owed. -/
def Group.owedScalar (g : Group) (r : Nat) : Bool :=
  g.pend.any fun p => p.writes.any fun w => match w with | .sreg q _ _ _ => q == r | _ => false
/-- R60: predicate lanes owed. -/
def Group.owedPred (g : Group) (r : Nat) : Mask :=
  g.pend.foldl (fun m p => p.writes.foldl (fun k w => match w with
    | .pred q x _ _ => if q = r then k ||| x else k
    | _ => k) m) 0

/-- R60: takes the slots the registers need at issue, in order; the error is the register that finds none. -/
def Group.takeSlots (g : Group) : List Nat → Except Nat Group
  | [] => .ok g
  | r :: rs => match g.takeSlot r with
    | some h => h.takeSlots rs
    | none => .error r

/-- R60: the slots a unit's destinations need, or the shape-overflow trap. -/
def claimSlots (rs : List Nat) : M Unit := fun s =>
  match s.g.takeSlots rs with
  | .ok g => .ok () { s with g := g }
  | .error r => .error (.trap 8 r 127 0) s

/-- A counted unit joins those in flight; its writes race with earlier results owed to the same registers (R60). -/
def Group.join (g : Group) (p : Pending) : Group :=
  let ws := p.writes.map fun w => match w with
    | .vec r m x z u _ => RegWrite.vec r m x z u (g.owedLanes r &&& m)
    | .sreg r x z _ => RegWrite.sreg r x z (g.owedScalar r)
    | .pred r m b _ => RegWrite.pred r m b (g.owedPred r &&& m)
    | w => w
  let h := p.writes.foldl (fun k w => match w with
    | .vec r m _ _ _ _ => (k.race (RegWrite.raceV r m)).touchRun r
    | .sreg r _ _ _ => k.race (RegWrite.raceS r)
    | .pred r m _ _ => k.race (RegWrite.raceP r m)
    | _ => k) g
  h.addPend { p with writes := ws }
/-- A counted unit of the issuing group. -/
def post (p : Pending) : M Unit := modify fun s => s.mg fun g => g.join p

/-- A pending entry whose operation is done but for the counter. -/
def donePend (c : Ctr) (k : PendKind) (ws : List RegWrite) : Pending :=
  { ctr := c, kind := k, tag := 0, writes := ws, todo := [], dest := [], pages := [], peers := [], done := true }

/-- R411: the requests a load or store of peer memory has sent: one for each address, with the lanes it serves and its port. -/
def State.peersOf (s : State) (xs : List (Nat × Loc)) : List (Mask × Nat) :=
  ((xs.filter fun x => x.2.ty == 4).map fun x => x.2.key).eraseDups.filterMap fun k =>
    (s.route s.g.core (s.peerWin (bits k 40 8) % 2 ^ 20)).bind fun p =>
      if s.down.contains p then none else some (maskOf fun l => xs.any fun x => x.1 == l && x.2.key == k, p)

/-- The %ckint bits the results of reads set. -/
def readFlags (rs : List (Loc × Rd)) : List RegWrite :=
  let w := rs.foldl (fun (w : Word) r =>
    if r.2.hst then w ||| bitWord 5 else if r.2.pz then w ||| bitWord (poisonBit r.1) else w) 0
  if w = 0 then [] else [.ckint w]

/-! ### Loads (R171 to R173) -/

/-- R171: reads the lanes in ascending order; lanes at one address share one read. -/
def State.readLanes (s : State) (n lp sp : Nat) (xs : List (Nat × LaneChk)) : List (Nat × Loc × Rd) × State :=
  xs.foldl (fun (a : List (Nat × Loc × Rd) × State) x =>
    match x.2 with
    | .at l =>
      match a.1.find? fun y => y.2.1.key == l.key with
      | some y => (a.1 ++ [(x.1, l, y.2.2)], a.2)
      | none =>
        let r := a.2.readLoc s.g.core s.g.id l n lp sp
        (a.1 ++ [(x.1, l, r.1)], r.2)
    | _ => a) ([], s)

/-- R171: what a size code gives a lane of the bytes read. -/
def extendSize (z x : Nat) : Nat :=
  if z = 1 then ((BitVec.ofNat 8 x).signExtend 32).toNat
  else if z = 3 then ((BitVec.ofNat 16 x).signExtend 32).toNat
  else x

/-- The value a lane received. -/
def laneVal (rs : List (Nat × Loc × Rd)) (l : Nat) : Nat := ((rs.find? fun r => r.1 == l).map (·.2.2.val)).getD 0
/-- The lanes that received a poisoned word. -/
def lanePz (rs : List (Nat × Loc × Rd)) : Mask := rs.foldl (fun m r => if r.2.2.pz then m ||| BitVec.twoPow 96 r.1 else m) 0

/-- R171: the register writes of a load of k registers from d (DEDUCED, log entry 53). -/
def loadWrites (d k z : Nat) (m : Mask) (uni : Bool) (rs : List (Nat × Loc × Rd)) : List RegWrite :=
  (List.range k).map fun j =>
    .vec (d + j) m (lanes.map fun l => BitVec.ofNat 32 (extendSize z (laneVal rs l) / 2 ^ (32 * j))) (lanePz rs) uni 0

/-- R171: the bytes and registers of a size code. -/
def loadBytes (z : Nat) : Nat := match z with | 0 => 1 | 1 => 1 | 2 => 2 | 3 => 2 | 4 => 4 | 5 => 8 | 6 => 16 | _ => 4
def loadRegs (z : Nat) : Nat := match z with | 5 => 2 | 6 => 4 | _ => 1

/-- R15, R169, R170, R172: what is wrong with a 384-byte block as an access: its base misaligned or in no range, or an active lane's word in
no range, or in another range than the base's; the lowest such lane decides. Lines without an active lane's bytes are not looked at (DEDUCED, log entry 53). -/
def blockFault (base : Nat) (ls : List Nat) : Option Nat :=
  if base % 64 != 0 then some 2
  else match apertureOf base with
    | none => some 3
    | some ap => (ls.find? fun l => apertureOf ((base + 4 * l) % 2 ^ 64) != some ap).map fun l =>
        if apertureOf ((base + 4 * l) % 2 ^ 64) = none then 3 else 2

/-- R170: the lanes of a block that fails as a whole: the lowest that is no helper traps, and helpers read 0. -/
def failBlock (cause base : Nat) (ls : List Nat) : M (List (Nat × LaneChk)) := fun s =>
  match ls.find? fun l => !s.g.helper l with
  | some l => .error (.trap cause 0 l base) s
  | none => .ok (ls.map fun l => (l, .zero)) s

/-- R171, R173: a vector load from the addresses of the active lanes: align is what each must be a multiple of, nr the form
that reports non-resident pages in p7, line the form that reads one word per lane of a block. A lane of a block whose own word fails a check
reports that word's address, a block that fails as a whole its base; p7 of a helper lane whose check fails otherwise than by residency becomes 0
(DESIGN CHOICE, log entry 67). -/
def loadBody (d z : Nat) (q : Option MQ) (nr line : Bool) (addrs : M (Nat → Nat × Nat)) : M Unit := do
  awaitCtr .ld
  settleOwn
  let f ← addrs
  let s ← get
  let m := s.g.rdMask s.clock
  let ls := lanesOf m
  let xs ← match if line then blockFault (f 0).1 ls else none with
    | some c => failBlock c (f 0).1 ls
    | none => ls.mapM fun l => checkLane (loadBytes z) (loadBytes z) .rd nr (l, (f l).1 + (f l).2)
  let same := match ls with
    | [] => false
    -- in the stack aperture one address is a place of each lane's own (R164)
    | l :: _ => apertureOf ((f l).1 + (f l).2) != some .stack && ls.all fun k => (f k).1 + (f k).2 == (f l).1 + (f l).2
  let uni := !line && same && s.g.full m
  let regs := (List.range (loadRegs z)).map (d + ·)
  if !uni then claimSlots regs
  let t ← get
  let r := t.readLanes (loadBytes z) (lpol q) (spol q) xs
  set r.2
  let missing := maskOf fun l => xs.any fun x => x.1 == l && (match x.2 with | .nonres _ => true | _ => false)
  post { donePend .ld .load (loadWrites d (loadRegs z) z m uni r.1 ++ (if nr then [RegWrite.pred 7 m missing 0] else [])
    ++ readFlags (r.1.map (·.2))) with peers := t.peersOf (r.1.map fun x => (x.1, x.2.1)) }

/-- R169: base plus the routed offset of each lane. -/
def offsetAddrs (a b : Nat) (rt : Option Route) : M (Nat → Nat × Nat) := do
  let base ← basePair a
  let f ← laneOffsets b (rtB rt)
  return fun l => (offAddr base (f l), 0)
/-- R172: the block at a base: lane l's word lies 4l bytes in. -/
def blockAddrs (a off : Nat) : M (Nat → Nat × Nat) := do
  let base ← basePair a
  return fun l => ((base + off) % 2 ^ 64, 4 * l)
/-- R169: one address for every lane. -/
def fixedAddrs (a off : Nat) : M (Nat → Nat × Nat) := do
  let base ← basePair a
  return fun _ => ((base + off) % 2 ^ 64, 0)

/-- The registers a memory unit's address reads. -/
def memRefs (s : State) (a b : Nat) (rt : Option Route) : List Ref := sRefs a 2 ++ s.g.opdRefs s.clock b (rtB rt)

/-- R171: VLD. -/
def execVld (o : MV) (s : State) : Out :=
  .next (vunit .memv o.st.toNat (lenRM o.rt o.mq) (memRefs s o.a.toNat o.b.toNat o.rt)
    (loadBody o.d.toNat o.z.toNat o.mq false false (offsetAddrs o.a.toNat o.b.toNat o.rt)) s)
/-- R172: VLD.LINE. -/
def execVldLine (o : MRL) (s : State) : Out :=
  .next (vunit .memv o.st.toNat (lenRM o.rt o.mq) (sRefs o.a.toNat 2)
    (loadBody o.d.toNat 7 o.mq false true (blockAddrs o.a.toNat 0)) s)
/-- R171: VLDI; size 7 is the block at imm6 × 384. -/
def execVldi (o : MI) (s : State) : Out :=
  .next (vunit .memv o.st.toNat (lenM o.mq) (sRefs o.a.toNat 2)
    (if o.z = 7 then loadBody o.d.toNat 7 o.mq false true (blockAddrs o.a.toNat (o.i.toNat * 384))
     else loadBody o.d.toNat o.z.toNat o.mq false false (fixedAddrs o.a.toNat (o.i.toNat * loadBytes o.z.toNat))) s)
/-- R173: VLD.NR. -/
def execVldNr (o : MV) (s : State) : Out :=
  .next (vunit .memv o.st.toNat (lenRM o.rt o.mq) (memRefs s o.a.toNat o.b.toNat o.rt)
    (loadBody o.d.toNat o.z.toNat o.mq true false (offsetAddrs o.a.toNat o.b.toNat o.rt)) s)

/-! ### Stores (R174) -/

/-- R87, R373: a store through the stack aperture into the group's control area or region record. -/
def State.touchControl (s : State) (lane a : Nat) : State :=
  if apertureOf a = some .stack then
    let off := a - 0xFFF0000000000000
    if lane = 0 && decide (off < 0x480) then s.mg fun g => { g with retLost := g.retArea, reconLost := g.reconArea }
    else if lane = 1 && decide (off < 0x200) then s.mg fun g => { g with recTouched := true } else s
  else s

/-- R174, R175: stores the words of one lane at its place; sixteen bytes are two halves, each with its own mark. -/
def State.storeLane (s : State) (l : Loc) (n : Nat) (ws : List (Word × Bool)) (lp sp : Nat) : Bool × State :=
  let val (xs : List (Word × Bool)) : Nat := xs.foldr (fun w r => w.1.toNat + 2 ^ 32 * r) 0
  let pz (xs : List (Word × Bool)) : Bool := xs.any (·.2)
  if n = 16 then
    let r := s.writeLoc s.g.core s.g.id s.g.ctx l 8 (val (ws.take 2)) (pz (ws.take 2)) lp sp
    let q := r.2.writeLoc s.g.core s.g.id s.g.ctx { l with key := l.key + 8 } 8 (val (ws.drop 2)) (pz (ws.drop 2)) lp sp
    (r.1 || q.1, q.2)
  else s.writeLoc s.g.core s.g.id s.g.ctx l n (val ws % 2 ^ (8 * n)) (pz ws) lp sp

/-- R31: the order a unit's MQ names. -/
def ordOf (q : Option MQ) : Nat := match q with | some x => x.ord.toNat | none => 0

/-- R174: the bytes and registers of a store's size code. -/
def storeBytes (z : Nat) : Nat := 2 ^ z
def storeRegs (z : Nat) : Nat := match z with | 3 => 2 | 4 => 4 | _ => 1

/-- R174: stores the checked lanes in ascending order; the flag says that a link failed. Of lanes that name one uncached address every one is
performed, by R166 (DEDUCED, log entry 67). -/
def State.storeLanes (s : State) (n lp sp : Nat) (word : Nat → List (Word × Bool)) (xs : List (Nat × Nat × LaneChk)) : Bool × State :=
  xs.foldl (fun (a : Bool × State) x =>
    match x.2.2 with
    | .at l =>
      let r := (a.2.touchControl x.1 x.2.1).storeLane l n (word x.1) lp sp
      (a.1 || r.1, r.2)
    | _ => a) (false, s)

/-- R174: a vector store of registers from d. -/
def storeBody (d z : Nat) (q : Option MQ) (addrs : M (Nat → Nat × Nat)) : M Unit := do
  awaitCtr .st
  orderHold q
  loadHold
  settleOwn
  let f ← addrs
  let s ← get
  let ls := s.g.storing s.clock
  let n := storeBytes z
  let xs ← ls.mapM fun l => do
    let c ← checkLane n n .w false (l, (f l).1)
    return (l, (f l).1, c.2)
  let word (l : Nat) : List (Word × Bool) := (List.range (storeRegs z)).map fun j =>
    let v := s.g.rdV s.clock (d + j)
    (v.lane l, v.poison.getLsbD l)
  let t ← get
  let t := if ls.any fun l => (word l).any (·.2) then t.mg (·.ck 0) else t
  let r := t.storeLanes n (lpol q) (spol q) word xs
  set r.2
  post { donePend .st .store (if r.1 then [.ckint (bitWord 5)] else []) with
    peers := t.peersOf (xs.filterMap fun x => match x.2.2 with | .at l => some (x.1, l) | _ => none) }

/-- The data registers a store reads. -/
def dataRefs (d k : Nat) : List Ref := (List.range k).map fun j => .v (d + j)

/-- R174: VST. -/
def execVst (o : MV) (s : State) : Out :=
  .next (vunit .memv o.st.toNat (lenRM o.rt o.mq) (memRefs s o.a.toNat o.b.toNat o.rt ++ dataRefs o.d.toNat (storeRegs o.z.toNat))
    (storeBody o.d.toNat o.z.toNat o.mq (offsetAddrs o.a.toNat o.b.toNat o.rt)) s)
/-- R174: VSTI. -/
def execVsti (o : MI) (s : State) : Out :=
  .next (vunit .memv o.st.toNat (lenM o.mq) (sRefs o.a.toNat 2 ++ dataRefs o.d.toNat (storeRegs o.z.toNat))
    (storeBody o.d.toNat o.z.toNat o.mq (fixedAddrs o.a.toNat (o.i.toNat * storeBytes o.z.toNat))) s)

/-! ### Scalar loads and stores (R176) -/

/-- R176: base plus the signed scalar offset. -/
def scalarAddr (a b : Nat) : M Nat := do
  let base ← basePair a
  let s ← get
  consumeReg (s.useS b)
  return offAddr base (s.g.rdS s.clock b)

/-- R176: SLD; a poisoned word for e0, e1 or e2 is consumed when it arrives at the register. -/
def execSld (o : MS) (s : State) : Out :=
  .next (unit .mem o.st.toNat (lenM o.mq) (sRefs o.a.toNat 2 ++ [.s o.b.toNat]) (do
    awaitCtr .ld
    settleOwn
    let a ← scalarAddr o.a.toNat o.b.toNat
    let n := storeBytes o.z.toNat
    let l ← checkScalar n .rd a
    let t ← get
    let r := t.readLoc t.g.core t.g.id l n (lpol o.mq) (spol o.mq)
    set r.2
    let ws := (List.range (storeRegs o.z.toNat)).map fun j =>
      RegWrite.sreg (o.d.toNat + j) (BitVec.ofNat 32 (r.1.val / 2 ^ (32 * j))) r.1.pz false
    post { donePend .ld .load (ws ++ readFlags [(l, r.1)]) with peers := t.peersOf [(0, l)] }) s)

/-- R176: SST. -/
def execSst (o : MS) (s : State) : Out :=
  .next (unit .mem o.st.toNat (lenM o.mq) (sRefs o.a.toNat 2 ++ [.s o.b.toNat] ++ sRefs o.d.toNat (storeRegs o.z.toNat)) (do
    awaitCtr .st
    orderHold o.mq
    loadHold
    settleOwn
    let a ← scalarAddr o.a.toNat o.b.toNat
    let n := storeBytes o.z.toNat
    let l ← checkScalar n .w a
    let t ← get
    let ws := (List.range (storeRegs o.z.toNat)).map fun j =>
      (t.g.rdS t.clock (o.d.toNat + j), t.g.rdSP t.clock (o.d.toNat + j))
    let t := if ws.any (·.2) then t.mg (·.ck 0) else t
    let r := (t.touchControl 0 a).storeLane l n ws (lpol o.mq) (spol o.mq)
    set r.2
    post { donePend .st .store (if r.1 then [.ckint (bitWord 5)] else []) with peers := t.peersOf [(0, l)] }) s)

/-! ### Page requests and prefetch (R177, R178) -/

/-- R177: PAGEREQ. -/
def execPagereq (o : AB) (s : State) : Out :=
  .next (vunit .memv o.st.toNat 4 (sRefs o.a.toNat 2 ++ [.v o.b.toNat]) (do
    awaitCtr .ld
    let base ← basePair o.a.toNat
    let f ← laneOffsets o.b.toNat 0
    let t ← get
    let xs ← (lanesOf (t.g.rdMask t.clock)).mapM fun l => checkLane 1 1 .rd true (l, offAddr base (f l))
    let pages := (xs.filterMap fun x => match x.2 with | .nonres p => some p | _ => none).eraseDups
    let u ← get
    let r := pages.foldl (fun (a : List Nat × State) p =>
      let q := a.2.requestPage t.g.ctx p 0 (clusterOf t.g.core)
      (match q.1 with | some seq => a.1 ++ [seq] | none => a.1, q.2)) ([], u)
    set r.2
    post { donePend .ld .pageReq [] with pages := r.1, done := r.1.isEmpty }) s)

/-- R178: one lane's prefetch: ignored wherever the address would fault or is not cached (DESIGN CHOICE, log entry 39). -/
def State.prefetch (s : State) (a : Nat) : State :=
  if apertureOf a != some .global then s
  else
    match s.checkGlobal s.g.core s.g.ctx s.g.root s.g.priv a .rd with
    | (.ok l, t) =>
      if l.ty = 3 then (t.ownLine t.g.core t.g.id (lineOf l.key) 0).2
      else if l.ty < 3 then t.touch t.g.core t.g.id l 1 0 0 false
      else t
    | (_, t) => t

/-- R178: VPREF (DESIGN CHOICE, log entry 39). -/
def execVpref (o : AB) (s : State) : Out :=
  .next (vunit .memv o.st.toNat 4 (sRefs o.a.toNat 2 ++ [.v o.b.toNat]) (fun t =>
    let base := t.g.rdPair t.clock o.a.toNat
    let v := t.g.rdV t.clock o.b.toNat
    -- a poisoned address is consumed (R381)
    if t.g.anySP t.clock o.a.toNat 2 || v.poison &&& t.g.rdMask t.clock != 0 then .error (.consumed 0) (t.mg (·.ck 0))
    else .ok () ((lanesOf (t.g.rdMask t.clock)).foldl (fun u l => u.prefetch (offAddr base (v.lane l))) t)) s)

/-! ### Cache maintenance (R179) -/

/-- The 64-byte lines of a range of addresses. -/
def rangeLines (a n : Nat) : List Nat := if n = 0 then [] else (List.range ((a + n - 1) / 64 + 1 - a / 64)).map fun i => (a / 64 + i) * 64

/-- R179: translates a range page by page: the lines that can be acted on, or the trap. Cache lines are translated one by
one here, which is the same for pages of 64 KiB and more. -/
def rangeLocs (lines : List Nat) : M (List Loc) :=
  lines.filterMapM fun a => fun s =>
    match apertureOf (a % 2 ^ 64) with
    | none => .error (.trap 3 0 127 0) s
    | some .global =>
      match s.xlate s.g.core s.g.ctx s.g.root (a % 2 ^ 64) with
      | (.fault, t) => .error (.trap 3 0 127 0) t
      | (.busy, t) => .error (.hold (t.clock + 1)) t
      | (.poison, t) => .error (.consumed 0) (t.mg (·.ck 1))
      | (.leaf lf, t) =>
        if bit lf.pte 2 then
          let pa := ptePa lf.pte + (a % 2 ^ 64 - lf.va)
          let shared := pteCls lf.pte == 2
          .ok (some ⟨pa, pteType lf.pte, if shared then sharedSlice pa (pteType lf.pte) (pteOwner lf.pte) else pteOwner lf.pte, shared⟩) t
        else .ok none t
    | some _ => .ok none s

/-- R179: writes back a core's copy of a line of host non-coherent memory. -/
def State.cleanOwn (s : State) (core line : Nat) : State :=
  match s.l1Find core line with
  | some l => (s.l1WriteBack l).l1Clean core line
  | none => s

/-- R286: this core's haze line drains and is kept (CWB), or is returned (CINV, CFLUSH). -/
def State.ownHaze (s : State) (line : Nat) (give : Bool) : State :=
  if s.hazeNet.isEmpty && s.hazeHomes.isEmpty then s
  else
    let t := s.hazeFlush
    if give then (t.hazeReturn s.g.core line).hazeFlush else t.drainNow s.g.core line
/-- R179: every core's copy of a coherent line is clean; dirty bytes pass the memory-side cache on their way to memory. -/
def State.cleanLine (s : State) (line : Nat) : State :=
  let dirty := s.l1.any fun k => !k.haze && k.line == line && k.data.isEmpty && k.dirty != 0
  let t := { s with l1 := s.l1.map fun (k : L1Line) => if !k.haze && k.line == line && k.data.isEmpty then { k with dirty := 0 } else k }
  if dirty then t.mscTouch line else t
/-- R179, R404, R407: CWB on one line: bytes written to the host are posted writes of the group; while its link is down they are dropped. -/
def State.cwbLine (s : State) (l : Loc) : State :=
  let line := lineOf l.key
  if l.ty = 3 then
    if ((s.l1Find s.g.core line).map fun k => k.dirty != 0).getD false then
      if s.hostDown then (s.l1Clean s.g.core line).mg (·.ck 5)
      else { s.cleanOwn s.g.core line with zlr := insertNat s.g.id s.zlr }
    else s
  else if l.ty < 3 then (s.ownHaze line false).cleanLine line else s
/-- R179: CINV on one line. -/
def State.cinvLine (s : State) (l : Loc) : State :=
  let line := lineOf l.key
  if l.ty = 3 then s.l1Drop s.g.core line
  else if l.ty < 3 then
    let t := s.ownHaze line true
    let dirty := ((t.l1Find s.g.core line).map fun k => k.dirty != 0).getD false
    let u := t.l1Drop s.g.core line
    if dirty then (u.clearSharer s.g.core line).sliceTouch l.slice line 0 else u
  else s

/-- R179: a maintenance unit: every line of the range, after all have been translated. -/
def maintain (o : AB) (act : State → Loc → State) (s : State) : Out :=
  .next (unit .mem o.st.toNat 4 (sRefs o.a.toNat 2 ++ [.s o.b.toNat]) (do
    awaitCtr .st
    loadHold
    settleOwn
    let base ← basePair o.a.toNat
    let t ← get
    consumeReg (t.useS o.b.toNat)
    let ls ← rangeLocs (rangeLines base (t.g.rdS t.clock o.b.toNat).toNat)
    modify fun u => ls.foldl act u
    post (donePend .st .cache [])) s)

/-- R179: CINV. -/
def execCinv (o : AB) (s : State) : Out := maintain o State.cinvLine s
/-- R179: CWB. -/
def execCwb (o : AB) (s : State) : Out := maintain o State.cwbLine s
/-- R179: CFLUSH. -/
def execCflush (o : AB) (s : State) : Out := maintain o (fun t l => (t.cwbLine l).cinvLine l) s

end Sys2Proof.Machine
end

