-- ==== Sys2Proof/Machine/Atomics.lean ====
section
/-! DEFINITION. Atomics (R223 to R230): the vector and scalar units, their placement, and the events by which an element
operation is performed away from the issuing core. -/

namespace Sys2Proof.Machine

/-! ### What every atomic shares -/

/-- R208, R229, R230: where an element operation is performed. -/
def State.atomPlace (s : State) (l : Loc) (mq : Option MQ) : AtomPlace :=
  if l.ty = 3 then .host
  else if l.ty = 2 then .home
  else if l.ty = 4 then .peer
  else if l.ty = tyScratch then .near
  else
    match mq with
    | some m =>
      if m.place = 2 then .home
      else if m.place = 1 then .near
      else if l.shared && !s.autoNear (lineOf l.key) then .home else .near
    | none => if l.shared && !s.autoNear (lineOf l.key) then .home else .near

/-- R229: the type check that follows R170. -/
def atomTyped (op : AtomOp) (lane addr : Nat) (l : Loc) : M Unit :=
  if atomTypeOk l.ty op then pure () else throw (.trap 3 0 lane addr)

/-- R211, R410: two element operations of a core travel to one place: a home slice, the host's agent or a peer. -/
def ElemOp.samePath (a b : ElemOp) : Bool :=
  a.place != .near && a.place == b.place && (a.place != .home || a.loc.ty == 2 || a.loc.slice == b.loc.slice)
/-- R211: what other groups of the core have sent there before is performed first. -/
def State.sentBefore (s : State) (ops : List ElemOp) : State :=
  ((s.others.filter fun g => g.core == s.g.core && g.pend.any fun p => p.todo.any fun a => ops.any a.samePath).map (·.id)).foldl
    (fun t id => t.onGroup id State.performAll) s
/-- R211, R228: the element operations of a unit at issue: those at the issuing core are performed in lane order, the others
stay to be performed, in the order of issue. -/
def State.atomIssue (s : State) (p : Pending) (ops : List ElemOp) : Pending × State :=
  let s := if ops.all (·.place == .near) then s else s.sentBefore ops
  let r := ops.foldl (fun (a : Pending × State) o =>
    if o.place = .near then a.2.performOp s.g.core s.g.id s.g.ctx a.1 o
    else ({ a.1 with todo := a.1.todo ++ [o] }, a.2)) (p, s)
  ({ r.1 with done := r.1.todo.isEmpty }, r.2)

/-- The value of the registers from r on as bytes of an element: k words, the lowest-addressed first. -/
def wordsNat (ws : List Word) : Nat := ws.foldr (fun w n => w.toNat + 2 ^ 32 * n) 0

/-- R224, R226: a lane's operation with its operands; k is the element's length in registers. -/
def Group.atomOperands (g : Group) (now : Nat) (op : AtomOp) (d k l : Nat) : Nat × Nat × Bool :=
  let run (from_ : Nat) : List Word := (List.range k).map fun j => (g.rdV now (from_ + j)).lane l
  let pz (from_ n : Nat) : Bool := (List.range n).any fun j => (g.rdV now (from_ + j)).poison.getLsbD l
  if op = .cas then (wordsNat (run d), wordsNat (run (d + k)), pz d (2 * k)) else (0, wordsNat (run d), pz d k)

/-- The registers an atomic reads as data. -/
def atomRegs (op : AtomOp) (k : Nat) : Nat := if op = .cas then 2 * k else k

/-- R223 to R226: the body of a vector atomic on elements of n bytes. -/
def atomBody (op : AtomOp) (n d : Nat) (q : Option MQ) (addrs : M (Nat → Nat × Nat)) : M Unit := do
  awaitCtr .ld
  orderHold q
  loadHold
  settleOwn
  let f ← addrs
  let s ← get
  let ls := s.g.storing s.clock
  let k := max 1 (n / 4)
  let xs ← ls.mapM fun l => do
    let c ← checkLane n n .w false (l, (f l).1)
    match c.2 with
    | .at p => atomTyped op l (f l).1 p
    | _ => pure ()
    return (l, (f l).1, c.2)
  let regs := (List.range k).map (d + ·)
  if !ls.isEmpty then claimSlots regs
  let t ← get
  let ops := xs.filterMap fun x => match x.2.2 with
    | .at p =>
      let w := s.g.atomOperands s.clock op d k x.1
      some (⟨x.1, op, p, n, w.1, w.2.1, w.2.2, t.atomPlace p q, lpol q, spol q⟩ : ElemOp)
    | _ => none
  let t := xs.foldl (fun u x => u.touchControl x.1 x.2.1) t
  let t := if ops.any (·.pz) then t.mg (·.ck 0) else t
  let m := maskOf fun l => ls.contains l
  let p0 : Pending := { donePend .ld .atomic (regs.map fun r => .vec r m (List.replicate 96 0) 0 false 0) with dest := regs }
  let r := t.atomIssue p0 ops
  set r.2
  post r.1

/-- R223: a vector atomic as a unit. -/
def vatom (op : AtomOp) (n : Nat) (o : MF) (s : State) : Out :=
  .next (vunit .memv o.st.toNat (lenRM o.rt o.mq)
    (memRefs s o.a.toNat o.b.toNat o.rt ++ dataRefs o.d.toNat (atomRegs op (max 1 (n / 4))))
    (atomBody op n o.d.toNat o.mq (offsetAddrs o.a.toNat o.b.toNat o.rt)) s)

/-- R227: the body of a scalar atomic; the compare forms write SCC. -/
def satomBody (op : AtomOp) (n d a : Nat) (q : Option MQ) : M Unit := do
  awaitCtr .ld
  orderHold q
  loadHold
  settleOwn
  let addr ← basePair a
  let l ← checkScalar n .w addr
  atomTyped op 127 addr l
  let s ← get
  let k := max 1 (n / 4)
  let word (from_ : Nat) : Nat := wordsNat ((List.range k).map fun j => s.g.rdS s.clock (from_ + j))
  let pz := s.g.anySP s.clock d (atomRegs op k)
  let regs := (List.range k).map (d + ·)
  let o : ElemOp := ⟨0, op, l, n, if op = .cas then word d else 0, if op = .cas then word (d + k) else word d, pz,
    s.atomPlace l q, lpol q, spol q⟩
  let t := s.touchControl 0 addr
  let t := if pz then t.mg (·.ck 0) else t
  let p0 : Pending := { donePend .ld .atomic ((regs.map fun r => RegWrite.sreg r 0 false false)
    ++ (if op = .cas then [RegWrite.scc false] else [])) with dest := regs }
  let r := t.atomIssue p0 [o]
  set r.2
  post r.1

/-- R227: a scalar atomic as a unit. -/
def satom (op : AtomOp) (n : Nat) (o : ML) (s : State) : Out :=
  .next (unit .mem o.st.toNat (lenM o.mq) (sRefs o.a.toNat 2 ++ sRefs o.d.toNat (atomRegs op (max 1 (n / 4))))
    (satomBody op n o.d.toNat o.a.toNat o.mq) s)

/-! ### The units -/

/-- R224. -/
def execVatomAddI32 (o : MF) (s : State) : Out := vatom .addI32 4 o s
/-- R225. -/
def execVatomAddF32 (o : MF) (s : State) : Out := vatom .addF32 4 o s
/-- R225. -/
def execVatomAddBf2 (o : MF) (s : State) : Out := vatom .addBf2 4 o s
/-- R224. -/
def execVatomMinI (o : MF) (s : State) : Out := vatom .minI 4 o s
/-- R224. -/
def execVatomMaxI (o : MF) (s : State) : Out := vatom .maxI 4 o s
/-- R224. -/
def execVatomAnd (o : MF) (s : State) : Out := vatom .and 4 o s
/-- R224. -/
def execVatomOr (o : MF) (s : State) : Out := vatom .or 4 o s
/-- R224. -/
def execVatomXchg (o : MF) (s : State) : Out := vatom .xchg 4 o s
/-- R224. -/
def execVatom2MinN (o : MF) (s : State) : Out := vatom .minN 4 o s
/-- R224. -/
def execVatom2MaxN (o : MF) (s : State) : Out := vatom .maxN 4 o s
/-- R224. -/
def execVatom2Xor (o : MF) (s : State) : Out := vatom .xor 4 o s
/-- R224. -/
def execVatom2AddI64 (o : MF) (s : State) : Out := vatom .addI64 8 o s
/-- R224. -/
def execVatom2Xchg64 (o : MF) (s : State) : Out := vatom .xchg64 8 o s
/-- R224. -/
def execVatom2MinF32 (o : MF) (s : State) : Out := vatom .minF32 4 o s
/-- R224. -/
def execVatom2MaxF32 (o : MF) (s : State) : Out := vatom .maxF32 4 o s
/-- R226. -/
def execVcas32 (o : MF) (s : State) : Out := vatom .cas 4 o s
/-- R226. -/
def execVcas64 (o : MF) (s : State) : Out := vatom .cas 8 o s
/-- R226. -/
def execVcas128 (o : MF) (s : State) : Out := vatom .cas 16 o s
/-- R227. -/
def execSatomAddI32 (o : ML) (s : State) : Out := satom .addI32 4 o s
/-- R227. -/
def execSatomXchg (o : ML) (s : State) : Out := satom .xchg 4 o s
/-- R227. -/
def execSatomCas32 (o : ML) (s : State) : Out := satom .cas 4 o s
/-- R227. -/
def execSatomCas64 (o : ML) (s : State) : Out := satom .cas 8 o s
/-- R227. -/
def execSatomCas128 (o : ML) (s : State) : Out := satom .cas 16 o s
/-- R227. -/
def execSatomAddI64 (o : ML) (s : State) : Out := satom .addI64 8 o s
/-- R227. -/
def execSatomOr (o : ML) (s : State) : Out := satom .or 4 o s
/-- R227. -/
def execSatomAnd (o : ML) (s : State) : Out := satom .and 4 o s

/-! ### Element operations performed elsewhere (R208, R229, R230, R403, R411) -/

/-- Takes the first element operation of the places given out of a group's units: the unit's position, the operation. -/
def Group.firstTodo (g : Group) (pl : AtomPlace) : Option (Nat × ElemOp) :=
  match g.pend.findIdx? fun p => (p.todo.head?.map (·.place)) == some pl with
  | none => none
  | some i => (g.pend[i]?).bind fun p => p.todo.head?.map fun o => (i, o)

/-- The issuing group's first element operation of a place is performed, or ends in an error that returns poison (R229). -/
def State.performFirst (s : State) (pl : AtomPlace) (err : Bool) : State :=
  match s.g.firstTodo pl with
  | none => s
  | some (i, o) =>
    match s.g.pend[i]? with
    | none => s
    | some p =>
      let q := { p with todo := p.todo.drop 1 }
      let r : Pending × State := if err then (q.result o ⟨0, true, false, true⟩, s) else s.performOp s.g.core s.g.id s.g.ctx q o
      let q := { r.1 with done := r.1.todo.isEmpty }
      r.2.mg fun g => { g with pend := g.pend.set i q }

/-- R208, R230: FAR_ATOMIC: the home slice performs the next element operation of a group. -/
def execFarAtomic (grp : Nat) (s : State) : Out := .next (s.onGroup grp fun t => t.performFirst .home false)
/-- R229, R403: an AtomicOp completes at the host; one with an error returns poison, sets HST and posts a link event. -/
def execAtomicopCompletion (grp : Nat) (err : Bool) (s : State) : Out :=
  .next (s.onGroup grp fun t =>
    if err && (t.g.firstTodo .host).isSome then (t.performFirst .host true).linkEvent 31 4 else t.performFirst .host false)
/-- R403, R406: an AtomicOp without completion returns poison and posts a link event of cause 3. -/
def execAtomicopTimeout (grp : Nat) (s : State) : Out :=
  .next (s.onGroup grp fun t => if (t.g.firstTodo .host).isSome then (t.performFirst .host true).linkEvent 31 3 else t)
/-- R223: ATOMIC_RESULT: a unit whose every lane is performed writes its old values and LDCNT falls. -/
def execAtomicResult (grp : Nat) (s : State) : Out :=
  .next (if ((s.group? grp).bind fun g => (g.pend.find? fun p => p.ctr == .ld).map fun p => p.kind == .atomic).getD false then
    s.retire grp .ld else s)

end Sys2Proof.Machine
end

