-- ==== Sys2Proof/Machine/Control.lean ====
section
/-! DEFINITION. Control transfers (R81 to R90), the reconvergence stack and its instructions (R91 to R97), WAIT (R72), NOP,
YIELD, SLEEP and EXIT (R99, R100), elections (R101, R102) and signatures (R104). -/

namespace Sys2Proof.Machine

/-- The target of a halfword offset from the unit's own address (R83). -/
def relTarget {n : Nat} (pc : Addr) (o : BitVec n) : Addr := pc + (o.signExtend 64 <<< 1)

/-- A control-structure trap of a subcause (R106). -/
def subTrap (k : Nat) : Stop := .trap 6 k 127 0

/-! ### Branches -/

/-- R83: BRA. -/
def execBra (o : B21) (s : State) : Out :=
  .next (issue .scal o.st.toNat [] (fun t => .ok () (t.jump (relTarget t.g.pc o.o) o.st.toNat)) s)

/-- R83: a branch on SCC. -/
def branchScc (o : B20) (sense : Bool) (s : State) : Out :=
  .next (issue .scal o.st.toNat [.scc] (fun t =>
    if t.g.rdScc t.clock == sense then .ok () (t.jump (relTarget t.g.pc o.o) o.st.toNat)
    else .ok () (t.advance 4 o.st.toNat)) s)
/-- R83: BSCC. -/
def execBscc (o : B20) (s : State) : Out := branchScc o true s
/-- R83: BNSCC. -/
def execBnscc (o : B20) (s : State) : Out := branchScc o false s

/-- R83, R381: a branch on a scalar; a poisoned one is consumed. -/
def branchZero (o : BC) (sense : Bool) (s : State) : Out :=
  .next (issue .scal o.st.toNat [.s o.a.toNat] (fun t =>
    if t.useS o.a.toNat then .error (.consumed 0) (t.mg (·.ck 0))
    else if (t.g.rdS t.clock o.a.toNat != 0) == sense then .ok () (t.jump (relTarget t.g.pc o.o) o.st.toNat)
    else .ok () (t.advance 4 o.st.toNat)) s)
/-- R83: BZ. -/
def execBz (o : BC) (s : State) : Out := branchZero o false s
/-- R83: BNZ. -/
def execBnz (o : BC) (s : State) : Out := branchZero o true s

/-! ### Calls and returns (R84 to R88) -/

/-- R87: the reserved end of the control area is written zero with each spill. -/
def State.spill (s : State) (off : Nat) (bs : List Byte) : State :=
  (s.memStore (s.stackKey s.g 0 off) bs).memStore (s.stackKey s.g 0 0x460) (List.replicate 32 0)

/-- R85: pushes a return entry; the oldest of 16 on chip moves to the control area first. -/
def State.pushRet (s : State) (e : RetEntry) : State :=
  let s :=
    if s.g.ret.length < 16 then s
    else
      match s.g.ret with
      | [] => s
      | old :: rest =>
        (s.spill (8 * s.g.retArea) (leBytes 8 old.word)).mg fun g => { g with ret := rest, retArea := g.retArea + 1 }
  s.mg fun g => { g with ret := g.ret ++ [e] }

/-- R85: the newest entry leaves; when the chip is empty the newest entry of the area is refilled. -/
def State.popRet (s : State) : State :=
  let rest := s.g.ret.dropLast
  let s := s.mg fun g => { g with retLost := min g.retLost (g.retDepth - 1) }
  if rest.isEmpty && s.g.retArea != 0 then
    let e := s.areaRet s.g (s.g.retArea - 1)
    let t := if s.g.retLost < s.g.retArea then s else { s with free := s.free + 1024 }
    t.mg fun g => { g with ret := [e], retArea := g.retArea - 1 }
  else s.mg fun g => { g with ret := rest }

/-- R389: a pop that refills an entry from the control area finds the errors of its words. -/
def State.meetRet (s : State) : State :=
  if decide (s.g.ret.length ≤ 1) && s.g.retArea != 0 then s.findErrors s.g.ctx (s.stackKey s.g 0 (8 * (s.g.retArea - 1))) 8 false else s
def State.meetRecon (s : State) : State :=
  if decide (s.g.recon.length ≤ 1) && s.g.reconArea != 0 then
    s.findErrors s.g.ctx (s.stackKey s.g 0 (0x180 + 32 * (s.g.reconArea - 1))) 32 false
  else s
/-- R380, R381: a pop would refill an entry from a poisoned word of the control area. -/
def State.spoiledRet (s : State) : Bool :=
  decide (s.g.ret.length ≤ 1) && s.g.retArea != 0 && s.memPoisoned (s.stackKey s.g 0 (8 * (s.g.retArea - 1))) 8
def State.spoiledRecon (s : State) : Bool :=
  decide (s.g.recon.length ≤ 1) && s.g.reconArea != 0 && s.memPoisoned (s.stackKey s.g 0 (0x180 + 32 * (s.g.reconArea - 1))) 32

/-- R84, R85: CALL. -/
def execCall (o : B21) (s : State) : Out :=
  .next (issue .scal o.st.toNat [] (fun t =>
    if 64 ≤ t.g.retDepth then .error (subTrap 7) t
    else
      .ok () ((t.pushRet (.at (t.g.pc + 4) t.g.reconDepth)).jump (relTarget t.g.pc o.o) o.st.toNat)) s)

/-- R100: the active lanes exit; when no present lane remains the group ends. -/
def State.exitLanes (s : State) (m : Mask) : State :=
  if m = 0 then s
  else
    let t := s.mg fun g => ({ g with exited := g.exited ||| (m &&& g.present), mask := g.mask &&& ~~~m } : Group).clearExited
    if t.g.live = 0 then t.endGroup else t

/-- R93: entries held in the area lose the bits of exited lanes too. -/
def State.clearArea (s : State) : State :=
  ((List.range s.g.reconArea).filter fun i => decide (s.g.reconLost ≤ i)).foldl (fun t i =>
    let e := t.areaRecon t.g i
    t.memStore (t.stackKey t.g 0 (0x180 + 32 * i)) ({ e with m := e.m &&& t.g.live, x := e.x &&& t.g.live } : ReconEntry).bytes) s

/-- R86, R100: EXIT of the active lanes, and the unit after it. -/
def exitBody (st : Nat) : M Unit := do
  let s ← get
  if s.g.live &&& ~~~(s.g.rdMask s.clock) = 0 then releaseHold
  fun t =>
    let u := (t.advance 4 st).exitLanes (t.g.rdMask t.clock &&& t.g.live)
    .ok () (if u.g.wait = .ended then u else u.clearArea)

/-- A 16-bit unit can be fetched at the address: every such halfword decodes, and none is privileged. -/
def State.leads (s : State) (a : Addr) : Bool :=
  match (s.fetchUnit a 8 []).1 with
  | .ok hs => hs.length == 1
  | .error _ => false

/-- R84, R86, R106, R376: RET. An undefined entry, which a store into the control area has left, returns to some
16-bit unit or raises the control-structure trap, so that no other trap follows from it (R5, R87; DESIGN CHOICE, log entry 11). -/
def execRet (o : Z0) (s : State) : Out :=
  .next (issue .scal o.st.toNat (if s.g.retDepth = 0 then maskRefs else [.ret]) (fun t =>
    let t := t.meetRet
    match t.g.ret.getLast? with
    | none => exitBody o.st.toNat t
    | some e =>
      if t.spoiledRet then .error (.consumed 0) (t.mg (·.ck 1))
      else if e.depth != t.g.reconDepth || (decide (t.g.retDepth ≤ t.g.retLost) && !t.leads e.addr) then .error (subTrap 6) t
      else if (t.g.region.map fun r => decide (t.g.retDepth - 1 < r.ret)).getD false then .error (subTrap 8) t
      else
        let u := t.popRet
        let v := u.jump e.addr o.st.toNat
        -- R82: a refill adds at least 20 core clocks
        .ok () (if u.g.retArea < t.g.retArea then v.mg fun g => { g with notBefore := g.notBefore + 20 } else v)) s)

/-- R100: EXIT. -/
def execExit (o : Z0) (s : State) : Out := .next (issue .scal o.st.toNat maskRefs (exitBody o.st.toNat) s)

/-! ### Jump tables (R89, R90) -/

/-- R89: four bytes through the fetch path. -/
def fetchWord (a : Nat) : M Nat := fun s =>
  match s.fetchHalf (a % 2 ^ 64) with
  | (.half lo, t) =>
    match t.fetchHalf ((a + 2) % 2 ^ 64) with
    | (.half hi, u) => .ok (lo + 65536 * hi) u
    | (.trap c _, u) => .error (.trap c 0 127 0) u
    | (.page p, u) => .error (.page p false 127 0) u
    | (.poison ck, u) => .error (.consumed 0) (u.mg (·.ck ck))
    | (.busy, u) => .error (.hold (u.clock + 1)) u
  | (.trap c _, t) => .error (.trap c 0 127 0) t
  | (.page p, t) => .error (.page p false 127 0) t
  | (.poison ck, t) => .error (.consumed 0) (t.mg (·.ck ck))
  | (.busy, t) => .error (.hold (t.clock + 1)) t

/-- R90: the word is an LPAD of the label. -/
def isLpad (w label : Nat) : Bool := bit w 0 && bits w 4 7 == 0x16 && bits w 23 9 == 0 && bits w 11 12 == label

/-- R89: JTAB. An ill-formed table word reports step 5 (DEDUCED, log entry 12). -/
def execJtab (o : BC) (s : State) : Out :=
  .next (issue .scal o.st.toNat [.s o.a.toNat] (do
    let t ← get
    consumeReg (t.useS o.a.toNat)
    let tab := (relTarget t.g.pc o.o).toNat
    if tab % 4 != 0 then throw (.trap 2 0 127 0)
    let h ← fetchWord tab
    if bits h 12 4 != 0 then throw (.trap 1 5 127 0)
    let i := (t.g.rdS t.clock o.a.toNat).toNat
    let e ← fetchWord (if i < h / 65536 then tab + 8 + 4 * i else tab + 4)
    let target := BitVec.ofNat 64 tab + ((BitVec.ofNat 32 e).signExtend 64 <<< 1)
    let w ← fetchWord target.toNat
    if !isLpad w (bits h 0 12) then throw (.trap 7 0 127 0)
    modify fun u => u.jump target (max o.st.toNat 5)) s)

/-- R90: LPAD. -/
def execLpad (o : LP) (s : State) : Out := .next (unit .scal o.st.toNat 4 [] (pure ()) s)

/-! ### The reconvergence stack (R91 to R95) -/

/-- A new execution mask, ready after a latency (R58, R96; DEDUCED, log entry 24). -/
def Group.setMask (g : Group) (clock lat : Nat) (m : Mask) : Group :=
  { (((g.produce (.s 56) (clock + lat)).produce (.s 57) (clock + lat)).produce (.s 58) (clock + lat)) with mask := m &&& g.live }
/-- R95: %fmt set from an entry, a special-register write as by SSETR (R69; DEDUCED, log entry 24). -/
def Group.setFmt (g : Group) (clock : Nat) (f : Word) : Group := { g.produce (.spr 1) (clock + latScalar) with fmt := fmtWrite f }

/-- R91: pushes an entry; the oldest of 8 on chip moves to the control area first. -/
def State.pushRecon (s : State) (e : ReconEntry) : State :=
  let s :=
    if s.g.recon.length < 8 then s
    else
      match s.g.recon with
      | [] => s
      | old :: rest =>
        (s.spill (0x180 + 32 * s.g.reconArea) old.bytes).mg fun g =>
          { g with recon := rest, reconArea := g.reconArea + 1 }
  s.mg fun g => { g with recon := g.recon ++ [e] }

/-- R91: the newest entry leaves; when the chip is empty the newest entry of the area is refilled. -/
def State.popRecon (s : State) : State :=
  let rest := s.g.recon.dropLast
  let s := s.mg fun g => { g with reconLost := min g.reconLost (g.reconDepth - 1) }
  if rest.isEmpty && s.g.reconArea != 0 then
    let e := s.areaRecon s.g (s.g.reconArea - 1)
    let t := if s.g.reconLost < s.g.reconArea then s else { s with free := s.free + 1024 }
    t.mg fun g => { g with recon := [{ e with m := e.m &&& g.live, x := e.x &&& g.live }], reconArea := g.reconArea - 1 }
  else s.mg fun g => { g with recon := rest }

/-- Replaces the newest entry. -/
def Group.setTop (g : Group) (e : ReconEntry) : Group := { g with recon := g.recon.dropLast ++ [e] }
/-- Entry i of the stack, 0 the oldest. -/
def State.reconAt (s : State) (i : Nat) : ReconEntry :=
  if i < s.g.reconArea then s.areaRecon s.g i else s.g.recon.getD (i - s.g.reconArea) ⟨false, false, 0, 0, 0⟩
/-- Replaces entry i. -/
def State.setRecon (s : State) (i : Nat) (e : ReconEntry) : State :=
  if i < s.g.reconArea then s.memStore (s.stackKey s.g 0 (0x180 + 32 * i)) e.bytes
  else s.mg fun g => { g with recon := g.recon.set (i - s.g.reconArea) e }

/-- R96, R97: the condition of a divergence instruction: a predicate or its complement. -/
def Group.pcond (g : Group) (now p : Nat) (inv : BitVec 1) : Mask := if inv = 1 then ~~~(g.rdP now p) else g.rdP now p

/-- R376: a pop would leave the stack below the depth its region recorded. -/
def Group.popsRegion (g : Group) : Bool := (g.region.map fun r => decide (g.reconDepth - 1 < r.recon)).getD false

/-- R94, R95: restores the outer mask and %fmt of the newest entry and pops it. -/
def restoreTop (e : ReconEntry) (m : Mask) : M Unit := fun t =>
  let t := t.meetRecon
  if t.spoiledRecon then .error (.consumed 0) (t.mg (·.ck 1))
  else if m &&& ~~~e.m != 0 then .error (subTrap 3) t
  else if t.g.popsRegion then .error (subTrap 8) t
  else .ok () (t.popRecon.mg fun g => (g.setMask t.clock latScalar e.m).setFmt t.clock e.f)

/-! ### If, else and loops (R96, R97) -/

/-- R96: VIF. -/
def execVif (o : DF) (s : State) : Out :=
  .next (issue .scal o.st.toNat (maskRefs ++ [.p o.p.toNat, .spr 1]) (fun t =>
    if 31 ≤ t.g.reconDepth then .error (subTrap 5) t
    else
      let m := t.g.rdMask t.clock
      let c := t.g.pcond t.clock o.p.toNat o.n
      let u := (t.pushRecon ⟨false, false, m, m &&& ~~~c, t.g.rdFmt t.clock⟩).mg fun g => g.setMask t.clock 4 (m &&& c)
      .ok () (if m &&& c = 0 then u.jump (relTarget t.g.pc o.o) o.st.toNat else u.advance 4 o.st.toNat)) s)

/-- R96: VELSE. -/
def execVelse (o : DO) (s : State) : Out :=
  .next (issue .scal o.st.toNat [.recon] (fun t =>
    match t.g.recon.getLast? with
    | none => .error (subTrap 4) t
    | some e =>
      if e.loop || e.els then .error (subTrap 4) t
      else
        let u := t.mg fun g => ((g.setTop { e with els := true, x := 0 }).setMask t.clock latScalar e.x).setFmt t.clock e.f
        .ok () (if u.g.mask = 0 then u.jump (relTarget t.g.pc o.o) o.st.toNat else u.advance 4 o.st.toNat)) s)

/-- R96: VEND. -/
def execVend (o : Z0) (s : State) : Out :=
  .next (unit .scal o.st.toNat 4 (maskRefs ++ [.recon]) (fun t =>
    match t.g.recon.getLast? with
    | none => .error (subTrap 4) t
    | some e => if e.loop then .error (subTrap 4) t else restoreTop e (t.g.rdMask t.clock) t) s)

/-- R97: VLOOP. -/
def execVloop (o : DO) (s : State) : Out :=
  .next (issue .scal o.st.toNat (maskRefs ++ [.spr 1]) (fun t =>
    if 31 ≤ t.g.reconDepth then .error (subTrap 5) t
    else
      let m := t.g.rdMask t.clock
      let u := t.pushRecon ⟨true, false, m, 0, t.g.rdFmt t.clock⟩
      .ok () (if m = 0 then u.jump (relTarget t.g.pc o.o) o.st.toNat else u.advance 4 o.st.toNat)) s)

/-- The position of the innermost LOOP entry; where none is left but entries are undefined (R87), the oldest of them stands for it, since
R87 names no trap of VBRK and VCONT. -/
def State.innerLoop (s : State) : Option Nat :=
  match (List.range s.g.reconDepth).reverse.find? fun i => (s.reconAt i).loop with
  | some k => some k
  | none => if s.g.reconLost = 0 then none else some 0

/-- R97: VBRK and VCONT. -/
def leaveLoop (o : DP) (cont : Bool) (s : State) : Out :=
  .next (unit .scal o.st.toNat 4 (maskRefs ++ [.p o.p.toNat, .recon]) (fun t =>
    match t.innerLoop with
    | none => .error (subTrap 4) t
    | some k =>
      let m := t.g.rdMask t.clock
      let c := m &&& t.g.pcond t.clock o.p.toNat o.n
      let u := (List.range (t.g.reconDepth - (k + 1))).foldl (fun u i =>
        let e := u.reconAt (k + 1 + i)
        u.setRecon (k + 1 + i) { e with m := e.m &&& ~~~c, x := e.x &&& ~~~c }) t
      let l := u.reconAt k
      let u := if cont then u.setRecon k { l with x := l.x ||| c } else u
      .ok () (u.mg fun g => g.setMask t.clock latScalar (m &&& ~~~c))) s)
/-- R97: VBRK. -/
def execVbrk (o : DP) (s : State) : Out := leaveLoop o false s
/-- R97: VCONT. -/
def execVcont (o : DP) (s : State) : Out := leaveLoop o true s

/-- R97: VENDL. -/
def execVendl (o : DF) (s : State) : Out :=
  .next (issue .scal o.st.toNat (maskRefs ++ [.p o.p.toNat, .recon]) (fun t =>
    match t.g.recon.getLast? with
    | none => .error (subTrap 4) t
    | some e =>
      if !e.loop then .error (subTrap 4) t
      else
        let m := t.g.rdMask t.clock
        let go := (m ||| e.x) &&& t.g.pcond t.clock o.p.toNat o.n &&& t.g.live
        if go != 0 then
          .ok () ((t.mg fun g => (g.setTop { e with x := 0 }).setMask t.clock latScalar go).jump (relTarget t.g.pc o.o) o.st.toNat)
        else
          match restoreTop e m t with
          | .ok _ u => .ok () (u.advance 4 o.st.toNat)
          | .error x u => .error x u) s)

/-! ### WAIT, no-op, yield and sleep (R72, R99) -/

/-- R72, R194: WAIT. -/
def execWait (o : WT) (s : State) : Out :=
  .next (unit .scal o.st.toNat 4 [] (fun t =>
    if t.countsOk t.g o.l.toNat o.w.toNat o.m.toNat o.e.toNat o.t.toNat false then .ok () (t.mxCover o.m.toNat)
    else .error (.await (.counts o.l.toNat o.w.toNat o.m.toNat o.e.toNat o.t.toNat)) t) s)

/-- R99: NOP. -/
def execNop (o : Z0) (s : State) : Out := .next (unit .scal o.st.toNat 4 [] (pure ()) s)

/-- R99: YIELD. -/
def execYield (o : Z0) (s : State) : Out :=
  .next (unit .scal o.st.toNat 4 [] (fun t =>
    match t.pendingReady t.g.core t.g.quarter with
    | [] => .ok () t
    | p :: _ =>
      if t.swapped t.g.core t.g.quarter then .error (.hold (t.clock + 1)) t
      else .ok () (t.swapActive t.g.core t.g.quarter t.g.id p.id)) s)

/-- R99: SLEEP: not ready for n clocks from its issue on (DESIGN CHOICE, log entry 59). -/
def execSleep (o : A1) (s : State) : Out :=
  .next (unit .scal o.st.toNat 4 [.s o.a.toNat] (fun t =>
    let n := (t.g.rdS t.clock o.a.toNat).toNat
    let t := if t.useS o.a.toNat then t.mg (·.ck 0) else t
    .ok () (if n = 0 then t else t.mg fun g => { g with wait := .sleep (t.clock + n) })) s)

/-! ### Elections (R101, R102) and signatures (R104) -/

/-- R101: ELECT. -/
def execElect (o : PP) (s : State) : Out :=
  .next (unit .scal o.st.toNat 4 maskRefs (fun t =>
    let m := t.g.rdMask t.clock
    let bits := if m = 0 then 0 else BitVec.twoPow 96 (lowestLane m)
    .ok () (t.mg fun g => (g.setP t.clock 2 o.p.toNat g.live bits).setScc t.clock 2 (m != 0))) s)

/-- R102, R188: ELECTW: the group arrives, as at a BAR, and waits. -/
def execElectw (o : PP) (s : State) : Out :=
  .next (issue .scal o.st.toNat maskRefs (do
    releaseHold
    fun t =>
    let m := t.g.rdMask t.clock
    let lane := if m = 0 then none else some (lowestLane m)
    let u := (t.performAll.advance 4 o.st.toNat).mg fun g => { g with nElectw := g.nElectw + 1, wait := .electw o.p.toNat lane }
    .ok () (u.settleElectw u.g.wg)) s)

/-- %sig as the unit reads it. -/
def State.readSig (s : State) : Word := match s.g.stale s.clock (.spr 2) with
  | some (.word x _) => x
  | _ => s.g.sig

/-- R104: SIGCHK. -/
def execSigchk (o : SG) (s : State) : Out :=
  .next (unit .scal o.st.toNat 4 [.spr 2] (fun t =>
    if t.readSig != o.c.setWidth 32 then .error (subTrap 1) t
    else if t.g.reconDepth != o.d.toNat then .error (subTrap 2) t
    else .ok () (t.mg fun g => { g with sig := 0xFFFF })) s)
end Sys2Proof.Machine
end

