-- ==== Sys2Proof/Machine/Approx.lean ====
section
/-! DEFINITION. The approximate functions of R139 and R140. What the device delivers inside the error bound is open: the
result is the free value Config.approx where that value lies within the bound of the exact function, and the nearest F32
otherwise (DESIGN CHOICE, log entry 6). The exact function is computed in fixed point with 128 fractional bits and a margin. -/

namespace Sys2Proof.Machine

/-- The fractional bits of the fixed-point numbers here. -/
def fpBits : Nat := 128
/-- One in fixed point. -/
def fpOne : Int := 2 ^ 128
/-- The margin granted to the truncations of a series, in units of the last fixed-point bit. -/
def fpMargin : Int := 2 ^ 20
/-- log 2 in fixed point. -/
def fpLn2 : Int := 235865763225513294137944142764154484399
/-- The circle constant in fixed point. -/
def fpPi : Int := 1069028584064966747859680373161870783300
/-- 1 / log 2 in fixed point. -/
def fpLog2e : Int := 490923683258796565746369346286093237521
/-- Fixed-point product. -/
def fpMul (a b : Int) : Int := a * b / fpOne

/-- The sum of the terms t, t x / 1, t x x / (1 2), ... by fuel, from term i on. -/
def expSeries : Nat → Int → Int → Int → Int
  | 0, _, _, acc => acc
  | n + 1, i, x, acc => expSeries n (i - 1) x (fpOne + fpMul x acc / i)
/-- The exponential of a fixed-point number in [0, 1). -/
def fpExp (x : Int) : Int := expSeries 40 40 x fpOne
/-- 2^f for a fixed-point f in [0, 1). -/
def fpExp2 (f : Int) : Int := fpExp (fpMul f fpLn2)
/-- The odd series of 2 atanh z, by fuel, Horner from the highest term. -/
def atanhSeries : Nat → Int → Int → Int → Int
  | 0, _, _, acc => acc
  | n + 1, k, z2, acc => atanhSeries n (k - 2) z2 (fpOne / k + fpMul z2 acc)
/-- log2 of a fixed-point number in [1, 2). -/
def fpLog2 (m : Int) : Int :=
  let z := (m - fpOne) * fpOne / (m + fpOne)
  fpMul (fpMul (2 * z) (atanhSeries 50 99 (fpMul z z) 0)) fpLog2e
/-- The alternating series of sine over its argument or of cosine, Horner; k is the factor index of the step. -/
def trigSeries : Nat → Int → Int → Int → Int
  | 0, _, _, acc => acc
  | n + 1, k, x2, acc => trigSeries n (k - 2) x2 (fpOne - fpMul x2 acc / (k * (k - 1)))
/-- The sine of a fixed-point angle up to a quarter turn, in radians. -/
def fpSin (x : Int) : Int := fpMul x (trigSeries 24 49 (fpMul x x) fpOne)
/-- The cosine of such an angle. -/
def fpCos (x : Int) : Int := trigSeries 24 48 (fpMul x x) fpOne

/-- A finite F32 as a fixed-point number scaled by 2^-sh, or none where it is not finite. -/
def fpOf (sh : Int) (x : Nat) : Option Int :=
  if fmtF32.isNan x || fmtF32.isInf x then none
  else
    let v := fmtF32.fin true x
    let k := roundAt 0 .rz v.neg v.m (v.e - sh + 128) false
    some (if v.neg then -(k : Int) else k)

/-- The F32 nearest to the fixed-point number t times 2^sh, a subnormal result being zero of its sign. -/
def fpNearest (t sh : Int) : Nat := (fmtF32.round .rne true ⟨decide (t < 0), t.natAbs, sh - 128⟩ false).bits

/-- R139: the result for the exact value t times 2^sh: the device's free value where it is a normal F32 (or zero) within b
units of fixed point, and the nearest F32 otherwise. -/
def accept (fn x : Nat) (t sh b : Int) : Nat :=
  let c := (Config.approx fn (BitVec.ofNat 32 x)).toNat
  let near := fpNearest t sh
  if fmtF32.mag near < 2 ^ 23 then near
  else
    match fpOf sh c with
    | some v => if fmtF32.flush true c = c && decide ((v - t).natAbs + fpMargin ≤ b) then c else near
    | none => near

/-- n ulps of F32 at the fixed-point number t, in fixed-point units. -/
def ulps (n : Int) (t : Int) : Int := n * 2 ^ (t.natAbs.log2 - 23)

/-- R140: VRCP.A. -/
def approxRcp (x : Nat) : Nat :=
  let n := fmtF32.neg x
  if fmtF32.isNan x then fmtF32.quiet x
  else if fmtF32.isInf x then fmtF32.code n 0
  else if fmtF32.mag x < 2 ^ 23 then fmtF32.code n fmtF32.inf
  else
    let v := fmtF32.fin true x
    -- the reciprocal of m in [2^23, 2^24) lies in (2^-24, 2^-23]: scaled by 2^24 it is in fixed point
    let t : Int := (2 ^ (128 + 24) / v.m : Nat)
    let sh := -v.e - 24
    -- a true reciprocal below 2^-126 in magnitude gives zero
    if (v.m.log2 : Int) + v.e = 127 || (decide ((v.m.log2 : Int) + v.e = 126) && decide (2 ^ 23 < v.m)) then fmtF32.code n 0
    else accept 0 x (if n then -t else t) sh (ulps 1 t)

/-- R139: VRSQ.A. -/
def approxRsq (x : Nat) : Nat :=
  let n := fmtF32.neg x
  if fmtF32.isNan x then fmtF32.quiet x
  else if fmtF32.mag x < 2 ^ 23 then fmtF32.code n fmtF32.inf
  else if n then fmtF32.nan 6
  else if fmtF32.isInf x then 0
  else
    let v := fmtF32.fin true x
    let m := if v.e % 2 = 0 then v.m else 2 * v.m
    let e := if v.e % 2 = 0 then v.e else v.e - 1
    -- 1 / sqrt m, scaled by 2^12
    let t : Int := isqrtDown 150 (2 ^ (2 * 140) / m) 0
    accept 1 x t (-e / 2 - 12) (ulps 2 t)

/-- R139: VEX2.A, with OVF.F. -/
def approxEx2 (x : Nat) : FRes :=
  let n := fmtF32.neg x
  if fmtF32.isNan x then .ok (fmtF32.quiet x)
  else if fmtF32.isInf x then .ok (if n then 0 else fmtF32.inf)
  else
    let v := fmtF32.fin true x
    if v.m = 0 then .ok 0x3F800000
    else if 7 ≤ (v.m.log2 : Int) + v.e && !n then ⟨fmtF32.inf, true, false⟩
    else if 8 ≤ (v.m.log2 : Int) + v.e then .ok 0
    else
      let k := roundAt 0 .rz n v.m (v.e + 128) false
      let y : Int := if n then -(k : Int) else k
      let i := y / fpOne
      let f := y % fpOne
      if 0 ≤ v.e || v.m % 2 ^ (-v.e).toNat = 0 then
        .ok (if i < -126 then 0 else (fmtF32.round .rne true ⟨false, 1, i⟩ false).bits)
      else if i < -126 then .ok 0
      else
        let t := fpExp2 f
        .ok (accept 2 x t i (ulps 2 t))

/-- R139: VLG2.A. -/
def approxLg2 (x : Nat) : Nat :=
  let n := fmtF32.neg x
  if fmtF32.isNan x then fmtF32.quiet x
  else if fmtF32.mag x < 2 ^ 23 then fmtF32.code true fmtF32.inf
  else if n then fmtF32.nan 6
  else if fmtF32.isInf x then x
  else
    let v := fmtF32.fin true x
    let i := (v.m.log2 : Int) + v.e
    if v.m = 2 ^ 23 then (fmtF32.round .rne true ⟨decide (i < 0), i.natAbs, 0⟩ false).bits
    else
      let t := i * fpOne + fpLog2 (v.m * 2 ^ 105)
      let b := if 0x3F000000 ≤ x && x ≤ 0x40000000 then (2 : Int) ^ 106 else ulps 2 t
      accept 3 x t 0 b

/-- Turns of a finite F32, reduced to [0, 1) in fixed point. -/
def turns (x : Nat) : Int :=
  let v := fmtF32.fin true x
  if 0 ≤ v.e then 0
  else
    let d := (-v.e).toNat
    let r := v.m % 2 ^ d
    let k : Int := roundAt 0 .rz false r (128 - (d : Int)) false
    if v.neg then (fpOne - k) % fpOne else k

/-- R139: the sine of 2 pi times a reduced number of turns that is no quarter. -/
def sinTurns (t : Int) : Int :=
  let q := fpOne / 4
  let a (u : Int) : Int := fpMul (2 * fpPi) u
  if t < q then fpSin (a t) else if t < 2 * q then fpCos (a (t - q))
  else if t < 3 * q then -(fpSin (a (t - 2 * q))) else -(fpCos (a (t - 3 * q)))

/-- A finite F32 is a multiple of 1/4. -/
def isQuarter (x : Nat) : Bool :=
  let v := fmtF32.fin true x
  decide (-2 ≤ v.e) || v.m % 2 ^ (-v.e - 2).toNat == 0

/-- R139: VSIN.A. -/
def approxSin (x : Nat) : Nat :=
  if fmtF32.isNan x then fmtF32.quiet x
  else if fmtF32.isInf x then fmtF32.nan 7
  else if fmtF32.mag x < 2 ^ 23 then fmtF32.code (fmtF32.neg x) 0
  else if isQuarter x then
    let q := turns x * 4 / fpOne
    if q = 1 then 0x3F800000 else if q = 3 then 0xBF800000 else 0
  else accept 4 x (sinTurns (turns x)) 0 (2 ^ 107)

/-- R139: VCOS.A. -/
def approxCos (x : Nat) : Nat :=
  if fmtF32.isNan x then fmtF32.quiet x
  else if fmtF32.isInf x then fmtF32.nan 7
  else if isQuarter x || fmtF32.mag x < 2 ^ 23 then
    let q := turns x * 4 / fpOne
    if fmtF32.mag x < 2 ^ 23 || q = 0 then 0x3F800000 else if q = 2 then 0xBF800000 else 0
  else accept 5 x (sinTurns ((turns x + fpOne / 4) % fpOne)) 0 (2 ^ 107)

/-- R139: VTANH.A. -/
def approxTanh (x : Nat) : Nat :=
  let n := fmtF32.neg x
  if fmtF32.isNan x then fmtF32.quiet x
  else if fmtF32.mag x < 2 ^ 23 then fmtF32.code n 0
  else if 0x41100000 ≤ fmtF32.mag x then fmtF32.code n 0x3F800000
  else
    let v := fmtF32.fin true x
    -- 2^w with w = 2 |x| log2 e, split into whole and fraction
    let w := fpMul (2 * (roundAt 0 .rz false v.m (v.e + 128) false : Int)) fpLog2e
    let e := fpExp2 (w % fpOne) * 2 ^ (w / fpOne).toNat
    let t := (e - fpOne) * fpOne / (e + fpOne)
    accept 6 x (if n then -t else t) 0 (2 ^ 107)

end Sys2Proof.Machine
end

