-- ==== Sys2Proof/Machine/LaneFloat.lean ====
section
/-! DEFINITION. Lane float arithmetic: F32, BF16 pairs, the special functions, division and square root (R130 to R141). -/

namespace Sys2Proof.Machine

/-- A float lane operation under the rounding mode and FTZ of %fmt, as read at issue. -/
def floatOp (s : State) (nan : Nat) (f : RMode → Bool → List Word → FRes) : LaneOp :=
  let fm := s.g.rdFmt s.clock
  { f := f (rmOf fm) (ftzOf fm), nan := some nan }
/-- R121: the NaN of a poisoned F32 operand, and of both halves of a BF16 pair. -/
def nanF32 : Nat := 0x7FC00005
def nanBf2 : Nat := 0x7FC57FC5

/-- F32 functions of two and three words. -/
def f2 (f : Nat → Nat → FRes) : List Word → FRes
  | [x, y] => f x.toNat y.toNat
  | _ => .ok 0
def f1 (f : Nat → FRes) : List Word → FRes
  | [x] => f x.toNat
  | _ => .ok 0
def f3 (f : Nat → Nat → Nat → FRes) : List Word → FRes
  | [x, y, z] => f x.toNat y.toNat z.toNat
  | _ => .ok 0

/-- R132, R134: sums, products, fused forms, minima and maxima of F32. -/
def opFadd (s : State) (neg : Bool) : LaneOp := floatOp s nanF32 fun md ftz => f2 (fmtF32.add md ftz neg)
def opFmul (s : State) : LaneOp := floatOp s nanF32 fun md ftz => f2 (fmtF32.mul md ftz)
def opFma (s : State) (np nc : Bool) : LaneOp := floatOp s nanF32 fun md ftz => f3 (fmtF32.fma md ftz np nc)
def opFminmax (s : State) (mx : Bool) : LaneOp := floatOp s nanF32 fun _ ftz => f2 fun x y => .ok (fmtF32.minmax ftz mx x y)

/-- R19, R132: the 16-bit VADD.F32. -/
def execVaddF3216 (o : H16) (s : State) : Out :=
  (opFadd s false).h16 true o s

/-- R19, R132: the 16-bit VSUB.F32. -/
def execVsubF3216 (o : H16) (s : State) : Out :=
  (opFadd s true).h16 true o s

/-- R19, R132: the 16-bit VMUL.F32. -/
def execVmulF3216 (o : H16) (s : State) : Out :=
  (opFmul s).h16 true o s

/-- R19, R132: the 16-bit VMAX.F32. -/
def execVmaxF3216 (o : H16) (s : State) : Out :=
  (opFminmax s true).h16 true o s

/-- R19, R132: the 16-bit VMIN.F32. -/
def execVminF3216 (o : H16) (s : State) : Out :=
  (opFminmax s false).h16 true o s

/-- R132, R133: VADD.F32. -/
def execVaddF32 (o : RDAB) (s : State) : Out :=
  (opFadd s false).ab true o s

/-- R132, R133: VSUB.F32. -/
def execVsubF32 (o : RDAB) (s : State) : Out :=
  (opFadd s true).ab true o s

/-- R132, R133: VMUL.F32. -/
def execVmulF32 (o : RDAB) (s : State) : Out :=
  (opFmul s).ab true o s

/-- R132, R133: VMIN.F32. -/
def execVminF32 (o : RDAB) (s : State) : Out :=
  (opFminmax s false).ab true o s

/-- R132, R133: VMAX.F32. -/
def execVmaxF32 (o : RDAB) (s : State) : Out :=
  (opFminmax s true).ab true o s

/-- R132: VFMA.F32. -/
def execVfmaF32 (o : RDAB) (s : State) : Out :=
  (opFma s false false).abd true o s

/-- R132: VFMS.F32. -/
def execVfmsF32 (o : RDAB) (s : State) : Out :=
  (opFma s false true).abd true o s

/-- R132: VFNMA.F32. -/
def execVfnmaF32 (o : RDAB) (s : State) : Out :=
  (opFma s true false).abd true o s

/-- R134: VADD.F32.S. -/
def execVaddF32S (o : RDAB) (s : State) : Out :=
  (opFadd s false).vs true o s

/-- R134: VMUL.F32.S. -/
def execVmulF32S (o : RDAB) (s : State) : Out :=
  (opFmul s).vs true o s

/-- R134: VMIN.F32.S. -/
def execVminF32S (o : RDAB) (s : State) : Out :=
  (opFminmax s false).vs true o s

/-- R134: VMAX.F32.S. -/
def execVmaxF32S (o : RDAB) (s : State) : Out :=
  (opFminmax s true).vs true o s

/-- R134: VFMA.F32.S. -/
def execVfmaF32S (o : RDAB) (s : State) : Out :=
  (opFma s false false).vsd true o s

/-! ### Signs, classes and exponents (R135) -/

/-- A float operation on bit patterns, which never flushes (R130). -/
def patternOp (f : List Word → FRes) : LaneOp := { f := f, nan := some nanF32 }

/-- R135: VABS.F32. -/
def execVabsF32 (o : RDA) (s : State) : Out :=
  (patternOp (fn1 fun x => x &&& 0x7FFFFFFF)).un false o s

/-- R135: VNEG.F32. -/
def execVnegF32 (o : RDA) (s : State) : Out :=
  (patternOp (fn1 fun x => x ^^^ 0x80000000)).un false o s

/-- R135: VCOPYSIGN. -/
def execVcopysign (o : RDAB) (s : State) : Out :=
  (patternOp (fn2 fun x y => (x &&& 0x7FFFFFFF) ||| (y &&& 0x80000000))).ab false o s

/-- R135: VCLASS, an integer result. -/
def execVclass (o : RDA) (s : State) : Out :=
  ({ f := f1 fun x => .ok (fclass x) } : LaneOp).un false o s

/-- R135: VRINT. -/
def execVrint (o : RDA) (s : State) : Out :=
  (floatOp s nanF32 fun md ftz => f1 (frint md ftz)).un true o s

/-- R135: VFRACT. -/
def execVfract (o : RDA) (s : State) : Out :=
  (floatOp s nanF32 fun _ ftz => f1 (ffract ftz)).un true o s

/-- R135: VSCALB. -/
def execVscalb (o : RDAB) (s : State) : Out :=
  (floatOp s nanF32 fun md ftz => f2 fun x y => fscalb md ftz x (BitVec.ofNat 32 y).toInt).ab true o s

/-- R135: VGETEXP, an integer result. -/
def execVgetexp (o : RDA) (s : State) : Out :=
  ({ f := f1 fun x => .ok (BitVec.ofInt 32 (fgetexp (ftzOf (s.g.rdFmt s.clock)) x)).toNat } : LaneOp).un true o s

/-- R136, R381: VCMPF; a poisoned operand is consumed. -/
def execVcmpf (o : VCAB) (s : State) : Out :=
  .next (vunit .vec o.st.toNat (lenR o.rt)
    (s.g.opdRefs s.clock o.a.toNat (rtA o.rt) ++ s.g.opdRefs s.clock o.b.toNat (rtB o.rt) ++ fmtRefs true) (fun t =>
    compareBody o.p.toNat (t.g.opd t.clock o.a.toNat (rtA o.rt)) (t.g.opd t.clock o.b.toNat (rtB o.rt))
      (fun x y => fmtF32.cmp (ftzOf (t.g.rdFmt t.clock)) o.c.toNat x.toNat y.toNat) t) s)

/-! ### BF16 pairs (R137, R138) -/

/-- R137: each half by itself. -/
def halves2 (f : Nat → Nat → FRes) (x y : Nat) : FRes :=
  let lo := f (x % 65536) (y % 65536)
  let hi := f (x / 65536) (y / 65536)
  ⟨lo.bits + 65536 * hi.bits, lo.ovf || hi.ovf, false⟩
def halves3 (f : Nat → Nat → Nat → FRes) (x y z : Nat) : FRes :=
  let lo := f (x % 65536) (y % 65536) (z % 65536)
  let hi := f (x / 65536) (y / 65536) (z / 65536)
  ⟨lo.bits + 65536 * hi.bits, lo.ovf || hi.ovf, false⟩

/-- R137: VADD.BF2. -/
def execVaddBf2 (o : RDAB) (s : State) : Out :=
  (floatOp s nanBf2 fun md ftz => f2 (halves2 (fmtBF16.add md ftz false))).ab true o s

/-- R137: VSUB.BF2. -/
def execVsubBf2 (o : RDAB) (s : State) : Out :=
  (floatOp s nanBf2 fun md ftz => f2 (halves2 (fmtBF16.add md ftz true))).ab true o s

/-- R137: VMUL.BF2. -/
def execVmulBf2 (o : RDAB) (s : State) : Out :=
  (floatOp s nanBf2 fun md ftz => f2 (halves2 (fmtBF16.mul md ftz))).ab true o s

/-- R137: VMIN.BF2. -/
def execVminBf2 (o : RDAB) (s : State) : Out :=
  (floatOp s nanBf2 fun _ ftz => f2 (halves2 fun x y => .ok (fmtBF16.minmax ftz false x y))).ab true o s

/-- R137: VMAX.BF2. -/
def execVmaxBf2 (o : RDAB) (s : State) : Out :=
  (floatOp s nanBf2 fun _ ftz => f2 (halves2 fun x y => .ok (fmtBF16.minmax ftz true x y))).ab true o s

/-- R137: VFMA.BF2. -/
def execVfmaBf2 (o : RDAB) (s : State) : Out :=
  (floatOp s nanBf2 fun md ftz => f3 (halves3 (fmtBF16.fma md ftz false false))).abd true o s

/-- R138: VDOT2.BF. -/
def execVdot2Bf (o : RDAB) (s : State) : Out :=
  (floatOp s nanF32 fun md ftz => f3 (dot2 md ftz)).abd true o s

/-! ### Special functions, division and square root (R139 to R141) -/

/-- R139: an approximate function, which ignores %fmt. -/
def approxOp (f : Nat → FRes) : LaneOp := { cls := .sfu, lat := 12, f := f1 f, nan := some nanF32 }

/-- R139: VRCP.A. -/
def execVrcpA (o : RDA) (s : State) : Out :=
  (approxOp (fun x => .ok (approxRcp x))).un false o s

/-- R139: VRSQ.A. -/
def execVrsqA (o : RDA) (s : State) : Out :=
  (approxOp (fun x => .ok (approxRsq x))).un false o s

/-- R139: VEX2.A. -/
def execVex2A (o : RDA) (s : State) : Out :=
  (approxOp (approxEx2)).un false o s

/-- R139: VLG2.A. -/
def execVlg2A (o : RDA) (s : State) : Out :=
  (approxOp (fun x => .ok (approxLg2 x))).un false o s

/-- R139: VSIN.A. -/
def execVsinA (o : RDA) (s : State) : Out :=
  (approxOp (fun x => .ok (approxSin x))).un false o s

/-- R139: VCOS.A. -/
def execVcosA (o : RDA) (s : State) : Out :=
  (approxOp (fun x => .ok (approxCos x))).un false o s

/-- R139: VTANH.A. -/
def execVtanhA (o : RDA) (s : State) : Out :=
  (approxOp (fun x => .ok (approxTanh x))).un false o s

/-- R141: a correctly rounded operation of the special-function class. -/
def slowOp (s : State) (f : RMode → Bool → List Word → FRes) : LaneOp :=
  let fm := s.g.rdFmt s.clock
  { cls := .sfu, lat := 20, f := f (rmOf fm) (ftzOf fm), nan := some nanF32 }

/-- R141: VSQRT. -/
def execVsqrt (o : RDA) (s : State) : Out :=
  (slowOp s fun md ftz => f1 (fmtF32.sqrt md ftz)).un true o s

/-- R141: VDIV.F32. -/
def execVdivF32 (o : RDAB) (s : State) : Out :=
  (slowOp s fun md ftz => f2 (fmtF32.div md ftz)).ab true o s

end Sys2Proof.Machine
end

