-- ==== Sys2Proof/Machine/Convert.lean ====
section
/-! DEFINITION. Conversions between number formats (R151 to R161). -/

namespace Sys2Proof.Machine

/-- R153, R154: a conversion: its operands, how many draws it makes in mode SR, and its result from the modes of its
draws and its words. -/
structure ConvOp where
  draws : Nat
  nan : Option Nat := none
  f : (Nat → RMode) → List Word → FRes

/-- R153: the modes of a lane's draws in mode SR, and the lane's state after them. -/
def srModes (r : Rnd) (i : Nat) : RMode := .sr (if i = 0 then r.next.w.toNat else r.next.next.w.toNat)
def srAfter (n : Nat) (r : Rnd) : Rnd := if n = 1 then r.next else r.next.next

/-- R153, R156: a conversion in mode SR: each active lane draws from its own state, and the result is general. -/
def ConvOp.srBody (op : ConvOp) (d : Nat) (os : Group → Nat → List Opd) : M Unit := fun t =>
  let now := t.clock
  let m := t.g.rdMask now
  let xs := os t.g now
  let pz := (xs.foldl (fun p o => p ||| o.pz) 0) &&& m
  let rnd := t.g.rdRnd now
  let res (l : Nat) : FRes :=
    match op.nan with
    | some n => if pz.getLsbD l then .ok n else op.f (srModes (rnd.getD l ⟨0, 0, 0, 0⟩)) (xs.map fun o => o.val.lane l)
    | none => op.f (srModes (rnd.getD l ⟨0, 0, 0, 0⟩)) (xs.map fun o => o.val.lane l)
  let r := eachLane m false res
  let lat := 6 + (xs.map (·.lat)).sum
  match t.g.commitV (now + lat) m [⟨d, r.1, if op.nan.isSome then 0 else pz⟩] with
  | .ok h =>
    let rs := h.rnd.mapIdx fun l q => if m.getLsbD l then srAfter op.draws (rnd.getD l q) else q
    let h := { h.produceIn .rnd (now + lat) m with rnd := rs }
    .ok () { t with g := (if pz = 0 then h else h.ck 0).raiseFlags r.2.1 r.2.2 }
  | .error k => .error (.trap 8 k 127 0) t

/-- R154, R156: a conversion as a unit: in mode SR when sr, else in the mode md. -/
def ConvOp.run (op : ConvOp) (sr : Bool) (md : RMode) (st len d : Nat) (refs : Group → Nat → List Ref)
    (os : Group → Nat → List Opd) (s : State) : Out :=
  if sr then .next (vunit .vec st len (refs s.g s.clock ++ [.rnd]) (op.srBody d os) s)
  else ({ lat := 6, f := op.f fun _ => md, nan := op.nan } : LaneOp).run st len d refs os s

/-- The %fmt a unit issuing now reads. -/
def State.fmtNow (s : State) : Word := s.g.rdFmt s.clock

/-- R157: VUNPK. -/
def execVunpk (o : UFM) (s : State) : Out :=
  ({ lat := 6, nan := some 0x7FC00005,
     f := f1 fun w => convert .f32 .rne false false (elemNum o.t.toNat w o.k.toNat) } : LaneOp).run
    o.st.toNat (lenR o.rt) o.d.toNat (fun g now => g.opdRefs now o.a.toNat (rtA o.rt))
    (fun g now => [g.opd now o.a.toNat (rtA o.rt)]) s

/-- R157: VUNPK2. -/
def execVunpk2 (o : UFM) (s : State) : Out :=
  ({ lat := 6, nan := some 0x7FC57FC5,
     f := f1 fun w => .ok ((convert .bf16 .rne false false (elemNum o.t.toNat w o.k.toNat)).bits
       + 65536 * (convert .bf16 .rne false false (elemNum o.t.toNat w (o.k.toNat + 1))).bits) } : LaneOp).run
    o.st.toNat (lenR o.rt) o.d.toNat (fun g now => g.opdRefs now o.a.toNat (rtA o.rt))
    (fun g now => [g.opd now o.a.toNat (rtA o.rt)]) s

/-- R158: element k of a word replaced by a conversion, with its flags. -/
def packElem (t k : Nat) (r : FRes) (w : FRes) : FRes := ⟨setElem t w.bits k r.bits, w.ovf || r.ovf, w.sat || r.sat⟩
/-- R158: one F32 into element k. -/
def pack1 (fm : Word) (t k : Nat) : ConvOp :=
  { draws := 1, f := fun md ws => match ws with
      | [x, w] => packElem t k (convert (narrowFmt t) (md 0) (ftzOf fm) (nsatOf fm) (fmtF32.num (ftzOf fm) x.toNat)) (.ok w.toNat)
      | _ => .ok 0 }
/-- R158: a BF16 pair into elements k and k + 1, lo first. -/
def pack2 (fm : Word) (t k : Nat) : ConvOp :=
  { draws := 2, f := fun md ws => match ws with
      | [x, w] =>
        packElem t (k + 1) (convert (narrowFmt t) (md 1) (ftzOf fm) (nsatOf fm) (fmtBF16.num (ftzOf fm) (x.toNat / 65536)))
          (packElem t k (convert (narrowFmt t) (md 0) (ftzOf fm) (nsatOf fm) (fmtBF16.num (ftzOf fm) (x.toNat % 65536)))
            (.ok w.toNat))
      | _ => .ok 0 }
/-- R158: a packing unit, which reads d as its third source. -/
def packUnit (o : UFM) (op : ConvOp) (s : State) : Out :=
  op.run (srOf s.fmtNow) (rmOf s.fmtNow) o.st.toNat (lenR o.rt) o.d.toNat
    (fun g now => g.opdRefs now o.a.toNat (rtA o.rt) ++ [.v o.d.toNat, .spr 1])
    (fun g now => [g.opd now o.a.toNat (rtA o.rt), g.third now o.d.toNat]) s

/-- R158: VPACK. -/
def execVpack (o : UFM) (s : State) : Out :=
  packUnit o (pack1 s.fmtNow o.t.toNat o.k.toNat) s

/-- R158: VPACK2. -/
def execVpack2 (o : UFM) (s : State) : Out :=
  packUnit o (pack2 s.fmtNow o.t.toNat o.k.toNat) s

/-- R159: VMXSCALE, an integer result. -/
def execVmxscale (o : UMX) (s : State) : Out :=
  ({ lat := 6, f := f1 fun x => .ok (mxScale o.t.toNat (ftzOf s.fmtNow) x) } : LaneOp).run
    o.st.toNat (lenR o.rt) o.d.toNat (fun g now => g.opdRefs now o.a.toNat (rtA o.rt) ++ [.spr 1])
    (fun g now => [g.opd now o.a.toNat (rtA o.rt)]) s

/-- R160: VSCALE.E8 and its inverse. -/
def scaleE8 (s : State) (inv : Bool) : LaneOp :=
  { lat := 6, nan := some 0x7FC00005, f := f2 fun x y => fscaleE8 (rmOf s.fmtNow) (ftzOf s.fmtNow) inv x (y % 256) }

/-- R160: VSCALE.E8. -/
def execVscaleE8 (o : RDAB) (s : State) : Out :=
  (scaleE8 s false).ab true o s

/-- R160: VSCALE.E8.INV. -/
def execVscaleE8Inv (o : RDAB) (s : State) : Out :=
  (scaleE8 s true).ab true o s

/-- R161: the word formats by code. -/
def wordFmt (c : Nat) : CFmt := match c with | 0 => .f32 | 1 => .bf16 | 2 => .f16 | 3 => .i32 | _ => .n32
/-- R161: a word read in a source format. -/
def wordNum (ftz : Bool) (c w : Nat) : CNum :=
  match c with
  | 0 => fmtF32.num ftz w
  | 1 => fmtBF16.num ftz (w % 65536)
  | 2 => fmtF16.num ftz (w % 65536)
  | 3 => intNum (BitVec.ofNat 32 w).toInt
  | _ => intNum w
/-- R121, R155: what a poisoned word converts to: MakeNaN(5) in a float format. -/
def cvtNan (c : Nat) : Option Nat := match c with | 0 => some 0x7FC00005 | 1 => some 0x7FC5 | 2 => some 0x7E05 | _ => none
/-- R161: the mode a VCVT names, if it does not follow %fmt or draw. -/
def cvtMode (fm : Word) (m : Nat) : RMode :=
  match m with | 1 => .rne | 2 => .rz | 3 => .rp | 4 => .rm | 6 => .rna | _ => rmOf fm

/-- R161: VCVT. -/
def execVcvt (o : CVT) (s : State) : Out :=
  let fm := s.fmtNow
  ({ draws := 1, nan := cvtNan o.v.toNat, f := fun md ws => match ws with
      | [x] => convert (wordFmt o.v.toNat) (md 0) (ftzOf fm) (nsatOf fm) (wordNum (ftzOf fm) o.u.toNat x.toNat)
      | _ => .ok 0 } : ConvOp).run (o.m = 5 || (o.m = 0 && srOf fm)) (cvtMode fm o.m.toNat) o.st.toNat (lenR o.rt) o.d.toNat
    (fun g now => g.opdRefs now o.a.toNat (rtA o.rt) ++ [.spr 1]) (fun g now => [g.opd now o.a.toNat (rtA o.rt)]) s

end Sys2Proof.Machine
end

