-- ==== Sys2Proof/Machine/Fence.lean ====
section
/-! DEFINITION. Fences (R191, R192, R194). Memory is performed when a unit issues (DESIGN CHOICE, log entry 15), so a fence waits for what
is still outstanding of its own group. -/

namespace Sys2Proof.Machine

/-- A unit that waits until the kinds named are not outstanding. -/
def fenceWait (loads stores vectors : Bool) : M Unit := fun s =>
  if s.g.fenceOk s.clock loads stores vectors then .ok () s.performAll
  else .error (.await (.fence loads stores vectors)) s.performAll

/-- R191: FENCE of kind k (0 ACQ, 1 REL, 2 AR, 3 SC) at scope c; at GRP scope it completes at issue. -/
def execFence (o : FN) (s : State) : Out :=
  .next (unit .mem o.st.toNat 4 [] (if o.c = 0 then settleOwn else (do
    if o.k != 0 then postedHold o.c.toNat
    fenceWait true (o.k != 0) false)) s)

/-- R191, R194: FENCE.OPR. -/
def execFenceOpr (o : Z0) (s : State) : Out := .next (unit .mem o.st.toNat 4 [] (fenceWait false true true) s)

/-- R191: FENCE.H: this core's haze lines of the region drain, every contribution of the group placed before; then the
release. -/
def execFenceH (o : FNH) (s : State) : Out :=
  .next (unit .mem o.st.toNat 4 [.s o.a.toNat] (do
    let t ← get
    consumeReg (t.useS o.a.toNat)
    match t.handleRegion t.g.ctx (t.g.rdS t.clock o.a.toNat) false with
    | none => raise 3 0
    | some r =>
      modify fun (u : State) =>
        let v := u.hazeFlush
        (v.hazeLines.filter fun l => l.core == v.g.core && l.region == r.idx).foldl
          (fun (w : State) l => w.drainNow l.core l.line) v
    if o.c = 0 then settleOwn else (do
      postedHold o.c.toNat
      fenceWait true true false)) s)

end Sys2Proof.Machine
end

