-- ==== Sys2Proof/Machine/Haze.lean ====
section
/-! DEFINITION. The haze instructions (R275 to R290) and the events of the haze protocol. -/

namespace Sys2Proof.Machine

/-! ### Regions (R275 to R278) -/

/-- R275: a descriptor's fields. -/
structure HazeDesc where
  base : Nat
  size : Nat
  flags : Nat
  limit : Nat
  rest : Nat
  deriving DecidableEq, Repr

/-- R275: the descriptor in 64 bytes. -/
def HazeDesc.ofNat (x : Nat) : HazeDesc := ⟨bits x 0 64, bits x 64 32, bits x 96 32, bits x 128 32, bits x 160 352⟩
/-- R275: −0 reads as +0 in an F32 region. -/
def HazeDesc.bound (d : HazeDesc) : Word := BitVec.ofNat 32 (if !bit d.flags 0 && d.limit == 2 ^ 31 then 0 else d.limit)
/-- R275, R278: the descriptor is well formed. -/
def HazeDesc.ok (d : HazeDesc) : Bool :=
  d.base % 4096 == 0 && d.size % 4096 == 0 && decide (4096 ≤ d.size ∧ d.size ≤ 2 ^ 30)
    && decide (d.base + d.size ≤ 0x0200000000000000) && decide (d.flags < 4) && d.rest == 0
    && (if bit d.flags 0 then decide (d.limit ≤ 2 ^ 31) else decide (d.limit < 0x7F800000 ∨ d.limit = 2 ^ 31))

/-- R278: the region overlaps one of the context. -/
def State.hazeOverlap (s : State) (ctx : Nat) (d : HazeDesc) : Bool :=
  s.hazeRegions.any fun r => r.live && r.ctx == ctx && decide (d.base < r.base + r.size ∧ r.base < d.base + d.size)
/-- R276: the lowest free entry of the 64 (DESIGN CHOICE, log entry 29). -/
def State.hazeFree (s : State) : Option Nat := (List.range 64).find? fun i => ((s.hazeRegion i).map fun r => !r.live).getD true

/-- R278: a new region in a free entry: its handle (DESIGN CHOICE, log entry 29). -/
def State.hazeAlloc (s : State) (i : Nat) (d : HazeDesc) : Word × State :=
  let gen := (((s.hazeRegion i).map (·.gen)).getD 0 + 1) % 65536
  let r : HazeRegion := ⟨i, d.base, d.size, bit d.flags 0, bit d.flags 1, d.bound, s.g.ctx, gen, true, false, false⟩
  (BitVec.ofNat 32 (gen * 65536 + i), { s with hazeRegions := (s.hazeRegions.filter fun k => k.idx != i) ++ [r] })

/-- R278: HDECL. -/
def execHdecl (o : DA) (s : State) : Out :=
  .next (unit .mem o.st.toNat 4 (sRefs o.a.toNat 2) (do
    settleOwn
    let a ← basePair o.a.toNat
    let l ← checkScalar 64 .rd a
    let t ← get
    let parts := (List.range 8).foldl (fun (x : List Rd × State) i =>
      let r := x.2.readLoc t.g.core t.g.id (l.plus (8 * i)) 8 0 0
      (x.1 ++ [r.1], r.2)) ([], t)
    set parts.2
    -- R381: a poisoned descriptor is a parameter consumed
    if parts.1.any (·.pz) then
      modify fun (u : State) => u.mg (·.ck (poisonBit l))
      throw (.consumed (if l.ty = tyScratch then 1 else 0))
    let d := HazeDesc.ofNat (parts.1.foldr (fun r x => r.val + 2 ^ 64 * x) 0)
    let u ← get
    let r : Word × Bool × State :=
      if !d.ok then (2, false, u)
      else if u.hazeOverlap u.g.ctx d then (3, false, u)
      else match u.hazeFree with
        | none => (1, false, u)
        | some i => let q := u.hazeAlloc i d; (q.1, true, q.2)
    set (r.2.2.mg fun g => (g.nowS o.d.toNat r.1).nowScc r.2.1)) s)

/-! ### Adding and tolerant loads (R279, R283, R285) -/

/-- R214: HZ of the page an address lies in. -/
def State.hazeAllowed (s : State) (va : Nat) : Bool × State :=
  match s.xlate s.g.core s.g.ctx s.g.root va with
  | (.leaf lf, t) => (bit lf.pte 10 && decide (pteType lf.pte ≤ 1), t)
  | (_, t) => (false, t)

/-- R279: the checks of one lane: those of R170, then the region's. -/
def checkHaze (i32 : Bool) (p : Perm) (x : Nat × Nat) : M (Nat × LaneChk × Nat) := do
  let c ← checkLane 4 4 p false x
  match c.2 with
  | .at l =>
    let s ← get
    let r := s.hazeAllowed x.2
    set r.2
    match s.liveRegionAt s.g.ctx x.2 with
    | some h =>
      if h.i32 == i32 && r.1 then return (x.1, .at l, h.idx)
      else if s.g.helper x.1 then return (x.1, .zero, 0) else throw (.trap 3 0 x.1 x.2)
    | none => if s.g.helper x.1 then return (x.1, .zero, 0) else throw (.trap 3 0 x.1 x.2)
  | y => return (x.1, y, 0)

/-- R283: one lane's contribution: into the core's haze line when it stands and nothing is before it, otherwise sent. -/
def State.contribute (s : State) (tag : Nat) (l : Loc) (lpol region : Nat) (x : Word) (pz : Bool) : State :=
  let line := lineOf l.key
  let elem := l.key % 64 / 4
  match s.hazeLine? s.g.core line with
  | some h =>
    if s.hazeNet.any fun m => m.adds == some (s.g.core, line) then s.sendHaze (.add s.g.id tag s.g.core line region elem l.slice lpol x pz)
    else s.addPartial s.g.id tag h elem lpol x pz
  | none => s.sendHaze (.add s.g.id tag s.g.core line region elem l.slice lpol x pz)

/-- R283: HADD. -/
def hadd (i32 : Bool) (o : MF) (s : State) : Out :=
  .next (vunit .memv o.st.toNat (lenRM o.rt o.mq) (memRefs s o.a.toNat o.b.toNat o.rt ++ dataRefs o.d.toNat 1) (do
    awaitCtr .st
    settleOwn
    let f ← offsetAddrs o.a.toNat o.b.toNat o.rt
    let t ← get
    let xs ← (t.g.storing t.clock).mapM fun l => checkHaze i32 .w (l, (f l).1)
    let u ← get
    let tag := u.nextId
    let v := t.g.rdV t.clock o.d.toNat
    let u := xs.foldl (fun (w : State) x => match x.2.1 with
      | .at l =>
        let pz := v.poison.getLsbD x.1
        (if pz then w.mg (·.ck 0) else w).contribute tag l (lpol o.mq) x.2.2 (v.lane x.1) pz
      | _ => w) { u with nextId := tag + 1 }
    set u
    post { donePend .st .haze [] with tag := tag, done := !hazeOut u.hazeNet u.g.id tag u.g.core }) s)
/-- R283: HADD.F32. -/
def execHaddF32 (o : MF) (s : State) : Out := hadd false o s
/-- R283: HADD.I32. -/
def execHaddI32 (o : MF) (s : State) : Out := hadd true o s

/-- A share as a number scaled by 2^149. -/
def shareScaled (i32 : Bool) (x : Word) : Nat :=
  if i32 then x.toNat * 2 ^ 149 else (fmtF32.fin false x.toNat).m * 2 ^ ((fmtF32.fin false x.toNat).e + 149).toNat
/-- R285: ε scaled by 2^149; 127 is exact. -/
def epsScaled (t : Nat) : Nat := if t = 127 then 0 else 2 ^ (t + 85)

/-- R285: holders in descending share, ties in ascending core index. -/
def insertHolder (h : Nat × Word) : List (Nat × Word) → List (Nat × Word)
  | [] => [h]
  | k :: r => if k.2.toNat < h.2.toNat || (k.2 = h.2 && decide (h.1 < k.1)) then h :: k :: r else k :: insertHolder h r
/-- R285: the holders named, while the sum of the rest passes ε. -/
def forcedNames (i32 : Bool) (eps : Nat) : Nat → List (Nat × Word) → List Nat
  | _, [] => []
  | b, h :: r => if b ≤ eps then [] else h.1 :: forcedNames i32 eps (b - shareScaled i32 h.2) r
/-- R285: the home names holders of a line and adds their partials. -/
def State.tolerate (s : State) (i32 : Bool) (eps line : Nat) : State :=
  match s.hazeHome? line with
  | none => s
  | some h =>
    let hs := h.holders.foldr insertHolder []
    s.forcedSet (forcedNames i32 eps ((hs.map fun k => shareScaled i32 k.2).sum) hs) line

/-- R285: the line a lane reads is answered from its home values. -/
def State.readHome (s : State) (l : Loc) (lp sp : Nat) : Rd × State :=
  let t := (s.findErrors s.g.ctx l.key 4 false).touch s.g.core s.g.id l 4 lp sp false
  (⟨t.memRead l.key 4, t.memPoisoned l.key 4, false⟩, t)

/-- R285: HLD. -/
def hld (i32 : Bool) (o : MF) (s : State) : Out :=
  .next (vunit .memv o.st.toNat (lenRM o.rt o.mq) (memRefs s o.a.toNat o.b.toNat o.rt) (do
    awaitCtr .ld
    settleOwn
    let f ← offsetAddrs o.a.toNat o.b.toNat o.rt
    let t ← get
    let m := t.g.rdMask t.clock
    let xs ← (lanesOf m).mapM fun l => checkHaze i32 .rd (l, (f l).1)
    claimSlots [o.d.toNat]
    let u ← get
    let u := u.hazeFlush
    let eps := epsScaled (match o.mq with | some q => q.tol.toNat | none => 127)
    let locs := xs.filterMap fun x => match x.2.1 with | .at l => some (x.1, l) | _ => none
    let lines := (locs.map fun x => lineOf x.2.key).eraseDups
    let u := lines.foldl (fun (w : State) line => w.tolerate i32 eps line) u
    let r := locs.foldl (fun (a : List (Nat × Loc × Rd) × State) x =>
      let q := a.2.readHome x.2 (lpol o.mq) (spol o.mq)
      (a.1 ++ [(x.1, x.2, q.1)], q.2)) ([], u)
    set r.2
    post (donePend .ld .load (loadWrites o.d.toNat 1 4 m false r.1 ++ readFlags (r.1.map (·.2))))) s)
/-- R285: HLD.F32. -/
def execHldF32 (o : MF) (s : State) : Out := hld false o s
/-- R285: HLD.I32. -/
def execHldI32 (o : MF) (s : State) : Out := hld true o s

/-! ### Draining, ending, querying (R287, R288) -/

/-- R287: HDRAIN and HEND: one forced-drain set for every line of the region that has holders. -/
def drainRegion (o : A1) (last : Bool) (s : State) : Out :=
  .next (unit .mem o.st.toNat 4 [.s o.a.toNat] (do
    awaitCtr .st
    settleOwn
    let t ← get
    consumeReg (t.useS o.a.toNat)
    match t.handleRegion t.g.ctx (t.g.rdS t.clock o.a.toNat) false with
    | none => raise 3 0
    | some r =>
      let u := t.hazeFlush
      let tag := u.nextId
      let u := if last then { u with hazeRegions := u.hazeRegions.map fun k => if k.idx = r.idx then { k with retiring := true } else k }
               else u
      let hs := u.hazeHomes.filter fun h => h.region == r.idx
      let u := hs.foldl (fun (w : State) h =>
        w.sendHaze (.forced (h.holders.map (·.1)) h.line r.idx last w.g.id tag)) { u with nextId := tag + 1 }
      set (if last then u.hazeEnd r.idx else u)
      post { donePend .st .hazeDrain [] with tag := tag, done := hs.isEmpty }) s)
/-- R287: HDRAIN. -/
def execHdrain (o : A1) (s : State) : Out := drainRegion o false s
/-- R287: HEND. -/
def execHend (o : A1) (s : State) : Out := drainRegion o true s

/-- R288: the status word of a region. -/
def HazeRegion.status (r : HazeRegion) : Word :=
  BitVec.ofNat 32 ((if r.i32 then 1 else 0) + (if r.arr then 2 else 0) + (if r.ovh then 4 else 0) + (if r.retiring then 8 else 0))

/-- R288: HQUERY. -/
def execHquery (o : DA) (s : State) : Out :=
  .next (unit .mem o.st.toNat 4 [.s o.a.toNat] (do
    let t ← get
    consumeReg (t.useS o.a.toNat)
    let r : Word × Word × Bool := match t.handleRegion t.g.ctx (t.g.rdS t.clock o.a.toNat) true with
      | some r => (BitVec.ofNat 32 (t.hazeLines.filter fun l => l.core == t.g.core && l.region == r.idx).length, r.status, true)
      | none => (0xFFFFFFFF, 0xFFFFFFFF, false)
    modify fun (u : State) => u.mg fun g => ((g.nowS o.d.toNat r.1).nowS (o.d.toNat + 1) r.2.1).nowScc r.2.2) s)

/-! ### The events of the protocol (R281 to R285) -/

/-- Serves message n when it is of the kind the event names. -/
def State.serveIf (s : State) (n : Nat) (k : HazeMsg → Bool) : State :=
  if ((s.hazeNet[n]?).map k).getD false then s.hazeServe n else s

/-- R281: HAZE_SHARE_REQUEST. -/
def execHazeShareRequest (n : Nat) (s : State) : Out :=
  .next (s.serveIf n fun m => match m with | .shareRequest _ _ _ _ => true | .add _ _ _ _ _ _ _ _ _ _ => true | _ => false)
/-- R281: RECALL. -/
def execRecall (n : Nat) (s : State) : Out :=
  .next (s.serveIf n fun m => match m with | .recall _ _ _ _ _ _ => true | _ => false)
/-- R281: RECALL_ACK. -/
def execRecallAck (n : Nat) (s : State) : Out :=
  .next (s.serveIf n fun m => match m with | .recallAck _ _ _ _ _ _ _ => true | _ => false)
/-- R281: GRANT. -/
def execGrant (n : Nat) (s : State) : Out :=
  .next (s.serveIf n fun m => match m with | .grant _ _ _ _ => true | _ => false)
/-- R280, R281: HAZE_RETURN: a core gives a line up, as it does when its place in the L1 is taken. -/
def execHazeReturn (core line : Nat) (s : State) : Out := .next (s.hazeReturn core line)
/-- R285: FORCED_DRAIN. -/
def execForcedDrain (n : Nat) (s : State) : Out :=
  .next (s.serveIf n fun m => match m with | .forced _ _ _ _ _ _ => true | _ => false)
/-- R284: DRAIN. -/
def execDrain (n : Nat) (s : State) : Out :=
  .next (s.serveIf n fun m => match m with | .drain _ _ _ _ _ _ _ => true | .ret _ _ _ _ _ => true | _ => false)
/-- R284: FAR_ADD. -/
def execFarAdd (n : Nat) (s : State) : Out :=
  .next (s.serveIf n fun m => match m with | .farAdd _ _ _ _ _ _ _ _ _ => true | _ => false)

end Sys2Proof.Machine
end

