-- ==== Sys2Proof/Machine/Locks.lean ====
section
/-! DEFINITION. The lock instructions (R231 to R243) and the events of the bead chain. -/

namespace Sys2Proof.Machine

/-- R231: the line a lock instruction names, none where the lock is not supported there. -/
def lockLine (a : Nat) : M (Option Loc) := fun s =>
  match apertureOf a with
  | none => .error (.trap 3 0 127 a) s
  | some .global =>
    match s.checkPage s.g.core s.g.ctx s.g.root s.g.priv a .w with
    | (.ok l, t) =>
      if 1 < l.ty then .ok none t
      else if t.typeOk l.key l.ty s.g.priv then .ok (some { l with key := lineOf l.key }) t
      else .error (.trap 3 0 127 a) t
    | (.trap c, t) => .error (.trap c 0 127 a) t
    | (.busy, t) => .error (.hold (t.clock + 1)) t
    | (.poison, t) => .error (.consumed 0) (t.mg (·.ck 1))
    | (.nonres p, t) => .error (.page p true 127 a) t
  | some _ => .ok none s

/-- What a lock instruction starts with: the group's earlier operations, its address, its line. -/
def lockAddr (a : Nat) : M (Option Loc) := do
  settleOwn
  let base ← basePair a
  lockLine base

/-- A status at once. -/
def lockStatus (d st : Nat) : M Unit := modify fun (s : State) => s.mg fun g => g.nowS d (BitVec.ofNat 32 st)

/-- The group waits for a lock whose request is on its way to the home. -/
def State.askLock (s : State) (l : Loc) (d : Nat) (try_ : Bool) (deadline : Option Nat) : State :=
  (s.mg fun g => { g with wait := .lock l.key d deadline }).sendLock (.request s.g.id s.g.core l d try_)

/-- R236: LLOCK. -/
def execLlock (o : DAB) (s : State) : Out :=
  .next (unit .mem o.st.toNat 4 (sRefs o.a.toNat 2 ++ [.s o.b.toNat]) (do
    let t ← get
    consumeReg (t.useS o.b.toNat)
    let n := (t.g.rdS t.clock o.b.toNat).toNat
    match ← lockAddr o.a.toNat with
    | none => lockStatus o.d.toNat 7
    | some l => modify fun (u : State) => u.askLock l o.d.toNat false (if n = 0 then none else some (u.clock + n))) s)

/-- R241: LTRY. -/
def execLtry (o : DA) (s : State) : Out :=
  .next (unit .mem o.st.toNat 4 (sRefs o.a.toNat 2) (do
    match ← lockAddr o.a.toNat with
    | none => lockStatus o.d.toNat 7
    | some l => modify fun (u : State) => u.askLock l o.d.toNat true none) s)

/-- R237: LUNLOCK. -/
def execLunlock (o : DA) (s : State) : Out :=
  .next (unit .mem o.st.toNat 4 (sRefs o.a.toNat 2) (do
    releaseHold
    match ← lockAddr o.a.toNat with
    | none => lockStatus o.d.toNat 7
    | some l =>
      let t ← get
      match t.lockEntry l.key with
      | some e =>
        if e.holder = some t.g.id then
          modify fun (u : State) => (u.mg fun g => { g with wait := .unlock l.key o.d.toNat }).giveUp e u.g.id u.g.core false
        else lockStatus o.d.toNat 6
      | none => lockStatus o.d.toNat 6) s)

/-- R242: LQUERY. -/
def execLquery (o : DA) (s : State) : Out :=
  .next (unit .mem o.st.toNat 4 (sRefs o.a.toNat 2) (do
    let l ← lockAddr o.a.toNat
    let t ← get
    let r : Word × Word := match l with
      | none => (0xFFFFFFFF, 0xFFFFFFFF)
      | some l => match t.lockEntry l.key with
        | none => (0xFFFFFFFF, 0)
        | some e => ((match e.holder with | some h => BitVec.ofNat 32 (t.gidOf h) | none => 0xFFFFFFFF),
            BitVec.ofNat 32 e.waiters.length)
    modify fun (u : State) => u.mg fun g => (g.nowS o.d.toNat r.1).nowS (o.d.toNat + 1) r.2) s)

/-- R188, R195, R243: a held line is taken from its holder as if abandoned: what the holder has issued comes before the next holder,
its queued term jobs too. -/
def State.breakLock (s : State) (e : LockEntry) : State :=
  let h := e.holder.getD 0
  let t := s.onGroup h State.performAll
  let from_ := ((t.group? h).map (·.core)).getD 0
  t.passOn e from_ true ((t.termQ.filter fun u => u.grp == h).map fun u => (u.grp, u.tag))

/-- R243: LBREAK. -/
def execLbreak (o : DA) (s : State) : Out :=
  s.needsPriv true o.st.toNat (unit .mem o.st.toNat 4 (sRefs o.a.toNat 2) (do
    match ← lockAddr o.a.toNat with
    | none => lockStatus o.d.toNat 7
    | some l =>
      let u ← get
      match u.lockEntry l.key with
      | some e =>
        if e.holder.isSome then
          set (u.breakLock e)
          lockStatus o.d.toNat 0
        else lockStatus o.d.toNat 6
      | none => lockStatus o.d.toNat 6) s)

/-! ### The events of the chain (R234, R235, R237, R240) -/

/-- Serves message n when it is of the kind the event names. -/
def State.lockServeIf (s : State) (n : Nat) (k : LockMsg → Bool) : State :=
  if ((s.lockNet[n]?).map k).getD false then s.lockServe n else s

/-- R235: LOCK_REQUEST. -/
def execLockRequest (n : Nat) (s : State) : Out :=
  .next (s.lockServeIf n fun m => match m with | .request _ _ _ _ _ => true | _ => false)
/-- R234: LINK. -/
def execLink (n : Nat) (s : State) : Out :=
  .next (s.lockServeIf n fun m => match m with | .link _ _ => true | _ => false)
/-- R237: LOCK_HANDOVER. -/
def execLockHandover (n : Nat) (s : State) : Out :=
  .next (s.lockServeIf n fun m => match m with | .handover _ _ _ _ => true | _ => false)
/-- R237: RELEASE_REQUEST. -/
def execReleaseRequest (n : Nat) (s : State) : Out :=
  .next (s.lockServeIf n fun m => match m with | .release _ _ _ _ => true | _ => false)
/-- R240: LOCK_TIMEOUT. -/
def execLockTimeout (grp : Nat) (s : State) : Out := .next (s.lockTimeout grp)

end Sys2Proof.Machine
end

