-- ==== Sys2Proof/Machine/Maintain.lean ====
section
/-! DEFINITION. TLBINV and HARVEST (R217, R218), the events that complete memory units (R71, R171, R217, R218), and the
events of walks, shares, the directory and write-backs (R202, R203, R205, R206, R209, R213). -/

namespace Sys2Proof.Machine

/-! ### TLBINV (R217) -/

/-- Every group's element operations in flight are performed. -/
def State.performEverywhere (s : State) : State :=
  (s.others.map (·.id)).foldl (fun (t : State) id => t.onGroup id State.performAll) s.performAll

/-- R217: the entry maps part of the range; a length of 0 names every page. -/
def Tlb.inRange (t : Tlb) (ctx base n : Nat) : Bool :=
  t.ctx == ctx && (n == 0 || decide (t.va < base + n ∧ base < t.va + t.size))

/-- R217: the physical addresses of the range that an entry maps: first address and length. -/
def Tlb.physical (t : Tlb) (base n : Nat) : Nat × Nat :=
  let lo := if n = 0 then t.va else max base t.va
  let hi := if n = 0 then t.va + t.size else min (base + n) (t.va + t.size)
  (ptePa t.pte.toNat + (lo - t.va), hi - lo)

/-- R217: the lines of a physical range leave every L1, slice and proxy, dirty bytes written; no directory names a copy of them. -/
def State.flushRange (s : State) (r : Nat × Nat) : State :=
  let hit (line : Nat) : Bool := overlaps line 64 r.1 r.2
  let t := (s.l1.filter fun l => !l.haze && hit l.line).foldl (fun (u : State) l => (u.l1WriteBack l).l1Drop l.core l.line) s
  { t with slices := t.slices.filter fun l => !hit l.line, proxies := t.proxies.filter fun p => !hit p.line,
           dir := t.dir.map fun (d : DirEntry) => if hit d.line then { d with cores := 0, remote := 0, owner := none } else d }

/-- R217: a walker-cache or miss-table entry maps part of the range. -/
def WalkEntry.inRange (e : WalkEntry) (ctx base n : Nat) : Bool :=
  e.ctx == ctx && (n == 0 || decide (e.pre * 2 ^ e.shift < base + n ∧ base < (e.pre + 1) * 2 ^ e.shift))
def MissEntry.inRange (m : MissEntry) (ctx base n : Nat) : Bool :=
  m.ctx == ctx && (n == 0 || decide (m.va < base + n ∧ base < m.va + m.size))

/-- R217: what was translated through the entries of a range of a context is performed, the entries are dropped, and with the
flush the lines they map. -/
def State.tlbInvalidate (s : State) (ctx base n : Nat) (flush : Bool) : State :=
  let s := s.performEverywhere.hazeFlush
  let hit := s.tlb.filter fun t => t.inRange ctx base n
  let t := { s with tlb := s.tlb.filter fun t => !t.inRange ctx base n,
                    walkCache := s.walkCache.filter fun e => !e.inRange ctx base n,
                    misses := s.misses.filter fun m => !m.inRange ctx base n }
  if flush then hit.foldl (fun (u : State) e => u.flushRange (e.physical base n)) t else t
/-- R217: a LAUNCH of the context still has its packet, which lies in the range, to be read. -/
def State.launchPending (s : State) (ctx base n : Nat) : Bool :=
  s.launchQ.any fun r => ((s.group? r.grp).map (·.ctx)) == some ctx && (n == 0 || overlaps r.va 128 base n)

/-- R217: TLBINV. -/
def execTlbinv (o : DAB) (s : State) : Out :=
  s.needsPriv true o.st.toNat (unit .mem o.st.toNat 4 (sRefs o.a.toNat 2 ++ [.s o.b.toNat, .s o.d.toNat]) (do
    awaitCtr .st
    settleOwn
    let base ← basePair o.a.toNat
    let t ← get
    consumeReg (t.useS o.b.toNat || t.useS o.d.toNat)
    let x := (t.g.rdS t.clock o.d.toNat).toNat
    let n := (t.g.rdS t.clock o.b.toNat).toNat
    if t.launchPending (x % 4096) base n then throw (.hold (t.clock + 1))
    modify fun (u : State) => u.tlbInvalidate (x % 4096) base n (bit x 12)
    post (donePend .st .tlbinv [])) s)

/-! ### HARVEST (R218, R219) -/

/-- R218: one leaf: DTY set, its record cleared, its TLB entries dropped (DEDUCED, log entry 28). -/
def State.harvestLeaf (s : State) (at_ e size : Nat) : Bool × State :=
  let lo := ptePa e / 65536
  let mine (p : Nat) : Bool := decide (lo ≤ p ∧ p < lo + size / 65536)
  if s.wrec.any mine then
    (true, { (s.memWrite at_ 8 (e ||| 2 ^ 12)) with wrec := s.wrec.filter (fun p => !mine p),
                                                    tlb := s.tlb.filter fun t => t.pteAddr != at_ })
  else (false, s)

/-- R218: the leaves of a range, in ascending address, by fuel. -/
def State.harvestFrom (s : State) (root : Nat) : Nat → Nat → Nat → Nat → Nat × State
  | 0, _, _, n => (n, s)
  | f + 1, a, stop, n =>
    if stop ≤ a ∨ 0x0200000000000000 ≤ a then (n, s)
    else
      let s := s.walkFind s.g.ctx a root walkLevels
      match s.walk a root walkLevels with
      | none => State.harvestFrom s root f ((a / 65536 + 1) * 65536) stop n
      | some (at_, e, size) =>
        let r := s.harvestLeaf at_ e size
        State.harvestFrom r.2 root f ((a / size + 1) * size) stop (if r.1 then n + 1 else n)

/-- R218: HARVEST. -/
def execHarvest (o : DAB) (s : State) : Out :=
  s.needsPriv true o.st.toNat (unit .mem o.st.toNat 4 (sRefs o.a.toNat 2 ++ [.s o.b.toNat]) (do
    awaitCtr .ld
    settleOwn
    let base ← basePair o.a.toNat
    let t ← get
    consumeReg (t.useS o.b.toNat)
    let n := (t.g.rdS t.clock o.b.toNat).toNat
    let r := t.harvestFrom t.g.root (n / 65536 + 2) base (base + n) 0
    set r.2
    post (donePend .ld .harvest [.sreg o.d.toNat (BitVec.ofNat 32 r.1) false false])) s)

/-! ### Events that complete counted units (R71) -/

/-- The oldest operation a counter counts is of a kind the event names: it completes if it is done. -/
def State.complete (s : State) (grp : Nat) (c : Ctr) (kind : PendKind → Bool) : State :=
  if ((s.group? grp).bind fun g => (g.pend.find? fun p => p.ctr == c).map fun p => kind p.kind).getD false then s.retire grp c
  else s

/-- R171: LOAD_RETURN. -/
def execLoadReturn (grp : Nat) (s : State) : Out := .next (s.complete grp .ld fun k => k == .load || k == .pageReq)
/-- R71: STORE_PERFORMED. -/
def execStorePerformed (grp : Nat) (s : State) : Out := .next (s.complete grp .st fun k => k != .tlbinv)
/-- R217: TLBINV_COMPLETION. -/
def execTlbinvCompletion (grp : Nat) (s : State) : Out := .next (s.complete grp .st fun k => k == .tlbinv)
/-- R218: HARVEST_COMPLETION. -/
def execHarvestCompletion (grp : Nat) (s : State) : Out := .next (s.complete grp .ld fun k => k == .harvest)

/-! ### Walks, shares, the directory, write-backs -/

/-- R213: PAGE_WALK: a walker completes a walk for a core; a context's root is that of its groups. -/
def execPageWalk (core ctx : Nat) (va : BitVec 64) (s : State) : Out :=
  .next (match s.groups.find? fun g => g.core == core && g.ctx == ctx && g.running with
    | some g => if apertureOf va.toNat = some .global then (s.xlate core ctx g.root va.toNat).2 else s
    | none => s)
/-- R203: SHARE_REQUEST. -/
def execShareRequest (n : Nat) (s : State) : Out := .next (s.shareServe n)
/-- R202: SHARE_ACK. -/
def execShareAck (n : Nat) (s : State) : Out := .next (s.shareAckServe n)
/-- R205: MISS_REQUEST: a miss of a core for a line reaches the home its directory entry names. -/
def execMissRequest (core line : Nat) (excl : Bool) (s : State) : Out :=
  .next (match s.dirEntry (lineOf line) with
    | some d => s.missRequest core d.line d.slice excl
    | none => s)
/-- R206: INVALIDATION. -/
def execInvalidation (n : Nat) (s : State) : Out := .next (s.invalidate n)
/-- R206: INVALIDATION_ACK. -/
def execInvalidationAck (n : Nat) (s : State) : Out := .next (s.invalidateAck n)
/-- R206, R209: WRITE_BACK: a core's line is written back on eviction, and a dirty one clears its bit in the directory. -/
def execWriteBack (core line : Nat) (s : State) : Out :=
  .next (match s.l1Find core (lineOf line) with
    | some l => s.l1Evict l
    | none => s)

end Sys2Proof.Machine
end

