-- ==== Sys2Proof/Machine/Engines.lean ====
section
/-! DEFINITION. The engine and sync-word instructions (R297 to R304) and the events of the engines (R300, R301). -/

namespace Sys2Proof.Machine

/-- A special register as a unit issuing now reads it. -/
def Group.rdSpr (g : Group) (now n : Nat) : Word :=
  match g.stale now (.spr n) with
  | some (.word x _) => x
  | _ => g.rawSpr n

/-! ### Sync words (R297) -/

/-- R297: the checked key of a sync word. -/
def syncKey (a : Nat) (p : Perm) : M Nat := do
  let addr ← basePair a
  if addr % 8 != 0 then throw (.trap 2 0 127 addr)
  match apertureOf addr with
  | some .scratch => let l ← checkScalar 8 p addr; return l.key
  | some .cloud => let l ← checkScalar 8 p addr; return l.key
  | _ => throw (.trap 3 0 127 addr)

/-- R297: a sync-word unit that writes the word; SWARR is a release (R188). -/
def syncUnit (release : Bool) (o : AB) (f : Nat → Nat → Nat) (s : State) : Out :=
  .next (unit .mem o.st.toNat 4 (sRefs o.a.toNat 2 ++ [.s o.b.toNat]) (do
    awaitCtr .st
    if release then releaseHold
    settleOwn
    let t ← get
    consumeReg (t.useS o.b.toNat)
    let k ← syncKey o.a.toNat .w
    modify fun (u : State) => u.syncWrite u.g.ctx k fun w => f w (t.g.rdS t.clock o.b.toNat).toNat
    post (donePend .st .sync [])) s)
/-- R297: SWSET. -/
def execSwset (o : AB) (s : State) : Out := syncUnit false o setWord s
/-- R295, R297: SWARR. -/
def execSwarr (o : AB) (s : State) : Out := syncUnit true o arriveWord s

/-- R297: SWWAIT. -/
def execSwwait (o : AB) (s : State) : Out :=
  .next (unit .mem o.st.toNat 4 (sRefs o.a.toNat 2 ++ [.s o.b.toNat]) (do
    settleOwn
    let t ← get
    consumeReg (t.useS o.b.toNat)
    let k ← syncKey o.a.toNat .rd
    let gen := (t.g.rdS t.clock o.b.toNat).toNat % 65536
    modify fun (u : State) => u.findErrors u.g.ctx k 8 false
    let t ← get
    -- a poisoned word is compared (R381)
    if t.memPoisoned k 8 then
      modify fun (u : State) => u.mg (·.ck 2)
      throw (.consumed 1)
    if t.memRead (k + 6) 2 = gen then throw (.await (.sync k gen))) s)

/-- R297: SWREAD. -/
def execSwread (o : DA) (s : State) : Out :=
  .next (unit .mem o.st.toNat 4 (sRefs o.a.toNat 2) (do
    awaitCtr .ld
    settleOwn
    let k ← syncKey o.a.toNat .rd
    let t ← get
    let l : Loc := ⟨k, tyScratch, t.g.core, false⟩
    let r := t.readLoc t.g.core t.g.id l 8 0 0
    set r.2
    post (donePend .ld .load ([RegWrite.sreg o.d.toNat (BitVec.ofNat 32 r.1.val) r.1.pz false,
      RegWrite.sreg (o.d.toNat + 1) (BitVec.ofNat 32 (r.1.val / 2 ^ 32)) r.1.pz false] ++ readFlags [(l, r.1)]))) s)

/-! ### The checks of a command (R298, R299) -/

/-- A range of a command: where it starts, its bytes, the buffers it may lie in, whether the global window is allowed, and
whether the cloud window is. -/
structure CmdRange where
  a : Nat
  n : Nat
  bufs : List Nat
  global : Bool
  cloud : Bool
  deriving DecidableEq, Repr

/-- R298, check 5: the trap of a range, by cause. A range that breaches the table of R162 or R299 and R16 too is a protection violation
(DESIGN CHOICE, log entry 36). -/
def State.rangeTrap (s : State) (r : CmdRange) : Option Nat :=
  if r.n = 0 then none
  else
    let inScratch (off : Nat) : Option Nat :=
      if off < 0x140000 && !r.bufs.contains (bufOf off) then some 3
      else match (s.steer s.g 0 r.a r.n .w).1 with
        | .trap c => some c
        | _ => none
    match apertureOf r.a with
    | some .global => if r.global then none else some 3
    | some .scratch => inScratch (r.a - 0xFFE0000000000000)
    | some .cloud => if r.cloud then inScratch ((r.a - 0xFFE1000000000000) % 2 ^ 21) else some 3
    | _ => some 3
/-- R298, check 6: a global range passes the window's end. -/
def CmdRange.passes (r : CmdRange) : Bool :=
  decide (0 < r.n) && apertureOf r.a == some .global && decide (0x0200000000000000 < r.a + r.n)

/-- R298: checks 5 and 6 of a command's ranges (DEDUCED, log entry 36). -/
def checkRanges (rs : List CmdRange) : M Unit := do
  let s ← get
  match rs.find? fun r => (s.rangeTrap r).isSome with
  | some r => throw (.trap ((s.rangeTrap r).getD 3) 0 127 r.a)
  | none =>
    match rs.find? CmdRange.passes with
    | some r => throw (.trap 3 0 127 r.a)
    | none => pure ()

/-- R298: check 3 or 4 of a command: the trap of a cause unless the condition holds. -/
def require (c : Bool) (cause : Nat) : M Unit := if c then pure () else raise cause 0

/-- R162, R299: where the rows of CPYG may come from: the global window, or buffer C; each row is checked when it is reached (R302). -/
def checkGather (a n : Nat) : M Unit := do
  let s ← get
  let ok (off : Nat) : Bool := decide (0x140000 ≤ off) || bufOf off == 2
  let bad : Option Nat :=
    if n = 0 then none
    else match apertureOf a with
      | some .global => none
      | some .scratch => if ok (a - 0xFFE0000000000000) then none else some 3
      | some .cloud =>
        if !ok ((a - 0xFFE1000000000000) % 2 ^ 21) then some 3
        else if (s.steer s.g 0 a 1 .rd).1 == .trap 9 then some 9 else none
      | _ => some 3
  match bad with
  | some c => throw (.trap c 0 127 a)
  | none => pure ()

/-- R299: what a copy may read and write. -/
def copySrc (a n : Nat) : CmdRange := ⟨a, n, [2], true, true⟩
def copyDst (a n : Nat) : CmdRange := ⟨a, n, [0, 1, 2], true, true⟩
/-- The bytes from the first to the last of r rows of n bytes. -/
def rowsSpan (r n pitch : Nat) : Nat := if r = 0 ∨ n = 0 then 0 else (r - 1) * pitch + n

/-- R302: the members a CPYW mask names. -/
def maskMembers (m : Nat) : List Nat := (List.range 48).filter fun i => bit m i
/-- R302: the members of the issuing workgroup's cloud. -/
def State.memberCount (s : State) : Nat := ((s.wg? s.g.wg).map (·.members)).getD 1

/-- R298, R302, R304: the checks of a command from its third on (DEDUCED, log entry 36). -/
def checkCommand (c : EngCmd) : M Unit := do
  let s ← get
  match c.op with
  | 0 => checkRanges [copySrc c.src c.b0, copyDst c.dst c.b0]
  | 1 =>
    require (c.b0 * c.b1 < 2 ^ 32) 3
    checkRanges [copySrc c.src (rowsSpan c.b0 c.b1 c.b2), copyDst c.dst (rowsSpan c.b0 c.b1 c.b3)]
  | 2 =>
    require (c.b0 < 65536 && c.b1 < 65536) 3
    require (c.b3 % 4 == 0) 2
    checkGather c.src (c.b0 * c.b1)
    checkRanges [copyDst c.dst (c.b0 * c.b1), ⟨0xFFE0000000000000 + c.b3, 4 * c.b0, [2], false, false⟩]
  | 3 =>
    require (bits c.b0 24 2 != 3 && bits c.b0 26 6 == 0) 3
    require (c.src % 4 == 0 && c.dst % 4 == 0) 2
    checkRanges [copySrc c.src (bits c.b0 0 24 * (4 + 32 * c.zSize)), copyDst c.dst (bits c.b0 0 24 * 32 * c.zSize)]
  | 4 =>
    require (c.b2 < 65536 && c.b3 == 0) 3
    require (c.members.all fun m => m < s.memberCount) 9
    checkRanges [⟨c.src, c.b0, [2], true, false⟩, ⟨c.dst, if c.members.isEmpty then 0 else c.b0, [0, 1, 2], false, false⟩]
  | _ =>
    require (0 < c.b0 && c.b1 % 64 == 0 && 64 ≤ c.b1) 3
    require (decide (8 ≤ bits c.b2 0 6 ∧ bits c.b2 0 6 ≤ 32) && bits c.b2 6 2 == 0 && bits c.b2 8 2 != 3 && bits c.b2 10 6 == 0
      && bits c.b2 24 8 == 0) 3
    require (if c.op = 6 then bits c.b3 16 16 != 0 else bits c.b3 16 16 == 0) 3
    require (c.dst % 64 == 0) 2
    checkRanges [⟨c.src, c.b0, [], true, false⟩, ⟨0xFFE0000000000000 + c.dst, c.b1, [1], false, false⟩]

/-- R298: issues a command of the engines: its parameters latched, its checks made, handed on. -/
def command (op nd nb : Nat) (o : DAB) (s : State) : Out :=
  .next (unit .mem o.st.toNat 4 (sRefs o.d.toNat nd ++ sRefs o.a.toNat 2 ++ sRefs o.b.toNat nb ++ [.spr 3]) (do
    awaitCtr .en
    settleOwn
    let t ← get
    consumeReg (t.g.anySP t.clock o.d.toNat nd || t.g.anySP t.clock o.a.toNat 2 || t.g.anySP t.clock o.b.toNat nb)
    let sw := (t.g.rdSpr t.clock 3).toNat
    require (sw % 8 == 0) 2
    match (t.wg? t.g.wg).bind fun w => w.scratch sw 8 with
    | none => raise 3 0
    | some key =>
      let b (i : Nat) : Nat := if i < nb then (t.g.rdS t.clock (o.b.toNat + i)).toNat else 0
      let dst := if nd = 2 then t.g.rdPair t.clock o.d.toNat else (t.g.rdS t.clock o.d.toNat).toNat
      let c : EngCmd := {
        engine := if op < 5 then t.g.core else 384 + clusterOf t.g.core
        grp := t.g.id, tag := t.nextId, core := t.g.core, ctx := t.g.ctx, root := t.g.root, priv := t.g.priv, op := op,
        src := t.g.rdPair t.clock o.a.toNat, dst := dst, b0 := b 0, b1 := b 1, b2 := b 2, b3 := b 3, sync := key,
        members := if op = 4 then maskMembers (b 1 + b 2 % 65536 * 2 ^ 32) else [], wg := t.g.wg, accepted := false }
      checkCommand c
      modify fun (u : State) => { u with engQ := u.engQ ++ [c], nextId := u.nextId + 1 }
      post { donePend .en .engine [] with tag := c.tag, done := false }) s)

/-- R302: CPY. -/
def execCpy (o : DAB) (s : State) : Out := command 0 2 1 o s
/-- R302: CPY2. -/
def execCpy2 (o : DAB) (s : State) : Out := command 1 2 4 o s
/-- R302: CPYG. -/
def execCpyg (o : DAB) (s : State) : Out := command 2 2 4 o s
/-- R302: CPYZ. -/
def execCpyz (o : DAB) (s : State) : Out := command 3 2 1 o s
/-- R302: CPYW. -/
def execCpyw (o : DAB) (s : State) : Out := command 4 2 4 o s
/-- R304, R307: DEC.JPEG. -/
def execDecJpeg (o : DAB) (s : State) : Out := command 5 1 4 o s
/-- R304, R307: DEC.G4. -/
def execDecG4 (o : DAB) (s : State) : Out := command 6 1 4 o s
/-- R304, R307: DEC.PNG. -/
def execDecPng (o : DAB) (s : State) : Out := command 7 1 4 o s
/-- R304, R308: DEC.QUERY. -/
def execDecQuery (o : DAB) (s : State) : Out := command 8 1 4 o s

/-! ### The events of the engines (R300, R301) -/

/-- Retires every operation of a counter that has completed, in order, by fuel. -/
def State.retireAll (s : State) (grp : Nat) (c : Ctr) : Nat → State
  | 0 => s
  | n + 1 => if ((s.group? grp).map fun g => g.canRetire c).getD false then State.retireAll (s.retire grp c) grp c n else s

/-- A counted operation of a group is done. -/
def State.markDone (s : State) (grp tag : Nat) (k : PendKind) : State :=
  s.updGroup grp fun g => { g with pend := g.pend.map fun (p : Pending) => if p.tag = tag ∧ p.kind = k then { p with done := true } else p }

/-- R300: an engine accepts the command that has waited longest, when its queue has room. -/
def State.acceptCommand (s : State) (engine : Nat) : State :=
  let mine := s.engQ.filter fun c => c.engine == engine
  let cap := if engine < 384 then 32 else 16
  -- a unit waits for its self-test (R395)
  if cap ≤ (mine.filter (·.accepted)).length || (s.bank (engineBank engine)).test = 1 then s
  else
    match mine.find? fun c => !c.accepted with
    | none => s
    | some c =>
      let t := { s with engQ := s.engQ.map fun (k : EngCmd) => if k.tag = c.tag ∧ k.grp = c.grp then { k with accepted := true } else k }
      (t.markDone c.grp c.tag .engine).retireAll c.grp .en 8

/-- R193: the group's term jobs that were queued before the command have ended. -/
def State.termsBefore (s : State) (c : EngCmd) : Bool := s.termQ.any fun u => u.grp == c.grp && decide (u.tag < c.tag)
/-- R301: an engine's first accepted command completes and arrives, after the accesses it must follow (R193). -/
def State.arriveCommand (s : State) (engine : Nat) : State :=
  match s.engQ.find? fun c => c.engine == engine && c.accepted with
  | none => s
  | some c =>
    if s.termsBefore c || (s.bank (engineBank engine)).test == 1 then s
    else
      match s.runCommand c with
      | some t => { t with engQ := s.engQ.filter fun k => !(k.tag == c.tag && k.grp == c.grp) }
      | none => s

/-- R300: COMMAND_ACCEPT. -/
def execCommandAccept (engine : Nat) (s : State) : Out := .next (s.acceptCommand engine)
/-- R301: ARRIVAL. -/
def execArrival (engine : Nat) (s : State) : Out := .next (s.arriveCommand engine)

end Sys2Proof.Machine
end

