-- ==== Sys2Proof/Machine/LaneInt.lean ====
section
/-! DEFINITION. Lane integer arithmetic: majors 0x20 to 0x30, the 16-bit forms and the random state (R119 to R129, R143). -/

namespace Sys2Proof.Machine

/-- An integer lane operation. -/
def intOp (aff : List VOp → Option VOp) (f : List Word → FRes) : LaneOp := { aff := aff, f := f }

/-- R123: the operations the 32-bit, the 16-bit, the immediate and the scalar forms share. -/
def opAdd : LaneOp := intOp affAdd (fn2 fun x y => x + y)
def opSub : LaneOp := intOp affSub (fn2 fun x y => x - y)
def opMul : LaneOp := intOp affMul (fn2 fun x y => x * y)
def opAnd : LaneOp := intOp affNone (fn2 fun x y => x &&& y)
def opOr : LaneOp := intOp affNone (fn2 fun x y => x ||| y)
def opXor : LaneOp := intOp affNone (fn2 fun x y => x ^^^ y)
def opShl : LaneOp := intOp affShl (fn2 shl)
def opShrN : LaneOp := intOp affNone (fn2 shrN)
def opShrI : LaneOp := intOp affNone (fn2 shrI)
/-- R122: VMOV and the scalar move keep their operand's shape. -/
def opMove : LaneOp := intOp affCopy (fn1 fun x => x)

/-- R19, R123: the 16-bit VADD.I32. -/
def execVaddI3216 (o : H16) (s : State) : Out :=
  opAdd.h16 false o s

/-- R19, R123: the 16-bit VSUB.I32. -/
def execVsubI3216 (o : H16) (s : State) : Out :=
  opSub.h16 false o s

/-- R19, R123: the 16-bit VAND. -/
def execVand16 (o : H16) (s : State) : Out :=
  opAnd.h16 false o s

/-- R19, R123: the 16-bit VOR. -/
def execVor16 (o : H16) (s : State) : Out :=
  opOr.h16 false o s

/-- R19, R123: the 16-bit VXOR. -/
def execVxor16 (o : H16) (s : State) : Out :=
  opXor.h16 false o s

/-- R19, R123: the 16-bit VSHL. -/
def execVshl16 (o : H16) (s : State) : Out :=
  opShl.h16 false o s

/-- R19, R123: the 16-bit VSHR.N. -/
def execVshrN16 (o : H16) (s : State) : Out :=
  opShrN.h16 false o s

/-- R19, R123: the 16-bit VSHR.I. -/
def execVshrI16 (o : H16) (s : State) : Out :=
  opShrI.h16 false o s

/-- R19, R123: the 16-bit VMUL.LO. -/
def execVmulLo16 (o : H16) (s : State) : Out :=
  opMul.h16 false o s

/-- R20, R123: VMOV; a register moved to itself without a route writes nothing, and counts as read (DESIGN CHOICE, log entry 59). -/
def moveVector (st len d b : Nat) (f : BitVec 9) (s : State) : Out :=
  if d = b ∧ f = 0 then .next (vunit .vec st len [.v b] (pure ()) s)
  else opMove.run st len d (fun g now => g.opdRefs now b f) (fun g now => [g.opd now b f]) s

/-- R19, R20: the 16-bit VMOV. -/
def execVmov16 (o : H16) (s : State) : Out :=
  moveVector (stall16 o) 2 o.d.toNat o.b.toNat 0 s

/-- R20, R123: VMOV. -/
def execVmov (o : RDB) (s : State) : Out :=
  moveVector o.st.toNat (lenR o.rt) o.d.toNat o.b.toNat (rtB o.rt) s

/-- R125: VMOVS: a scalar into every active lane. -/
def moveScalar (st len d b : Nat) (s : State) : Out :=
  opMove.run st len d (fun _ _ => [.s b]) (fun g now => [scalarOpd (g.rdS now b) (g.rdSP now b)]) s

/-- R19, R125: the 16-bit VMOVS. -/
def execVmovs16 (o : H16) (s : State) : Out :=
  moveScalar (stall16 o) 2 o.d.toNat o.b.toNat s

/-- R125: VMOVS. -/
def execVmovs (o : RDB) (s : State) : Out :=
  moveScalar o.st.toNat (lenR o.rt) o.d.toNat o.b.toNat s

/-- R123: VADD.I32. -/
def execVaddI32 (o : RDAB) (s : State) : Out :=
  opAdd.ab false o s

/-- R123: VSUB.I32. -/
def execVsubI32 (o : RDAB) (s : State) : Out :=
  opSub.ab false o s

/-- R123: VMUL.LO. -/
def execVmulLo (o : RDAB) (s : State) : Out :=
  opMul.ab false o s

/-- R123: VMULH.I. -/
def execVmulhI (o : RDAB) (s : State) : Out :=
  (intOp affNone (fn2 mulhI)).ab false o s

/-- R123: VMULH.N. -/
def execVmulhN (o : RDAB) (s : State) : Out :=
  (intOp affNone (fn2 mulhN)).ab false o s

/-- R123: VAND. -/
def execVand (o : RDAB) (s : State) : Out :=
  opAnd.ab false o s

/-- R123: VOR. -/
def execVor (o : RDAB) (s : State) : Out :=
  opOr.ab false o s

/-- R123: VXOR. -/
def execVxor (o : RDAB) (s : State) : Out :=
  opXor.ab false o s

/-- R123: VANDN. -/
def execVandn (o : RDAB) (s : State) : Out :=
  (intOp affNone (fn2 fun x y => x &&& ~~~y)).ab false o s

/-- R123: VSHL. -/
def execVshl (o : RDAB) (s : State) : Out :=
  opShl.ab false o s

/-- R123: VSHR.N. -/
def execVshrN (o : RDAB) (s : State) : Out :=
  opShrN.ab false o s

/-- R123: VSHR.I. -/
def execVshrI (o : RDAB) (s : State) : Out :=
  opShrI.ab false o s

/-- R123: VROTL. -/
def execVrotl (o : RDAB) (s : State) : Out :=
  (intOp affNone (fn2 rotl)).ab false o s

/-- R123: VMIN.I. -/
def execVminI (o : RDAB) (s : State) : Out :=
  (intOp affNone (fn2 minI)).ab false o s

/-- R123: VMAX.I. -/
def execVmaxI (o : RDAB) (s : State) : Out :=
  (intOp affNone (fn2 maxI)).ab false o s

/-- R123: VMIN.N. -/
def execVminN (o : RDAB) (s : State) : Out :=
  (intOp affNone (fn2 minN)).ab false o s

/-- R123: VMAX.N. -/
def execVmaxN (o : RDAB) (s : State) : Out :=
  (intOp affNone (fn2 maxN)).ab false o s

/-- R123: saturating sums and differences. -/
def satSum (g : Int → Int → Int) : List Word → FRes
  | [x, y] => satWord (g x.toInt y.toInt)
  | _ => .ok 0

/-- R123: VADDS.I. -/
def execVaddsI (o : RDAB) (s : State) : Out :=
  (intOp affNone (satSum fun x y => x + y)).ab false o s

/-- R123: VSUBS.I. -/
def execVsubsI (o : RDAB) (s : State) : Out :=
  (intOp affNone (satSum fun x y => x - y)).ab false o s

/-- R123: VABSD.I. -/
def execVabsdI (o : RDAB) (s : State) : Out :=
  (intOp affNone (fn2 fun x y => BitVec.ofNat 32 (x.toInt - y.toInt).natAbs)).ab false o s

/-- R123: VPOPC. -/
def execVpopc (o : RDA) (s : State) : Out :=
  (intOp affNone (fn1 popc)).un false o s

/-- R123: VCLZ. -/
def execVclz (o : RDA) (s : State) : Out :=
  (intOp affNone (fn1 clz)).un false o s

/-- R123: VBREV. -/
def execVbrev (o : RDA) (s : State) : Out :=
  (intOp affNone (fn1 brev)).un false o s

/-- R126: VBFE.N. -/
def execVbfeN (o : RDAB) (s : State) : Out :=
  (intOp affNone (fn2 bfeN)).ab false o s

/-- R126: VBFE.I. -/
def execVbfeI (o : RDAB) (s : State) : Out :=
  (intOp affNone (fn2 bfeI)).ab false o s

/-- R126: VPERMB. -/
def execVpermb (o : RDAB) (s : State) : Out :=
  (intOp affNone (fn2 permb)).ab false o s

/-- R126: VBFI, which reads d as its third source. -/
def execVbfi (o : RDAB) (s : State) : Out :=
  (intOp affNone (fn3 bfi)).abd false o s

/-! ### Immediates and scalar operands (R124, R125) -/

/-- R124: VADDI. -/
def execVaddi (o : VDAI) (s : State) : Out :=
  opAdd.imm o s

/-- R124: VANDI. -/
def execVandi (o : VDAI) (s : State) : Out :=
  opAnd.imm o s

/-- R124: VORI. -/
def execVori (o : VDAI) (s : State) : Out :=
  opOr.imm o s

/-- R124: VXORI. -/
def execVxori (o : VDAI) (s : State) : Out :=
  opXor.imm o s

/-- R124: VSHLI. -/
def execVshli (o : VDAI) (s : State) : Out :=
  opShl.imm o s

/-- R124: VSHRI.N. -/
def execVshriN (o : VDAI) (s : State) : Out :=
  opShrN.imm o s

/-- R124: VSHRI.I. -/
def execVshriI (o : VDAI) (s : State) : Out :=
  opShrI.imm o s

/-- R124: VLI. -/
def execVli (o : VDI) (s : State) : Out :=
  opMove.run o.st.toNat (len3 o.limm o.rt none) o.d.toNat (fun _ _ => [])
    (fun _ _ => [scalarOpd (immWord o.i o.limm) false]) s

/-- R125: VADD.S. -/
def execVaddS (o : RDAB) (s : State) : Out :=
  opAdd.vs false o s

/-- R125: VMUL.S. -/
def execVmulS (o : RDAB) (s : State) : Out :=
  opMul.vs false o s

/-- R125: VAND.S. -/
def execVandS (o : RDAB) (s : State) : Out :=
  opAnd.vs false o s

/-- R125: VSHL.S. -/
def execVshlS (o : RDAB) (s : State) : Out :=
  opShl.vs false o s

/-- R125: VSHR.S.N. -/
def execVshrSN (o : RDAB) (s : State) : Out :=
  opShrN.vs false o s

/-- R125: VMAD.S. -/
def execVmadS (o : RDAB) (s : State) : Out :=
  (intOp affMad (fn3 fun x u c => x * u + c)).vsd false o s

/-- R122, R125: VLANEID. -/
def execVlaneid (o : RD) (s : State) : Out :=
  (intOp (fun _ => some (.affine 0 1)) (fn1 fun x => x)).run o.st.toNat (lenR o.rt) o.d.toNat (fun _ _ => []) (fun _ _ => []) s

/-! ### Compares and select (R127, R128) -/

/-- R127: a compare of two vector sources or of one and an immediate. -/
def compareUnit (st len d : Nat) (refs : Group → Nat → List Ref) (a b : Group → Nat → Opd) (f : Word → Word → Bool) (s : State) : Out :=
  .next (vunit .vec st len (refs s.g s.clock) (fun t => compareBody d (a t.g t.clock) (b t.g t.clock) f t) s)

/-- R127: VCMP. -/
def execVcmp (o : VCAB) (s : State) : Out :=
  compareUnit o.st.toNat (lenR o.rt) o.p.toNat
    (fun g now => g.opdRefs now o.a.toNat (rtA o.rt) ++ g.opdRefs now o.b.toNat (rtB o.rt))
    (fun g now => g.opd now o.a.toNat (rtA o.rt)) (fun g now => g.opd now o.b.toNat (rtB o.rt)) (condition o.c.toNat) s

/-- R127: VCMPI. -/
def execVcmpi (o : VCAI) (s : State) : Out :=
  compareUnit o.st.toNat (len3 o.limm o.rt none) o.p.toNat (fun g now => g.opdRefs now o.a.toNat (rtA o.rt))
    (fun g now => g.opd now o.a.toNat (rtA o.rt)) (fun _ _ => scalarOpd (immWord o.i o.limm) false) (condition o.c.toNat) s

/-- R122: VSEL of two uniform operands with equal words is uniform, anything else general. -/
def selectShape (a b : VOp) (m : Mask) (f : Nat → Word) : VOp :=
  match a, b with
  | .uniform x, .uniform y => if x = y then .uniform x else .general (lanes.map fun l => if m.getLsbD l then f l else 0)
  | _, _ => .general (lanes.map fun l => if m.getLsbD l then f l else 0)

/-- R128, R381: VSEL; a poisoned select operand is consumed. -/
def execVsel (o : VSELO) (s : State) : Out :=
  .next (vunit .vec o.st.toNat (lenR o.rt)
    (s.g.opdRefs s.clock o.a.toNat (rtA o.rt) ++ s.g.opdRefs s.clock o.b.toNat (rtB o.rt) ++ [.p o.n.toNat]) (fun t =>
    let now := t.clock
    let m := t.g.rdMask now
    let a := t.g.opd now o.a.toNat (rtA o.rt)
    let b := t.g.opd now o.b.toNat (rtB o.rt)
    let p := t.g.rdP now o.n.toNat
    if (a.pz ||| b.pz) &&& m != 0 then .error (.consumed 0) (t.mg (·.ck 0))
    else
      putVectors (latVector + a.lat + b.lat) m
        [⟨o.d.toNat, selectShape a.val b.val m (fun l => if p.getLsbD l then a.val.lane l else b.val.lane l), 0⟩] t) s)

/-! ### 64-bit integers (R129) -/

/-- R129: a 64-bit result written to the pair d, d + 1, from operands whose first k registers give X and the rest Y. -/
def wideBody (d : Nat) (xs : List Opd) (lat : Nat) (f : List Word → Nat) : M Unit := fun t =>
  let now := t.clock
  let m := t.g.rdMask now
  let pz := (xs.foldl (fun p o => p ||| o.pz) 0) &&& m
  let uni := xs.all fun o => o.val.isUniform
  let at_ (l : Nat) : Nat := f (xs.map fun o => o.val.lane l)
  let half (k : Nat) : VOp :=
    if uni then .uniform (BitVec.ofNat 32 (at_ (lowestLane m) / 2 ^ (32 * k)))
    else .general (lanes.map fun l => if m.getLsbD l then BitVec.ofNat 32 (at_ l / 2 ^ (32 * k)) else 0)
  (do putVectors (latVector + lat) m [⟨d, half 0, pz⟩, ⟨d + 1, half 1, pz⟩]
      modify fun (u : State) => if pz = 0 then u else u.mg (·.ck 0)) t

/-- The two registers of a routed pair. -/
def Group.pairOpd (g : Group) (now v : Nat) (f : BitVec 9) : List Opd := [g.opd now v f, g.opd now (v + 1) f]
/-- R115: the class of a routed pair: the larger one of its registers (DESIGN CHOICE, log entry 59). -/
def pairLat (xs : List Opd) : Nat := (xs.map (·.lat)).foldl max 0

/-- A form on two pairs. -/
def wide2 (o : RDAB) (f : Nat → Nat → Nat) (s : State) : Out :=
  .next (vunit .vec o.st.toNat (lenR o.rt)
    (s.g.opdRefs s.clock o.a.toNat (rtA o.rt) ++ s.g.opdRefs s.clock (o.a.toNat + 1) (rtA o.rt)
      ++ s.g.opdRefs s.clock o.b.toNat (rtB o.rt) ++ s.g.opdRefs s.clock (o.b.toNat + 1) (rtB o.rt)) (fun t =>
    let a := t.g.pairOpd t.clock o.a.toNat (rtA o.rt)
    let b := t.g.pairOpd t.clock o.b.toNat (rtB o.rt)
    wideBody o.d.toNat (a ++ b) (pairLat a + pairLat b) (fun ws => match ws with
      | [x, x', y, y'] => f (x.toNat + x'.toNat * 2 ^ 32) (y.toNat + y'.toNat * 2 ^ 32)
      | _ => 0) t) s)
/-- A widening multiply. -/
def wideMul (o : RDAB) (f : Word → Word → Nat) (s : State) : Out :=
  .next (vunit .vec o.st.toNat (lenR o.rt)
    (s.g.opdRefs s.clock o.a.toNat (rtA o.rt) ++ s.g.opdRefs s.clock o.b.toNat (rtB o.rt)) (fun t =>
    let a := t.g.opd t.clock o.a.toNat (rtA o.rt)
    let b := t.g.opd t.clock o.b.toNat (rtB o.rt)
    wideBody o.d.toNat [a, b] (a.lat + b.lat) (fun ws => match ws with
      | [x, y] => f x y
      | _ => 0) t) s)

/-- R129: VADD.I64. -/
def execVaddI64 (o : RDAB) (s : State) : Out :=
  wide2 o (fun x y => (x + y) % 2 ^ 64) s

/-- R129: VSUB.I64. -/
def execVsubI64 (o : RDAB) (s : State) : Out :=
  wide2 o (fun x y => (x + 2 ^ 64 - y) % 2 ^ 64) s

/-- R129: VSHL.I64. -/
def execVshlI64 (o : RDAB) (s : State) : Out :=
  wide2 o (fun x y => if 64 ≤ y % 128 then 0 else x * 2 ^ (y % 128) % 2 ^ 64) s

/-- R129: VSHR.N64. -/
def execVshrN64 (o : RDAB) (s : State) : Out :=
  wide2 o (fun x y => if 64 ≤ y % 128 then 0 else x / 2 ^ (y % 128)) s

/-- R129: VSHR.I64. -/
def execVshrI64 (o : RDAB) (s : State) : Out :=
  wide2 o (fun x y => (BitVec.sshiftRight (BitVec.ofNat 64 x) (min (y % 128) 63)).toNat) s

/-- R129: VMULW.I. -/
def execVmulwI (o : RDAB) (s : State) : Out :=
  wideMul o (fun x y => (BitVec.ofInt 64 (x.toInt * y.toInt)).toNat) s

/-- R129: VMULW.N. -/
def execVmulwN (o : RDAB) (s : State) : Out :=
  wideMul o (fun x y => x.toNat * y.toNat) s

/-! ### Random state (R143) -/

/-- R143: the states of the lanes m advance; the others keep theirs. -/
def Group.advanceRnd (g : Group) (now : Nat) (m : Mask) : List Rnd :=
  g.rnd.mapIdx fun l r => if m.getLsbD l then ((g.rdRnd now).getD l r).next else r

/-- R143: VRAND. -/
def execVrand (o : RD) (s : State) : Out :=
  .next (vunit .vec o.st.toNat (lenR o.rt) [.rnd] (fun t =>
    let m := t.g.rdMask t.clock
    let rs := t.g.advanceRnd t.clock m
    (do putVectors latVector m [⟨o.d.toNat, .general (rs.map fun (r : Rnd) => r.w), 0⟩]
        modify fun (u : State) => u.mg fun g => { g.produceIn .rnd (t.clock + latVector) m with rnd := rs }) t) s)

/-- R143: VSEED. A poisoned source seeds by its bits, and the random state keeps no mark (DESIGN CHOICE, log entry 26). -/
def execVseed (o : RA) (s : State) : Out :=
  .next (vunit .vec o.st.toNat (lenR o.rt) (s.g.opdRefs s.clock o.a.toNat (rtA o.rt) ++ [.rnd]) (fun t =>
    let m := t.g.rdMask t.clock
    let a := t.g.opd t.clock o.a.toNat (rtA o.rt)
    let rs := t.g.rnd.mapIdx fun l r => if m.getLsbD l then Rnd.seed (a.val.lane l) t.g.seed l else r
    .ok () (t.mg fun g =>
      { (if a.pz &&& m = 0 then g else g.ck 0).produceIn .rnd (t.clock + latVector + a.lat) m with rnd := rs })) s)

end Sys2Proof.Machine
end

