-- ==== Sys2Proof/Machine/MatrixRun.lean ====
section
/-! DEFINITION. What a matrix operation computes: its operands (R315, R324), the accumulation order (R316, R317), tiles,
register rows, MZERO and MQUANT (R321, R326 to R329), and the row-steps it counts (R330). An operation's reads and writes
are performed together, when it completes (DESIGN CHOICE, log entry 15). -/

namespace Sys2Proof.Machine

/-! ### Formats and classes (R314) -/

/-- R314: the classes of operand formats. -/
inductive MxClass where
  | dense | weight | mxFloat | mxInt (i32 : Bool)
  deriving DecidableEq, Repr

/-- R149: AF, BF and ACC. -/
def afOf (fmt : Word) : Nat := bits fmt.toNat 4 4
def bfOf (fmt : Word) : Nat := bits fmt.toNat 8 4
def accOf (fmt : Word) : Nat := bits fmt.toNat 12 4

/-- R314: the class of a combination, none where it is not supported. -/
def mxClass (fmt : Word) : Option MxClass :=
  let a := afOf fmt
  let b := bfOf fmt
  if a = 0 ∧ accOf fmt = 0 then
    if b = 0 then some .dense else if b = 5 ∨ b = 7 ∨ b = 8 then some .weight else none
  else if 1 ≤ a ∧ a ≤ 5 ∧ 1 ≤ b ∧ b ≤ 5 ∧ accOf fmt = 0 then some .mxFloat
  else if a = 6 ∧ b = 6 ∧ accOf fmt ≤ 1 then some (.mxInt (accOf fmt = 1))
  else none
/-- The class computes in I32 mode. -/
def MxClass.isI32 : MxClass → Bool
  | .mxInt i => i
  | _ => false
/-- The class applies chunk scales (R316). -/
def MxClass.scaled : MxClass → Bool
  | .mxFloat => true
  | .mxInt i => !i
  | _ => false

/-- R324: the bytes of a block of a format. -/
def blockBytes (f : Nat) : Nat := if f = 0 then 64 else if f = 5 ∨ 7 ≤ f then 16 else 32
/-- R324: the bytes of an operand of so many blocks, its scales included. -/
def operandBytes (f blocks : Nat) : Nat := blocks * blockBytes f + (if f = 0 then 0 else blocks)

/-! ### Elements (R315) -/

/-- A block as R316 reads it: its elements, its scale, whether some element or the scale is poisoned, and whether a weight
overflowed. -/
structure MxBlock where
  els : List CNum
  sc : Int
  pz : Bool
  spz : Bool
  ovf : Bool
  deriving DecidableEq, Repr

/-- R145, R315: element i of the block at a key. -/
def State.mxElem (s : State) (f : Nat) (i32 : Bool) (key i : Nat) : CNum × Bool :=
  let per := if f = 0 then 2 else if f = 5 ∨ 7 ≤ f then 8 else 4
  let at_ := key + 4 * (i / per)
  let w := s.memRead at_ 4
  let v := if f = 0 then fmtBF16.num false (w / 65536 ^ (i % 2) % 65536) else elemNum (f - 1) w (i % per)
  let v := if f = 6 && !i32 then (match v with | .fin x => .fin { x with e := x.e - 6 } | y => y) else v
  if s.memPoisoned at_ 4 then (if i32 then v else .nan false 5, true) else (v, false)

/-- R315: a weight dequantised to BF16; the flag says that it overflowed. -/
def dequant (v : CNum) (sc : Nat) : CNum × Bool :=
  match v with
  | .fin x =>
    let y : Fin2 := { x with e := x.e + sc - 127 }
    if fmtBF16.maxCode < fmtBF16.roundMag .rne y false then (.inf x.neg, true) else (.fin y, false)
  | y => (y, false)

/-- R315, R397: the block at a key with its scale at skey, as an operand of a class; weight says that it is a weight. -/
def State.mxBlock (s : State) (c : MxClass) (f : Nat) (weight : Bool) (key skey : Nat) : MxBlock :=
  let raw := (List.range 32).map fun i => s.mxElem f c.isI32 key i
  let pz := raw.any (·.2)
  if f = 0 then ⟨raw.map (·.1), 127, pz, false, false⟩
  else
    let spz := s.memPoisoned skey 1
    let sc := s.memRead skey 1
    if c.isI32 then ⟨raw.map (·.1), 127, pz, spz, false⟩
    else if spz || sc = 255 then ⟨raw.map fun e => if e.2 then e.1 else .nan false 3, 127, pz, spz, false⟩
    else if weight then
      let ds := raw.map fun e => if e.2 then (e.1, false) else dequant e.1 sc
      ⟨ds.map (·.1), 127, pz, false, ds.any (·.2)⟩
    else ⟨raw.map (·.1), sc, pz, false, false⟩

/-! ### Chunks (R316, R317) -/

/-- R155: the F32 of a NaN operand. -/
def numNan : CNum → Option Nat
  | .nan n c => some (fmtF32.code n (fmtF32.nan (c % 8)))
  | _ => none
/-- The number is zero. -/
def CNum.isZero : CNum → Bool
  | .fin x => x.m == 0
  | _ => false
/-- A product of an infinity: its sign; a product of 0 and an infinity is invalid. -/
def infProduct (a b : CNum) : Option Bool :=
  match a, b with
  | .inf m, .inf n => some (m != n)
  | .inf m, .fin y => some (m != y.neg)
  | .fin x, .inf n => some (x.neg != n)
  | _, _ => none
/-- R317: a product of 0 and an infinity. -/
def zeroInf (a b : CNum) : Bool :=
  match a, b with
  | .inf _, .fin y => y.m == 0
  | .fin x, .inf _ => x.m == 0
  | _, _ => false
/-- The exact product of finite numbers. -/
def finProduct (a b : CNum) : Fin2 :=
  match a, b with
  | .fin x, .fin y => x.mul y
  | _, _ => ⟨false, 0, 0⟩

/-- R316, R317: one chunk in F32 mode: the new accumulator; sc is the exponent of the chunk's scales (DEDUCED, log entry 37). -/
def chunkF (as bs : List CNum) (sc : Int) (acc : Nat) : FRes :=
  match (as ++ bs).findSome? numNan with
  | some q => .ok q
  | none =>
    if fmtF32.isNan acc then .ok (fmtF32.quiet acc)
    else
      let ps := as.zip bs
      if ps.any fun p => zeroInf p.1 p.2 then .ok (fmtF32.nan 2)
      else
        match (ps.filterMap fun p => infProduct p.1 p.2) ++ (if fmtF32.isInf acc then [fmtF32.neg acc] else []) with
        | [] =>
          let p := ps.foldl (fun (x : Fin2) q => x.add .rne (finProduct q.1 q.2)) ⟨false, 0, 0⟩
          let r := fmtF32.round .rne false ((fmtF32.fin false acc).add .rne { p with e := p.e + sc }) false
          if fmtF32.mag r.bits = 0 then { r with bits := 0 } else r
        | n :: rest => if rest.all (· == n) then .ok (fmtF32.code n fmtF32.inf) else .ok (fmtF32.nan 1)

/-- An I32-mode element as an integer. -/
def numInt : CNum → Int
  | .fin x => (if x.neg then -1 else 1) * (x.m * 2 ^ x.e.toNat : Nat)
  | _ => 0
/-- R316: one chunk in I32 mode, saturated to ±(2^31 − 1). -/
def chunkI (as bs : List CNum) (acc : Nat) : FRes :=
  let v := (BitVec.ofNat 32 acc).toInt + ((as.zip bs).map fun p => numInt p.1 * numInt p.2).sum
  satInt (-(2 ^ 31 - 1)) (2 ^ 31 - 1) v 32

/-- An output element: its word, its mark, its flags, and whether poison was met. -/
structure MxOut where
  w : Nat
  pz : Bool
  ovf : Bool
  sat : Bool
  mtx : Bool
  deriving DecidableEq, Repr

/-- R316: one chunk on an output element. -/
def MxOut.chunk (c : MxClass) (o : MxOut) (a b : MxBlock) : MxOut :=
  let bad := a.pz || b.pz || a.spz || b.spz
  if c.isI32 then
    let r := chunkI a.els b.els o.w
    ⟨r.bits, o.pz || bad, o.ovf, o.sat || r.sat, o.mtx || bad⟩
  else
    let r := chunkF a.els b.els (if c.scaled then a.sc + b.sc - 254 else 0) o.w
    ⟨r.bits, o.pz, o.ovf || r.ovf || a.ovf || b.ovf, o.sat, o.mtx || bad⟩

/-- R316: the starting value of an output element: its C word, a poisoned one by R381. -/
def State.mxStart (s : State) (i32 : Bool) (key : Nat) : MxOut :=
  if s.memPoisoned key 4 then ⟨if i32 then s.memRead key 4 else fmtF32.nan 5, i32, false, false, true⟩
  else ⟨s.memRead key 4, false, false, false, false⟩

/-! ### Tiles (R324, R326, R327) -/

/-- R324: the block of row m and chunk c of the A operand at a key. -/
def State.aBlock (s : State) (o : MxOp) (c : MxClass) (key m j : Nat) : MxBlock :=
  let f := afOf o.fmt
  let kc := o.k / 32
  s.mxBlock c f false (key + (m * kc + j) * blockBytes f) (key + o.m * kc * blockBytes f + m * kc + j)
/-- R324: the block of chunk c and column n of B. -/
def State.bBlock (s : State) (o : MxOp) (c : MxClass) (j n : Nat) : MxBlock :=
  let f := bfOf o.fmt
  let kc := o.k / 32
  s.mxBlock c f (c == .weight) (o.b + (j * o.nt + n) * blockBytes f) (o.b + kc * o.nt * blockBytes f + j * o.nt + n)

/-- R326: element (m, n) of a tile. -/
def State.mxElement (s : State) (o : MxOp) (c : MxClass) (zero : Bool) (t : MxTile) (m n : Nat) : MxOut :=
  (List.range (o.k / 32)).foldl (fun (x : MxOut) j => x.chunk c (s.aBlock o c t.a m j) (s.bBlock o c j (t.col + n)))
    (if zero then ⟨0, false, false, false, false⟩ else s.mxStart c.isI32 (t.c + (m * o.n + n) * 4))

/-- Writes a run of output words; a word's mark covers its 8-byte word. -/
def State.putWords (s : State) (key : Nat) (ws : List MxOut) : State :=
  let t := s.memStore key (ws.flatMap fun w => leBytes 4 w.w)
  ws.zipIdx.foldl (fun (u : State) p => if p.1.pz then u.markMem (key + 4 * p.2) 4 else u) t

/-- What an operation leaves: the words to write, by key, and the row-steps by core: all of them and those skipped. -/
structure MxRes where
  writes : List (Nat × List MxOut)
  steps : List (Nat × Nat × Nat)
  deriving DecidableEq, Repr

/-- R318: column n's block of a chunk has a non-finite element k. -/
def MxBlock.wild (b : MxBlock) (k : Nat) : Bool :=
  match b.els.getD k (.fin ⟨false, 0, 0⟩) with
  | .fin _ => false
  | _ => true

/-- R318, R330: the A elements of a tile that are skipped: zeros whose K-slice is finite in every column of the tile. -/
def State.mxSkipped (s : State) (o : MxOp) (c : MxClass) (t : MxTile) : Nat :=
  ((List.range (o.k / 32)).map fun j =>
    let bs := (List.range o.n).map fun n => s.bBlock o c j (t.col + n)
    let dull := (List.range 32).filter fun k => !(bs.any fun b => b.wild k)
    ((List.range o.m).map fun m =>
      let a := s.aBlock o c t.a m j
      (dull.filter fun k => (a.els.getD k (.nan false 0)).isZero).length).sum).sum

/-- The core whose scratch holds a key. -/
def keyCore (key : Nat) : Nat := (key - 2 ^ 52) / 2 ^ 21

/-- R326, R327: every tile of MMAT. -/
def State.mxTiles (s : State) (o : MxOp) (c : MxClass) (zero : Bool) : MxRes :=
  { writes := o.tiles.flatMap fun t => (List.range o.m).map fun m =>
      (t.c + m * o.n * 4, (List.range o.n).map fun n => s.mxElement o c zero t m n)
    steps := o.tiles.map fun t => (keyCore t.c, o.m * o.k * (o.n / 32), s.mxSkipped o c t * (o.n / 32)) }

/-! ### Register rows (R321) -/

/-- Element k of a run of words that hold BF16 pairs. -/
def pairElem (ws : List (Word × Bool)) (k : Nat) : CNum × Bool :=
  let w := ws.getD (k / 2) (0, false)
  if w.2 then (.nan false 5, true) else (fmtBF16.num false (w.1.toNat / 65536 ^ (k % 2) % 65536), false)
/-- A block of register elements. -/
def pairBlock (es : List (CNum × Bool)) : MxBlock := ⟨es.map (·.1), 127, es.any (·.2), false, false⟩
/-- R321: column n of B. -/
def MxOp.bColumn (o : MxOp) (n : Nat) : MxBlock := pairBlock ((List.range 32).map fun k => pairElem (o.bw.getD k []) n)

/-- R321: MMAR: the rows of every group, and the words in which rows of two groups overlap. -/
def State.mxRows (s : State) (o : MxOp) : MxRes :=
  { writes := o.rows.map fun r =>
      let a := pairBlock ((List.range 32).map fun k => pairElem r.words k)
      (r.key, (List.range 32).map fun n => (s.mxStart false (r.key + 4 * n)).chunk .dense a (o.bColumn n))
    steps :=
      let cols := (List.range 32).map o.bColumn
      let dull := (List.range 32).filter fun k => !(cols.any fun b => b.wild k)
      let skipped := (o.rows.map fun r =>
        (dull.filter fun k => ((pairElem r.words k).1).isZero).length).sum
      [(o.core, 32 * o.rows.length, skipped)] }
/-- R321: the storage in which rows of two groups overlap. -/
def MxOp.clashes (o : MxOp) : List (Nat × Nat) :=
  o.rows.flatMap fun r => o.rows.filterMap fun q =>
    if r.grp = q.grp then none else sharedPart (r.key, 128) (q.key, 128)

/-! ### MQUANT (R329) -/

/-- R329: the target format of a code. -/
def quantTarget (t : Nat) : Option CFmt :=
  match t with | 0 => some .bf16 | 1 => some .e4m3 | 2 => some .e5m2 | 6 => some .int8 | _ => none
/-- R159: emax of a target. -/
def quantEmax (t : Nat) : Int := match t with | 1 => 8 | 2 => 15 | _ => 0

/-- R159: the scale of a number. -/
def CNum.scale (emax : Int) : CNum → Nat
  | .nan _ _ => 0xFF
  | .inf _ => 0xFE
  | .fin x => if x.m = 0 then 0 else
      let e := (x.m.log2 : Int) + x.e - emax + 127
      if e < 0 then 0 else if 254 < e then 254 else e.toNat
/-- A number times a power of two. -/
def CNum.shift (k : Int) : CNum → CNum
  | .fin x => .fin { x with e := x.e + k }
  | y => y

/-- R329: the source value of a C word. -/
def State.quantSrc (s : State) (o : MxOp) (m i : Nat) : CNum × Bool :=
  let key := o.b + (m * o.n + i) * 4
  let w := s.memRead key 4
  let sigma := (BitVec.ofNat 8 (o.x / 256)).toInt
  ((if accOf o.fmt = 1 then intNum (BitVec.ofNat 32 w).toInt else fmtF32.num false w).shift sigma, s.memPoisoned key 4)

/-- R329: a block of 32 output elements: its bytes with their marks, its scale byte, its flags. -/
structure QBlock where
  bytes : List (Nat × Bool)
  sc : Nat
  ovf : Bool
  sat : Bool
  deriving DecidableEq, Repr

/-- R329: block c of row m. -/
def State.quantBlock (s : State) (o : MxOp) (m j : Nat) : QBlock :=
  let t := o.x % 16
  let xs := (List.range 32).map fun i => s.quantSrc o m (32 * j + i)
  match quantTarget t with
  | some .bf16 =>
    let rs := xs.map fun x => convert .bf16 .rne false false x.1
    ⟨(rs.zip xs).flatMap fun r => [(r.1.bits % 256, r.2.2), (r.1.bits / 256, r.2.2)], 0, rs.any (·.ovf), false⟩
  | some f =>
    let e := (xs.map fun x => x.1.scale (quantEmax t)).foldl max 0
    if e = 0xFF then ⟨xs.map fun x => (0, x.2), e, false, false⟩
    else
      let rs := xs.map fun x => convert f .rne false true (x.1.shift (127 - e + (if t = 6 then 6 else 0)))
      ⟨(rs.zip xs).map fun r => (r.1.bits, r.2.2), e, false, rs.any (·.sat)⟩
  | none => ⟨[], 0, false, false⟩

/-- R329: the bytes of a row of the output, then the scales; the mark of an element covers its word. -/
def State.putQuant (s : State) (o : MxOp) : State × Bool × Bool × Bool :=
  let f := o.x % 16
  let kc := o.n / 32
  let d := (o.tiles.headD ⟨0, 0, 0⟩).a
  let size := if f = 0 then 64 else 32
  (List.range o.m).foldl (fun (u : State × Bool × Bool × Bool) m =>
    (List.range kc).foldl (fun (v : State × Bool × Bool × Bool) j =>
      let q := s.quantBlock o m j
      let key := d + (m * kc + j) * size
      let t := v.1.memStore key (q.bytes.map fun b => BitVec.ofNat 8 b.1)
      let t := q.bytes.zipIdx.foldl (fun (w : State) b =>
        if b.1.2 then w.markMem (key + b.2) 1 else w) t
      let t := if f = 0 then t else t.memStore (d + o.m * kc * size + m * kc + j) [BitVec.ofNat 8 q.sc]
      (t, v.2.1 || q.ovf, v.2.2.1 || q.sat, v.2.2.2 || q.bytes.any (·.2))) u) (s, false, false, false)

/-! ### Completing an operation (R194, R317, R331) -/

/-- R330: row-steps are counted. -/
def State.countSteps (s : State) (x : Nat × Nat × Nat) : State :=
  let k := s.core x.1
  s.setCore { k with rowsDone := k.rowsDone + BitVec.ofNat 32 (x.2.1 - x.2.2), rowsSkipped := k.rowsSkipped + BitVec.ofNat 32 x.2.2 }

/-- The flags and %ckint bits an operation leaves with an owner. -/
def mxFlags (ovf sat mtx : Bool) : List RegWrite :=
  (if ovf then [.gsrOr 8] else []) ++ (if sat then [.gsrOr 16] else []) ++ (if mtx then [.ckint (bitWord 3)] else [])
/-- An owner's unit is done, with what it leaves. -/
def State.mxDone (s : State) (grp tag : Nat) (ws : List RegWrite) : State :=
  (s.updGroup grp fun g => { g with pend := g.pend.map fun (p : Pending) =>
    if p.tag = tag ∧ p.kind = .matrix then { p with done := true, writes := p.writes ++ ws } else p }).retireAll grp .mx 8

/-- R332: a unit of a group has written a register of the a-run, or of the b-run, of its unit with a tag. -/
def State.runTouched (s : State) (b : Bool) (w : Nat × Nat) : Bool :=
  ((s.group? w.1).map fun g => g.mxRuns.any fun x => x.tag == w.2 && x.b == b && x.touched).getD false
/-- R194: an owner's part of a result is open: it no longer owns its storage, or something has written it or the a-run. -/
def State.mxOpen (s : State) (w : Nat × Nat) : Bool :=
  ((s.mxOwns.find? fun e => e.grp == w.1 && e.tag == w.2).map (·.tainted)).getD true || s.runTouched false w
/-- R194, R332: the storage an operation leaves undefined: every row of an MMAR whose b-run a group of its set has written, or the rows of
the groups whose own part is open; all of the result otherwise. -/
def State.mxLost (s : State) (o : MxOp) : List (Nat × Nat) :=
  let all := o.owners.any fun w => s.runTouched true w
  let open_ := o.owners.filter s.mxOpen
  if o.kind = .mmar then (o.rows.filter fun r => all || open_.any fun w => w.1 == r.grp).map fun r => (r.key, 128)
  else if open_.isEmpty then [] else o.owns
/-- R194: an operation is complete: what is written from now on until the WAIT is marked anew. -/
def State.mxMark (s : State) (w : Nat × Nat) : State :=
  { s.updGroup w.1 fun g => { g with mxRuns := g.mxRuns.map fun (x : MxRun) => if x.tag = w.2 then { x with touched := false } else x }
    with mxOwns := s.mxOwns.map fun (e : MxOwn) => if e.grp = w.1 ∧ e.tag = w.2 then { e with tainted := false } else e }

/-- The operation's effect: the state, and each owner's flags. -/
def State.mxPerform (s : State) (o : MxOp) : State × (Nat → List RegWrite) :=
  match o.kind with
  | .mzero => (o.owns.foldl (fun (t : State) r => t.memStore r.1 (List.replicate r.2 0)) s, fun _ => [])
  | .mquant => let r := s.putQuant o; (r.1, fun _ => mxFlags r.2.1 r.2.2.1 r.2.2.2)
  | .mmat zero =>
    let r := s.mxTiles o ((mxClass o.fmt).getD .dense) zero
    let t := r.writes.foldl (fun (t : State) w => t.putWords w.1 w.2) s
    let all := r.writes.flatMap (·.2)
    (r.steps.foldl State.countSteps t, fun _ => mxFlags (all.any (·.ovf)) (all.any (·.sat)) (all.any (·.mtx)))
  | .mmar =>
    let r := s.mxRows o
    let t := r.writes.foldl (fun (t : State) w => t.putWords w.1 w.2) s
    let t := o.clashes.foldl (fun (t : State) p => t.smear p.1 p.2) t
    (r.steps.foldl State.countSteps t, fun g =>
      let mine := ((o.rows.zip r.writes).filter fun x => x.1.grp == g).flatMap fun x => x.2.2
      mxFlags (mine.any (·.ovf)) false (mine.any (·.mtx)))

/-- R194, R330: completes an operation: its effect and its row-steps; then, where its result is undefined, free values. -/
def State.mxComplete (s : State) (o : MxOp) : State :=
  let s := { s with mxQ := s.mxQ.filter fun p => !(p.tag == o.tag && p.grp == o.grp) }
  -- operands, and accumulators that the kind reads, are read; what it only writes is found where a word is not overwritten whole (R326, R389, R398)
  let blind := o.kind = .mmat true ∨ o.kind = .mzero ∨ o.kind = .mquant
  let s := o.reads.foldl (fun (t : State) r => t.findErrors (t.ctxOf o.grp) r.1 r.2 false) s
  let s := o.owns.foldl (fun (t : State) r => t.findErrors (t.ctxOf o.grp) r.1 r.2 (decide blind)) s
  let r := s.mxPerform o
  let t := (s.mxLost o).foldl (fun (t : State) p => t.smear p.1 p.2) r.1
  o.owners.foldl (fun (t : State) w => (t.mxMark w).mxDone w.1 w.2 (r.2 w.1)) t

/-- R331: two operations touch one byte and one of them writes it. -/
def MxOp.conflicts (o p : MxOp) : Bool :=
  o.owns.any (fun r => (p.owns ++ p.reads).any fun q => overlaps r.1 r.2 q.1 q.2)
    || o.reads.any fun r => p.owns.any fun q => overlaps r.1 r.2 q.1 q.2

/-- R331: the first operation a core's unit received, unless one received earlier elsewhere conflicts with it. -/
def State.mxNext (s : State) (core : Nat) : Option MxOp :=
  match s.mxQ.findIdx? fun o => o.core == core with
  | none => none
  | some i =>
    match s.mxQ[i]? with
    | none => none
    | some o => if (s.mxQ.take i).any fun p => p.conflicts o then none else some o

/-- R194: MATRIX_COMPLETE. -/
def execMatrixComplete (core : Nat) (s : State) : Out :=
  .next (match s.mxNext core with
    | some o => s.mxComplete o
    | none => s)

end Sys2Proof.Machine
end

