-- ==== Sys2Proof/Machine/Matrix.lean ====
section
/-! DEFINITION. Issuing the matrix instructions (R319 to R330) and the joins of MMAR.J (R320). -/

namespace Sys2Proof.Machine

/-- The workgroup of the issuing group. -/
def State.myWg (s : State) : Option Wg := s.wg? s.g.wg

/-- R194, R332: the registers of a run of an MMAR. -/
def mxRun (tag r n : Nat) (b : Bool) : List MxRun := (List.range n).map fun i => ⟨tag, r + i, b, false⟩

/-- A matrix unit in flight. -/
def mxPend (tag : Nat) (ws : List RegWrite) : Pending := { donePend .mx .matrix ws with tag := tag, done := false }

/-- A fresh tag. -/
def freshTag : M Nat := fun s => .ok s.nextId { s with nextId := s.nextId + 1 }

/-- R194: a unit of the issuing group owns storage and registers from its issue on. -/
def mxClaim (tag : Nat) (owns reads far : List (Nat × Nat)) (runs : List MxRun) : M Unit := modify fun (s : State) =>
  { s.mg fun g => { g with mxRuns := g.mxRuns ++ runs }
    with mxOwns := s.mxOwns ++ [⟨s.g.id, tag, (s.myWg.map (·.cloud)).getD 0, owns, reads, far, false, false⟩] }

/-! ### MMAR (R319 to R321) -/

/-- R319: the accumulator word. -/
def rowPitch (w : Nat) : Nat := (bits w 18 4 + 1) * 128
def rowOff (w : Nat) : Nat := bits w 0 18

/-- R319: the key of a lane's row, when it lies in the C reservation. -/
def Wg.row (x : Wg) (w l : Nat) : Option Nat :=
  let off := rowOff w + l * rowPitch w
  if off + 128 ≤ x.sizeC then some (scratchKey x.core (0x100000 + x.offC + off)) else none

/-- R321: the words of n registers from r on in lane l. -/
def Group.laneWords (g : Group) (now r n l : Nat) : List (Word × Bool) :=
  (List.range n).map fun i => if g.present.getLsbD l then ((g.rdVmx now (r + i)).lane l, (g.rdVmx now (r + i)).poison.getLsbD l) else (0, false)

/-- R319: the checks of MMAR and its rows (DEDUCED, log entry 37). -/
def mmarRows (d a : Nat) : M (List (Nat × Nat × List (Word × Bool))) := do
  let s ← get
  let fm := s.g.rdFmt s.clock
  consumeReg (s.useS d)
  let w := (s.g.rdS s.clock d).toNat
  require (afOf fm == 0 && bfOf fm == 0 && accOf fm == 0) 3
  require (w < 2 ^ 22) 3
  require (rowOff w % 128 == 0) 2
  match s.myWg with
  | none => throw (.trap 3 0 127 0)
  | some x =>
    (s.g.storing s.clock).mapM fun l =>
      match x.row w l with
      | some k => pure (l, k, s.g.laneWords s.clock a 16 l)
      | none => throw (.trap 3 0 l (0xFFE0000000100000 + rowOff w + l * rowPitch w))

/-- R381: a poisoned operand register is used. -/
def markRegs (bad : Bool) : M Unit := modify fun (s : State) => if bad then s.mg (·.ck 0) else s

/-- R320, R332: the registers an MMAR reads. -/
def mmarRefs (o : DAB) (nb : Nat) : List Ref :=
  maskRefs ++ [.s o.d.toNat, .spr 1] ++ dataRefs o.a.toNat 16 ++ dataRefs o.b.toNat nb

/-- R320: MMAR.J: the group arrives, even with an all-zero mask. -/
def execMmarJ (o : DAB) (s : State) : Out :=
  .next (issue .memv o.st.toNat (mmarRefs o 4) (do
    awaitCtr .mx
    let rows ← mmarRows o.d.toNat o.a.toNat
    let t ← get
    let bw := (List.range 32).map fun k => t.g.laneWords t.clock o.b.toNat 4 k
    markRegs ((rows.any fun r => r.2.2.any (·.2)) || bw.any fun r => r.any (·.2))
    let tag ← freshTag
    modify fun (u : State) => (u.advance 4 o.st.toNat).mg fun g => { g with nJoin := g.nJoin + 1, wait := .join tag rows bw }
    mxClaim tag (rows.map fun r => (r.2.1, 128)) [] [] (mxRun tag o.a.toNat 16 false ++ mxRun tag o.b.toNat 4 true)
    post (mxPend tag [])
    modify fun (u : State) => u.settleJoin u.g.wg) s)

/-- R319, R321: MMAR.S. -/
def execMmarS (o : DAB) (s : State) : Out :=
  .next (vunit .memv o.st.toNat 4 (mmarRefs o 16) (do
    awaitCtr .mx
    let rows ← mmarRows o.d.toNat o.a.toNat
    let t ← get
    let bw := (List.range 32).map fun k => t.g.laneWords t.clock o.b.toNat 16 k
    markRegs ((rows.any fun r => r.2.2.any (·.2)) || bw.any fun r => r.any (·.2))
    let tag ← freshTag
    modify fun (u : State) => { u with mxQ := mxInsert {
      core := u.g.core, grp := u.g.id, tag := tag, kind := .mmar, fmt := 0, m := 0, k := 32, n := 32, nt := 32, b := 0, tiles := [],
      x := 0, rows := rows.map (fun r => ⟨u.g.id, r.1, r.2.1, r.2.2⟩), bw := bw, owns := rows.map (fun r => (r.2.1, 128)),
      reads := [], owners := [(u.g.id, tag)], clock := u.clock, quarter := u.g.quarter } u.mxQ }
    mxClaim tag (rows.map fun r => (r.2.1, 128)) [] [] (mxRun tag o.a.toNat 16 false ++ mxRun tag o.b.toNat 16 true)
    post (mxPend tag [])) s)

/-! ### MMAT (R322 to R327) -/

/-- R322: M, K and N of %mshape. -/
def shapeM (w : Word) : Nat := 32 * (bits w.toNat 0 2 + 1)
def shapeK (w : Word) : Nat := 32 * (bits w.toNat 2 7 + 1)
def shapeN (w : Word) : Nat := 32 * (bits w.toNat 9 4 + 1)
/-- R323: the row and column splits. -/
def splitR (w : Word) : Nat := 2 ^ bits w.toNat 0 2
def splitS (w : Word) : Nat := 1 + bits w.toNat 2 1

/-- A range of a buffer that lies in a workgroup's reservation, by its key. -/
def Wg.range (x : Wg) (b off n : Nat) : Option Nat :=
  if off + n ≤ (x.res b).2 then some (scratchKey x.core (bufBase b + (x.res b).1 + off)) else none

/-- R325: adds an operation of the issuing group and counts it; storage in another core's buffers is another member's (R332). -/
def receive (o : Nat → Nat → MxOp) : M Unit := do
  let tag ← freshTag
  let s ← get
  let x := o s.g.id tag
  modify fun (u : State) => { u with mxQ := mxInsert x u.mxQ }
  mxClaim tag x.owns x.reads ((x.owns ++ x.reads).filter fun r => keyCore r.1 != x.core) []
  post (mxPend tag [])

/-- R325 to R327: MMAT; cloud says that it runs in the members R323 names, zero that C is not read. -/
def mmat (cloud zero : Bool) (o : DAB) (s : State) : Out :=
  .next (vunit .mem o.st.toNat 4 [.s o.d.toNat, .s o.a.toNat, .s o.b.toNat, .spr 1, .spr 4, .spr 5] (do
    awaitCtr .mx
    let t ← get
    consumeReg (t.useS o.d.toNat || t.useS o.a.toNat || t.useS o.b.toNat)
    let fm := t.g.rdFmt t.clock
    let shape := t.g.rdSpr t.clock 4
    let mc := t.g.rdSpr t.clock 5
    let d0 := (t.g.rdS t.clock o.d.toNat).toNat
    let a0 := (t.g.rdS t.clock o.a.toNat).toNat
    let b0 := (t.g.rdS t.clock o.b.toNat).toNat
    require (mxClass fm).isSome 3
    require (d0 % 64 == 0 && a0 % 64 == 0 && b0 % 64 == 0) 2
    let m := shapeM shape
    let k := shapeK shape
    let n := shapeN shape
    let r := if cloud then splitR mc else 1
    let sp := if cloud then splitS mc else 1
    let la := operandBytes (afOf fm) (m * (k / 32))
    let lb := operandBytes (bfOf fm) (k / 32 * (n * sp))
    let lc := m * n * 4
    match t.myWg with
    | none => raise 3 0
    | some w =>
      let parts : List (Nat × Option Wg) := (List.range (r * sp)).map fun i => (i, if i = 0 then some w else t.member? w (w.member + i))
      let ranges := parts.map fun p => (p.1, p.2.map fun x => (x.range 1 a0 la, x.range 2 d0 lc))
      require ((w.range 0 b0 lb).isSome && ranges.all fun p => match p.2 with
        | some (some _, some _) => true
        | some _ => false
        -- a member that has ended has no reservation; an index beyond the count is checked next
        | none => decide (w.members ≤ w.member + p.1)) 3
      require (w.member + r * sp ≤ w.members) 9
      let tiles : List MxTile := ranges.filterMap fun p => match p.2 with
        | some (some a, some c) => some ⟨a, c, p.1 / r * n⟩
        | _ => none
      let b := (w.range 0 b0 lb).getD 0
      let fm' := fm
      receive fun grp tag => {
        core := t.g.core, grp := grp, tag := tag, kind := .mmat zero, fmt := fm', m := m, k := k, n := n, nt := n * sp, b := b,
        tiles := tiles, x := 0, rows := [], bw := [], owns := tiles.map fun x => (x.c, lc),
        reads := (b, lb) :: tiles.map fun x => (x.a, la), owners := [(grp, tag)], clock := t.clock, quarter := t.g.quarter }) s)
/-- R326: MMAT.T. -/
def execMmatT (o : DAB) (s : State) : Out := mmat false false o s
/-- R327: MMAT.C. -/
def execMmatC (o : DAB) (s : State) : Out := mmat true false o s
/-- R326: MMAT.TZ. -/
def execMmatTz (o : DAB) (s : State) : Out := mmat false true o s
/-- R327: MMAT.CZ. -/
def execMmatCz (o : DAB) (s : State) : Out := mmat true true o s

/-! ### MZERO, MQUANT, MSTAT (R328 to R330) -/

/-- R328: MZERO. -/
def execMzero (o : DA) (s : State) : Out :=
  .next (vunit .mem o.st.toNat 4 [.s o.d.toNat, .s o.a.toNat] (do
    awaitCtr .mx
    let t ← get
    consumeReg (t.useS o.d.toNat || t.useS o.a.toNat)
    let off := (t.g.rdS t.clock o.d.toNat).toNat
    let n := (t.g.rdS t.clock o.a.toNat).toNat
    require (off % 64 == 0 && n % 64 == 0) 2
    match if n = 0 then some 0 else t.myWg.bind fun w => w.range 2 off n with
    | none => raise 3 0
    | some key =>
      receive fun grp tag => {
        core := t.g.core, grp := grp, tag := tag, kind := .mzero, fmt := 0, m := 0, k := 0, n := 0, nt := 0, b := 0, tiles := [],
        x := n, rows := [], bw := [], owns := [(key, n)], reads := [], owners := [(grp, tag)], clock := t.clock, quarter := t.g.quarter }) s)

/-- R329: MQUANT. -/
def execMquant (o : DAB) (s : State) : Out :=
  .next (vunit .mem o.st.toNat 4 [.s o.d.toNat, .s o.a.toNat, .s o.b.toNat, .spr 1, .spr 4] (do
    awaitCtr .mx
    let t ← get
    consumeReg (t.useS o.d.toNat || t.useS o.a.toNat || t.useS o.b.toNat)
    let fm := t.g.rdFmt t.clock
    let shape := t.g.rdSpr t.clock 4
    let dst := (t.g.rdS t.clock o.d.toNat).toNat
    let src := (t.g.rdS t.clock o.a.toNat).toNat
    let ctl := (t.g.rdS t.clock o.b.toNat).toNat
    require (ctl < 65536 && bits ctl 4 4 == 0 && (quantTarget (ctl % 16)).isSome) 3
    require (src % 64 == 0 && dst % 64 == 0) 2
    let m := shapeM shape
    let n := shapeN shape
    let la := operandBytes (ctl % 16) (m * (n / 32))
    match t.myWg.bind fun w => (w.range 2 src (m * n * 4)).bind fun c => (w.range 1 dst la).map fun a => (c, a) with
    | none => raise 3 0
    | some (c, a) =>
      receive fun grp tag => {
        core := t.g.core, grp := grp, tag := tag, kind := .mquant, fmt := fm, m := m, k := n, n := n, nt := n, b := c,
        tiles := [⟨a, c, 0⟩], x := ctl, rows := [], bw := [], owns := [(a, la)], reads := [(c, m * n * 4)], owners := [(grp, tag)],
        clock := t.clock, quarter := t.g.quarter }) s)

/-- R330: MSTAT. -/
def execMstat (o : D1) (s : State) : Out :=
  .next (unit .scal o.st.toNat 4 [] (fun t =>
    let k := t.core t.g.core
    .ok () (t.mg fun g => (g.setS t.clock latCross o.d.toNat k.rowsDone false).setS t.clock latCross (o.d.toNat + 1) k.rowsSkipped false)) s)

end Sys2Proof.Machine
end

