-- ==== Sys2Proof/Machine/Traps.lean ====
section
/-! DEFINITION. Barriers (R262), TRIGGER (R258), and the trap instructions TRAP, BKPT, ERET, CHKERR, IRGN and IRGE (R365,
R366, R374, R375, R383). -/

namespace Sys2Proof.Machine

/-! ### Barriers and TRIGGER -/

/-- R102, R262: the issuing group arrives at a BAR; cont says what follows it. -/
def State.arriveBar (s : State) (st cont : Nat) : State :=
  let u := (s.performAll.advance 4 st).mg fun g => { g with nBar := g.nBar + 1, wait := .bar cont }
  u.settleBar u.g.wg

/-- R262: BAR. -/
def execBar (o : Z0) (s : State) : Out := .next (issue .scal o.st.toNat [] (do releaseHold; modify fun (t : State) => t.arriveBar o.st.toNat 0) s)

/-- R262: CBAR. -/
def execCbar (o : Z0) (s : State) : Out :=
  .next (issue .scal o.st.toNat [] (do
    releaseHold
    modify fun (t : State) =>
      let u := (t.performAll.advance 4 o.st.toNat).mg fun g => { g with nCbar := g.nCbar + 1, wait := .cbar }
      u.settleCbar u.g.wg) s)

/-- R258: TRIGGER. -/
def execTrigger (o : Z0) (s : State) : Out :=
  .next (unit .scal o.st.toNat 4 [] (do
    releaseHold
    modify fun (t : State) => t.performAll.mg fun g => { g with triggered := true }) s)

/-! ### TRAP, BKPT and ERET -/

/-- R82, R366: a trap that resumes after its instruction; its handler comes no earlier than the stall count says. -/
def State.trapAfter (s : State) (cause detail st : Nat) : State :=
  (s.takeTrap cause detail 127 0 (s.g.pc + 4) s.g.sig).mg fun g => { g with notBefore := max g.notBefore (s.clock + 1 + st) }

/-- R366: TRAP. -/
def execTrap (o : K6) (s : State) : Out := .next (issue .scal o.st.toNat [] (fun t => .ok () (t.trapAfter 11 o.k.toNat o.st.toNat)) s)

/-- R366: BKPT. -/
def execBkpt (o : Z0) (s : State) : Out :=
  .next (issue .scal o.st.toNat [] (fun t =>
    if (t.ctx t.g.ctx).trapVec = 0 then .ok () (t.advance 4 o.st.toNat) else .ok () (t.trapAfter 12 0 o.st.toNat)) s)

/-- R365, R381: a word of the frame that is used at once is poisoned: TPC, the mask, %gsr, %fmt, %sig (DEDUCED, log entry 55). -/
def framePoison (f : List (Nat × Bool)) : Bool := (f.take 7).any (·.2)

/-- R364, R365: returns from the handler, whose entry found the stacks at the depths given (DEDUCED, log entry 55). -/
def eretBody (st ret recon : Nat) : M Unit := fun s =>
  match s.performAll.frameLoc with
  | (none, t) => .ok () t.killGroup
  | (some l, t) =>
    let (f, u) := t.readFrame l
    if u.g.retDepth ≠ ret ∨ u.g.reconDepth ≠ recon then .ok () u.killGroup
    else
      let v := if f.any (·.2) then u.mg (·.ck (poisonBit l)) else u
      if framePoison f then .error (.consumed 0) v
      else .ok () (v.mg fun g => g.leaveHandler f v.clock st)

/-- R365: ERET. -/
def execEret (o : Z0) (s : State) : Out :=
  .next (issue .scal o.st.toNat [] (fun t =>
    match t.g.handler with
    | none => .error (.trap 3 0 127 0) t
    | some (ret, recon) => eretBody o.st.toNat ret recon t) s)

/-! ### CHKERR -/

/-- R383: CHKERR. -/
def execChkerr (o : DAB) (s : State) : Out :=
  .next (unit .scal o.st.toNat 4 [.s o.a.toNat, .s o.b.toNat] (do
    let t ← get
    if !t.countsOk t.g 0 0 0 (ctrMax .en) 0 true then throw (.await (.limits 0 0 0 (ctrMax .en) 0 true))
    consumeReg (t.useS o.a.toNat || t.useS o.b.toNat)
    let x := t.g.ckint
    let a := t.g.rdS t.clock o.a.toNat
    let b := t.g.rdS t.clock o.b.toNat
    putScalar 2 o.d.toNat x false
    putScc 2 (x &&& a != 0)
    modify fun (u : State) => u.mg fun g => { g with ckint := x &&& ~~~(b &&& 0x7F) }) s)

/-! ### Idempotent regions (R374, R375) -/

/-- R374: IRGN.GRP. -/
def execIrgnGrp (o : Z0) (s : State) : Out :=
  .next (unit .scal o.st.toNat 4 [] (modify fun (t : State) => t.performAll.beginRegion false (t.g.pc + 4)) s)

/-- R374: IRGN.WG: the BAR first. -/
def execIrgnWg (o : Z0) (s : State) : Out := .next (issue .scal o.st.toNat [] (do releaseHold; modify fun (t : State) => t.arriveBar o.st.toNat 1) s)

/-- R375: IRGE. -/
def execIrge (o : Z0) (s : State) : Out :=
  .next (issue .scal o.st.toNat [] (fun t =>
    match t.g.region with
    | none => .ok () (t.advance 4 o.st.toNat)
    | some r =>
      if r.wg then (do releaseHold; modify fun (u : State) => u.arriveBar o.st.toNat 2) t
      else .ok () ((t.mg fun g => { g with region := none }).advance 4 o.st.toNat)) s)

/-- R43: ILLEGAL_INSTRUCTION: the issuing group's unit cannot be decoded, by step 2 to 5. -/
def execIllegalInstruction (step : Nat) (s : State) : Out :=
  if s.g.running && decide (2 ≤ step ∧ step ≤ 5) then .next (s.takeTrap 1 step 127 0 s.g.pc s.g.sig) else .next s

end Sys2Proof.Machine
end

