-- ==== Sys2Proof/Machine/Packets.lean ====
section
/-! DEFINITION. Launch packets: reading, checking and rejecting them (R246, R247, R254), completion records (R248), the host
queues (R249) and LAUNCH (R251, R252). -/

namespace Sys2Proof.Machine

/-! ### Fields (R246) -/

/-- R246: the general slots of a packet. -/
def Packet.general (p : Packet) : Nat := bits p.shape 22 7
/-- R246: lanes per workgroup. -/
def Packet.laneCount (p : Packet) : Nat := bits p.shape 0 11
/-- R246: groups per workgroup. -/
def Packet.groupCount (p : Packet) : Nat := bits p.shape 11 5
/-- R246: cloud members. -/
def Packet.memberCount (p : Packet) : Nat := bits p.shape 16 6
/-- R259: DEP. -/
def Packet.dep (p : Packet) : Bool := bit p.flags 0
/-- R256: the curve. -/
def Packet.curve (p : Packet) : Nat := bits p.flags 1 3
/-- R257: the batch size. -/
def Packet.batch (p : Packet) : Nat := max 1 (bits p.flags 4 8)
/-- R246: entries of the spawn table. -/
def Packet.entryCount (p : Packet) : Nat := bits p.spawn 0 8
/-- R246: the idle release, in fabric clocks. -/
def Packet.idle (p : Packet) : Nat := bits p.spawn 16 16
/-- R246: the context. -/
def Packet.ctx (p : Packet) : Nat := p.root % 4096
/-- R246: the physical address of the level-5 table. -/
def Packet.tables (p : Packet) : Nat := bits p.root 12 40 * 4096

/-- A packet of 128 bytes as read, with the numbers of its 8-byte words that are poisoned or cannot be read. -/
structure RawPacket where
  bytes : List Byte
  bad : List Nat
  deriving DecidableEq, Repr

/-- n bytes at an offset. -/
def RawPacket.field (r : RawPacket) (o n : Nat) : Nat := leNat ((r.bytes.drop o).take n)
/-- The word that holds an offset has been read and is not poisoned. -/
def RawPacket.ok (r : RawPacket) (o : Nat) : Bool := !r.bad.contains (o / 8)

/-- R246: the fields of a packet. -/
def RawPacket.packet (r : RawPacket) : Packet :=
  { entry := r.field 0x00 8, args := r.field 0x08 8, seq := r.field 0x10 4, flags := r.field 0x14 4, x := r.field 0x18 4,
    y := r.field 0x1C 4, z := r.field 0x20 4, shape := r.field 0x24 4, sw := r.field 0x28 4, sa := r.field 0x2C 4,
    sc := r.field 0x30 4, fmt := r.field 0x34 4, root := r.field 0x38 8, stack := r.field 0x40 8, stride := r.field 0x48 4,
    seed := r.field 0x4C 4, entries := r.field 0x50 8, spawn := r.field 0x58 4, resA := r.field 0x5C 4,
    overflow := r.field 0x60 8, ovsize := r.field 0x68 4, resB := r.field 0x6C 4, compl := r.field 0x70 8, walk := r.field 0x78 8 }

/-! ### Checks (R247, R254) -/

/-- A check that rejects: the status code, whether it fails, and the requested value and limit it reports. -/
structure PacketCheck where
  code : Nat
  fails : Bool
  req : Nat
  lim : Nat
  deriving DecidableEq, Repr

/-- R247: codes 1 and 2, which packets and child packets share (DEDUCED, log entry 41). -/
def RawPacket.sizeChecks (r : RawPacket) : List PacketCheck :=
  let p := r.packet
  let big (x lim : Nat) : Bool := decide (lim < x) || x % 256 != 0
  [⟨1, r.ok 0x24 && decide (64 < p.general), p.general, 64⟩,
   ⟨2, r.ok 0x28 && big p.sw 0x80000, p.sw, 0x80000⟩,
   ⟨2, r.ok 0x2C && big p.sa 0x80000, p.sa, 0x80000⟩,
   ⟨2, r.ok 0x30 && big p.sc 0x40000, p.sc, 0x40000⟩]

/-- R247: the custom walk is a permutation of the 16 positions. -/
def walkOk (w : Nat) : Bool := (List.range 16).all fun k => (List.range 16).any fun j => bits w (4 * j) 4 == k

/-- R247: MALFORMED at an offset. -/
def malformed (fails : Bool) (off : Nat) : PacketCheck := ⟨5, fails, off, 0⟩

/-- R247: the checks of a packet, by code and offset. -/
def RawPacket.checks (r : RawPacket) : List PacketCheck :=
  let p := r.packet
  let n := p.groupCount
  let l := p.laneCount
  let m := p.memberCount
  let size (x : Nat) : Bool := x == 0 || decide (2 ^ 24 < x)
  r.sizeChecks ++
  [⟨3, r.ok 0x24 && (n == 0 || decide (16 < n)), n, if n = 0 then 1 else 16⟩,
   ⟨3, r.ok 0x24 && decide (l < 96 * (n - 1) + 1), l, 96 * (n - 1) + 1⟩,
   ⟨3, r.ok 0x24 && decide (96 * n < l), l, 96 * n⟩,
   ⟨4, r.ok 0x24 && (m == 0 || decide (48 < m)), m, 48⟩,
   malformed (r.ok 0x00 && p.entry % 2 != 0) 0x00,
   malformed (r.ok 0x14 && (p.flags / 2 ^ 12 != 0 || decide (5 ≤ p.curve))) 0x14,
   malformed (r.ok 0x18 && (size p.x || (r.ok 0x24 && decide (1 < m) && p.x % m != 0))) 0x18,
   malformed (r.ok 0x1C && size p.y) 0x1C,
   malformed (r.ok 0x20 && size p.z) 0x20,
   malformed (r.ok 0x24 && p.shape / 2 ^ 29 != 0) 0x24,
   malformed (r.ok 0x38 && p.root / 2 ^ 52 != 0) 0x38,
   malformed (r.ok 0x40 && p.stack % 65536 != 0) 0x40,
   malformed (r.ok 0x48 && (p.stride % 4096 != 0 || decide (p.stride < 4096) || decide (2 ^ 20 < p.stride))) 0x48,
   malformed (r.ok 0x50 && p.entries % 8 != 0) 0x50,
   malformed (r.ok 0x58 && bits p.spawn 8 8 != 0) 0x58,
   malformed (r.ok 0x5C && p.resA != 0) 0x5C,
   malformed (r.ok 0x60 && p.overflow % 4096 != 0) 0x60,
   malformed (r.ok 0x68 && p.ovsize % 32768 != 0) 0x68,
   malformed (r.ok 0x6C && p.resB != 0) 0x6C,
   malformed (r.ok 0x70 && p.compl % 16 != 0) 0x70,
   malformed (r.ok 0x78 && r.ok 0x14 && p.curve == 4 && !walkOk p.walk) 0x78]

/-- R254: the checks of a child packet: the fields it does not use are zero (DEDUCED, log entry 41). -/
def RawPacket.childChecks (r : RawPacket) : List PacketCheck :=
  let p := r.packet
  r.sizeChecks ++
  [malformed (r.ok 0x00 && p.entry % 2 != 0) 0x00] ++
  ([0x10, 0x14, 0x18, 0x1C, 0x20].map fun o => malformed (r.ok o && r.field o 4 != 0) o) ++
  [malformed (r.ok 0x24 && (bits p.shape 0 22 != 0 || p.shape / 2 ^ 29 != 0)) 0x24] ++
  [malformed (r.ok 0x38 && p.root != 0) 0x38, malformed (r.ok 0x40 && p.stack != 0) 0x40] ++
  ([0x48, 0x4C].map fun o => malformed (r.ok o && r.field o 4 != 0) o) ++
  [malformed (r.ok 0x50 && p.entries != 0) 0x50] ++
  ([0x58, 0x5C].map fun o => malformed (r.ok o && r.field o 4 != 0) o) ++
  [malformed (r.ok 0x60 && p.overflow != 0) 0x60] ++
  ([0x68, 0x6C].map fun o => malformed (r.ok o && r.field o 4 != 0) o) ++
  [malformed (r.ok 0x70 && p.compl != 0) 0x70, malformed (r.ok 0x78 && p.walk != 0) 0x78]

/-- R247: the first code that applies, at the first structure that fails. -/
def firstFailing (ss : List (List PacketCheck)) : Option PacketCheck :=
  [1, 2, 3, 4, 5].findSome? fun c => ss.findSome? fun cs => cs.find? fun k => k.code == c && k.fails

/-! ### The distributor's accesses (R213, R247, R248) -/

/-- R248, R254: where the distributor finds an address of a context: its walk claims nothing and fills no TLB (DEDUCED, log entry 40). -/
def State.distLoc (s : State) (ctx root va : Nat) (p : Perm) : Option Loc :=
  if 0x0200000000000000 ≤ va then none
  else
    match s.walk va root walkLevels with
    | none => none
    | some (_, e, size) =>
      let priv := (s.ctx ctx).priv
      let perm := match p with | .rd => bit e 3 | .w => bit e 4 | .x => bit e 5
      let pa := ptePa e + va % size
      if perm && (!bit e 6 || priv) && bit e 2 && s.typeOk pa (pteType e) priv then
        let shared := pteCls e == 2
        some ⟨pa, pteType e, if shared then sharedSlice pa (pteType e) (pteOwner e) else pteOwner e, shared⟩
      else none

/-- R389: the errors the distributor's walk finds. -/
def State.distFind (s : State) (ctx root va : Nat) : State := s.walkFind ctx va root walkLevels

/-- R399, R421: the place of a device physical address in HBM or host memory; in minimal mode only stack 0 is HBM (DEDUCED, log entry 40). -/
def physLoc (minMode : Bool) (pa : Nat) : Option Loc :=
  if pa < (if minMode then 2 ^ 36 else 2 ^ 39) then some ⟨pa, 0, sharedSlice pa 0 0, true⟩
  else if 0x8000000000000 ≤ pa ∧ pa < 0x8400000000000 then some ⟨pa, 2, 0, false⟩
  else none

/-- An 8-byte word the distributor reads, with its mark; none where it cannot be read (DEDUCED, log entry 40). -/
def State.distWord (s : State) (l : Option Loc) : Option (Nat × Bool) × State :=
  match l with
  | none => (none, s)
  | some l =>
    if l.ty = 5 ∧ 0xF000000000000 ≤ l.key then
      let r := s.mgmtRead (l.key - 0xF000000000000) 8
      (some (r.1, false), r.2)
    else if (l.ty = 2 || l.ty = 3 || l.ty = 5) && s.hostDown then (some (0, true), s)
    else if l.ty = 5 then
      (some (leNat ((List.range 8).map fun i => Config.mmioByte (l.key - 0xE000000000000 + i) s.free), false), s.fresh)
    else if l.ty = 4 ∧ (s.peerFails 0 l.key).isSome then (some (0, true), s.linkEvent ((s.peerFails 0 l.key).getD 0) 3)
    else
      let t := (s.exactAccess l).findErrors 0xFFF l.key 8 false
      (some (t.memRead l.key 8, t.memPoisoned l.key 8), t)

/-- R247: a packet's 16 words read from the places given; the bytes of a word that cannot be read are free values. -/
def State.distPacket (s : State) (at_ : Nat → Option Loc) : RawPacket × State :=
  (List.range 16).foldl (fun (a : RawPacket × State) i =>
    match a.2.distWord (at_ i) with
    | (none, t) =>
      (⟨a.1.bytes ++ (List.range 8).map fun j => Config.freeByte (t.free + j), a.1.bad ++ [i]⟩, { t with free := t.free + 8 })
    | (some (w, pz), t) => (⟨a.1.bytes ++ leBytes 8 w, if pz then a.1.bad ++ [i] else a.1.bad⟩, t)) (⟨[], []⟩, s)

/-- What reading an entry of the table gives: the check of the entry, the address in the table or in the child packet that cannot be
read, the child packet. -/
structure EntryRead where
  tableCheck : PacketCheck
  childChecks : List PacketCheck
  entryUnread : Option Nat
  childUnread : Option Nat
  child : Packet
  deriving DecidableEq, Repr

/-- R254: reads entry i of the table and its child packet. -/
def State.readEntry (s : State) (ctx root entries i : Nat) : EntryRead × State :=
  let none_ : PacketCheck := malformed false 0
  let s := s.distFind ctx root (entries + 8 * i)
  match s.distWord (s.distLoc ctx root (entries + 8 * i) .rd) with
  | (none, t) => (⟨none_, [], some (entries + 8 * i), none, Packet.zero⟩, t)
  | (some (_, true), t) => (⟨none_, [], some (entries + 8 * i), none, Packet.zero⟩, t)
  | (some (a, false), t) =>
    if a % 64 != 0 then (⟨malformed true (8 * i), [], none, none, Packet.zero⟩, t)
    else
      let (r, u) := (((t.distFind ctx root a).distFind ctx root (a + 127))).distPacket fun k => t.distLoc ctx root (a + 8 * k) .rd
      (⟨none_, r.childChecks, none, r.bad.head?.map fun k => a + 8 * k, r.packet⟩, u)

/-- R247, R254: decodes a packet read at an address: its status with the requested value and the limit, and its child
packets. -/
def State.decodePacket (s : State) (r : RawPacket) (ctx root base : Nat) (full : Bool) : (Nat × Nat × Nat) × List Packet × State :=
  let p := r.packet
  let n := if r.ok 0x50 && r.ok 0x58 && p.entries % 8 == 0 then p.entryCount else 0
  let (es, t) := (List.range n).foldl (fun (a : List EntryRead × State) i =>
    let e := a.2.readEntry ctx root p.entries i
    (a.1 ++ [e.1], e.2)) ([], s)
  let st : Nat × Nat × Nat :=
    match firstFailing ([r.checks, es.map (·.tableCheck)] ++ es.map (·.childChecks)) with
    | some k => (k.code, k.req, k.lim)
    | none =>
      if full then (6, 0, 0)
      else
        match r.bad with
        | w :: _ => (7, (base + 8 * w) % 2 ^ 32, 0)
        | [] => match (es.findSome? (·.entryUnread)).or (es.findSome? (·.childUnread)) with
          | some a => (7, a % 2 ^ 32, 0)
          | none => (0, 0, 0)
  (st, es.map (·.child), t)

/-! ### Completion records and the host queues (R248, R249) -/

/-- R249: the records written, in order, move LQDONE. -/
def LQueue.settle (l : LQueue) : LQueue :=
  let done := l.order.takeWhile fun e => e.2.2
  { l with done := (done.getLast?.map fun e => e.2.1).getD l.done, order := l.order.drop done.length }
/-- A packet's record is written, or lost. -/
def LQueue.markDone (l : LQueue) (id : Nat) : LQueue :=
  LQueue.settle { l with order := l.order.map fun (e : Nat × Word × Bool) => if e.1 = id then (e.1, e.2.1, true) else e }
/-- The same for the queue of a number; LAUNCH keeps no queue of its own. -/
def State.queueDone (s : State) (queue id : Nat) : State :=
  if queue < 64 then s.setLq ((s.lq queue).markDone id) else s

/-- R248: the 16 bytes of a completion record. -/
def recordBytes (seq code queue req lim : Nat) : List Byte :=
  leBytes 4 seq ++ leBytes 1 code ++ leBytes 1 queue ++ leBytes 2 0 ++ leBytes 4 req ++ leBytes 4 lim

/-- R248, R394, R410: stores a record, or the part of one that lies in one page, at its place: in coherent memory at the home slice, with no
other copy left. -/
def State.storeRecord (s : State) (l : Loc) (bs : List Byte) : State :=
  if l.ty = 4 then
    match s.peerFails 0 l.key with
    | some p => s.linkEvent p 3
    | none => (s.memStore l.key bs).record l.key
  else if l.ty = 5 then
    if 0xF000000000000 ≤ l.key then
      (s.mgmtWrite (l.key - 0xF000000000000) (min 8 bs.length) (leNat (bs.take 8))).mgmtWrite
        (l.key - 0xF000000000000 + 8) (bs.length - 8) (leNat (bs.drop 8))
    else s.mmioStore (l.key - 0xE000000000000) bs.length (leNat bs)
  else if l.ty = 3 then (s.record l.key).memStore l.key bs
  else
    let line := lineOf l.key
    let t := (s.exactAccess l).admitLine l.ty line
    let t := if l.shared then t.dirHome line l.slice else t.dropCopies line
    (((t.sliceTouch l.slice line 0).record l.key).memStore l.key bs).plantAt [bankIdx 3 l.slice] (l.key / 8)

/-- R248: the places of the 16 bytes of a record with what goes there, each translated by itself where a page ends among them; none where one of
them cannot be written. -/
def State.recordParts (s : State) (ctx root a : Nat) (bs : List Byte) : Option (List (Loc × List Byte)) :=
  let n := min 16 (65536 - a % 65536)
  match s.distLoc ctx root a .w with
  | none => none
  | some l =>
    if n = 16 then some [(l, bs)]
    else (s.distLoc ctx root (a + n) .w).map fun k => [(l, bs.take n), (k, bs.drop n)]

/-- R407: the place is behind the host link. -/
def Loc.atHost (l : Loc) : Bool := (l.ty == 2 || l.ty == 3 || l.ty == 5) && decide (l.key < 0xF000000000000)

/-- R248, R406, R407: writes the record of a packet, or loses it, or holds what the host link keeps back; then the event. -/
def State.completeRecord (s : State) (queue id ctx root : Nat) (ok : Bool) (compl seq code req lim : Nat) : State :=
  let s := if ok then (s.distFind ctx root compl).distFind ctx root (compl + 15) else s
  let parts := if ok then s.recordParts ctx root compl (recordBytes seq code queue req lim) else none
  let t : State :=
    match parts with
    | none => s.queueDone queue id
    | some ps =>
      let held (p : Loc × List Byte) : Bool := s.hostDown && p.1.atHost
      let t := ps.foldl (fun (u : State) p =>
        if held p then { u with heldRecs := u.heldRecs ++ [⟨queue, id, p.1.key, p.2⟩] } else u.storeRecord p.1 p.2) s
      if ps.any held then t else t.queueDone queue id
  t.postEvent 1 (seq % 2 ^ 32 + queue % 256 * 2 ^ 32)

/-- The place of a held record: host memory or host MMIO (R399). -/
def HeldRecord.loc (r : HeldRecord) : Loc := ⟨r.key, if 0xE000000000000 ≤ r.key then 5 else 2, 0, false⟩
/-- R407: the records held while the host link was down are written. -/
def State.releaseRecords (s : State) : State :=
  s.heldRecs.foldl (fun (t : State) r => (t.storeRecord r.loc r.bytes).queueDone r.queue r.id) { s with heldRecs := [] }

/-! ### Grids (R250, R252, R256, R259) -/

/-- R253: how many positions a grid's curve starts: workgroups, or clouds. -/
def Grid.positions (k : Grid) : Nat := k.pkt.x / max 1 k.pkt.memberCount * k.pkt.y * k.pkt.z
/-- R250: every workgroup of the grid has started. -/
def Grid.allStarted (k : Grid) : Bool := decide (k.positions ≤ k.started)

/-- R252: a LAUNCH queue has no room. -/
def State.launchFull (s : State) (pri : Nat) : Bool :=
  decide (256 ≤ (s.grids.filter fun k => k.queue == 255 && k.pri == pri && !k.allStarted).length)

/-- R252: the priority a grid's launches take. -/
def State.gridPri (s : State) (k : Grid) : Nat := if k.queue < 64 then (s.lq k.queue).pri else k.pri

/-- R246: a new grid. -/
def newGrid (id addr queue pri : Nat) (p : Packet) (cs : List Packet) (pred : Option Nat) : Grid :=
  { id := id, addr := addr, queue := queue, pri := pri, pkt := p, children := cs, cursor := 0, started := 0, batch := 0,
    pred := if p.dep then pred else none, tried := none }

/-- R247 to R249: the next packet of a host queue is decoded. -/
def State.decodeQueue (s : State) (q : Nat) : State :=
  let l := s.lq q
  if !l.en || l.size = 0 || l.head = l.tail || !s.mgmt.ok then s
  else
    let base := l.base.toNat + 128 * (l.head % l.size)
    let id := s.nextId
    let (r, t) := s.distPacket fun i => physLoc s.mgmt.minMode (base + 8 * i)
    let p := r.packet
    let (st, cs, u) := t.decodePacket r p.ctx p.tables base false
    let k := u.lq q
    let k := { k with head := (k.head + 1) % 2 ^ 32, acc := BitVec.ofNat 32 p.seq,
                      order := k.order ++ [(id, BitVec.ofNat 32 p.seq, false)],
                      last := if st.1 = 0 then some id else none }
    let u := { u.setLq k with nextId := id + 1 }
    if st.1 = 0 then { u with grids := u.grids ++ [newGrid id base q l.pri p cs l.last] }
    else u.completeRecord q id p.ctx p.tables (r.ok 0x10 && r.ok 0x38 && r.ok 0x70 && p.root / 2 ^ 52 == 0) p.compl p.seq
      st.1 st.2.1 st.2.2

/-- R251, R252: the oldest LAUNCH is decoded, and its group gets the status. -/
def State.decodeLaunch (s : State) : State :=
  match s.launchQ with
  | [] => s
  | q :: rest =>
    let s := { s with launchQ := rest }
    match s.group? q.grp with
    | none => s
    | some g =>
      let parent := s.grid? g.grid
      let id := s.nextId
      let loc (i : Nat) : Option Loc := some (if i < 8 then q.lo.plus (8 * i) else q.hi.plus (8 * (i - 8)))
      let (r, t) := s.distPacket loc
      let p0 := r.packet
      let p := if g.priv then p0 else { p0 with root := ((parent.map fun k => k.pkt.root).getD 0) }
      let ctx := if g.priv then p0.ctx else g.ctx
      let root := if g.priv then p0.tables else g.root
      let r := if g.priv then r
        else { bytes := r.bytes.take 0x38 ++ leBytes 8 p.root ++ r.bytes.drop 0x40, bad := r.bad.filter fun w => w != 7 }
      let pri := ((parent.map fun k => t.gridPri k).getD 0)
      let (st, cs, u) := t.decodePacket r ctx root q.va (t.launchFull pri)
      let u := { u with nextId := id + 1 }
      let v :=
        if st.1 = 0 then { u with grids := u.grids ++ [newGrid id q.va 255 pri p cs (some g.grid)] }
        else u.completeRecord 255 id ctx root (r.ok 0x10 && r.ok 0x38 && r.ok 0x70 && p.root / 2 ^ 52 == 0) p.compl p.seq
          st.1 st.2.1 st.2.2
      v.updGroup q.grp fun h => { h.nowS q.d (BitVec.ofNat 32 st.1) with wait := .ready }

/-- R247: PACKET_DECODE: of a host queue, or (255) of LAUNCH. -/
def execPacketDecode (queue : Nat) (s : State) : Out :=
  .next (if queue < 64 then s.decodeQueue queue else if queue = 255 then s.decodeLaunch else s)

/-- R251: LAUNCH. -/
def execLaunch (o : DA) (s : State) : Out :=
  .next (unit .mem o.st.toNat 4 (sRefs o.a.toNat 2) (do
    releaseHold
    settleOwn
    let a ← basePair o.a.toNat
    let (lo, hi) ← checkPacket a
    modify fun (u : State) =>
      let v := u.mg fun g => { g with wait := .launch o.d.toNat }
      { v with launchQ := v.launchQ ++ [⟨v.g.id, o.d.toNat, a, lo, hi⟩] }) s)

end Sys2Proof.Machine
end

