-- ==== Sys2Proof/Machine/Place.lean ====
section
/-! DEFINITION. The work distributor: register blocks and places (R62 to R64), scratch reservations and the start of
workgroups and clouds (R253 to R255), curves and batches (R256, R257), the choice among queues (R250, R259), and the end
of a grid (R248). -/

namespace Sys2Proof.Machine

/-! ### Room on a core (R62, R63, R253) -/

/-- The lowest place of n below a limit that meets none of the ranges in use. -/
def fitRange (used : List (Nat × Nat)) (n lim : Nat) : Option Nat :=
  if n = 0 then some 0
  else
    (0 :: used.map fun u => u.1 + u.2).foldl (fun (best : Option Nat) c =>
      if decide (c + n ≤ lim) && used.all (fun u => u.2 == 0 || decide (c + n ≤ u.1 ∨ u.1 + u.2 ≤ c)) && best.all (fun b => decide (c < b))
      then some c else best) none

/-- Where a group is put: its index in the workgroup, its place, its register block. -/
structure Spot where
  gidx : Nat
  place : Nat
  block : Nat
  deriving DecidableEq, Repr

/-- Where a workgroup is put: its core, its groups, its three reservations. -/
structure CorePlan where
  core : Nat
  spots : List Spot
  offW : Nat
  offA : Nat
  offC : Nat
  deriving DecidableEq, Repr

/-- R64: the outcome of a placement attempt: it fits, it fails only for lack of a contiguous block, or it fails. -/
inductive Attempt where
  | fits (p : CorePlan)
  | fragmented
  | full
  deriving DecidableEq, Repr

/-- R62: puts groups of u units beside the blocks and places in use, lowest first. -/
def putGroups (u : Nat) : List Nat → List (Nat × Nat) → List Nat → Option (List Spot)
  | [], _, _ => some []
  | i :: r, blocks, places =>
    match fitRange blocks u 256, (List.range 32).find? fun p => !places.contains p with
    | some b, some p => (putGroups u r (blocks ++ [(b, u)]) (places ++ [p])).map fun l => ⟨i, p, b⟩ :: l
    | _, _ => none

/-- The groups resident on a quarter. -/
def State.resident (s : State) (core quarter : Nat) : List Group := s.groups.filter fun g => g.onQuarter core quarter && g.running

/-- R395: the rows of an array instance that wait for their self-test: 8-byte words (DESIGN CHOICE, log entry 18). -/
def State.withheld (s : State) (kind inst : Nat) : List Nat :=
  (s.banks.filter fun b => b.idx == bankIdx kind inst).flatMap fun b => b.tests.map fun r => r.row.toNat
/-- R395: the register units of a quarter that are withheld. -/
def State.withheldUnits (s : State) (core quarter : Nat) : List (Nat × Nat) :=
  ((s.withheld 0 (4 * core + quarter)).filter fun a => decide (a < 49152)).map fun a => (8 * a / 1536, 1)

/-- R62, R100, R395: the register units of a quarter that are not free: of its groups, of ended groups whose work is not yet done, withheld. -/
def State.unitsUsed (s : State) (core quarter : Nat) : List (Nat × Nat) :=
  let taken := ((s.resident core quarter).map fun g => (g.block, blockUnits g.gslots))
    ++ ((s.heldBlocks.filter fun b => b.core == core && b.quarter == quarter).map fun b => (b.block, b.units))
  taken ++ (s.withheldUnits core quarter).filter fun w => !taken.any fun b => decide (b.1 ≤ w.1 ∧ w.1 < b.1 + b.2)

/-- R12, R62: one quarter's share of a workgroup: the spots, or none and whether only contiguity fails. -/
def State.fitQuarter (s : State) (core u : Nat) (gidxs : List Nat) (quarter : Nat) : Option (List Spot) × Bool :=
  let mine := gidxs.filter fun i => i % 4 == quarter
  if mine.isEmpty then (some [], true)
  else
    let gs := s.resident core quarter
    let blocks := s.unitsUsed core quarter
    let used := (blocks.map (·.2)).foldl (· + ·) 0
    let room := decide (gs.length + mine.length ≤ 32) && decide (used + mine.length * u ≤ 256)
    (if room then putGroups u mine blocks (gs.map (·.place)) else none, room)

/-- A workgroup keeps its reservation: it runs, or work of it is still under way (R100). -/
def State.wgBusy (s : State) (w : Wg) : Bool :=
  s.engQ.any (fun c => c.wg == w.id)
    || !w.saved && (w.live || s.mxQ.any fun o => (o.owns ++ o.reads).any fun r =>
        overlaps r.1 r.2 (scratchKey w.core w.offW) w.sizeW || overlaps r.1 r.2 (scratchKey w.core (0x80000 + w.offA)) w.sizeA
          || overlaps r.1 r.2 (scratchKey w.core (0x100000 + w.offC)) w.sizeC)

/-- R253: room in the three buffers of a core (DESIGN CHOICE, log entry 43). -/
def State.fitScratch (s : State) (core sw sa sc : Nat) : Option (Nat × Nat × Nat) :=
  let ws := s.wgs.filter fun w => w.core == core && s.wgBusy w
  let rows (buf : Nat) : List (Nat × Nat) := (s.withheld 2 (3 * core + buf)).map fun a => (8 * a / 64 * 64, 64)
  match fitRange (ws.map (fun w => (w.offW, w.sizeW)) ++ rows 0) sw 0x80000, fitRange (ws.map (fun w => (w.offA, w.sizeA)) ++ rows 1) sa 0x80000,
      fitRange (ws.map (fun w => (w.offC, w.sizeC)) ++ rows 2) sc 0x40000 with
  | some a, some b, some c => some (a, b, c)
  | _, _, _ => none

/-- R63, R64, R253: an attempt to place a workgroup's groups on a core. -/
def State.attempt (s : State) (core u : Nat) (gidxs : List Nat) (sw sa sc : Nat) (nums : Bool) : Attempt :=
  let qs := (List.range 4).map (s.fitQuarter core u gidxs)
  match s.fitScratch core sw sa sc with
  | none => .full
  | some (a, b, c) =>
    if !nums || qs.any (fun q => !q.2) then .full
    else if qs.all (fun q => q.1.isSome) then .fits ⟨core, qs.flatMap fun q => q.1.getD [], a, b, c⟩
    else .fragmented

/-- R396, R421: the core takes no new work. -/
def State.coreOut (s : State) (core : Nat) : Bool :=
  s.mgmt.coreRet.contains core || (s.core core).retireMark || (s.mgmt.minMode && decide (48 ≤ core))

/-- R257: the free register units of a core. -/
def State.freeUnits (s : State) (core : Nat) : Nat :=
  1024 - (((List.range 4).flatMap (s.unitsUsed core)).map (·.2)).foldl (· + ·) 0

/-- R257: cores by free units, most first, ties to the lowest index. -/
def insertCore (c : Nat × Nat) : List (Nat × Nat) → List (Nat × Nat)
  | [] => [c]
  | d :: r => if d.2 < c.2 then c :: d :: r else d :: insertCore c r
/-- R257: the cores of a cluster that take work, in the order in which they are tried. -/
def State.coreOrder (s : State) (cluster : Nat) (avoid : List Nat) : List Nat :=
  (((List.range 48).map (48 * cluster + ·)).filter fun c => !s.coreOut c && !avoid.contains c).foldl
    (fun l c => insertCore (c, s.freeUnits c) l) [] |>.map (·.1)

/-- R64: counts a failed attempt. -/
def State.countFrag (s : State) (core : Nat) : State :=
  let k := s.core core
  s.setCore { k with fragstall := satInc k.fragstall }

/-- R253, R257: the first core of the order that takes a workgroup. -/
def State.tryCores (s : State) (u : Nat) (gidxs : List Nat) (sw sa sc : Nat) (nums : Bool) : List Nat → Option CorePlan × State
  | [] => (none, s)
  | c :: r =>
    match s.attempt c u gidxs sw sa sc nums with
    | .fits p => (some p, s)
    | .fragmented => State.tryCores (s.countFrag c) u gidxs sw sa sc nums r
    | .full => State.tryCores s u gidxs sw sa sc nums r

/-- R253: places the members of a cloud, or one workgroup, on distinct cores of a cluster. -/
def State.tryCluster (s : State) (cluster u sw sa sc : Nat) (nums : Bool) : List (List Nat) → List Nat → Option (List CorePlan) × State
  | [], _ => (some [], s)
  | m :: r, avoid =>
    match s.tryCores u m sw sa sc nums (s.coreOrder cluster avoid) with
    | (none, t) => (none, t)
    | (some p, t) =>
      match State.tryCluster t cluster u sw sa sc nums r (avoid ++ [p.core]) with
      | (none, v) => (none, v)
      | (some ps, v) => (some (p :: ps), v)

/-- R257: the clusters in the order of the search. -/
def State.tryClusters (s : State) (u sw sa sc : Nat) (nums : Bool) (wants : List (List Nat)) : List Nat → Option (Nat × List CorePlan) × State
  | [] => (none, s)
  | c :: r =>
    match s.tryCluster c u sw sa sc nums wants [] with
    | (some ps, t) => (some (c, ps), t)
    | (none, t) => State.tryClusters t u sw sa sc nums wants r

/-- R257: the search from a cluster on, wrapping. -/
def clustersFrom (c : Nat) : List Nat := (List.range 8).map fun i => (c + i) % 8

/-- R257, R273, R415: the cluster with the most free cores: cores in service that hold no workgroup and could take one now (DEDUCED, log entry
16). -/
def State.bestCluster (s : State) (u : Nat) (gidxs : List Nat) (sw sa sc : Nat) (nums : Bool) : Nat :=
  let takes (k : Nat) : Bool := match s.attempt k u gidxs sw sa sc nums with
    | .fits _ => true
    | _ => false
  let held := (s.wgs.filter s.wgBusy).map (·.core)
  let free (c : Nat) : Nat := (((List.range 48).map (48 * c + ·)).filter fun k => !s.coreOut k && !held.contains k && takes k).length
  ((List.range 8).foldl (fun (b : Nat × Nat) c => if b.2 < free c then (c, free c) else b) (0, free 0)).1

/-! ### The curves (R256) -/

/-- R256: the least k with 2^k at least n. -/
def sideLog (n : Nat) : Nat := if n ≤ 1 then 0 else (n - 1).log2 + 1
/-- R256: every second bit of i, from bit o on. -/
def evenBits (i o : Nat) : Nat → Nat
  | 0 => 0
  | k + 1 => evenBits i o k + (if bit i (2 * k + o) then 2 ^ k else 0)
/-- R256: H, with k rounds left. -/
def hilbertFrom : Nat → Nat → Nat → Nat → Nat → Nat × Nat
  | 0, _, _, x, y => (x, y)
  | k + 1, t, s, x, y =>
    let rx := t / 2 % 2
    let ry := (t + rx) % 2
    let p : Nat × Nat := if ry = 0 then (if rx = 1 then (s - 1 - y, s - 1 - x) else (y, x)) else (x, y)
    hilbertFrom k (t / 4) (2 * s) (p.1 + s * rx) (p.2 + s * ry)

/-- R256: how many indices a curve runs through over a width and a height. -/
def curveLength (code w h : Nat) : Nat :=
  match code with
  | 0 => w * h
  | 1 => w * h
  | 4 => (w + 3) / 4 * ((h + 3) / 4) * 16
  | _ => 4 ^ sideLog (max w h)

/-- R256: the position at an index of a curve. -/
def curveAt (code walk w h i : Nat) : Nat × Nat :=
  match code with
  | 0 => (i % w, i / w)
  | 1 => (if i / w % 2 = 1 then w - 1 - i % w else i % w, i / w)
  | 2 => (evenBits i 0 (sideLog (max w h)), evenBits i 1 (sideLog (max w h)))
  | 3 => hilbertFrom (sideLog (max w h)) i 1 0 0
  | _ =>
    let t := i / 16
    let e := bits walk (4 * (i % 16)) 4
    (t % ((w + 3) / 4) * 4 + e % 4, t / ((w + 3) / 4) * 4 + e / 4)

/-- R256: the next position inside the grid, from a place of the curve on, by fuel: how far the curve has come, and the
position. -/
def Grid.nextPos (k : Grid) : Nat → Nat → Nat × Option (Nat × Nat × Nat)
  | 0, c => (c, none)
  | n + 1, c =>
    let w := k.pkt.x / max 1 k.pkt.memberCount
    let len := curveLength k.pkt.curve w k.pkt.y
    if len * k.pkt.z ≤ c then (c, none)
    else
      let p := curveAt k.pkt.curve k.pkt.walk w k.pkt.y (c % len)
      if p.1 < w ∧ p.2 < k.pkt.y then (c + 1, some (p.1, p.2, c / len)) else Grid.nextPos k n (c + 1)

/-! ### Starting workgroups (R253 to R255) -/

/-- R255: how many numbers a context has. -/
def CtxBlock.numbers (b : CtxBlock) : Nat := if b.gnum = 0 then 49152 else b.gnum
/-- R255: the lowest free number. -/
def CtxBlock.freeNumber (b : CtxBlock) : Nat := ((List.range (b.held.length + 1)).find? fun n => !b.held.contains n).getD 0

/-- R253: a range of scratch is reserved: each byte is zero, or what earlier work of the same context left there (DESIGN CHOICE, log entry 43). -/
def State.openRange (s : State) (key n ctx : Nat) : State :=
  if n = 0 then s
  else
    let mine (a : Nat) : Bool := (s.scratchOf.find? fun r => decide (r.1 ≤ a ∧ a < r.1 + r.2.1)).any fun r => r.2.2 == ctx
    let keep (a : Nat) : Bool := !decide (key ≤ a ∧ a < key + n) || (mine a && (Config.freeByte (s.free + (a - key))).getLsbD 0)
    { s with mem := s.mem.filter fun c => keep c.1,
             memPoison := s.memPoison.filter fun w => keep (8 * w),
             scratchOf := (key, n, ctx) :: s.scratchOf.filter fun r => !decide (key ≤ r.1 ∧ r.1 + r.2.1 ≤ key + n),
             free := s.free + n }
/-- R253: the three reservations of a workgroup. -/
def State.openScratch (s : State) (w : Wg) (ctx : Nat) : State :=
  ((s.openRange (scratchKey w.core w.offW) w.sizeW ctx).openRange (scratchKey w.core (0x80000 + w.offA)) w.sizeA ctx).openRange
    (scratchKey w.core (0x100000 + w.offC)) w.sizeC ctx

/-- R65: a group that becomes resident joins the active set while that holds fewer than eight. -/
def State.joins (s : State) (core quarter : Nat) : Bool := decide ((s.activeOn core quarter).length < 8)

/-- R56: the present lanes of a group with n real lanes. -/
def presentMask (n : Nat) : Mask := BitVec.ofNat 96 (2 ^ min 96 ((n + 3) / 4 * 4) - 1)

/-- What a start gives a group beside its place: the packet whose entry, arguments, slots and format it takes, its real
lanes, and the payload of a child group. -/
structure StartInfo where
  pkt : Packet
  real : Nat
  payload : List VReg

/-- R254: the state in which a group starts; a code of fmt that R150 does not list stands as 0 (DEDUCED, log entry 66). -/
def startedGroup (k : Grid) (w : Wg) (i : StartInfo) (sp : Spot) (num id clock : Nat) (priv active : Bool) : Group :=
  let g : Group :=
    { Group.blank with
      id := id, age := id, core := w.core, quarter := sp.gidx % 4, place := sp.place, block := sp.block, ctx := k.pkt.ctx,
      root := k.pkt.tables, grid := k.id, wg := w.id, wgidX := BitVec.ofNat 32 w.x, wgidY := BitVec.ofNat 32 w.y,
      wgidZ := BitVec.ofNat 32 w.z, gidx := sp.gidx, member := w.member, num := num, real := i.real,
      present := presentMask i.real, mask := presentMask i.real, gslots := i.pkt.general, pc := BitVec.ofNat 64 i.pkt.entry,
      v := i.payload ++ List.replicate (64 - i.payload.length) VReg.zero,
      s := [BitVec.ofNat 32 i.pkt.args, BitVec.ofNat 32 (i.pkt.args / 2 ^ 32)] ++ List.replicate 62 0,
      fmt := fmtWrite (BitVec.ofNat 32 i.pkt.fmt), gsr := if priv then 4 else 0, seed := BitVec.ofNat 32 k.pkt.seed,
      wait := .ready, active := active, readySince := clock, notBefore := clock + 1 }
  { g with rnd := g.launchRnd }

/-- R253 to R255: one group of a workgroup starts: it takes the lowest free number of its context. -/
def State.startGroup (s : State) (k : Grid) (w : Wg) (i : StartInfo) (sp : Spot) : State :=
  let b := s.ctx k.pkt.ctx
  let num := b.freeNumber
  let g := startedGroup k w i sp num s.nextId s.clock b.priv (s.joins w.core (sp.gidx % 4))
  let t := (s.wroteBlock g).setCtx { b with held := insertNat num b.held }
  { t with others := insertByAge g t.others, nextId := s.nextId + 1 }

/-- R253: a workgroup starts at its place. -/
def State.startWg (s : State) (k : Grid) (w : Wg) (p : CorePlan) (info : Nat → StartInfo) : State :=
  let t := { s with wgs := s.wgs ++ [w], nextId := s.nextId + 1 }
  p.spots.foldl (fun (u : State) sp => u.startGroup k w (info sp.gidx) sp) (t.openScratch w k.pkt.ctx)

/-- A workgroup at a plan's place. -/
def planWg (k : Grid) (id cloud member members : Nat) (p : CorePlan) (pk : Packet) (x y z : Nat) (child : Option Nat) : Wg :=
  { id := id, grid := k.id, cloud := cloud, core := p.core, member := member, members := members, x := x, y := y, z := z,
    n := p.spots.length, child := child, offW := p.offW, offA := p.offA, offC := p.offC, sizeW := pk.sw, sizeA := pk.sa,
    sizeC := pk.sc, saving := false, saved := false, live := true }

/-- Dead workgroups whose work is over are forgotten. -/
def State.prune (s : State) : State :=
  { s with wgs := s.wgs.filter fun w => w.saved || s.wgBusy w,
           mxOwns := s.mxOwns.filter fun e => !e.waited || s.wgs.any fun w => w.cloud == e.cloud && (w.saved || s.wgBusy w) }

/-- What a placement depends on: the groups and blocks that stand, the workgroups that keep a reservation, the cores and rows in service, the
numbers of a context (R62 to R64, R253, R255, R395, R396). -/
def State.roomKey (s : State) (ctx : Nat) : List Nat :=
  ((s.groups.filter (·.running)).map (·.id)) ++ [0] ++ (s.heldBlocks.map (·.grp)) ++ [0] ++ ((s.wgs.filter s.wgBusy).map (·.id)) ++ [0]
    ++ s.mgmt.coreRet ++ [0] ++ ((s.cores.filter (·.retireMark)).map (·.core)) ++ [0] ++ ((s.banks.filter fun b => !b.tests.isEmpty).flatMap fun b => [b.idx, b.tests.length])
    ++ [0, (s.ctx ctx).numbers] ++ (s.ctx ctx).held

/-- What an attempt to start a grid's next workgroup or cloud comes to: it has started; the curve is still outside the grid; there is no
room. -/
inductive Started where
  | started (s : State)
  | skipping (s : State)
  | noRoom (s : State)

/-- R253, R256, R257: the grid's next workgroup or cloud starts where it finds room; a placement that failed is attempted again when
something it depends on has changed (DESIGN CHOICE, log entry 43). -/
def State.startGrid (s : State) (k : Grid) : Started :=
  let (c, pos) := k.nextPos 4096 k.cursor
  match pos with
  | none => .skipping (s.updGrid k.id fun (j : Grid) => { j with cursor := c })
  | some (x, y, z) =>
    let m := max 1 k.pkt.memberCount
    let b := s.ctx k.pkt.ctx
    let nums := decide (b.held.length + m * k.pkt.groupCount ≤ b.numbers)
    let first := k.started % k.pkt.batch == 0
    let cl := if first then s.bestCluster (blockUnits k.pkt.general) (List.range k.pkt.groupCount) k.pkt.sw k.pkt.sa k.pkt.sc nums else k.batch
    let wants := List.replicate m (List.range k.pkt.groupCount)
    match s.tryClusters (blockUnits k.pkt.general) k.pkt.sw k.pkt.sa k.pkt.sc nums wants (clustersFrom cl) with
    | (none, t) => .noRoom (t.updGrid k.id fun (j : Grid) => { j with tried := some (s.roomKey k.pkt.ctx) })
    | (some (_, ps), t) =>
      let cloud := t.nextId
      let info (i : Nat) : StartInfo := ⟨k.pkt, min 96 (k.pkt.laneCount - 96 * i), []⟩
      let u := (ps.zipIdx).foldl (fun (v : State) p =>
        v.startWg k (planWg k v.nextId cloud p.2 m p.1 k.pkt (x * m + p.2) y z none) p.1 info) t
      .started (u.updGrid k.id fun (j : Grid) => { j with cursor := c, started := j.started + 1, batch := cl })

/-! ### The choice among queues (R250, R259) -/

/-- R258: a workgroup has triggered once each of its groups has triggered or ended. -/
def State.wgTriggered (s : State) (w : Wg) : Bool := (s.wgGroups w.id).all (·.triggered)
/-- R259: every workgroup of a grid has triggered. -/
def State.gridTriggered (s : State) (id : Nat) : Bool :=
  match s.grid? id with
  | none => true
  | some k => k.allStarted && (s.wgs.filter fun w => w.grid == id && w.live && w.child.isNone).all s.wgTriggered

/-- The grid whose turn it is in a queue of a priority: 0 to 63 the host queues, 64 LAUNCH. -/
def State.queueHead (s : State) (pri q : Nat) : Option Grid :=
  s.grids.find? fun k => !k.allStarted && decide (s.gridPri k = pri) && (if q < 64 then k.queue == q else k.queue == 255)

/-- R250, R259, R369: the grid may start work now. -/
def State.mayStart (s : State) (k : Grid) : Bool :=
  !(s.ctx k.pkt.ctx).stopped && k.tried != some (s.roomKey k.pkt.ctx) && k.pred.all s.gridTriggered

/-- R250: the grids that may start work, by priority, and in one priority in turn. -/
def State.candidates (s : State) : List (Nat × Nat × Grid) :=
  [3, 2, 1, 0].flatMap fun pri =>
    let r := s.rr.getD pri 0
    ((List.range 65).map fun i => (r + i) % 65).filterMap fun q =>
      (s.queueHead pri q).bind fun k => if s.mayStart k then some (pri, q, k) else none

/-- R250: the first candidate that finds room starts its next workgroup or cloud: whether it is a cloud, and the state; then the state in
which none has. -/
def State.startFirst (s : State) : List (Nat × Nat × Grid) → Option (Bool × State) × State
  | [] => (none, s)
  | c :: r =>
    match s.startGrid c.2.2 with
    | .started t => (some (decide (1 < c.2.2.pkt.memberCount), { t with rr := t.rr.set c.1 ((c.2.1 + 1) % 65) }), s)
    | .skipping t => (none, t)
    | .noRoom t => State.startFirst t r
/-- R250: the next workgroup or cloud starts. -/
def State.nextStart (s : State) : Option (Bool × State) × State := s.startFirst s.candidates

/-- R253: the distributor starts the next workgroup, or the next cloud, when that is what comes next. -/
def State.startNext (s : State) (cloud : Bool) : State :=
  match s.prune.nextStart with
  | (some (c, t), _) => if c = cloud then t else s
  | (none, t) => t

/-- R253: WORKGROUP_START. -/
def execWorkgroupStart (s : State) : Out := .next (s.startNext false)
/-- R253: CLOUD_START. -/
def execCloudStart (s : State) : Out := .next (s.startNext true)

/-! ### The end of a grid (R248) -/

/-- A grid's spawn items that have not become groups. -/
def State.itemsLeft (s : State) (id : Nat) : Bool :=
  s.spawn.any fun u => u.queue.any (fun i => i.grid == id) || u.held.any (fun h => h.grid == id) || u.ovHead.any fun o => o.1 == id && decide (0 < o.2.2)

/-- R248: every workgroup and every child group of the grid has ended. -/
def State.gridOver (s : State) (k : Grid) : Bool :=
  k.allStarted && !(s.wgs.any fun w => w.grid == k.id && (w.saved || s.wgBusy w)) && !(s.termQ.any fun u => u.grid == k.id) && !s.itemsLeft k.id

/-- R248: GRID_COMPLETE. -/
def execGridComplete (grid : Nat) (s : State) : Out :=
  .next (match s.grid? grid with
    | none => s
    | some k =>
      if s.gridOver k then
        let t := { s.prune with grids := s.grids.filter fun j => j.id != grid }
        t.completeRecord k.queue k.id k.pkt.ctx k.pkt.tables true k.pkt.compl k.pkt.seq 0 0 0
      else s)

end Sys2Proof.Machine
end

