-- ==== Sys2Proof/Machine/Work.lean ====
section
/-! DEFINITION. SPAWN and the packing units (R260, R261). -/

namespace Sys2Proof.Machine

/-- R260: a cluster's queue and packing unit. -/
def State.spawnUnit (s : State) (c : Nat) : SpawnUnit := (s.spawn.find? fun u => u.cluster == c).getD (SpawnUnit.zero c)
/-- Replaces it. -/
def State.setSpawn (s : State) (u : SpawnUnit) : State := { s with spawn := u :: s.spawn.filter fun k => k.cluster != u.cluster }

/-! ### The overflow part (R260) -/

/-- R260: head and count of a grid's overflow ring in a cluster. -/
def SpawnUnit.ring (u : SpawnUnit) (grid : Nat) : Nat × Nat := ((u.ovHead.find? fun o => o.1 == grid).map (·.2)).getD (0, 0)
/-- Replaces them; an empty ring is forgotten. -/
def SpawnUnit.setRing (u : SpawnUnit) (grid head count : Nat) : SpawnUnit :=
  let rest := u.ovHead.filter fun o => o.1 != grid
  { u with ovHead := if count = 0 then rest else rest ++ [(grid, head, count)] }
/-- R260: the records of a cluster's eighth of the overflow region. -/
def Packet.ringSize (p : Packet) : Nat := p.ovsize / 256
/-- R260: the address of record i of a grid's ring in a cluster. -/
def Packet.ringAddr (p : Packet) (cluster i : Nat) : Nat := p.overflow + cluster * (p.ovsize / 8) + 32 * i
/-- R260: its place, in the grid's context (DEDUCED, log entry 42). -/
def State.ringLoc (s : State) (k : Grid) (cluster i : Nat) (p : Perm) : Option Loc :=
  s.distLoc k.pkt.ctx k.pkt.tables (k.pkt.ringAddr cluster i) p
/-- R389: the errors the walk for it finds. -/
def State.ringFind (s : State) (k : Grid) (cluster i : Nat) : State := s.distFind k.pkt.ctx k.pkt.tables (k.pkt.ringAddr cluster i)

/-- R260: writes the record of an item (DEDUCED, log entry 42). -/
def State.writeItem (s : State) (l : Loc) (it : SpawnItem) : State :=
  let t := ((s.exactAccess l).record l.key).memStore l.key (it.data.flatMap fun w => leBytes 4 w.1.toNat)
  let t := (it.data.zipIdx).foldl (fun (u : State) w =>
    if w.1.2 then u.markMem (l.key + 4 * w.2) 4 else u) t
  t.memWrite (l.key + 16) 16 it.entry
/-- R260: the item a record holds. -/
def State.itemAt (s : State) (l : Loc) (grid : Nat) : SpawnItem :=
  { grid := grid, entry := s.memRead (l.key + 16) 1,
    data := (List.range 4).map fun i => (BitVec.ofNat 32 (s.memRead (l.key + 4 * i) 4), s.memPoisoned (l.key + 4 * i) 4) }

/-- R260, R389: reads a record. -/
def State.readItem (s : State) (l : Loc) (grid : Nat) : SpawnItem × State :=
  let t := (s.exactAccess l).findErrors ((s.grid? grid).map (·.pkt.ctx) |>.getD 0xFFF) l.key 32 false
  (t.itemAt l grid, t)

/-- R260: an item goes to its cluster's queue, or to the overflow part; otherwise it is refused. -/
def State.pushItem (s : State) (k : Grid) (cluster : Nat) (it : SpawnItem) : Bool × State :=
  let u := s.spawnUnit cluster
  if u.queue.length < 4096 then (true, s.setSpawn { u with queue := u.queue ++ [it] })
  else
    let (h, n) := u.ring k.id
    let size := k.pkt.ringSize
    if n < size then
      let s := s.ringFind k cluster ((h + n) % size)
      match s.ringLoc k cluster ((h + n) % size) .w with
      | some l => (true, (s.setSpawn (u.setRing k.id h (n + 1))).writeItem l it)
      | none => (false, s)
    else (false, s)

/-! ### The packing unit (R261) -/

/-- R261: the item at the queue's head joins the group its entry is filling; an entry whose group is full, or that would be a
17th, holds the queue. -/
def SpawnUnit.takeHead (u : SpawnUnit) (clock : Nat) : Option SpawnUnit :=
  match u.queue with
  | [] => none
  | it :: r =>
    match u.held.find? fun h => h.grid == it.grid && h.entry == it.entry with
    | some h =>
      if 96 ≤ h.items.length then none
      else some { u with queue := r, held := u.held.map fun (e : HeldEntry) =>
        if e.grid = it.grid ∧ e.entry = it.entry then { e with items := e.items ++ [it], last := clock } else e }
    | none =>
      if 16 ≤ u.held.length then none else some { u with queue := r, held := u.held ++ [⟨it.grid, it.entry, [it], clock⟩] }

/-- R260: one item returns from the overflow part when the queue has room. -/
def State.refillItem (s : State) (cluster : Nat) : Option State :=
  let u := s.spawnUnit cluster
  if 4096 ≤ u.queue.length then none
  else
    match u.ovHead with
    | [] => none
    | (grid, h, n) :: _ =>
      match s.grid? grid with
      | none => some (s.setSpawn (u.setRing grid 0 0))
      | some k =>
        let s := s.ringFind k cluster (h % k.pkt.ringSize)
        match s.ringLoc k cluster (h % k.pkt.ringSize) .rd with
        | none => some (s.setSpawn (u.setRing grid ((h + 1) % k.pkt.ringSize) (n - 1)))
        | some l =>
          let (it, t) := s.readItem l grid
          some (t.setSpawn { (u.setRing grid ((h + 1) % k.pkt.ringSize) (n - 1)) with queue := u.queue ++ [it] })

/-- R260, R261: the packing unit takes what it can, by fuel. -/
def State.pack (s : State) (cluster : Nat) : Nat → State
  | 0 => s
  | n + 1 =>
    match (s.spawnUnit cluster).takeHead s.fabricClock with
    | some u => State.pack (s.setSpawn u) cluster n
    | none =>
      match s.refillItem cluster with
      | some t => State.pack t cluster n
      | none => s

/-- R260: SPAWN: the active lanes push their items in ascending order. -/
def spawnBody (a d : Nat) : M Unit := do
  awaitCtr .st
  releaseHold
  settleOwn
  let s ← get
  let m := s.g.rdMask s.clock
  if (lanesOf m).any fun l => s.g.readPz s.clock a l then consumeReg true
  let cluster := clusterOf s.g.core
  match s.grid? s.g.grid with
  | none => post (donePend .st .spawn [.pred 7 m 0 0])
  | some k =>
    let r := (lanesOf m).foldl (fun (x : Mask × State) l =>
      let e := (s.g.readLane s.clock a l).toNat
      if s.g.helpers.getLsbD l || decide (k.pkt.entryCount ≤ e) then x
      else
        let data := (List.range 4).map fun i => (s.g.readLane s.clock (d + i) l, s.g.readPz s.clock (d + i) l)
        match x.2.pushItem k cluster ⟨k.id, e, data⟩ with
        | (true, t) => (x.1 ||| BitVec.twoPow 96 l, t)
        | (false, t) => (x.1, t)) (0, s)
    let bad := (lanesOf m).any fun l => (List.range 4).any fun i => s.g.readPz s.clock (d + i) l
    set (r.2.pack cluster 96)
    markRegs bad
    post (donePend .st .spawn [.pred 7 m r.1 0])

/-- R260: SPAWN. -/
def execSpawn (o : DA) (s : State) : Out :=
  .next (vunit .memv o.st.toNat 4 (.v o.a.toNat :: (List.range 4).map fun i => .v (o.d.toNat + i)) (spawnBody o.a.toNat o.d.toNat) s)

/-! ### Child groups (R261) -/

/-- R261: the payload registers of a child group; a lane without an item holds free values. -/
def childPayload (free : Nat) (items : List SpawnItem) : List VReg :=
  (List.range 4).map fun i =>
    let word (l : Nat) : Word × Bool := match items[l]? with
      | some it => it.data.getD i (0, false)
      | none => (Config.freeWord (free + 96 * i + l), false)
    ⟨.general i (lanes.map fun l => (word l).1), maskOf fun l => (word l).2⟩

/-- R261: a child group starts on a core of its cluster, when it fits. -/
def State.startChild (s : State) (cluster : Nat) (h : HeldEntry) : State :=
  let s := s.prune
  match s.grid? h.grid with
  | none => s
  | some k =>
    let p := k.children.getD h.entry Packet.zero
    let b := s.ctx k.pkt.ctx
    if b.stopped then s
    else
      let nums := decide (b.held.length + 1 ≤ b.numbers)
      match s.tryCores (blockUnits p.general) [0] p.sw p.sa p.sc nums (s.coreOrder cluster []) with
      | (none, t) => t
      | (some c, t) =>
        let u := t.spawnUnit cluster
        let w := planWg k t.nextId t.nextId 0 1 c p h.entry cluster u.count.toNat (some h.entry)
        let v := t.setSpawn { u with held := u.held.filter (fun e => !(e.grid == h.grid && e.entry == h.entry)), count := u.count + 1 }
        let v := v.startWg k w c fun _ => ⟨p, h.items.length, childPayload v.free h.items⟩
        State.pack { v with free := v.free + 384 } cluster 4200

/-- R261: an entry that has filled a group, or waits for no more. -/
def State.entryFull (s : State) (h : HeldEntry) : Bool :=
  decide (96 ≤ h.items.length) || ((s.grid? h.grid).map fun k => k.pkt.idle == 0).getD false
/-- R261: R fabric clocks have passed without a new item. -/
def State.entryIdle (s : State) (h : HeldEntry) : Bool :=
  ((s.grid? h.grid).map fun k => decide (k.pkt.idle ≤ s.fabricClock - h.last)).getD false

/-- R261: CHILD_GROUP_START. -/
def execChildGroupStart (cluster entry : Nat) (s : State) : Out :=
  .next (match (s.spawnUnit cluster).held.find? fun h => h.entry == entry && s.entryFull h with
    | some h => s.startChild cluster h
    | none => s)
/-- R261: IDLE_RELEASE. -/
def execIdleRelease (cluster entry : Nat) (s : State) : Out :=
  .next (match (s.spawnUnit cluster).held.find? fun h => h.entry == entry && s.entryIdle h with
    | some h => s.startChild cluster h
    | none => s)

end Sys2Proof.Machine
end

