-- ==== Sys2Proof/Machine/Preempt.lean ====
section
/-! DEFINITION. Pre-emption: taking, saving, discarding and resuming the workgroups of a context (R368 to R372, R379), and the
events of the scheduler (R66, R67, R99). -/

namespace Sys2Proof.Machine

/-! ### The workgroup record (R371) -/

/-- R371: the bytes of a group's record, padded. -/
def groupRecordSize (g : Nat) : Nat := (0xB80 + 384 * g + 255) / 256 * 256
/-- The groups of a workgroup that have a record, in %gidx order. -/
def State.recordGroups (s : State) (w : Wg) : List Group :=
  (List.range 16).flatMap fun i => (s.wgGroups w.id).filter fun g => g.gidx == i
/-- R371: the bytes of a workgroup's record. -/
def State.recordSize (s : State) (w : Wg) : Nat :=
  256 + w.sizeW + w.sizeA + w.sizeC + ((s.recordGroups w).map fun g => groupRecordSize g.gslots).foldl (· + ·) 0

/-- R371: the rendezvous a group waits at: bits [3:1] of the state word. -/
def Wait.kindBits : Wait → Nat
  | .bar _ => 2
  | .cbar => 2 + 4
  | .electw _ _ => 2 + 8
  | _ => 0
/-- R371: the state word. -/
def Group.stateWord (g : Group) : Nat := (if g.replay then 1 else 0) + g.wait.kindBits + (if g.handler.isSome then 16 else 0)

/-- R61: the compact table of a group; a register whose lanes differ without a slot stands as the word of its lowest present lane (DESIGN CHOICE, log
entry 54). -/
def Group.compact (g : Group) : List Byte :=
  (g.v.flatMap fun x => match x.val with
    | .uniform a => leBytes 8 a.toNat
    | .affine b d => leBytes 4 b.toNat ++ leBytes 4 d.toNat
    | .general k _ => leBytes 8 k
    | .mixed _ => leBytes 8 (x.lane (lowestLane g.present)).toNat)
  ++ leBytes 16 ((g.v.zipIdx).foldl (fun n x => n + (match x.1.val with
    | .uniform _ => 0
    | .affine _ _ => 1
    | .general _ _ => 2
    | .mixed _ => 0) * 4 ^ x.2) 0)

/-- R371: the words of slot k, of the register that holds it; a free slot holds nothing the spec states. -/
def Group.slotBytes (g : Group) (free k : Nat) : List Byte :=
  match g.v.find? fun x => x.val.slot? == some k with
  | some x => lanes.flatMap fun l => leBytes 4 (x.lane l).toNat
  | none => (List.range 384).map fun i => Config.freeByte (free + i)

/-- R371: a group's record (DESIGN CHOICE, log entry 46). -/
def State.groupRecord (s : State) (g : Group) : List Byte :=
  let r := s.topRet g
  let c := s.topRecon g
  leBytes 8 g.pc.toNat ++ leBytes 4 g.gidx ++ leBytes 4 g.gslots ++ leBytes 4 g.stateWord
    ++ leBytes 4 g.nBar ++ leBytes 4 g.nCbar ++ leBytes 4 g.nElectw ++ List.replicate 32 0
    ++ ((List.range 64).flatMap fun i => leBytes 4 (g.rawS i).toNat)
    ++ (g.p.flatMap fun m => leBytes 12 m.toNat)
    ++ leBytes 4 g.gsr.toNat ++ leBytes 4 g.fmt.toNat ++ leBytes 4 g.sig.toNat ++ leBytes 4 g.sw.toNat ++ leBytes 4 g.mshape.toNat
    ++ leBytes 4 g.mcloud.toNat ++ List.replicate 8 0
    ++ retBytes r.1 ++ leBytes 32 (g.retDepth + g.reconDepth * 2 ^ 8) ++ reconBytes c.1
    ++ (g.rnd.flatMap fun x => leBytes 4 x.x.toNat ++ leBytes 4 x.y.toNat ++ leBytes 4 x.z.toNat ++ leBytes 4 x.w.toNat)
    ++ g.compact ++ List.replicate 16 0
    ++ ((List.range g.gslots).flatMap fun k => g.slotBytes (s.free + 384 * k) k)

/-- R371: the offsets of a group's record that hold a poisoned word. -/
def Group.recordMarks (g : Group) : List Nat :=
  ((List.range 64).filter fun i => g.rawSP i).map (fun i => 0x40 + 4 * i)
  ++ ((List.range 8).filter fun n => g.bad.getLsbD n).flatMap (fun n => (List.range 3).map fun k => 0x140 + 12 * n + 4 * k)
  ++ (if g.bad.getLsbD 8 then (List.range 32).map fun k => 0x1C0 + 4 * k else [])
  ++ (if g.bad.getLsbD 9 then (List.range 64).map fun k => 0x260 + 4 * k else [])
  ++ (g.v.zipIdx).flatMap fun x => match x.1.val with
    | .general k _ => (lanesOf x.1.poison).map fun l => 0xB80 + 384 * k + 4 * l
    | _ => if x.1.poison = 0 then [] else [0x960 + 8 * x.2]

/-- R371: writes a group's record. -/
def State.saveGroup (s : State) (a : Nat) (g : Group) : State :=
  let t := s.memStore a (s.groupRecord g)
  { g.recordMarks.foldl (fun (u : State) o => u.markMem (a + o) 4) t with free := s.free + 384 * g.gslots }

/-- Copies a range with its marks. -/
def State.moveRange (s : State) (dst src n : Nat) : State :=
  let s := s.findErrors 0xFFF src n false
  let bad := (List.range (n / 8)).filter fun i => s.memPoisoned (src + 8 * i) 8
  let t := s.memStore dst (s.memBytes src n)
  bad.foldl (fun (u : State) i => u.markMem (dst + 8 * i) 8) t
/-- The three reservations of a workgroup: keys and lengths. -/
def Wg.ranges (w : Wg) : List (Nat × Nat) :=
  [(scratchKey w.core w.offW, w.sizeW), (scratchKey w.core (0x80000 + w.offA), w.sizeA), (scratchKey w.core (0x100000 + w.offC), w.sizeC)]

/-- R371: the fields of a workgroup record's header: the launch (sequence number and queue), %wgid, the member index, the packet's
address, the slot bases of its groups by %gidx; their places are left open (DESIGN CHOICE, log entry 46). -/
def State.headerBytes (s : State) (w : Wg) : List Byte :=
  let k := s.grid? w.grid
  leBytes 4 ((k.map (·.pkt.seq)).getD 0) ++ leBytes 4 ((k.map (·.queue)).getD 0) ++ leBytes 4 w.x ++ leBytes 4 w.y ++ leBytes 4 w.z
    ++ leBytes 4 w.member ++ leBytes 8 ((k.map (·.addr)).getD 0)
    ++ (List.range 16).flatMap fun i => leBytes 4 ((((s.wgGroups w.id).find? fun g => g.gidx == i).map (·.slotBase)).getD 0)

/-- R371: writes a workgroup's record. -/
def State.saveWg (s : State) (a : Nat) (w : Wg) : State :=
  let t := s.memStore a ((s.headerBytes w) ++ (List.range 160).map fun i => Config.freeByte (s.free + i))
  let t := { t with free := s.free + 256 }
  let (u, b) := w.ranges.foldl (fun (x : State × Nat) r => (x.1.moveRange x.2 r.1 r.2, x.2 + r.2)) (t, a + 256)
  ((s.recordGroups w).foldl (fun (x : State × Nat) g => (x.1.saveGroup x.2 g, x.2 + groupRecordSize g.gslots)) (u, b)).1

/-! ### Taking the workgroups (R369, R370) -/

/-- A workgroup with the members of its cloud that still run. -/
def State.unitOf (s : State) (w : Wg) : List Wg :=
  if w.inCloud then s.wgs.filter fun v => v.live && v.cloud == w.cloud && v.inCloud else [w]
/-- R369: the workgroups and clouds of a context that are resident. -/
def State.unitsOf (s : State) (c : Nat) : List (List Wg) :=
  (s.wgs.filter fun w => w.live && !w.saved && (s.wgGroups w.id).any fun g => g.ctx == c).foldl
    (fun (us : List (List Wg)) w => if us.any fun u => u.any fun v => v.id == w.id then us else us ++ [s.unitOf w]) []
/-- R369: every live group is inside a workgroup-scope region. -/
def State.discardable (s : State) (ws : List Wg) : Bool :=
  ws.all fun w => (s.wgGroups w.id).all fun g => (g.region.map (·.wg)).getD false

/-- R238: the free proxies of a slice. -/
def State.proxyRoom (s : State) (slice : Nat) : Bool :=
  decide (((s.locks.filter fun e => e.slice == slice).map fun e => (e.nodes.filter fun n => n.st == .proxy).length).foldl (· + ·) 0 < 64)

/-- R211, R238: a request of the group that has not reached its home is served first, after what its core sent there before; by fuel. -/
def State.serveOwn (s : State) (grp : Nat) : Nat → State
  | 0 => s
  | k + 1 =>
    match s.lockNet.find? fun m => match m with | .request q _ _ _ _ => q == grp | _ => false with
    | none => s
    | some m =>
      match s.lockNet.findIdx? fun x => s.lockPath x == s.lockPath m with
      | some n => State.serveOwn (s.lockServe n) grp k
      | none => s

/-- R238: the node of a waiting group becomes a proxy, or a stub when its home has none free. -/
def State.lockSave (s : State) (grp : Nat) : State :=
  let t := s.serveOwn grp s.lockNet.length
  match (t.group? grp).map fun (g : Group) => g.wait with
  | some (.lock line _ deadline) =>
    match t.lockEntry line with
    | none => t
    | some e =>
      let room := t.proxyRoom e.slice
      let st := if room then NodeSt.proxy else NodeSt.stub
      let u := t.setLock { e with nodes := e.nodes.map fun (n : LockNode) => if n.grp = grp ∧ n.st = NodeSt.wait then { n with st := st } else n }
      { u with savedGroups := u.savedGroups ++ [⟨grp, deadline.map fun d => d - u.clock, !room⟩] }
  | _ => t

/-- R333, R367: a group that is taken: an arrival at an MMAR.J join is aborted, also one that a trap has left behind (DEDUCED, log entry 47), and
a suspended unit is marked for replay. -/
def Group.halt (g : Group) : Group :=
  let tags := g.arrivals.map (·.tag)
  let h := { g with stopped := true, active := false, arrived := [], nJoin := g.nJoin - tags.length,
                    mxRuns := g.mxRuns.filter fun r => !tags.contains r.tag,
                    pend := g.pend.filter fun p => !(tags.contains p.tag && p.kind == .matrix) }
  match g.wait with
  | .join _ _ _ => { h with wait := .ready, pc := g.pc - 4, sig := g.sigLatch }
  | .page _ _ _ _ => { h with wait := .ready, replay := true }
  -- R297: SWWAIT is executed again
  | .sync _ _ => { h with wait := .ready }
  -- R73, R358: a TFAIL that waits for a page runs to its end first
  | .term _ => { h with active := g.active }
  | .rerun => { h with active := g.active }
  | _ => h

/-- R333, R367: a group is taken; an aborted arrival at a join owns nothing. -/
def State.haltGroup (s : State) (id : Nat) : State :=
  let aborted := ((s.group? id).map fun g => g.arrivals.map (·.tag)).getD []
  let t := s.updGroup id Group.halt
  { t with mxOwns := t.mxOwns.filter fun e => !(e.grp == id && aborted.contains e.tag) }

/-- R370: a unit is taken to be saved: its groups stop, and its records get their places (DEDUCED, log entry 47). -/
def State.holdUnit (s : State) (c : Nat) (ws : List Wg) : State :=
  let ids := ws.flatMap fun w => (s.wgGroups w.id).map (·.id)
  let t := ids.foldl (fun (u : State) id => (u.lockSave id).haltGroup id) s
  ws.foldl (fun (u : State) w =>
    let b := u.ctx c
    let v := u.setCtx { b with records := b.records ++ [(w.id, b.saveBase + b.saveNext)], saveNext := b.saveNext + s.recordSize w }
    v.updWg w.id fun (k : Wg) => { k with saving := true }) t

/-- R369, R379: a unit is discarded: it leaves its core and restarts on resumption. -/
def State.discardUnit (s : State) (c : Nat) (ws : List Wg) : State :=
  let ids := ws.flatMap fun w => (s.wgGroups w.id).map (·.id)
  let t := ids.foldl (fun (u : State) id => u.onGroup id State.discardWork) s
  let t := ids.foldl (fun (u : State) id => u.updGroup id fun g =>
    { g with pend := [], inflight := [], arrived := [], wait := .ready, stopped := true, saved := true, active := false }) t
  let t := ws.foldl (fun (u : State) w => u.updWg w.id fun (k : Wg) => { k with saved := true }) t
  let b := t.ctx c
  t.setCtx { b with restart := b.restart ++ ws.map (·.id) }

/-- R369, step 6: the pre-emption of a context is over when none of its workgroups is being saved. -/
def State.endPreempt (s : State) (c : Nat) : State :=
  let b := s.ctx c
  if b.cmd = 3 && !(s.wgs.any fun w => w.saving && (b.records.any fun r => r.1 == w.id)) then
    { s.setCtx { b with busy := false, cmd := 0, saveUsed := b.saveNext } with
      grids := s.grids.map fun (k : Grid) => { k with tried := none } }
  else s

/-- R369: a pre-emption is taken up (DEDUCED, log entry 47); a save area beyond HBM has no room (DESIGN CHOICE, log entry 62). -/
def State.beginPreempt (s : State) (c : Nat) : State :=
  let b := s.ctx c
  let t := s.setCtx { b with busy := true, cmd := 3, stopped := true, full := false, saveNext := 0 }
  let u := (t.unitsOf c).foldl (fun (u : State) ws =>
    let k := u.ctx c
    let size := (ws.map u.recordSize).foldl (· + ·) 0
    if u.discardable ws then u.discardUnit c ws
    else if k.saveNext + size ≤ k.saveLen && decide (k.saveBase + k.saveNext + size ≤ u.hbmEnd) then u.holdUnit c ws
    else u.setCtx { k with full := true }) t
  u.endPreempt c

/-- R369: PREEMPT: CMD 1 of a context. -/
def execPreempt (ctx : Nat) (s : State) : Out :=
  let b := s.ctx ctx
  .next (if !b.busy || b.cmd = 1 then s.beginPreempt ctx else s)

/-! ### Saving a workgroup (R370, R371) -/

/-- R73, R370: every counted operation of a group that can complete does. -/
def State.drainGroup (s : State) (id : Nat) : State :=
  let t := s.onGroup id State.performAll
  [Ctr.ld, .st, .mx, .en, .tm].foldl (fun (u : State) c => u.retireAll id c 64) t
/-- R370: nothing of a group is under way. -/
def State.quiet (s : State) (g : Group) : Bool :=
  g.pend.isEmpty && !(s.engQ.any fun c => c.grp == g.id) && !(s.mxQ.any fun o => o.owners.any fun w => w.1 == g.id)
    && !(s.termQ.any fun u => u.grp == g.id) && !(s.launchQ.any fun r => r.grp == g.id)
    && (match g.wait with | .unlock _ _ => false | .launch _ => false | .term _ => false | .rerun => false | _ => true)

/-- R371: a group's record is written, and it is no longer resident. -/
def Group.leave (g : Group) : Group := { g with saved := true, inflight := [] }

/-- R370, R371: a workgroup being saved, or its cloud, is written to the save area once nothing of it is under way. -/
def State.saveUnit (s : State) (w : Wg) : State :=
  let ws := s.unitOf w
  let ids := ws.flatMap fun v => (s.wgGroups v.id).map (·.id)
  let t := ids.foldl (fun (u : State) id => u.drainGroup id) s
  -- R311: commands of groups that have ended are waited for too
  if (ids.all fun id => (t.group? id).all t.quiet) && !t.engQ.any fun k => ws.any fun v => v.id == k.wg then
    match (s.wgGroups w.id).head? with
    | none => t
    | some g0 =>
      let c := g0.ctx
      -- a save stands for the WAIT of the matrix units it has completed (DESIGN CHOICE, log entry 37)
      let t := ids.foldl (fun (x : State) id => x.onGroup id fun y => y.mxCover 0) t
      let u := ws.foldl (fun (u : State) v =>
        match (u.ctx c).records.find? fun r => r.1 == v.id with
        | some r => u.saveWg r.2 v
        | none => u) t
      let u := ids.foldl (fun (x : State) id => x.updGroup id Group.leave) u
      let u := ws.foldl (fun (x : State) v => x.updWg v.id fun (k : Wg) => { k with saving := false, saved := true }) u
      u.endPreempt c
  else t

/-- R370: WORKGROUP_SAVE. -/
def execWorkgroupSave (wg : Nat) (s : State) : Out :=
  .next (match s.wg? wg with
    | some w => if w.saving then s.saveUnit w else s
    | none => s)

/-! ### Resuming (R372, R378) -/

/-- A restored mark: the record's word is poisoned, and the word of it that was, if any was (R371). -/
def restoredMark (bad own pair : Bool) : Bool := bad && (own || !pair)

/-- R61, R371: register r as a record at a holds it. -/
def State.restoredReg (s : State) (a : Nat) (old : VReg) (r : Nat) : VReg :=
  let at_ := a + 0x960 + 8 * r
  let tag := s.memRead (a + 0xB60 + r / 4) 1 / 4 ^ (r % 4) % 4
  let bad := s.memPoisoned at_ 8
  let pz : Mask := if bad then (if old.poison = 0 then BitVec.allOnes 96 else old.poison) else 0
  match tag with
  | 0 => ⟨.uniform (BitVec.ofNat 32 (s.memRead at_ 4)), pz⟩
  | 1 => ⟨.affine (BitVec.ofNat 32 (s.memRead at_ 4)) (BitVec.ofNat 32 (s.memRead (at_ + 4) 4)), pz⟩
  | _ =>
    let k := s.memRead at_ 1 % 64
    let slot := a + 0xB80 + 384 * k
    ⟨.general k (lanes.map fun l => BitVec.ofNat 32 (s.memRead (slot + 4 * l) 4)),
      maskOf fun l => restoredMark (s.memPoisoned (slot + 4 * l) 4) (old.poison.getLsbD l)
        (old.poison.getLsbD (l / 2 * 2) || old.poison.getLsbD (l / 2 * 2 + 1))⟩

/-- R371, R372: a group as its record at a holds it, on the core it comes to. -/
def State.restored (s : State) (g : Group) (a core : Nat) (sp : Spot) (age : Nat) (active : Bool) : Group :=
  let w (o : Nat) : Word := BitVec.ofNat 32 (s.memRead (a + o) 4)
  let ss := (List.range 64).map fun i => w (0x40 + 4 * i)
  let marks := (List.range 64).foldl (fun (p : BitVec 64) i =>
    if restoredMark (s.memPoisoned (a + 0x40 + 4 * i) 4) (g.rawSP i) (g.rawSP (i / 2 * 2) || g.rawSP (i / 2 * 2 + 1)) then
      p ||| BitVec.twoPow 64 i else p) 0
  let state := s.memRead (a + 0x10) 4
  let ret := s.memRead (a + 0x240) 1 % 64
  let recon := s.memRead (a + 0x241) 1 % 32
  let nRet := min 16 ret
  let nRecon := min 8 recon
  { g with
    core := core, place := sp.place, block := sp.block, quarter := sp.gidx % 4, age := age, active := active, stopped := false,
    saved := false, pc := BitVec.ofNat 64 (s.memRead a 8), nBar := s.memRead (a + 0x14) 4, nCbar := s.memRead (a + 0x18) 4,
    nElectw := s.memRead (a + 0x1C) 4, replay := bit state 0, handler := if bit state 4 then g.handler else none,
    s := ss, sPoison := marks,
    bad := (List.range 10).foldl (fun (m : BitVec 16) n =>
      if s.memPoisoned (a + (if n < 8 then 0x140 + 12 * n else if n = 8 then 0x1C0 else 0x260)) (if n < 8 then 12 else if n = 8 then 8 * nRet else 32 * nRecon)
        && (g.bad.getLsbD n || decide (8 ≤ n) || !(g.bad.getLsbD (n / 2 * 2) || g.bad.getLsbD (n / 2 * 2 + 1))) then m ||| BitVec.twoPow 16 n else m) 0,
    mask := setMaskWord (setMaskWord (setMaskWord 0 0 (w 0x120)) 1 (w 0x124)) 2 (w 0x128) &&& g.live,
    p := (List.range 8).map fun i => BitVec.ofNat 96 (s.memRead (a + 0x140 + 12 * i) 12) &&& g.present,
    gsr := w 0x1A0 &&& 0x1F, fmt := fmtWrite (w 0x1A4), sig := w 0x1A8, sigLatch := w 0x1A8, sw := w 0x1AC, mshape := mshapeWrite (w 0x1B0),
    mcloud := mcloudWrite (w 0x1B4),
    cych := 0,
    ret := (List.range nRet).map fun i => RetEntry.ofWord (s.memRead (a + 0x1C0 + 8 * i) 8), retArea := ret - nRet,
    recon := (List.range nRecon).map fun i => ReconEntry.ofBytes (s.memBytes (a + 0x260 + 32 * i) 32), reconArea := recon - nRecon,
    rnd := lanes.map fun l => ⟨w (0x360 + 16 * l), w (0x364 + 16 * l), w (0x368 + 16 * l), w (0x36C + 16 * l)⟩,
    v := (g.v.zipIdx).map fun x => s.restoredReg a x.1 x.2,
    inflight := [], pend := [], notBefore := s.clock + 1, readySince := s.clock }

/-- R238: what becomes of a pending LLOCK when its group is resumed on a core. -/
def State.lockResume (s : State) (grp core : Nat) : State :=
  match s.savedGroups.find? fun k => k.id == grp, (s.group? grp).map fun (g : Group) => g.wait with
  | some k, some (.lock line d _) =>
    let t := { s with savedGroups := s.savedGroups.filter fun j => j.id != grp }
    if k.skipped then t.updGroup grp (Group.lockResult d 2)
    else
      let u := { t with locks := t.locks.map fun (e : LockEntry) => if e.line = line then
        { e with nodes := e.nodes.map fun (n : LockNode) => if n.grp = grp ∧ n.st = NodeSt.proxy then { n with st := .wait, core := core } else n } else e }
      u.updGroup grp fun g => { g with wait := .lock line d (k.left.map fun n => u.clock + n) }
  | _, _ => s

/-- R372: a workgroup returns to a core: from its record, or (R378) to the start of its region. -/
def State.resumeWg (s : State) (c : Nat) (w : Wg) (p : CorePlan) : State :=
  let w' : Wg := { w with core := p.core, offW := p.offW, offA := p.offA, offC := p.offC, saved := false }
  let b := s.ctx c
  let gs := s.recordGroups w
  let t := (s.updWg w.id fun _ => w').openScratch w' c
  let place (u : State) (g : Group) (f : Spot → Group → Group) : State :=
    match p.spots.find? fun sp => sp.gidx == g.gidx with
    | some sp => { u.updGroup g.id (f sp) with nextId := u.nextId + 1 }
    | none => u
  match b.records.find? fun r => r.1 == w.id with
  | some r =>
    let t := t.findErrors c r.2 (t.recordSize w) false
    let (u, a) := (w.ranges.zip w'.ranges).foldl (fun (x : State × Nat) q => (x.1.moveRange q.2.1 x.2 q.2.2, x.2 + q.2.2)) (t, r.2 + 256)
    (gs.foldl (fun (x : State × Nat) g =>
      let y := place x.1 g fun sp h => x.1.restored h x.2 p.core sp x.1.nextId (x.1.joins p.core (sp.gidx % 4))
      let y := match y.group? g.id with
        | some h => y.wroteBlock h
        | none => y
      (y.lockResume g.id p.core, x.2 + groupRecordSize g.gslots)) (u, a)).1
  | none =>
    let u := t.smearScratch w'
    gs.foldl (fun (x : State) g =>
      let y := place x g fun sp h => { h with core := p.core, place := sp.place, block := sp.block, quarter := sp.gidx % 4, age := x.nextId,
                                              active := x.joins p.core (sp.gidx % 4), stopped := false, saved := false }
      y.onGroup g.id fun z => z.restartRecord false) u

/-- Others stand by age again. -/
def State.sortOthers (s : State) : State := { s with others := s.others.foldl (fun l g => insertByAge g l) [] }

/-- R372: the next workgroup of a context that is saved or discarded. -/
def State.toResume (s : State) (c : Nat) : Option Wg :=
  let b := s.ctx c
  s.wgs.find? fun w => w.saved && (b.records.any (fun r => r.1 == w.id) || b.restart.contains w.id)
/-- R372: once every record has been read and its workgroup placed, the resumption is over. -/
def State.endResume (s : State) (c : Nat) : State :=
  if (s.toResume c).isNone then s.setCtx { s.ctx c with busy := false, cmd := 0, stopped := false, records := [], restart := [] } else s
/-- R311, R372: the next saved or discarded unit of a context is placed, a discarded one once its commands have arrived. A unit that does not
fit is tried on every turn of the device (R64; DESIGN CHOICE, log entry 16). -/
def State.resumeNext (s : State) (c : Nat) : State :=
  match s.toResume c with
  | none => s.endResume c
  | some w =>
    if s.engQ.any fun k => k.wg == w.id then s else
    let ws := (s.unitOf w).filter (·.saved)
    let wants := ws.map fun v => (s.recordGroups v).map (·.gidx)
    let g := (((s.recordGroups w).head?).map (·.gslots)).getD 0
    match s.tryClusters (blockUnits g) w.sizeW w.sizeA w.sizeC true wants (clustersFrom (s.bestCluster (blockUnits g) (wants.headD []) w.sizeW w.sizeA w.sizeC true)) with
    | (some (_, ps), t) => (((ws.zip ps).foldl (fun (u : State) x => u.resumeWg c x.1 x.2) t).sortOthers).endResume c
    | (none, t) => t

/-- R372: RESUME: CMD 2 of a context, and each placement it makes. -/
def execResume (ctx : Nat) (s : State) : Out :=
  let b := s.ctx ctx
  .next (if !b.busy || b.cmd = 2 then (s.setCtx { b with busy := true, cmd := 4 }).resumeNext ctx
    else if b.cmd = 4 then s.resumeNext ctx else s)

/-- R368: GNUM: a write of a context's count of group numbers. -/
def execGnum (ctx : Nat) (v : Word) (s : State) : Out := .next (s.putCtx ctx 0x2C v)

/-! ### The scheduler's events (R66, R67, R99) -/

/-- R66: PENDING_REPLACE. -/
def execPendingReplace (core quarter : Nat) (s : State) : Out := .next (s.replacePending core quarter)

/-- R99: SLEEP_EXPIRY. -/
def execSleepExpiry (grp : Nat) (s : State) : Out :=
  .next (s.updGroup grp fun g => match g.wait with
    | .sleep t => if t ≤ s.clock then { g with wait := .ready } else g
    | _ => g)

/-- R67: a window of a core ends. -/
def CoreRegs.endWindow (k : CoreRegs) (now : Nat) : CoreRegs :=
  let lim := if !k.sqctl.getLsbD 12 then 8
    else if k.sqctl.toNat % 4096 < k.hits then max 2 (k.lim / 2) else min 8 (k.lim * 2)
  { k with lim := lim, hits := 0, window := if lim = 8 then now / 4096 else k.window + 1 }
/-- R67: SQUALL_WINDOW: the windows of every core begin at the multiples of 4,096 of the model's clock (DESIGN CHOICE, log entry 63). -/
def execSquallWindow (core : Nat) (s : State) : Out :=
  let k := s.core core
  .next (if k.window < s.clock / 4096 then s.setCore (k.endWindow s.clock) else s)

end Sys2Proof.Machine
end

