-- ==== Sys2Proof/Machine/Manage.lean ====
section
/-! DEFINITION. Writes of management registers as events (R4, R216, R245, R249, R368, R392, R394, R406, R409, R420, R423, R424), and
the events of the storage checks: scrubber, flit failures, self-test, retirement of cores (R389 to R396). -/

namespace Sys2Proof.Machine

/-! ### Writes of management registers -/

/-- R216: PQCOMP. -/
def execPqcomp (v : BitVec 64) (s : State) : Out := .next (s.pqComplete (v.toNat / 2 ^ 32) (v.getLsbD 0))
/-- R216: PQSIZE. -/
def execPqsize (v : BitVec 32) (s : State) : Out := .next (s.putMgmt 0x2008 v)
/-- R216: PQHEAD. -/
def execPqhead (v : BitVec 32) (s : State) : Out := .next (s.putMgmt 0x2018 v)
/-- R245: DLSIZE. -/
def execDlsize (v : BitVec 32) (s : State) : Out := .next (s.putMgmt 0x2048 v)
/-- R249, R407: LQTAIL. -/
def execLqtail (q : Nat) (v : BitVec 32) (s : State) : Out := .next (if q < 64 then s.putMgmt (0x4000 + 0x40 * q + 0x10) v else s)
/-- R249: LQSIZE. -/
def execLqsize (q : Nat) (v : BitVec 32) (s : State) : Out := .next (if q < 64 then s.putMgmt (0x4000 + 0x40 * q + 8) v else s)
/-- R406: EQSIZE. -/
def execEqsize (v : BitVec 32) (s : State) : Out := .next (s.putMgmt 0x2088 v)
/-- R406: EQHEAD. -/
def execEqhead (v : BitVec 32) (s : State) : Out := .next (s.putMgmt 0x2098 v)
/-- R392: LOG_CLEAR. -/
def execLogClear (bank : Nat) (s : State) : Out := .next (s.putBank bank 8 0x80000000)
/-- R394: ARM: the injection fields of a bank are written. -/
def execArm (bank : Nat) (v : BitVec 32) (s : State) : Out := .next (s.putBank bank 0x14 v)
/-- R409: PEER_WINDOW. -/
def execPeerWindow (w : Nat) (v : BitVec 64) (s : State) : Out :=
  .next (if w < 256 then s.putMgmt (0x5000 + 8 * w) (v.setWidth 32) else s)
/-- R420: CLR. -/
def execClr (s : State) : Out := .next { s with mgmt := { s.mgmt with tries := 0, reason := 0 } }
/-- R423: ATTCMD. -/
def execAttcmd (s : State) : Out := .next (s.putMgmt 0x2240 1)
/-- R424: PWRCAP. -/
def execPwrcap (v : BitVec 32) (s : State) : Out := .next (s.putMgmt 0x2400 v)
/-- R4: REGISTER_WRITE: 1, 2, 4 or 8 bytes at an offset of the management space, at their own alignment. -/
def execRegisterWrite (off size : Nat) (v : BitVec 64) (s : State) : Out :=
  .next (if [1, 2, 4, 8].contains size && off % size == 0 && decide (off < 2 ^ 24) then s.mgmtWrite off size (v.toNat % 256 ^ size) else s)

/-! ### Errors found in storage (R389, R392, R393) -/

/-- R389: an uncorrectable word is marked in place, by what its bank's log says of it: of a register file in the group whose block covers
the row. -/
def State.spoilWord (s : State) (bank addr : Nat) : State :=
  if bankKind bank = 0 then
    s.mapGroups fun g =>
      if g.onQuarter (bankInst bank / 4) (bankInst bank % 4) && g.running && g.hasRow addr then g.spoilRow addr else g
  else s.markWord bank (addrWord bank addr)

/-- R389, R392: an error in a word of an array checked by SECDED: the scrubber finds it, and it is corrected or marked; or it lies there until
an access finds it. -/
def State.secdedError (s : State) (bank addr : Nat) (bad found : Bool) : State :=
  let syn := (Config.freeWord s.free).toNat % 256
  if found then
    let t := { (s.logError bank (if bad then 1 else 0) addr 0xFFF syn false) with free := s.free + 1 }
    if bad then t.spoilWord bank addr else t
  else
    let b := s.bank bank
    { (s.setBank { b with latent := b.latent ++ [⟨addrWord bank addr, syn, bad, false⟩] }) with free := s.free + 1 }

/-- R389, R392: the scrubber finds an error in a word of a slice's directory or lock table: it is logged. A corrected word is whole again; of one
that is not, R389 says no more than that it is poisoned, and what it holds is still acted on (DESIGN CHOICE, log entry 32). -/
def State.tableError (s : State) (bank addr : Nat) (bad : Bool) : State :=
  { (s.logError bank (if bad then 1 else 0) addr 0xFFF ((Config.freeWord s.free).toNat % 256) false) with free := s.free + 1 }

/-- R389: a parity error lies in a unit's buffer. -/
def State.parityError (s : State) (bank : Nat) : State :=
  let b := s.bank bank
  { (s.setBank { b with latent := b.latent ++ [⟨0, (Config.freeWord s.free).toNat % 256, true, false⟩] }) with free := s.free + 1 }

/-- R380: an error of reach 2 or 3 is found at a quarter (4 * core + quarter) or a core. -/
def State.errorAtUnit (s : State) (reach inst : Nat) : State :=
  let there (g : Group) : Bool := if reach = 2 then g.onQuarter (inst / 4) (inst % 4) else g.core == inst
  match s.groups.find? fun g => there g && !g.gone && !g.saved with
  | some g => s.onGroup g.id fun t => t.errorReach reach
  | none => s

/-- R380, R389, R392: SCRUBBER: an error arises in an array, by the kind of its bank: kinds 0 to 5 by SECDED; kinds 6 to 8 by parity, met by
the unit's next word; and, for what has no bank, the kinds 11 (a TLB entry, by its place in the table), 12 (an entry of a walker's cache), 13 (the issue or
datapath state of a quarter) and 14 (L1 tags, TLB, term unit or engine control of a core); the kinds 16 to 21 are the kinds 0 to 5 with an error
that nothing has found yet, and the kinds 22 and 23 a word of a slice's directory and of its lock table, which are logged in the slice's bank
(DESIGN CHOICE, log entry 32). -/
def execScrubber (bank addr : Nat) (bad : Bool) (s : State) : Out :=
  .next (match bankKind bank with
    | 6 => s.parityError bank
    | 7 => s.parityError bank
    | 8 => s.parityError bank
    | 11 => { s with tlb := s.tlb.eraseIdx addr }
    | 12 => { s with walkCache := s.walkCache.eraseIdx addr }
    | 13 => s.errorAtUnit 2 (bankInst bank)
    | 14 => s.errorAtUnit 3 (bankInst bank)
    | k => if k ≤ 5 then s.secdedError bank addr bad true
      else if 16 ≤ k ∧ k ≤ 21 then s.secdedError (bank - 32768) addr bad false
      else if k = 22 ∨ k = 23 then s.tableError (bankIdx 3 (bankInst bank)) addr bad else s)

/-- R389: the oldest result a group's units still owe is delivered poisoned. -/
def RegWrite.poisoned : RegWrite → RegWrite
  | .vec r m xs _ u race => .vec r m xs m u race
  | .sreg r x _ race => .sreg r x true race
  | w => w
/-- R382, R389: poisons the results of a group's oldest load or atomic in flight. -/
def Group.spoilLoad (g : Group) : Group :=
  match g.pend.findIdx? fun p => p.kind == .load || p.kind == .atomic with
  | none => g
  | some i => { g with pend := g.pend.modify i fun (p : Pending) =>
      { p with writes := p.writes.map RegWrite.poisoned ++ [RegWrite.ckint (bitWord 1)] } }
/-- R389: the payload a group has under way is delivered poisoned: of its oldest load or atomic in flight; without one, of its next store to
memory. -/
def State.spoilPayload (s : State) (bank grp : Nat) : State :=
  if ((s.group? grp).map fun g => g.pend.any fun p => p.kind == .load || p.kind == .atomic).getD false then s.updGroup grp Group.spoilLoad
  else
    let b := s.bank bank
    s.setBank { b with latent := b.latent ++ [⟨grp, 0, true, false⟩] }

/-- R389, R392, R393: FLIT_CRC_FAILURE: a flit has failed so many times in a row; after 16 its payload is delivered poisoned. The record names
the group's context, or none, and, of a port, a physical address of a peer (R392). -/
def execFlitCrcFailure (bank : Nat) (grp : Option Nat) (tries : Nat) (s : State) : Out :=
  .next (if bankKind bank = 9 ∨ bankKind bank = 10 then
    let b := s.bank bank
    let w := (Config.freeWord s.free).toNat
    let a := if bankKind bank = 10 then 0xD000000000000 + (w + 2 ^ 32 * (Config.freeWord (s.free + 1)).toNat) % 2 ^ 48 / 64 * 64 else w
    let t := { ((s.setBank { b with arm := false }).logError bank 2 a ((grp.map s.ctxOf).getD 0xFFF) (min tries 255) b.arm) with
      free := s.free + 2 }
    match grp with
    | some id => if 16 ≤ tries then t.spoilPayload bank id else t
    | none => t
  else s)

/-! ### Self-test and retirement (R395, R396) -/

/-- R395: a row or entry of a bank is idle. -/
def State.rowIdle (s : State) (b : LogBank) (r : TestRow) : Bool :=
  match bankKind b.idx with
  | 0 =>
    let row := r.row.toNat
    !(s.groups.any fun g => g.onQuarter (bankInst b.idx / 4) (bankInst b.idx % 4) && g.running && g.hasRow row)
  | 2 =>
    let buf := bankInst b.idx % 3
    let off := 8 * r.row.toNat
    !(s.wgs.any fun w => w.core == bankInst b.idx / 3 && s.wgBusy w && (match buf with
      | 0 => overlaps off 8 w.offW w.sizeW
      | 1 => overlaps off 8 w.offA w.sizeA
      | _ => overlaps off 8 w.offC w.sizeC))
  | _ => true

/-- R395: the core that owns an array of a kind whose failure retires it. -/
def bankCore (i : Nat) : Option Nat :=
  match bankKind i with
  | 0 => some (bankInst i / 4)
  | 1 => some (bankInst i)
  | 2 => some (bankInst i / 3)
  | 3 => some (bankInst i)
  | 6 => some (bankInst i)
  | 8 => some (bankInst i)
  | _ => none

/-- R395: a cache line with an uncorrectable error is dropped. Its dirty bytes are lost: memory has what it held before, which the model
keeps nowhere, so they are free values. The mark that the error left on its word goes with the copy (DESIGN CHOICE, log entry 32). -/
def State.loseLine (s : State) (r : TestRow) (line : Nat) (dirty : BitVec 64) : State :=
  let t := ((List.range 64).filter dirty.getLsbD).foldl (fun (u : State) i => u.memStore (line + i) [Config.freeByte (s.free + i)]) s
  let t := if r.marked then t.clearMem r.row.toNat 8 else t
  if dirty = 0 then t else { t with free := t.free + 64 }
/-- R395: what precedes the test: a cache line is written back, when it is dirty and its error was correctable, and dropped; the partials of a haze
line are returned, one that cannot be read as poison (R290). -/
def State.dropTested (s : State) (b : LogBank) (r : TestRow) : State :=
  let line := lineOf r.row.toNat
  let lost (t : State) : State :=
    if r.bad then t.loseLine r line (if Config.lineDirty line t.free then BitVec.allOnes 64 else 0) else t
  match bankKind b.idx with
  | 1 =>
    let t := s.hazeReturn (bankInst b.idx) line
    (match t.l1Find (bankInst b.idx) line with
    | some l => (if !r.bad then t.l1WriteBack l else if l.data.isEmpty then t.loseLine r line l.dirty else t).l1Drop l.core l.line
    | none => t)
  | 3 => if s.slices.any fun k => k.slice == bankInst b.idx && k.line == line then
      { (lost s) with slices := s.slices.filter fun k => !(k.slice == bankInst b.idx && k.line == line) } else s
  | 4 => if s.msc.contains (bankInst b.idx, line) then { (lost s) with msc := s.msc.filter fun k => k != (bankInst b.idx, line) } else s
  | _ => s
/-- R395: a failed test replaces the row by a spare one, or disables the line's way in its set of a cache. -/
def State.spareOut (s : State) (b : LogBank) (r : TestRow) : State :=
  let line := lineOf r.row.toNat
  match bankKind b.idx with
  | 1 => { s with ways := (b.idx, l1Set line) :: s.ways }
  | 3 => { s with ways := (b.idx, l1Set line) :: s.ways }
  | 4 => { s with ways := (b.idx, mscSet line) :: s.ways }
  | _ => s

/-- R394, R395: the outcome of the self-test of a bank's oldest row that is idle; an injected error damages nothing. TEST stays 1 while
another row waits (DESIGN CHOICE, log entry 32). -/
def State.selfTest (s : State) (b : LogBank) (pass : Bool) : State :=
  if b.test ≠ 1 then s
  else match b.tests.find? (s.rowIdle b) with
  | none => s
  | some r =>
    let t := s.dropTested b r
    let c := { t.bank b.idx with tests := (t.bank b.idx).tests.erase r }
    let after (n : Nat) : Nat := if c.tests.isEmpty then n else 1
    if pass || r.inj then t.setBank { c with test := after 2 }
    else if c.spare ≠ 0 then (t.spareOut b r).setBank { c with test := after 3, spare := c.spare - 1 }
    else
      let u := t.setBank { c with test := after 4 }
      match bankCore b.idx with
      | some c => u.setCore { u.core c with retireMark := true }
      | none => u
/-- R395: SELF_TEST. -/
def execSelfTest (bank : Nat) (pass : Bool) (s : State) : Out := .next (s.selfTest (s.bank bank) pass)

/-- R396: a marked core without resident work is retired. -/
def State.retireCore (s : State) (core : Nat) : State :=
  let k := s.core core
  if !k.retireMark || s.wgs.any (fun w => w.core == core && s.wgBusy w) then s
  else
    let t := (s.setCore { k with retireMark := false }).hazeReturnAll core
    { t with mgmt := { t.mgmt with coreRet := insertNat core t.mgmt.coreRet },
             locks := t.locks.map fun (e : LockEntry) => { e with nodes := e.nodes.map fun (n : LockNode) =>
               if n.core = core ∧ n.st = .wait then { n with st := .stub } else n } }
/-- R396: CORE_RETIRE. -/
def execCoreRetire (core : Nat) (s : State) : Out := .next (s.retireCore core)

end Sys2Proof.Machine
end

