-- ==== Sys2Proof/Machine/Outside.lean ====
section
/-! DEFINITION. What the host, the pool devices and peer devices do to this one: accesses and snoops (R221, R401, R402, R409),
completions (R404, R411), links going down and up (R406, R407), and messages forwarded for others (R410, R411). -/

namespace Sys2Proof.Machine

/-! ### Accesses and snoops -/

/-- R200, R421: the range lies in the HBM in service. -/
def State.inHbm (s : State) (pa n : Nat) : Bool := decide (pa + n ≤ s.hbmEnd)

/-- R224, R226: the operations as OutsideAct numbers them. -/
def atomOps : List AtomOp :=
  [.addI32, .addF32, .addBf2, .minI, .maxI, .minN, .maxN, .and, .or, .xor, .xchg, .minF32, .maxF32, .addI64, .xchg64, .cas]
/-- R224, R226: the element sizes an operation has. -/
def AtomOp.sizes : AtomOp → List Nat
  | .addI64 => [8]
  | .xchg64 => [8]
  | .cas => [4, 8, 16]
  | _ => [4]
/-- R400: the act is one the host port performs on n bytes at an address; of atomics the PCIe AtomicOps, each at its own alignment. -/
def hostActOk (pa n : Nat) : OutsideAct → Bool
  | .atomic op _ _ => (match atomOps[op]? with | some o => o.hostForm && o.sizes.contains n && pa % n == 0 | none => false)
  | _ => true
/-- R409: the same of a peer's request, whose atomics have every form. -/
def peerActOk (pa n : Nat) : OutsideAct → Bool
  | .atomic op _ _ => (match atomOps[op]? with | some o => o.sizes.contains n && pa % n == 0 | none => false)
  | _ => true

/-- The bytes of memory an act changes, with the mark they get: of an atomic what its operation leaves, if anything (R228, R381). -/
def State.outsideBytes (s : State) (pa n : Nat) : OutsideAct → Option (List Byte × Bool)
  | .read => none
  | .write bs => some (bs.take n, false)
  | .atomic op x cmp =>
    match ((atomOps[op]?).map fun o => o.apply n (s.memRead pa n) x cmp).bind (·.1) with
    | some v => some (leBytes n v, s.memPoisoned pa n)
    | none => none
/-- Stores what an act changes. -/
def State.outsideStore (s : State) (pa n : Nat) (act : OutsideAct) : State :=
  match s.outsideBytes pa n act with
  | none => s
  | some (bs, pz) =>
    let t := s.memStore pa bs
    if pz then t.markMem pa n else t

/-- R286, R394, R401: an outside agent's access to HBM at the home slices: haze lines drain first, and a write leaves no other copy (DEDUCED, log
entry 51). -/
def State.outsideAccess (s : State) (pa n : Nat) (act : OutsideAct) : State :=
  let ls := rangeLines pa n
  let t := ls.foldl (fun (u : State) l => u.exactAccess ⟨l, 0, 0, false⟩) s.dirFlush
  let t := t.findErrors 0xFFF pa n (match act with | .write _ => true | _ => false)
  if act = .read then t
  else
    let homes := (t.slices.filter fun k => ls.contains k.line).map fun k => bankIdx 3 k.slice
    ((ls.foldl State.purgeLine t).outsideStore pa n act).plantAt homes (pa / 8)

/-- R402: the device's copies of host lines that came through the home agent are dropped; a core's own copies of non-coherent lines (R166) are
not tracked and stay (DEDUCED, log entry 51). -/
def State.snooped (s : State) (line : Nat) : State :=
  let t := s.dirFlush.purgeLine line
  { t with agent := t.agent.filter fun l => l != line }
/-- R221, R284: the haze lines of a pool line are returned, every copy goes, and the snoop filter's entry. -/
def State.backInvalidated (s : State) (line : Nat) : State :=
  let t := (s.dirFlush.hazeGive fun l => l.line == line).purgeLine line
  { t with filter := t.filter.filter fun e => e.2 != line }

/-- R400, R401, R402, R408: HOST_ACCESS: of the host at HBM; at an address of host memory or of the pool it stands for a change that the
host, or another device attached to the pool, makes there, which its snoop of the device's copies precedes (DESIGN CHOICE, log entry 51). -/
def execHostAccess (pa n : Nat) (act : OutsideAct) (s : State) : Out :=
  .next (if !hostActOk pa n act then s
    else if s.inHbm pa n then (if s.hostDown then s else s.outsideAccess pa n act)
    else if act = .read then s
    else if hostKey 0 ≤ pa ∧ pa + n ≤ hostKey (2 ^ 46) then ((rangeLines pa n).foldl State.snooped s).outsideStore pa n act
    else if s.poolOk pa && s.poolOk (pa + n - 1) then ((rangeLines pa n).foldl State.backInvalidated s).outsideStore pa n act
    else s)
/-- R409: INBOUND_REQUEST: a request outside HBM, or with PEERIN 0, is answered with an error. -/
def execInboundRequest (pa n : Nat) (act : OutsideAct) (s : State) : Out :=
  .next (if s.mgmt.peerIn && s.inHbm pa n && !s.mgmt.minMode && peerActOk pa n act then s.outsideAccess pa n act else s)

/-- R402: HOST_SNOOP. -/
def execHostSnoop (line : Nat) (s : State) : Out := .next (s.snooped (lineOf line))
/-- R221, R284: BACK_INVALIDATE. -/
def execBackInvalidate (line : Nat) (s : State) : Out := .next (s.backInvalidated (lineOf line))

/-! ### Completions -/

/-- R404: ZERO_LENGTH_READ: every posted write of the group before it has arrived. -/
def execZeroLengthRead (grp : Nat) (s : State) : Out := .next { s with zlr := s.zlr.filter fun g => g != grp }

/-- R410: the port by which a group's next operation at a peer leaves. -/
def State.peerPort (s : State) : Nat :=
  match s.g.firstTodo .peer with
  | some (_, o) => (s.route s.g.core (s.peerWin (bits o.loc.key 40 8) % 2 ^ 20)).getD 0
  | none => 0
/-- R403, R411: a request of the running group at a peer ends in an error, with a link event: its first atomic, which returns poison, or
else the oldest load or store whose counter still counts it (DESIGN CHOICE, log entry 31). -/
def State.peerError (s : State) (cause : Nat) : State :=
  if (s.g.firstTodo .peer).isSome then (s.performFirst .peer true).linkEvent s.peerPort cause
  else match s.g.pend.findIdx? fun p => !p.peers.isEmpty with
    | none => s
    | some i =>
      (s.mg fun g => { g with pend := g.pend.modify i Pending.peerError }).linkEvent (((s.g.pend[i]?).bind fun p => p.peers.head?.map (·.2)).getD 0)
        cause
/-- R411: RESPONSE: an operation of the group at a peer has been performed and its response is delivered; or the peer has answered it with an
error (R409), which is reported as R403 reports an atomic's (DESIGN CHOICE, log entry 31). -/
def execResponse (ans : PeerAnswer) (s : State) : Out :=
  .next (s.onGroup ans.grp fun t => if ans.err then t.peerError 4 else t.performFirst .peer false)
/-- R411: REQUEST_TIMEOUT: a request without a response completes with an error, and a link event is posted. -/
def execRequestTimeout (grp : Nat) (s : State) : Out := .next (s.onGroup grp fun t => t.peerError 3)

/-! ### Links -/

/-- R406: the ports of the events: 0 to 17 Rykel, 31 the host. -/
def isPort (p : Nat) : Bool := decide (p < 18) || p == 31

/-- R407: LINK_DOWN. -/
def execLinkDown (port : Nat) (s : State) : Out :=
  .next (if isPort port && !s.down.contains port then State.linkEvent { s with down := insertNat port s.down } port 1 else s)
/-- R406, R407, R421: LINK_UP: held completion records come first, then held events; Rykel ports stay down in minimal mode. -/
def execLinkUp (port : Nat) (s : State) : Out :=
  .next (if isPort port && s.down.contains port && (port == 31 || !s.mgmt.minMode) then
    let t := { s with down := s.down.filter fun p => p != port }
    let u := if port = 31 then t.releaseRecords else t
    (u.flushEvents u.heldEvents).linkEvent port 2
  else s)

/-! ### Messages forwarded for other devices (R410, R411) -/

/-- The number of free buffers a port's receiver has signalled. -/
def State.freeBufs (s : State) (port : Nat) : Nat := ((s.bufs.find? fun b => b.1 == port).map (·.2)).getD 0
/-- Sets it. -/
def State.setBufs (s : State) (port n : Nat) : State := { s with bufs := (port, n) :: s.bufs.filter fun b => b.1 != port }

/-- R410: the destination, source device, source core and channel a header names (DEDUCED, log entry 19). -/
def hopDest (n : Nat) : Nat := n % 2 ^ 20
def hopSource (n : Nat) : Nat := bits n 20 20
def hopCore (n : Nat) : Nat := bits n 40 9
def hopResponse (n : Nat) : Bool := bit n 49

/-- R410: the port a message for another device leaves by; none where its destination is unreachable. -/
def State.hopPort (s : State) (n : Nat) : Option Nat :=
  let d := hopDest n
  let m := s.mgmt
  let mask := (if d / 1024 = m.myId / 1024 then tableWord m.localTable (d % 1024) else tableWord m.groupTable (d / 1024)).toNat
  let ports := (List.range 18).filter fun i => bit mask i
  if ports.isEmpty then none else ports[Config.routeHash (hopSource n) (hopCore n) d % ports.length]?

/-- R411: the oldest request held for a port leaves when a buffer is free. -/
def State.hopSend (s : State) (port : Nat) : State :=
  match s.hops.find? fun h => h.1 == port with
  | some h =>
    if s.freeBufs port = 0 || s.down.contains port then s
    else { s.setBufs port (s.freeBufs port - 1) with hops := s.hops.erase h, rykelOut := s.rykelOut ++ [h] }
  | none => s

/-- R410, R411: HOP_FORWARDING: a message that arrives on a port is forwarded: a response at once, a request when the next
link's receiver has a free buffer; an unreachable one goes no further. -/
def execHopForwarding (port n : Nat) (s : State) : Out :=
  .next (if decide (port < 18) && !s.down.contains port && !s.mgmt.minMode && hopDest n != s.mgmt.myId then
    match s.hopPort n with
    | none => s
    | some p =>
      if hopResponse n then { s with rykelOut := s.rykelOut ++ [(p, n)] }
      else State.hopSend { s with hops := s.hops ++ [(p, n)] } p
  else s)
/-- R411: FREE_BUFFER_SIGNAL. -/
def execFreeBufferSignal (port : Nat) (s : State) : Out :=
  .next (if port < 18 then (s.setBufs port (s.freeBufs port + 1)).hopSend port else s)

end Sys2Proof.Machine
end

