-- ==== Sys2Proof/Machine/Power.lean ====
section
/-! DEFINITION. Start, attestation, power and temperature (R417 to R425). -/

namespace Sys2Proof.Machine

/-! ### The image and its checks (R417, R418) -/

/-- Exactly n bytes of a string. -/
def fixBytes (n : Nat) (bs : List Byte) : List Byte := (List.range n).map fun i => bs.getD i 0

/-- R417: header bytes 0x00 to 0x6F, which the signature covers. -/
def Flash.signed (f : Flash) : List Byte :=
  leBytes 4 f.magic.toNat ++ leBytes 4 f.length.toNat ++ leBytes 4 f.svn.toNat ++ leBytes 4 f.key.toNat ++ fixBytes 64 f.digest
    ++ fixBytes 32 f.pubkey

/-- R417: the header is well formed. -/
def Flash.headerOk (f : Flash) : Bool :=
  f.magic == 0x56444C56 && decide (1 ≤ f.length.toNat ∧ f.length.toNat ≤ 2 ^ 26) && decide (f.key.toNat ≤ 3) && f.pad.all (· == 0)
    && f.body.length == f.length.toNat

/-- R418: the reason why the image in the flash is not accepted; none when it is. -/
def State.imageFault (s : State) : Option Nat :=
  let f := s.flash
  if !f.headerOk then some 2
  else if sha512 f.pubkey ≠ s.fuses.hashes.getD f.key.toNat [] ∨ s.fuses.revoked.contains f.key.toNat then some 1
  else if !ed25519Verify f.pubkey f.signed f.sig then some 1
  else if sha512 f.body ≠ f.digest then some 1
  else if f.svn.toNat < s.fuses.minSvn then some 3
  else none

/-! ### Reset and start (R407, R419 to R421) -/

/-- R407, R419, R420: the device right after a reset: what persists is the flash, the fuses, memory, TRIES, REASON, FMIN and
BOOTCNT; scratch buffers and every queue, grid and register start afresh (DEDUCED, log entry 20). -/
def State.cleared (s : State) : State :=
  { State.reset with
    mem := s.mem.filter fun c => decide (c.1 < 2 ^ 52 ∨ 2 ^ 60 ≤ c.1), memPoison := s.memPoison.filter fun w => decide (w * 8 < 2 ^ 52 ∨ 2 ^ 60 ≤ w * 8),
    flash := s.flash, fuses := s.fuses,
    mgmt := { Mgmt.zero with tries := s.mgmt.tries, reason := s.mgmt.reason, fmin := s.mgmt.fmin, bootCnt := s.mgmt.bootCnt },
    msix := s.msix, mmioOut := s.mmioOut, rykelOut := s.rykelOut, nextId := s.nextId, free := s.free, agenda := s.agenda, turns := s.turns }

/-- R419: a start fails: TRIES rises. -/
def State.failStart (s : State) (reason : Nat) : State :=
  { s with mgmt := { s.mgmt with tries := min 3 (s.mgmt.tries + 1), reason := reason } }

/-- R419, R421: the boot ROM after a reset: the image, or, with TRIES 3 or FMIN, the minimal firmware. A failed check resets the
device, by fuel. -/
def State.boot (s : State) : Nat → State
  | 0 => s
  | n + 1 =>
    let t := s.cleared
    let t := { t with mgmt := { t.mgmt with bootCnt := t.mgmt.bootCnt + 1 } }
    if t.mgmt.fmin || decide (3 ≤ t.mgmt.tries) then
      -- the measurement of the ROM's own firmware is a free value
      { t with down := List.range 18, free := t.free + 64,
               mgmt := { t.mgmt with minMode := true, reason := if t.mgmt.fmin then 7 else t.mgmt.reason,
                                     measurement := (List.range 64).map fun i => Config.freeByte (t.free + i) } }
    else
      match t.imageFault with
      | some r => (t.failStart r).boot n
      | none => { t with mgmt := { t.mgmt with measurement := fixBytes 64 t.flash.digest } }

/-- R419: RESET. -/
def execReset (s : State) : Out := .next (s.boot 4)

/-- R419: BOOT_WATCHDOG: OK has not been written in time. -/
def execBootWatchdog (s : State) : Out :=
  .next (if !s.mgmt.ok && decide (2 ^ 33 ≤ s.fabricClock) then (s.failStart 5).boot 4 else s)
/-- R419: FIRMWARE_START_FAILURE: HBM training (4) or the firmware's self-test (6) fails. -/
def execFirmwareStartFailure (reason : Nat) (s : State) : Out :=
  .next (if !s.mgmt.ok && (reason == 4 || reason == 6) then (s.failStart reason).boot 4 else s)
/-- R419, R421: BOOT_OK: the start has succeeded; queues whose doorbells were held are decoded from now on. -/
def execBootOk (s : State) : Out := .next { s with mgmt := { s.mgmt with ok := true, tries := 0 } }
/-- R420: POWER_LOSS: TRIES, FMIN and BOOTCNT are cleared, and nothing of the device's own memory is left. -/
def execPowerLoss (s : State) : Out :=
  let t := s.cleared
  .next { t with mem := t.mem.filter (fun c => decide (2 ^ 39 ≤ c.1)), memPoison := t.memPoison.filter (fun w => decide (2 ^ 39 ≤ w * 8)),
                 mgmt := { t.mgmt with tries := 0, fmin := false, bootCnt := 0 } }

/-! ### Attestation (R422, R423) -/

/-- R423: the report's bytes 0x00 to 0x8F. -/
def State.reportBody (s : State) : List Byte :=
  fixBytes 32 (identityKey s.mgmt.measurement) ++ fixBytes 64 s.mgmt.measurement ++ fixBytes 32 s.mgmt.attNonce
    ++ leBytes 4 s.bootst.toNat ++ leBytes 4 s.mgmt.myId ++ leBytes 8 0
/-- R423: the report is written whole, and BUSY clears. -/
def State.finishReport (s : State) : State :=
  { s with mgmt := { s.mgmt with attBusy := false,
                                 attReport := s.reportBody ++ fixBytes 64 (identitySign s.mgmt.measurement s.reportBody) } }
/-- R423: ATTESTATION_REPORT. -/
def execAttestationReport (s : State) : Out := .next (if s.mgmt.attBusy then s.finishReport else s)

/-! ### Power and temperature (R424, R425) -/

/-- R425: the clock after a millisecond with the power and the cap given (DESIGN CHOICE, log entry 50). -/
def clockStep (clk pwr cap : Nat) : Nat :=
  if cap < pwr then max 1000 (clk - 50) else if pwr * 100 ≤ cap * 95 then min 1900 (clk + 50) else clk
/-- R424, R425: CLOCK_STEP: a millisecond passes: power and temperatures are measured, free values below the trip, and the core
clock follows (DESIGN CHOICE, log entry 50). -/
def execClockStep (s : State) : Out :=
  let w (i : Nat) : Nat := (Config.freeWord (s.free + i)).toNat
  let pwr := w 0 % 65536
  .next { s with free := s.free + 3,
                 mgmt := { s.mgmt with pwrNow := pwr, clkNow := clockStep s.mgmt.clkNow pwr s.mgmt.pwrCap, fabBase := s.fabricClock,
                                       fabSince := s.clock,
                                       temp0 := w 1 % 105, temp1 := w 2 % 105 } }
/-- R425: THERMAL_TRIP: a die's temperature is read; at 105 degrees all work stops. -/
def execThermalTrip (die temp : Nat) (s : State) : Out :=
  let m := if die = 0 then { s.mgmt with temp0 := temp % 256 } else { s.mgmt with temp1 := temp % 256 }
  let t := { s with mgmt := m }
  .next (if 105 ≤ temp && decide (die < 2) && !s.tripped then State.linkEvent { t with tripped := true } 31 1 else if die < 2 then t else s)

end Sys2Proof.Machine
end

