-- ==== Sys2Proof/Machine/Predicates.lean ====
section
/-! DEFINITION. Predicate instructions (R116 to R118). -/

namespace Sys2Proof.Machine

/-- R117: a predicate operation in the active lanes. -/
def predUnit (st d : Nat) (srcs : List Nat) (f : Bool → Bool → Bool) (s : State) : Out :=
  .next (vunit .vec st 4 (srcs.map Ref.p) (fun t =>
    let m := t.g.rdMask t.clock
    let x := t.g.rdP t.clock (srcs.getD 0 0)
    let y := t.g.rdP t.clock (srcs.getD 1 0)
    .ok () (t.mg fun g => g.setP t.clock latVector d m (maskOf fun l => f (x.getLsbD l) (y.getLsbD l)))) s)

/-- R117: PAND. -/
def execPand (o : PDAB) (s : State) : Out :=
  predUnit o.st.toNat o.d.toNat [o.a.toNat, o.b.toNat] (fun x y => x && y) s

/-- R117: POR. -/
def execPor (o : PDAB) (s : State) : Out :=
  predUnit o.st.toNat o.d.toNat [o.a.toNat, o.b.toNat] (fun x y => x || y) s

/-- R117: PXOR. -/
def execPxor (o : PDAB) (s : State) : Out :=
  predUnit o.st.toNat o.d.toNat [o.a.toNat, o.b.toNat] (fun x y => x != y) s

/-- R117: PANDN. -/
def execPandn (o : PDAB) (s : State) : Out :=
  predUnit o.st.toNat o.d.toNat [o.a.toNat, o.b.toNat] (fun x y => x && !y) s

/-- R117: PNOT. -/
def execPnot (o : PDA) (s : State) : Out :=
  predUnit o.st.toNat o.d.toNat [o.a.toNat] (fun x _ => !x) s

/-- R117: PMOV. -/
def execPmov (o : PDA) (s : State) : Out :=
  predUnit o.st.toNat o.d.toNat [o.a.toNat] (fun x _ => x) s

/-- R117: PSET. -/
def execPset (o : PD) (s : State) : Out :=
  predUnit o.st.toNat o.d.toNat [] (fun _ _ => true) s

/-- R117: PCLR. -/
def execPclr (o : PD) (s : State) : Out :=
  predUnit o.st.toNat o.d.toNat [] (fun _ _ => false) s

/-! ### Between lanes and scalars (R118) -/

/-- R118: PTOS. -/
def execPtos (o : SDPA) (s : State) : Out :=
  .next (unit .scal o.st.toNat 4 [.p o.a.toNat] (fun t =>
    let p := t.g.rdP t.clock o.a.toNat
    (do putScalar latCross o.d.toNat (maskWord p 0) false
        putScalar latCross (o.d.toNat + 1) (maskWord p 1) false
        putScalar latCross (o.d.toNat + 2) (maskWord p 2) false) t) s)

/-- R118: PFROMS. A poisoned scalar has no predicate to go to and is consumed. -/
def execPfroms (o : PDSA) (s : State) : Out :=
  .next (unit .scal o.st.toNat 4 (sRefs o.a.toNat 3) (fun t =>
    if t.g.anySP t.clock o.a.toNat 3 then .error (.consumed 0) (t.mg (·.ck 0))
    else
      let x := setMaskWord (setMaskWord (setMaskWord 0 0 (t.g.rdS t.clock o.a.toNat)) 1 (t.g.rdS t.clock (o.a.toNat + 1))) 2
        (t.g.rdS t.clock (o.a.toNat + 2))
      .ok () (t.mg fun g => g.setP t.clock latCross o.d.toNat g.live x)) s)

/-- R118: the ones of a predicate under the current mask. -/
def Group.under (g : Group) (now p : Nat) : Mask := g.rdP now p &&& g.rdMask now

/-- R118: PCNT. -/
def execPcnt (o : SDPA) (s : State) : Out :=
  .next (unit .scal o.st.toNat 4 (maskRefs ++ [.p o.a.toNat]) (fun t =>
    putScalar latCross o.d.toNat (BitVec.ofNat 32 (countLanes (t.g.under t.clock o.a.toNat))) false t) s)

/-- R118: PANY. -/
def execPany (o : PA) (s : State) : Out :=
  .next (unit .scal o.st.toNat 4 (maskRefs ++ [.p o.a.toNat]) (fun t =>
    putScc latCross (t.g.under t.clock o.a.toNat != 0) t) s)

/-- R118: PALL. -/
def execPall (o : PA) (s : State) : Out :=
  .next (unit .scal o.st.toNat 4 (maskRefs ++ [.p o.a.toNat]) (fun t =>
    putScc latCross (t.g.under t.clock o.a.toNat == t.g.rdMask t.clock) t) s)

/-- R118: PFIRST. -/
def execPfirst (o : SDPA) (s : State) : Out :=
  .next (unit .scal o.st.toNat 4 (maskRefs ++ [.p o.a.toNat]) (fun t =>
    let x := t.g.under t.clock o.a.toNat
    (do putScalar latCross o.d.toNat (BitVec.ofNat 32 (lowestLane x)) false
        putScc latCross (x != 0)) t) s)

end Sys2Proof.Machine
end

