-- ==== Sys2Proof/Machine/Scalar.lean ====
section
/-! DEFINITION. Scalar arithmetic, logic and compares (R77 to R79), the special registers (R74 to R76) and the crossings
between scalar and vector registers (R80). -/

namespace Sys2Proof.Machine

/-- R77: a form that writes d from two scalar sources. -/
def scalar2 (st len d a b : Nat) (f : Word → Word → Word) (s : State) : Out :=
  .next (unit .scal st len [.s a, .s b] (fun t =>
    putScalar latScalar d (f (t.g.rdS t.clock a) (t.g.rdS t.clock b)) (t.useS a || t.useS b) t) s)
/-- R77: a form that writes d from one scalar source and an immediate or nothing. -/
def scalar1 (st len d a : Nat) (f : Word → Word) (s : State) : Out :=
  .next (unit .scal st len [.s a] (fun t => putScalar latScalar d (f (t.g.rdS t.clock a)) (t.useS a) t) s)
/-- R77, R78, R381: a compare into SCC: a poisoned operand is consumed. -/
def scalarCmp (st len : Nat) (refs : List Ref) (pz : State → Bool) (f : State → Bool) (s : State) : Out :=
  .next (unit .scal st len refs (fun t =>
    if pz t then .error (.consumed 0) (t.mg (·.ck 0)) else putScc latScalar (f t) t) s)
/-- A compare of two scalars. -/
def scalarCmp2 (o : AB) (c : Nat) (s : State) : Out :=
  scalarCmp o.st.toNat 4 [.s o.a.toNat, .s o.b.toNat] (fun t => t.useS o.a.toNat || t.useS o.b.toNat)
    (fun t => condition c (t.g.rdS t.clock o.a.toNat) (t.g.rdS t.clock o.b.toNat)) s
/-- An S3 form. -/
def s3 (o : DAB) (f : Word → Word → Word) (s : State) : Out := scalar2 o.st.toNat 4 o.d.toNat o.a.toNat o.b.toNat f s
/-- An SI form. -/
def si (o : SDAI) (f : Word → Word → Word) (s : State) : Out :=
  scalar1 o.st.toNat (lenL o.limm) o.d.toNat o.a.toNat (fun x => f x (immWord o.i o.limm)) s
/-- R77: the forms that read SCC and write it back with their result. -/
def scalarCarry (o : DAB) (f : Word → Word → Bool → Word) (c : Word → Word → Bool → Bool) (s : State) : Out :=
  .next (unit .scal o.st.toNat 4 [.s o.a.toNat, .s o.b.toNat, .scc] (fun t =>
    let x := t.g.rdS t.clock o.a.toNat
    let y := t.g.rdS t.clock o.b.toNat
    let k := t.g.rdScc t.clock
    (do putScalar latScalar o.d.toNat (f x y k) (t.useS o.a.toNat || t.useS o.b.toNat)
        putScc latScalar (c x y k)) t) s)


/-- R77: SADD. -/
def execSadd (o : DAB) (s : State) : Out :=
  s3 o (fun x y => x + y) s

/-- R77: SSUB. -/
def execSsub (o : DAB) (s : State) : Out :=
  s3 o (fun x y => x - y) s

/-- R77: SMUL. -/
def execSmul (o : DAB) (s : State) : Out :=
  s3 o (fun x y => x * y) s

/-- R77: SMULH.I. -/
def execSmulhI (o : DAB) (s : State) : Out :=
  s3 o mulhI s

/-- R77: SMULH.N. -/
def execSmulhN (o : DAB) (s : State) : Out :=
  s3 o mulhN s

/-- R77: SAND. -/
def execSand (o : DAB) (s : State) : Out :=
  s3 o (fun x y => x &&& y) s

/-- R77: SOR. -/
def execSor (o : DAB) (s : State) : Out :=
  s3 o (fun x y => x ||| y) s

/-- R77: SXOR. -/
def execSxor (o : DAB) (s : State) : Out :=
  s3 o (fun x y => x ^^^ y) s

/-- R77: SANDN. -/
def execSandn (o : DAB) (s : State) : Out :=
  s3 o (fun x y => x &&& ~~~y) s

/-- R77: SSHL. -/
def execSshl (o : DAB) (s : State) : Out :=
  s3 o shl s

/-- R77: SSHR.N. -/
def execSshrN (o : DAB) (s : State) : Out :=
  s3 o shrN s

/-- R77: SSHR.I. -/
def execSshrI (o : DAB) (s : State) : Out :=
  s3 o shrI s

/-- R77: SROTL. -/
def execSrotl (o : DAB) (s : State) : Out :=
  s3 o rotl s

/-- R77: SMIN.I. -/
def execSminI (o : DAB) (s : State) : Out :=
  s3 o minI s

/-- R77: SMAX.I. -/
def execSmaxI (o : DAB) (s : State) : Out :=
  s3 o maxI s

/-- R77: SMIN.N. -/
def execSminN (o : DAB) (s : State) : Out :=
  s3 o minN s

/-- R77: SMAX.N. -/
def execSmaxN (o : DAB) (s : State) : Out :=
  s3 o maxN s

/-- R79: SBFE.N. -/
def execSbfeN (o : DAB) (s : State) : Out :=
  s3 o bfeN s

/-- R79: SBFE.I. -/
def execSbfeI (o : DAB) (s : State) : Out :=
  s3 o bfeI s

/-- R77: SNEG. -/
def execSneg (o : DA) (s : State) : Out :=
  scalar1 o.st.toNat 4 o.d.toNat o.a.toNat (fun x => 0 - x) s

/-- R77: SPOPC. -/
def execSpopc (o : DA) (s : State) : Out :=
  scalar1 o.st.toNat 4 o.d.toNat o.a.toNat (popc) s

/-- R77: SCLZ. -/
def execSclz (o : DA) (s : State) : Out :=
  scalar1 o.st.toNat 4 o.d.toNat o.a.toNat (clz) s

/-- R77: SBREV. -/
def execSbrev (o : DA) (s : State) : Out :=
  scalar1 o.st.toNat 4 o.d.toNat o.a.toNat (brev) s

/-- R77: SADDC. -/
def execSaddc (o : DAB) (s : State) : Out :=
  scalarCarry o (fun x y k => x + y + BitVec.ofNat 32 (sccNat k)) carryOut s

/-- R77: SSUBB. -/
def execSsubb (o : DAB) (s : State) : Out :=
  scalarCarry o (fun x y k => x - y - BitVec.ofNat 32 (sccNat k)) borrowOut s

/-- R77, R381: SSEL: a poisoned select operand is consumed. -/
def execSsel (o : DAB) (s : State) : Out :=
  .next (unit .scal o.st.toNat 4 [.s o.a.toNat, .s o.b.toNat, .scc] (fun t =>
    if t.useS o.a.toNat || t.useS o.b.toNat then .error (.consumed 0) (t.mg (·.ck 0))
    else putScalar latScalar o.d.toNat
      (if t.g.rdScc t.clock then t.g.rdS t.clock o.a.toNat else t.g.rdS t.clock o.b.toNat) false t) s)

/-- R79: SBFI, which reads d as a third source. -/
def execSbfi (o : DAB) (s : State) : Out :=
  .next (unit .scal o.st.toNat 4 [.s o.a.toNat, .s o.b.toNat, .s o.d.toNat] (fun t =>
    putScalar latScalar o.d.toNat (bfi (t.g.rdS t.clock o.a.toNat) (t.g.rdS t.clock o.b.toNat) (t.g.rdS t.clock o.d.toNat))
      (t.useS o.a.toNat || t.useS o.b.toNat || t.useS o.d.toNat) t) s)

/-- R77: SEQ. -/
def execSeq (o : AB) (s : State) : Out :=
  scalarCmp2 o 0 s

/-- R77: SNE. -/
def execSne (o : AB) (s : State) : Out :=
  scalarCmp2 o 1 s

/-- R77: SLT.I. -/
def execSltI (o : AB) (s : State) : Out :=
  scalarCmp2 o 2 s

/-- R77: SLE.I. -/
def execSleI (o : AB) (s : State) : Out :=
  scalarCmp2 o 3 s

/-- R77: SLT.N. -/
def execSltN (o : AB) (s : State) : Out :=
  scalarCmp2 o 4 s

/-- R77: SLE.N. -/
def execSleN (o : AB) (s : State) : Out :=
  scalarCmp2 o 5 s

/-- R77: STST. -/
def execStst (o : AB) (s : State) : Out :=
  scalarCmp2 o 6 s

/-- R77: SADDI. -/
def execSaddi (o : SDAI) (s : State) : Out :=
  si o (fun x y => x + y) s

/-- R77: SANDI. -/
def execSandi (o : SDAI) (s : State) : Out :=
  si o (fun x y => x &&& y) s

/-- R77: SORI. -/
def execSori (o : SDAI) (s : State) : Out :=
  si o (fun x y => x ||| y) s

/-- R77: SXORI. -/
def execSxori (o : SDAI) (s : State) : Out :=
  si o (fun x y => x ^^^ y) s

/-- R77: SSHLI. -/
def execSshli (o : SDAI) (s : State) : Out :=
  si o (shl) s

/-- R77: SSHRI.N. -/
def execSshriN (o : SDAI) (s : State) : Out :=
  si o (shrN) s

/-- R77: SSHRI.I. -/
def execSshriI (o : SDAI) (s : State) : Out :=
  si o (shrI) s

/-- R77: SLI. -/
def execSli (o : SDI) (s : State) : Out :=
  .next (unit .scal o.st.toNat (lenL o.limm) [] (putScalar latScalar o.d.toNat (immWord o.i o.limm) false) s)

/-- R78: SCMPI. -/
def execScmpi (o : SCAI) (s : State) : Out :=
  scalarCmp o.st.toNat (lenL o.limm) [.s o.a.toNat] (fun t => t.useS o.a.toNat)
    (fun t => condition o.c.toNat (t.g.rdS t.clock o.a.toNat) (immWord o.i o.limm)) s

/-! ### Special registers (R74 to R76) -/

/-- R68: %sqctl with its read-only fields. -/
def CoreRegs.sqctlWord (k : CoreRegs) : Word :=
  (k.sqctl &&& 0x1FFF) ||| (if k.lim < 8 then 0x8000 else 0) ||| (if k.lim = 8 then 0 else if k.lim = 4 then 0x2000 else 0x4000)

/-- R14, R74: the member index in the cloud. -/
def State.memberOf (s : State) : Nat := ((s.wg? s.g.wg).map (·.member)).getD s.g.member

/-- R2, R74: the core clocks the issuing group's core has counted since its own reset; no two cores' counts are comparable. -/
def State.cyc (s : State) : Nat := s.clock + Config.coreStart s.g.core

/-- R74: a special register of the issuing group as the last write left it. -/
def State.spr (s : State) (n : Nat) : Nat :=
  match n with
  | 0 => s.g.gsr.toNat
  | 1 => s.g.fmt.toNat
  | 2 => s.g.sig.toNat
  | 3 => s.g.sw.toNat
  | 4 => s.g.mshape.toNat
  | 5 => s.g.mcloud.toNat
  | 6 => s.g.wgidX.toNat
  | 7 => s.g.wgidY.toNat
  | 8 => s.g.wgidZ.toNat
  | 9 => s.g.gidx
  | 10 => s.g.core
  | 11 => s.memberOf
  | 12 => s.g.ckint.toNat
  | 13 => s.cyc % 2 ^ 32
  | 14 => s.g.cych.toNat
  | 15 => s.g.rpc.toNat
  | 16 => s.g.seed.toNat
  | 17 => (s.core s.g.core).fragstall.toNat
  | _ => (s.core s.g.core).sqctlWord.toNat

/-- R70: a special register as a consumer issuing now reads it; SCC within %gsr has producers of its own. -/
def State.readSpr (s : State) (n : Nat) : Nat :=
  let w := match s.g.stale s.clock (.spr n) with
    | some (.word x _) => x.toNat
    | _ => s.spr n
  if n = 0 then (setBit (BitVec.ofNat 32 w) 0 (s.g.rdScc s.clock)).toNat else w

/-- R69: the registers an SGETR reads. -/
def sprRefs (n : Nat) : List Ref := if n = 0 then [.spr 0, .scc] else [.spr n]


/-- R76: SGETR; a read of %cyc latches %cych. -/
def execSgetr (o : GR) (s : State) : Out :=
  .next (unit .scal o.st.toNat 4 (sprRefs o.r.toNat) (fun t =>
    let x := t.readSpr o.r.toNat
    let t := if o.r = 13 then t.mg fun g => { g with cych := BitVec.ofNat 32 (t.cyc / 2 ^ 32) } else t
    if o.r = 15 then
      (do putScalar latScalar o.d.toNat (BitVec.ofNat 32 x) false
          putScalar latScalar (o.d.toNat + 1) (BitVec.ofNat 32 (x / 2 ^ 32)) false) t
    else putScalar latScalar o.d.toNat (BitVec.ofNat 32 x) false t) s)

/-- R75, R150, R322, R323, R382, R64, R68: what a write leaves in a special register: RO bits ignore it, a W1C bit is cleared
where it holds a 1 (DEDUCED, log entry 25). -/
def State.writeSpr (s : State) (n : Nat) (x : Word) : State :=
  match n with
  | 0 => s.mg fun g => { g with gsr := gsrWrite g.gsr x }
  | 1 => s.mg fun g => { g with fmt := fmtWrite x }
  | 2 => s.mg fun g => { g with sig := x }
  | 3 => s.mg fun g => { g with sw := x }
  | 4 => s.mg fun g => { g with mshape := mshapeWrite x }
  | 5 => s.mg fun g => { g with mcloud := mcloudWrite x }
  | 12 => s.mg fun g => { g with ckint := g.ckint &&& ~~~x }
  | 17 => s.setCore { s.core s.g.core with fragstall := x }
  | 18 =>
    let k := s.core s.g.core
    -- R67: with the enable bit clear the limit stays at 8
    s.setCore { k with sqctl := x &&& 0x1FFF, lim := if x.getLsbD 12 then k.lim else 8 }
  | _ => s

/-- R69: a write of a special register is a producer for its readers. -/
def Group.produceSpr (g : Group) (n ready : Nat) (old : Word) : Group :=
  let m : Mask := BitVec.allOnes 96
  let g := { g with inflight := g.inflight.map (Inflight.under (.spr n) ready m) ++ [⟨.spr n, ready, m, .word old false⟩] }
  if n = 0 then g.produce .scc ready else g


/-- R76, R53, R381: SSETR: privileged for %fragstall and %sqctl; a poisoned word is consumed. -/
def execSsetr (o : SR) (s : State) : Out :=
  s.needsPriv (o.r = 17 || o.r = 18) o.st.toNat (unit .scal o.st.toNat 4 [.s o.a.toNat] (fun t =>
    if t.useS o.a.toNat then .error (.consumed 0) (t.mg (·.ck 0))
    else
      let x := t.g.rdS t.clock o.a.toNat
      let u := t.mg fun g => g.produceSpr o.r.toNat (t.clock + latScalar) (BitVec.ofNat 32 (t.spr o.r.toNat))
      .ok () (u.writeSpr o.r.toNat x)) s)

/-! ### Crossings (R80) -/


/-- R80: SRDLANE. A poisoned lane number is consumed. -/
def execSrdlane (o : DAB) (s : State) : Out :=
  .next (unit .scal o.st.toNat 4 [.v o.a.toNat, .s o.b.toNat] (fun t =>
    if t.useS o.b.toNat then .error (.consumed 0) (t.mg (·.ck 0))
    else
      let l := (t.g.rdS t.clock o.b.toNat).toNat
      putScalar latCross o.d.toNat (t.g.readLane t.clock o.a.toNat l) (t.g.readPz t.clock o.a.toNat l) t) s)

/-- R59, R80: a write of the lanes m that is partial whatever lanes are present. -/
def Group.partialV (g : Group) (ready r : Nat) (m : Mask) (x : VOp) (pz : Mask) : Option Group :=
  let old := (g.v.getD r VReg.zero).val.op
  (g.produceIn (.v r) ready m).writeV r m (.general (lanes.map fun l => if m.getLsbD l then x.lane l else old.lane l)) pz


/-- R80: SWRLANE: a partial write of one lane. A poisoned lane number is consumed. -/
def execSwrlane (o : DAB) (s : State) : Out :=
  .next (unit .scal o.st.toNat 4 [.s o.a.toNat, .s o.b.toNat] (fun t =>
    if t.useS o.b.toNat then .error (.consumed 0) (t.mg (·.ck 0))
    else
      let l := (t.g.rdS t.clock o.b.toNat).toNat
      let t := if t.useS o.a.toNat then t.mg (·.ck 0) else t
      if l < 96 && t.g.live.getLsbD l then
        match t.g.partialV (t.clock + latCross) o.d.toNat (BitVec.twoPow 96 l) (.uniform (t.g.rdS t.clock o.a.toNat))
            (if t.useS o.a.toNat then BitVec.twoPow 96 l else 0) with
        | some h => .ok () { t with g := h }
        | none => .error (.trap 8 o.d.toNat 127 0) t
      else .ok () t) s)

/-- R80: SFIRST. -/
def execSfirst (o : DA) (s : State) : Out :=
  .next (unit .scal o.st.toNat 4 (maskRefs ++ [.v o.a.toNat]) (fun t =>
    let m := t.g.rdMask t.clock
    if m = 0 then
      (do putScalar latCross o.d.toNat 0 false
          putScc latCross false) t
    else
      let f := lowestLane m
      (do putScalar latCross o.d.toNat ((t.g.rdV t.clock o.a.toNat).lane f) ((t.g.rdV t.clock o.a.toNat).poison.getLsbD f)
          putScc latCross true) t) s)


end Sys2Proof.Machine
end

