-- ==== Sys2Proof/Machine/TermRun.lean ====
section
/-! DEFINITION. The term unit: a lane's term state (R341 to R344), dereferencing and binding (R345, R346), unification (R349,
R351), choice points and unwinding (R352, R353), commit (R356). A job runs as a whole when it ends; one that meets a
non-resident page waits and then runs again (DESIGN CHOICE, log entry 17). -/

namespace Sys2Proof.Machine

/-- R341: the header of a lane. -/
structure TermHeader where
  trBase : Nat
  trTop : Nat
  trLim : Nat
  cpBase : Nat
  cpTop : Nat
  cpLim : Nat
  cutb : Nat
  ovCnt : Nat
  fDepth : Nat
  err : Nat
  hBase : Nat
  hTop : Nat
  hLim : Nat
  fHeap : Nat
  psBase : Nat
  psLim : Nat
  deriving DecidableEq, Repr

/-- Why a job stops before its end. -/
inductive TermStop where
  /-- R342: an error code -/
  | code (n : Nat)
  /-- the operation fails: p7 := 0 -/
  | clash
  /-- R340: a page that is not resident, by its first address, and the cell -/
  | page (base cell : Nat)
  /-- R202: a walk that waits -/
  | busy
  deriving DecidableEq, Repr

/-- A job on its lane: the device, the group its accesses are made for, the lane, its header, whether a page is refused to it, the cell
whose page software has refused, at which it ends (R340), the pending pairs on the unit, newest first, and the blocks spilled (R349). -/
structure TermRun where
  s : State
  g : Group
  lane : Nat
  h : TermHeader
  refused : Nat → Bool
  ends : Option Nat
  pairs : List (Nat × Nat)
  blocks : Nat

/-- A step of a job. -/
abbrev TermM := EStateM TermStop TermRun

/-! ### The lane's slot (R341) -/

/-- R164: the key of a slot offset. -/
def TermRun.slotKey (r : TermRun) (off : Nat) : Nat := r.s.stackKey r.g r.lane off
/-- R342, R382: a poisoned word is read: MEM is set, and the job stops. -/
def TermRun.poisoned (r : TermRun) : TermRun := { r with s := r.s.updGroup r.g.id (·.ck 1) }
/-- Reads n bytes of the slot. -/
def slotRead (off n : Nat) : TermM Nat := fun r =>
  let r := { r with s := r.s.findErrors r.g.ctx (r.slotKey off) n false }
  if r.s.memPoisoned (r.slotKey off) n then .error (.code 6) r.poisoned else .ok (r.s.memRead (r.slotKey off) n) r
/-- Writes n bytes of the slot. -/
def TermRun.slotPut (r : TermRun) (off n x : Nat) (pz : Bool) : TermRun :=
  { r with s := (r.s.writeLoc r.g.core r.g.id r.g.ctx ⟨r.slotKey off, tyStack, r.g.core, false⟩ n x pz 0 0).2 }
/-- Writes n bytes of the slot. -/
def slotWrite (off n x : Nat) : TermM Unit := modify fun (r : TermRun) => r.slotPut off n x false

/-- R341: the header as the slot holds it. -/
def TermRun.header (r : TermRun) : TermHeader :=
  let w (o n : Nat) : Nat := r.s.memRead (r.slotKey o) n
  { trBase := w 0x480 4, trTop := w 0x484 4, trLim := w 0x488 4, cpBase := w 0x48C 4, cpTop := w 0x490 4, cpLim := w 0x494 4,
    cutb := w 0x498 4, ovCnt := w 0x49C 2, fDepth := w 0x49E 1, err := w 0x49F 1, hBase := w 0x4A0 8, hTop := w 0x4A8 8,
    hLim := w 0x4B0 8, fHeap := w 0x4B8 8, psBase := w 0x4C0 4, psLim := w 0x4C4 4 }

/-- R342: the header keeps R341. -/
def TermRun.headerOk (r : TermRun) : Bool :=
  let h := r.h
  let stride := r.s.stride r.g
  ([h.trBase, h.trTop, h.trLim, h.cpBase, h.cpTop, h.cpLim, h.cutb, h.psBase, h.psLim].all fun o =>
      o % 8 == 0 && decide (0x1500 ≤ o ∧ o ≤ stride))
    -- an area at the stride lies outside the slot, an empty one too
    && ([h.trBase, h.cpBase, h.psBase].all fun o => decide (o < stride))
    && ([h.hBase, h.fHeap, h.hLim].all fun a => a % 8 == 0)
    && decide (h.trBase ≤ h.trTop ∧ h.trTop ≤ h.trLim ∧ h.cpBase ≤ h.cpTop ∧ h.cpTop ≤ h.cpLim ∧ h.cpBase ≤ h.cutb
        ∧ h.hBase ≤ h.fHeap ∧ h.fHeap ≤ h.hLim ∧ h.psBase ≤ h.psLim ∧ h.ovCnt ≤ 256)
    && r.s.memRead (r.slotKey 0x4C8) 0x38 == 0

/-- R341: the header is read at the start of a job. -/
def readHeader : TermM Unit := fun r =>
  let r := { r with s := r.s.findErrors r.g.ctx (r.slotKey 0x480) 0x80 false }
  let r := { r with h := r.header }
  if r.s.memPoisoned (r.slotKey 0x480) 0x80 then .error (.code 6) r.poisoned
  else if r.headerOk then .ok () r else .error (.code 8) r

/-- R341: the header's fields are written. -/
def TermRun.putHeader (r : TermRun) : TermRun :=
  let h := r.h
  [(0x480, 4, h.trBase), (0x484, 4, h.trTop), (0x488, 4, h.trLim), (0x48C, 4, h.cpBase), (0x490, 4, h.cpTop), (0x494, 4, h.cpLim),
   (0x498, 4, h.cutb), (0x49C, 2, h.ovCnt), (0x49E, 1, h.fDepth), (0x49F, 1, h.err), (0x4A0, 8, h.hBase), (0x4A8, 8, h.hTop),
   (0x4B0, 8, h.hLim), (0x4B8, 8, h.fHeap), (0x4C0, 4, h.psBase), (0x4C4, 4, h.psLim)].foldl
    (fun (q : TermRun) (f : Nat × Nat × Nat) => q.slotPut f.1 f.2.1 f.2.2 false) r

/-- R342: an error's code goes into ERR when it holds 0. -/
def TermRun.fault (r : TermRun) (n : Nat) : TermRun := { r with h := { r.h with err := if r.h.err = 0 then n else r.h.err } }

/-- A change of the header. -/
def setHeader (f : TermHeader → TermHeader) : TermM Unit := modify fun (r : TermRun) => { r with h := f r.h }

/-! ### Cells (R336, R337, R340) -/

/-- R337: the page of a cell is not resident, and its leaf names a memory type a cell cannot have: R337 comes before R340. -/
def TermRun.cellType (r : TermRun) (a : Nat) : Bool :=
  match r.s.walk a r.g.root walkLevels with
  | some (_, e, _) => decide (2 < pteType e)
  | none => false

/-- R337, R340: the checked place of a cell. -/
def cellLoc (a : Nat) (p : Perm) : TermM Loc := fun r =>
  if a = 0 ∨ 0x0200000000000000 ≤ a ∨ r.ends = some a then .error (.code 5) r
  else
    match r.s.checkGlobal r.g.core r.g.ctx r.g.root r.g.priv a p with
    | (.ok l, t) => if l.ty ≤ 2 then .ok l { r with s := t } else .error (.code 5) { r with s := t }
    | (.trap _, t) => .error (.code 5) { r with s := t }
    | (.nonres base, t) => if r.refused base || r.cellType a then .error (.code 5) { r with s := t } else .error (.page base a) { r with s := t }
    | (.busy, t) => .error .busy { r with s := t }
    | (.poison, t) => .error (.code 6) ({ r with s := t } : TermRun).poisoned
/-- Reads a cell. -/
def cellRead (a : Nat) : TermM Nat := do
  let l ← cellLoc a .rd
  let r ← get
  let x := r.s.readLoc r.g.core r.g.id l 8 0 0
  set { r with s := x.2 }
  if x.1.pz then do
    modify TermRun.poisoned
    throw (.code 6)
  return x.1.val
/-- Writes a cell. -/
def cellWrite (a v : Nat) : TermM Unit := do
  let l ← cellLoc a .w
  modify fun (r : TermRun) => { r with s := (r.s.writeLoc r.g.core r.g.id r.g.ctx l 8 v false 0 0).2 }

/-- R335: the tag of a term. -/
def termTag (t : Nat) : Nat := t % 8
/-- R335: the address of a pointer term. -/
def termAddr (t : Nat) : Nat := t / 8 * 8

/-! ### The overlay (R344) -/

/-- R344: the offset of entry i. -/
def overlayAt (i : Nat) : Nat := 0x500 + 16 * (i % 256)
/-- R344: the entry that holds an address, by probing from slot i on. -/
def overlayFind (a : Nat) : Nat → Nat → TermM (Option Nat)
  | 0, _ => pure none
  | n + 1, i => do
    let x ← slotRead (overlayAt i) 8
    if x = 0 then return none
    if x = a then return some (i % 256)
    overlayFind a n (i + 1)
/-- R344: what the overlay holds for an address: its entry and its value. -/
def overlayGet (a : Nat) : TermM (Option (Nat × Nat)) := do
  match ← overlayFind a 256 (a / 8 % 256) with
  | none => return none
  | some i =>
    let v ← slotRead (overlayAt i + 8) 8
    return some (i, v)
/-- R344: the first empty or deleted slot from slot i on. -/
def overlayFree : Nat → Nat → TermM Nat
  | 0, i => pure (i % 256)
  | n + 1, i => do
    let x ← slotRead (overlayAt i) 8
    if x ≤ 1 then return i % 256
    overlayFree n (i + 1)
/-- R344: inserts an entry. -/
def overlayInsert (a v : Nat) : TermM Unit := do
  let r ← get
  if 256 ≤ r.h.ovCnt then throw (.code 3)
  let i ← overlayFree 256 (a / 8 % 256)
  slotWrite (overlayAt i) 8 a
  slotWrite (overlayAt i + 8) 8 v
  setHeader fun h => { h with ovCnt := h.ovCnt + 1 }
/-- R344: every slot empty. -/
def overlayClear : TermM Unit := do
  (List.range 256).forM fun i => do
    slotWrite (overlayAt i) 8 0
    slotWrite (overlayAt i + 8) 8 0
  setHeader fun h => { h with ovCnt := 0 }
/-- R344: deletes entry i. -/
def overlayDelete (i : Nat) : TermM Unit := do
  slotWrite (overlayAt i) 8 1
  setHeader fun h => { h with ovCnt := h.ovCnt - 1 }
  let r ← get
  if r.h.ovCnt = 0 then overlayClear

/-! ### Dereferencing and binding (R343, R345, R346) -/

/-- R345: the cell is private to the lane. -/
def TermHeader.isPrivate (h : TermHeader) (a : Nat) : Bool := h.fDepth == 0 || decide (h.fHeap ≤ a ∧ a < h.hLim)

/-- R345: Deref, with the links still allowed. -/
def deref : Nat → Nat → TermM Nat
  | 0, _ => throw (.code 7)
  | n + 1, t =>
    if termTag t ≤ 1 then do
      let a := termAddr t
      let w ← cellRead a
      if w = a + 1 then do
        let r ← get
        if r.h.isPrivate a then return w
        match ← overlayGet a with
        | none => return w
        | some (_, v) => deref n v
      else deref n w
    else pure t
/-- R345, R342: Deref of at most 65,536 links. -/
def derefTerm (t : Nat) : TermM Nat := deref 65537 t

/-- R343: pushes a trail entry. -/
def pushTrail (e : Nat) : TermM Unit := do
  let r ← get
  if r.h.trLim < r.h.trTop + 8 then throw (.code 1)
  slotWrite r.h.trTop 8 e
  setHeader fun h => { h with trTop := h.trTop + 8 }

/-- R346: Bind: the trail entry first. -/
def bindTerm (v t : Nat) : TermM Unit := do
  let a := termAddr v
  let val := if termTag t = 1 then termAddr t else t
  let r ← get
  if r.h.isPrivate a then do
    pushTrail a
    cellWrite a val
  else do
    pushTrail (a + 1)
    overlayInsert a val

/-- R346: the first variable is the younger. -/
def TermHeader.younger (h : TermHeader) (x y : Nat) : Bool :=
  let px := h.isPrivate (termAddr x)
  let py := h.isPrivate (termAddr y)
  if h.fDepth ≠ 0 ∧ px ≠ py then px else decide (termAddr y < termAddr x)

/-! ### Pending pairs (R349) -/

/-- R349: pushes a pair; a 65th on the unit spills a block of 64, oldest first. -/
def pushPair (x y : Nat) : TermM Unit := do
  let r ← get
  if r.pairs.length < 64 then set { r with pairs := (x, y) :: r.pairs }
  else do
    let a := r.h.psBase + 1024 * r.blocks
    if r.h.psLim < a + 1024 then throw (.code 4)
    r.pairs.reverse.zipIdx.forM fun p => do
      slotWrite (a + 16 * p.2) 8 p.1.1
      slotWrite (a + 16 * p.2 + 8) 8 p.1.2
    modify fun (q : TermRun) => { q with pairs := [(x, y)], blocks := q.blocks + 1 }
/-- R349: pops a pair, refilling the block spilled last. -/
def popPair : TermM (Option (Nat × Nat)) := do
  let r ← get
  match r.pairs with
  | p :: ps =>
    set { r with pairs := ps }
    return some p
  | [] =>
    if r.blocks = 0 then return none
    let a := r.h.psBase + 1024 * (r.blocks - 1)
    let ps ← (List.range 64).mapM fun i => do
      let x ← slotRead (a + 16 * i) 8
      let y ← slotRead (a + 16 * i + 8) 8
      return (x, y)
    match ps.reverse with
    | p :: q =>
      modify fun (t : TermRun) => { t with pairs := q, blocks := t.blocks - 1 }
      return some p
    | [] => return none
/-- How many pairs are pending. -/
def TermRun.pending (r : TermRun) : Nat := r.pairs.length + 64 * r.blocks

/-! ### Unification (R349, R351) -/

/-- How two terms are made equal. -/
inductive Unify where
  | plain | occurs | matching
  deriving DecidableEq, Repr

/-- R349: the arity of a structure's header; anything else is malformed. -/
def funArity (f : Nat) : TermM Nat := if termTag f = 5 then pure (bits f 3 8) else throw (.code 7)

/-- R349: the occurs check: the entries above base are the walk's; the steps still allowed. -/
def occursIn (v base : Nat) : Nat → TermM (Bool × Nat)
  | 0 => throw (.code 7)
  | n + 1 => do
    let r ← get
    if r.pending ≤ base then return (false, n + 1)
    match ← popPair with
    | none => return (false, n + 1)
    | some (t, _) =>
      let x ← derefTerm t
      if n = 0 then throw (.code 7)
      if x = v then do
        -- every entry of the walk is popped
        return (true, n)
      let a := termAddr x
      if termTag x = 4 then do
        let k ← funArity (← cellRead a)
        (List.range k).reverse.forM fun i => pushPair (a + 8 * (i + 1)) 0
      else if termTag x = 6 then do
        pushPair (a + 8) 0
        pushPair a 0
      occursIn v base n

/-- R336, R349: two boxes are the same, word by word from the header. -/
def sameBox (x y : Nat) : TermM Bool := do
  let f ← cellRead x
  let g ← cellRead y
  if f % 8 ≠ 0 ∨ bits f 3 8 = 0 ∨ g % 8 ≠ 0 ∨ bits g 3 8 = 0 then throw (.code 7)
  if f ≠ g then return false
  (List.range (bits f 3 8)).allM fun i => do
    let p ← cellRead (x + 8 * (i + 1))
    let q ← cellRead (y + 8 * (i + 1))
    return p == q

/-- R349: what two dereferenced terms that are no variables give: the pairs of their parts, or a clash. -/
def unifyParts (x y : Nat) : TermM Unit := do
  if termTag x ≠ termTag y then throw .clash
  let a := termAddr x
  let b := termAddr y
  if termTag x = 4 then do
    let f ← cellRead a
    let g ← cellRead b
    let k ← funArity f
    let _ ← funArity g
    if f ≠ g then throw .clash
    (List.range k).reverse.forM fun i => pushPair (a + 8 * (i + 1)) (b + 8 * (i + 1))
  else if termTag x = 6 then do
    pushPair (a + 8) (b + 8)
    pushPair a b
  else if termTag x = 7 then do
    if !(← sameBox a b) then throw .clash
  else throw .clash

/-- R349, R351: two variables meet. -/
def unifyVars (m : Unify) (x y : Nat) : TermM Unit := do
  let r ← get
  if m = .matching || r.h.younger x y then bindTerm x y else bindTerm y x

/-- R349, R351: a variable meets a term; the steps still allowed. -/
def unifyVar (m : Unify) (x y n : Nat) : TermM Nat := do
  if termTag x ≠ 1 ∧ m = .matching then throw .clash
  let v := if termTag x = 1 then x else y
  let t := if termTag x = 1 then y else x
  if m = .occurs then do
    let r ← get
    let base := r.pending
    pushPair t 0
    let o ← occursIn v base n
    if o.1 then throw .clash
    bindTerm v t
    return o.2
  else do
    bindTerm v t
    return n

/-- R349: the loop over the pending pairs, with the steps still allowed. -/
def unifyLoop (m : Unify) : Nat → TermM Unit
  | 0 => throw (.code 7)
  | n + 1 => do
    match ← popPair with
    | none => pure ()
    | some p =>
      let x ← derefTerm p.1
      let y ← derefTerm p.2
      if n = 0 then throw (.code 7)
      if x = y then unifyLoop m n
      else if termTag x = 1 ∧ termTag y = 1 then do
        unifyVars m x y
        unifyLoop m n
      else if termTag x = 1 ∨ termTag y = 1 then do
        let k ← unifyVar m x y n
        unifyLoop m (min k n)
      else do
        unifyParts x y
        unifyLoop m n

/-- R349: unifies two terms. -/
def unifyTerms (m : Unify) (x y : Nat) : TermM Unit := do
  pushPair x y
  unifyLoop m (2 ^ 24 + 1)

/-! ### Choice points (R352, R353) -/

/-- R352: the bytes of a choice point with a mask. -/
def choiceSize (mask : Nat) : Nat := 32 + 8 * ((List.range 8).filter fun i => bit mask i).length

/-- R352: pushes a choice point. -/
def pushChoice (alt mask : Nat) (saved : List (Nat × Bool)) : TermM Unit := do
  let r ← get
  let h := r.h
  let size := choiceSize mask
  if h.cpLim < h.cpTop + size then throw (.code 2)
  let c := h.cpTop
  slotWrite c 8 alt
  slotWrite (c + 8) 4 h.trTop
  slotWrite (c + 12) 4 h.cpTop
  slotWrite (c + 16) 8 h.hTop
  slotWrite (c + 24) 2 h.ovCnt
  slotWrite (c + 26) 1 h.fDepth
  slotWrite (c + 27) 1 mask
  slotWrite (c + 28) 4 0
  modify fun (q : TermRun) => (saved.zipIdx).foldl (fun (t : TermRun) p => t.slotPut (c + 32 + 8 * p.2) 8 p.1.1 p.1.2) q
  setHeader fun k => { k with cpTop := c + size }

/-- R353: the top choice point: the one that ends at CPTOP, found from CPBASE on; none when there is none (DEDUCED, log entry 49). -/
def topChoice : Nat → Nat → TermM (Option Nat)
  | 0, _ => throw (.code 8)
  | n + 1, c => do
    let r ← get
    if c = r.h.cpTop then return none
    if r.h.cpTop < c then throw (.code 8)
    let m ← slotRead (c + 27) 1
    if c + choiceSize m = r.h.cpTop then return some c
    topChoice n (c + choiceSize m)
/-- R353: the top choice point of the lane (DEDUCED, log entry 49). -/
def findChoice : TermM (Option Nat) := do
  let r ← get
  topChoice ((r.h.cpTop - r.h.cpBase) / 32 + 2) r.h.cpBase

/-- R353: one trail entry is undone; one that cannot be read or written is passed over with its code. -/
def undoEntry : TermM Unit := do
  setHeader fun h => { h with trTop := h.trTop - 8 }
  let r ← get
  let undo : TermM Unit := do
    let e ← slotRead r.h.trTop 8
    if bit e 0 then do
      -- the value, poisoned or not, is not read
      match ← overlayFind (termAddr e) 256 (termAddr e / 8 % 256) with
      | some i => overlayDelete i
      | none => pure ()
    else cellWrite (termAddr e) (termAddr e + 1)
  fun q => match undo q with
    | .ok _ t => .ok () t
    | .error (.code n) t => .ok () (t.fault n)
    | .error e t => .error e t
/-- R353: unwinds the trail to a mark, newest entry first, by fuel. -/
def unwindTo (mark : Nat) : Nat → TermM Unit
  | 0 => pure ()
  | n + 1 => do
    let r ← get
    if r.h.trTop ≤ mark then pure ()
    else do
      undoEntry
      unwindTo mark n

/-! ### Commit (R356) -/

/-- R356: publishes the bindings of the trail from an offset on, by fuel: the address of a conflict. -/
def commitFrom : Nat → Nat → TermM (Option Nat)
  | 0, _ => pure none
  | n + 1, off => do
    let r ← get
    if r.h.trTop ≤ off then return none
    let e ← slotRead off 8
    let a := termAddr e
    if bit e 0 then do
      match ← overlayGet a with
      | none => commitFrom n (off + 8)
      | some (_, v) =>
        let l ← cellLoc a .w
        let q ← get
        let x := q.s.readLoc q.g.core q.g.id l 8 0 0
        set { q with s := x.2 }
        if x.1.pz then do
          modify TermRun.poisoned
          throw (.code 6)
        if x.1.val = a + 1 then do
          modify fun (t : TermRun) => { t with s := (t.s.writeLoc t.g.core t.g.id t.g.ctx l 8 v false 0 0).2 }
          commitFrom n (off + 8)
        else return some a
    else commitFrom n (off + 8)

/-! ### The jobs (R347 to R356) -/

/-- What a job writes: its p7 bit, if it writes one, and its pair. -/
structure TermResult where
  p7 : Option Bool
  pair : List Nat
  deriving DecidableEq, Repr

/-- R347 to R356: a job of a kind on its operand terms. -/
def termJob (k : TermKind) (x y : Nat) (saved : List (Nat × Bool)) : TermM TermResult := do
  readHeader
  match k with
  | .deref => do
    let t ← derefTerm x
    return ⟨some (termTag t == 1), [t % 2 ^ 32, t / 2 ^ 32]⟩
  | .unify oc => do
    unifyTerms (if oc then .occurs else .plain) x y
    return ⟨some true, []⟩
  | .match_ => do
    unifyTerms .matching x y
    return ⟨some true, []⟩
  | .bind => do
    let u ← derefTerm x
    let v ← derefTerm y
    if termTag u ≠ 1 then throw .clash
    if u ≠ v then bindTerm u v
    return ⟨some true, []⟩
  | .choice alt mask => do
    pushChoice alt mask saved
    return ⟨some true, []⟩
  | .trailTop => do
    let r ← get
    return ⟨none, [r.h.trTop, r.h.cpTop]⟩
  | .commit => do
    let r ← get
    match ← commitFrom ((r.h.trTop - r.h.trBase) / 8 + 1) r.h.trBase with
    | some a => return ⟨some false, [a % 2 ^ 32, a / 2 ^ 32]⟩
    | none =>
      overlayClear
      return ⟨some true, [0, 0]⟩

/-- R338: the group a unit's accesses are made for. -/
def TermUnit.as (u : TermUnit) : Group :=
  { Group.blank with id := u.grp, core := u.core, quarter := u.quarter, ctx := u.ctx, root := u.root, gsr := if u.priv then 4 else 0,
                     grid := u.grid, num := u.num }

/-- A lane about to run. -/
def State.termRun (s : State) (g : Group) (lane : Nat) (refused : Nat → Bool) (ends : Option Nat) : TermRun :=
  let r : TermRun := ⟨s, g, lane, ⟨0, 0, 0, 0, 0, 0, 0, 0, 0, 0, 0, 0, 0, 0, 0, 0⟩, refused, ends, [], 0⟩
  { r with h := r.header }

/-- R342: the header is written at a job's end; one that breaks R341 only gets its code. -/
def TermRun.finish (r : TermRun) (err : Option Nat) : State :=
  match err with
  | none => r.putHeader.s
  | some n =>
    let q := r.fault n
    if n = 8 || (n = 6 && r.s.memPoisoned (r.slotKey 0x480) 0x80) then (q.slotPut 0x49F 1 q.h.err false).s else q.putHeader.s

end Sys2Proof.Machine
end

