-- ==== Sys2Proof/Machine/Terms.lean ====
section
/-! DEFINITION. The term instructions: the queued units (R338 to R340, R347 to R352, R354, R356), the events of their jobs, and
the synchronous units (R353 to R355, R357). -/

namespace Sys2Proof.Machine

/-! ### Issue of a queued unit (R338 to R340) -/

/-- R340: the slot holds the header and the overlay. -/
def strideCheck : M Unit := do
  let s ← get
  require (0x1500 ≤ s.stride s.g) 3

/-- R335: a lane's term in a pair, as a unit issuing now reads it. -/
def Group.term (g : Group) (now r l : Nat) : Nat := ((g.rdV now r).lane l).toNat + ((g.rdV now (r + 1)).lane l).toNat * 2 ^ 32
/-- The lanes in which a word of a pair is marked. -/
def Group.termMark (g : Group) (now r : Nat) : Mask := (g.rdV now r).poison ||| (g.rdV now (r + 1)).poison
/-- The registers of pairs. -/
def pairRefs (ps : List Nat) : List Ref := ps.flatMap fun r => [Ref.v r, Ref.v (r + 1)]

/-- A job that has not started. -/
def newJob (lane x y : Nat) (saved : List (Nat × Bool)) : TermJob :=
  { lane := lane, x := x, y := y, saved := saved, running := false, ended := false, page := none, cell := 0, refused := false }

/-- R338: the register writes a unit owes: its p7 bits in the lanes m, its pair in the lanes of its jobs. -/
def termWrites (m jm : Mask) (d : Option Nat) : List RegWrite :=
  RegWrite.pred 7 m 0 0 :: (match d with
    | some r => if jm = 0 then [] else
      [.vec r jm (List.replicate 96 0) 0 false 0, .vec (r + 1) jm (List.replicate 96 0) 0 false 0]
    | none => [])

/-- R338: issues a queued unit: its kind by the group's state, the pairs it reads, the pairs whose poison is consumed, its
destination, and the job of a lane. -/
def queued (kind : State → TermKind) (st : Nat) (reads consumed : List Nat) (d : Option Nat) (job : Group → Nat → Nat → TermJob) (s : State) : Out :=
  .next (vunit .memv st 4 (pairRefs reads) (do
    awaitCtr .tm
    settleOwn
    let t ← get
    let now := t.clock
    let m := t.g.rdMask now
    let jm := m &&& ~~~t.g.helpers
    consumeReg (consumed.any fun r => t.g.termMark now r &&& jm != 0)
    strideCheck
    if jm != 0 then claimSlots (match d with | some r => [r, r + 1] | none => [])
    let jobs := (lanesOf jm).map fun l => job t.g now l
    if jobs.any fun j => j.saved.any (·.2) then modify fun (u : State) => u.mg (·.ck 0)
    let tag ← freshTag
    let k := kind t
    post { donePend .tm .term (termWrites (if k = .trailTop then m &&& t.g.helpers else m) jm d) with
           tag := tag
           done := jobs.isEmpty }
    if !jobs.isEmpty then
      modify fun (u : State) =>
        { u with termQ := u.termQ ++ [{ grp := u.g.id, tag := tag, core := u.g.core, quarter := u.g.quarter, since := u.clock, ctx := u.g.ctx,
                                        root := u.g.root, priv := u.g.priv, grid := u.g.grid, num := u.g.num, kind := k,
                                        d := d.getD 0, jobs := jobs }] }) s)

/-- R347: TDEREF. -/
def execTderef (o : DA) (s : State) : Out :=
  queued (fun _ => .deref) o.st.toNat [o.a.toNat] [o.a.toNat] (some o.d.toNat)
    (fun g now l => newJob l (g.term now o.a.toNat l) 0 []) s

/-- R348: TTAG. -/
def execTtag (o : DA) (s : State) : Out :=
  .next (vunit .vec o.st.toNat 4 (pairRefs [o.a.toNat]) (fun t =>
    let lo := t.g.opd t.clock o.a.toNat 0
    let hi := t.g.opd t.clock (o.a.toNat + 1) 0
    wideBody o.d.toNat [lo, { hi with pz := 0 }] 0 (fun ws =>
      let x := (ws.headD 0).toNat
      x % 8 + (if x % 8 = 5 then bits x 3 8 else 0) * 2 ^ 32) t) s)

/-- R349 to R351: a unit on two terms. -/
def queued2 (k : TermKind) (o : AB) (s : State) : Out :=
  queued (fun _ => k) o.st.toNat [o.a.toNat, o.b.toNat] [o.a.toNat, o.b.toNat] none
    (fun g now l => newJob l (g.term now o.a.toNat l) (g.term now o.b.toNat l) []) s
/-- R349: TUNIFY.N. -/
def execTunifyN (o : AB) (s : State) : Out := queued2 (.unify false) o s
/-- R349: TUNIFY.OC. -/
def execTunifyOc (o : AB) (s : State) : Out := queued2 (.unify true) o s
/-- R350: TBIND. -/
def execTbind (o : AB) (s : State) : Out := queued2 .bind o s
/-- R351: TMATCH. -/
def execTmatch (o : AB) (s : State) : Out := queued2 .match_ o s

/-- R352: the pairs a mask names. -/
def maskPairs (m : Nat) : List Nat := ((List.range 8).filter fun i => bit m i).map fun i => 2 * i
/-- R352: TCHOICE. -/
def execTchoice (o : TC) (s : State) : Out :=
  queued (fun t => .choice (relTarget t.g.pc o.o).toNat o.m.toNat) o.st.toNat (maskPairs o.m.toNat) [] none
    (fun g now l => newJob l 0 0 ((maskPairs o.m.toNat).map fun r => (g.term now r l, (g.termMark now r).getLsbD l))) s
/-- R354: TTRAILTOP. -/
def execTtrailtop (o : D1) (s : State) : Out :=
  queued (fun _ => .trailTop) o.st.toNat [] [] (some o.d.toNat) (fun _ _ l => newJob l 0 0 []) s
/-- R356: TCOMMIT. -/
def execTcommit (o : D1) (s : State) : Out :=
  queued (fun _ => .commit) o.st.toNat [] [] (some o.d.toNat) (fun _ _ l => newJob l 0 0 []) s

/-! ### The events of jobs (R338) -/

/-- The units of a quarter, in order of issue. -/
def State.termUnits (s : State) (core quarter : Nat) : List TermUnit :=
  s.termQ.filter fun u => u.core == core && u.quarter == quarter
/-- The jobs of a quarter, in order. -/
def State.termJobs (s : State) (core quarter : Nat) : List (TermUnit × TermJob) :=
  (s.termUnits core quarter).flatMap fun u => u.jobs.map fun j => (u, j)
/-- A change of a job. -/
def State.setJob (s : State) (tag lane : Nat) (f : TermJob → TermJob) : State :=
  { s with termQ := s.termQ.map fun (u : TermUnit) =>
      if u.tag = tag then { u with jobs := u.jobs.map fun j => if j.lane = lane then f j else j } else u }

/-- R338, R339, R356: a job can start: the lane's jobs of the group's earlier units have ended, and a commit's release waits
for every earlier unit of the group. -/
def State.canStart (s : State) (u : TermUnit) (j : TermJob) : Bool :=
  (s.termQ.takeWhile fun v => v.tag != u.tag).all fun v =>
    v.grp != u.grp || (u.kind != .commit && v.jobs.all fun k => k.lane != j.lane || k.ended)

/-- R338: the jobs of a quarter that run. -/
def State.runningJobs (s : State) (core quarter : Nat) : List (TermUnit × TermJob) :=
  (s.termJobs core quarter).filter fun x => x.2.running && !x.2.ended

/-- R338: the next job of a quarter starts, in order, when fewer than four run. -/
def State.startJob (s : State) (core quarter : Nat) : State :=
  -- a unit waits for its self-test (R395)
  if 4 ≤ (s.runningJobs core quarter).length || (s.bank (bankIdx 8 core)).test = 1 then s
  else
    match (s.termJobs core quarter).find? fun x => !x.2.running && !x.2.ended with
    | some (u, j) => if s.canStart u j then s.setJob u.tag j.lane fun k => { k with running := true } else s
    | none => s
/-- R338: TERM_JOB_START. -/
def execTermJobStart (core quarter : Nat) (s : State) : Out := .next (s.startJob core quarter)

/-- R342, R347: what a job writes to its unit's results. -/
def RegWrite.termLane (d lane : Nat) (p7 : Option Bool) (pair : List Nat) : RegWrite → RegWrite
  | .pred r m b race =>
    match p7 with
    | some x => .pred r (m ||| BitVec.twoPow 96 lane) (if x then b ||| BitVec.twoPow 96 lane else b &&& ~~~(BitVec.twoPow 96 lane)) race
    | none => .pred r m b race
  | .vec r m xs pz u race =>
    match pair with
    | [lo, hi] => .vec r m (xs.set lane (BitVec.ofNat 32 (if r = d then lo else hi))) pz u race
    | _ => .vec r (m &&& ~~~(BitVec.twoPow 96 lane)) xs pz u race
  | w => w

/-- R338: a job has ended; the unit's counter falls once every job has. -/
def State.jobEnded (s : State) (u : TermUnit) (lane : Nat) (p7 : Option Bool) (pair : List Nat) : State :=
  let t := (s.setJob u.tag lane fun k => { k with ended := true, running := false }).updGroup u.grp fun g =>
    { g with pend := g.pend.map fun (p : Pending) =>
        if p.tag = u.tag ∧ p.kind = .term then { p with writes := p.writes.map (RegWrite.termLane u.d lane p7 pair) } else p }
  if t.termQ.any fun v => v.tag == u.tag && v.jobs.all (·.ended) then
    let t := { t with termQ := t.termQ.filter fun v => v.tag != u.tag }
    (t.markDone u.grp u.tag .term).retireAll u.grp .tm 8
  else t

/-- A vector result is marked in a lane. -/
def RegWrite.spoil (lane : Nat) : RegWrite → RegWrite
  | .vec r m xs pz x race => .vec r m xs (pz ||| BitVec.twoPow 96 lane) x race
  | w => w
/-- R389, R394: a parity error of a term unit's buffer spoils what the job gives: its pair, or its header's first word. -/
def State.spoilTerm (s : State) (u : TermUnit) (lane : Nat) : State :=
  match s.takeParity (bankIdx 8 u.core) u.ctx with
  | none => s
  | some t =>
    let pair := match u.kind with | .deref => true | .trailTop => true | .commit => true | _ => false
    let t := t.updGroup u.grp fun (g : Group) => { g.ck 1 with
      pend := g.pend.map fun (p : Pending) => if p.tag = u.tag ∧ p.kind = PendKind.term then
        { p with writes := p.writes.map (RegWrite.spoil lane) } else p }
    if pair then t else t.markMem (t.stackKey u.as lane 0x480) 8

/-- R340: a job runs to its end, or to a page that it waits for; none can be asked for while the queue is disabled. One that a page has been
refused to ends with error 5. -/
def State.runJob (s : State) (u : TermUnit) (j : TermJob) : State :=
  match termJob u.kind j.x j.y j.saved (s.termRun u.as j.lane (fun _ => s.mgmt.pqSize == 0) (if j.refused then some j.cell else none)) with
  | .ok r q =>
    if j.refused then (q.finish (some 5)).jobEnded u j.lane (some false) []
    else ((q.finish none).spoilTerm u j.lane).jobEnded u j.lane r.p7 r.pair
  | .error (.code n) q => (q.finish (some n)).jobEnded u j.lane (some false) []
  | .error .clash q => (q.finish (if j.refused then some 5 else none)).jobEnded u j.lane (some false) []
  | .error (.page base a) q =>
    if j.refused then (q.finish (some 5)).jobEnded u j.lane (some false) []
    else
      let (seq, t) := s.requestPage u.ctx base 0 (clusterOf u.core)
      t.setJob u.tag j.lane fun k => { k with page := seq, cell := a }
  | .error .busy _ => s

/-- R338: TERM_JOB_END: the n-th running job of a quarter comes to its end, or to a page it waits for. -/
def execTermJobEnd (core quarter n : Nat) (s : State) : Out :=
  .next (match ((s.runningJobs core quarter).filter fun x => x.2.page.isNone)[n]? with
    | some (u, j) => s.runJob u j
    | none => s)

/-- R66, R338: TUNIFY_SWAP: a group that waits on TMCNT is swapped out. -/
def execTunifySwap (grp : Nat) (s : State) : Out :=
  .next (match s.group? grp with
    | none => s
    | some g =>
      let waits := match g.wait with
        | .counts _ _ _ _ tm => decide (tm < g.count .tm)
        | .limits _ _ _ _ tm _ => decide (tm < g.count .tm)
        | _ => false
      if g.active && waits && !s.swapped g.core g.quarter then
        match s.pendingReady g.core g.quarter with
        | [] => s
        | p :: _ => s.swapActive g.core g.quarter grp p.id
      else s)

/-! ### Synchronous units (R338, R353 to R355, R357) -/

/-- How a synchronous unit ends in a lane: done, in an error whose code the header holds, or at a page that is not resident. -/
inductive LaneEnd (α : Type) where
  | ok (a : α) (s : State)
  | code (s : State)
  | page (base : Nat)
  /-- R202: a walk that waits -/
  | busy

/-- R341, R342: acts on a lane of the issuing group. -/
def State.onLane {α : Type} (s : State) (lane : Nat) (f : TermM α) : LaneEnd α :=
  match (do
    readHeader
    f) (s.termRun s.g lane (fun b => s.mgmt.pqSize == 0 || s.g.termRefused.contains b) none) with
  | .ok a q => .ok a (q.finish none)
  | .error (.code n) q => .code (q.finish (some n))
  | .error .clash q => .code (q.finish none)
  | .error (.page b _) _ => .page b
  | .error .busy _ => .busy

/-- p7 written at once. -/
def Group.p7Now (g : Group) (m bits : Mask) : Group := (g.settleRef (.p 7)).writeP 7 m bits

/-- A unit that acts on each active lane by itself: p7 is 1 where it succeeded. -/
def laneUnit (st : Nat) (f : TermM Unit) (s : State) : Out :=
  .next (vunit .memv st 4 [] (do
    strideCheck
    releaseHold
    settleOwn
    modify fun (t : State) =>
      let m := t.g.rdMask t.clock
      let r := (lanesOf (m &&& ~~~t.g.helpers)).foldl (fun (a : State × Mask) l =>
        match a.1.onLane l f with
        | .ok _ u => (u, a.2 ||| BitVec.twoPow 96 l)
        | .code u => (u, a.2)
        | _ => a) (t, 0)
      r.1.mg fun g => g.p7Now m r.2) s)

/-- R354: TCUT. -/
def execTcut (o : Z0) (s : State) : Out :=
  laneUnit o.st.toNat (setHeader fun h => { h with cpTop := if h.cutb < h.cpTop then h.cutb else h.cpTop }) s
/-- R354: TPOPCP. -/
def execTpopcp (o : Z0) (s : State) : Out :=
  laneUnit o.st.toNat (do
    match ← findChoice with
    | none => pure ()
    | some c =>
      let x ← slotRead (c + 12) 4
      setHeader fun h => { h with cpTop := x }) s
/-- R357: TJOIN. -/
def execTjoin (o : Z0) (s : State) : Out :=
  laneUnit o.st.toNat (do
    overlayClear
    setHeader fun h => { h with trTop := h.trBase, cpTop := h.cpBase, cutb := h.cpBase, fDepth := 0 }) s

/-! ### TFAIL (R353) -/

/-- R352: a choice point as TFAIL reads it. -/
structure Choice where
  alt : Nat
  trTop : Nat
  hTop : Nat
  fDepth : Nat
  mask : Nat
  saved : List (Nat × Bool)
  deriving DecidableEq, Repr

/-- R353: the top choice point of a lane. -/
def readChoice : TermM (Option Choice) := do
  match ← findChoice with
  | none => return none
  | some c =>
    let alt ← slotRead c 8
    let tr ← slotRead (c + 8) 4
    let ht ← slotRead (c + 16) 8
    let fd ← slotRead (c + 26) 1
    let m ← slotRead (c + 27) 1
    let r ← get
    let saved := (List.range (maskPairs m).length).map fun i =>
      (r.s.memRead (r.slotKey (c + 32 + 8 * i)) 8, r.s.memPoisoned (r.slotKey (c + 32 + 8 * i)) 8)
    return some ⟨alt, tr, ht, fd, m, saved⟩

/-- R353: unwinds a lane to its choice point. -/
def unwindLane (c : Choice) : TermM Unit := do
  let r ← get
  unwindTo c.trTop ((r.h.trTop - c.trTop + 7) / 8)
  setHeader fun h => { h with hTop := c.hTop, fDepth := c.fDepth }

/-- R352: register r as the choice point saved it. -/
def Choice.word (c : Choice) (r : Nat) : Option (Word × Bool) :=
  if bit c.mask (r / 2) then
    let i := ((List.range (r / 2)).filter fun k => bit c.mask k).length
    let x := c.saved.getD i (0, false)
    some (BitVec.ofNat 32 (x.1 / 2 ^ (32 * (r % 2))), x.2)
  else none

/-- The registers some lane restores, ascending. -/
def restoreRegs (go : List (Nat × Choice)) : List Nat := (List.range 16).filter fun r => go.any fun x => (x.2.word r).isSome

/-- A vector register written at once in some lanes, which makes it general; its slot has been found free before. -/
def Group.putLanes (g : Group) (r : Nat) (ws : List (Nat × Word × Bool)) : Group :=
  let at_ (l : Nat) : Option (Word × Bool) := (ws.find? fun w => w.1 == l).map (·.2)
  ((g.settleRef (.v r)).writeV r (maskOf fun l => (at_ l).isSome) (.general (lanes.map fun l => ((at_ l).map (·.1)).getD 0))
    (maskOf fun l => ((at_ l).map (·.2)).getD false)).getD g

/-- R353: the saved pairs come back; a poisoned one keeps its mark (R381). -/
def Group.restorePairs (g : Group) (go : List (Nat × Choice)) : Group :=
  let h := (restoreRegs go).foldl (fun (k : Group) r => k.putLanes r (go.filterMap fun x => (x.2.word r).map fun w => (x.1, w))) g
  if go.any fun x => x.2.saved.any (·.2) then h.ck 1 else h

/-- The choice points of the lanes given. -/
def State.choices (s : State) (ls : List Nat) : List (Nat × Choice) × State :=
  ls.foldl (fun (a : List (Nat × Choice) × State) l =>
    match a.2.onLane l readChoice with
    | .ok (some c) t => (a.1 ++ [(l, c)], t)
    | .ok none t => (a.1, t)
    | .code t => (a.1, t)
    | _ => a) ([], s)

/-- R353: unwinds the lanes; the error is a page to be asked for, or none where a walk waits. -/
def State.unwindAll (s : State) : List (Nat × Choice) → Except (Option Nat) State
  | [] => .ok s
  | (l, c) :: r =>
    match s.onLane l (unwindLane c) with
    | .ok _ t => t.unwindAll r
    | .code t => t.unwindAll r
    | .page base => .error (some base)
    | .busy => .error none

/-- R353: the lanes go keep their place, the other active lanes of m leave the mask, which is ready at once (DEDUCED, log entry 24). -/
def Group.failTo (g : Group) (clock : Nat) (m go : Mask) : Group :=
  { (g.p7Now m go).setMask clock 0 go with termRefused := [] }

/-- R340, R353: TFAIL once TMCNT is 0. A page it needs is asked for, and the unit then runs again from its start. -/
def tfailBody (st : Nat) : M Unit := fun s =>
  let m := s.g.rdMask s.clock
  let f := s.choices (lanesOf (m &&& ~~~s.g.helpers))
  match f.1 with
  | [] => .ok () ((f.2.mg fun g => g.failTo s.clock m 0).advance 4 st)
  | (_, lead) :: _ =>
    let go := f.1.filter fun x => x.2.alt == lead.alt
    match s.g.takeSlots (restoreRegs go) with
    | .error r => .error (.trap 8 r 127 0) s
    | .ok _ =>
      match f.2.unwindAll go with
      | .ok t =>
        .ok () ((t.mg fun g => (g.restorePairs go).failTo s.clock m (maskOf fun l => go.any fun x => x.1 == l)).jump
          (BitVec.ofNat 64 lead.alt) st)
      | .error none => .error (.hold (s.clock + 1)) s
      | .error (some base) =>
        match s.requestPage s.g.ctx base 0 (clusterOf s.g.core) with
        | (some seq, t) => .error (.await (.term seq)) t
        | (none, t) => .ok () t

/-- R353: TFAIL. -/
def execTfail (o : Z0) (s : State) : Out :=
  .next (if s.g.rdMask s.clock = 0 then unit .memv o.st.toNat 4 maskRefs (pure ()) s
    else issue .memv o.st.toNat maskRefs (do
      strideCheck
      releaseHold
      settleOwn
      tfailBody o.st.toNat) s)

/-! ### TFORK (R355) -/

/-- R355: the candidates, ascending. -/
def State.forkCandidates (s : State) (p : Nat) : List Nat :=
  (lanesOf (s.g.live &&& ~~~s.g.helpers &&& ~~~(s.g.rdMask s.clock) &&& s.g.rdP s.clock p)).filter fun l =>
    (List.range s.g.reconDepth).all fun i => (s.reconAt i).m.getLsbD l

/-- R355: a lane can fork. -/
def forkable : TermM Bool := do
  let r ← get
  return r.h.ovCnt == 0 && r.h.fDepth != 255

/-- R355: what an active lane does: it is not forked, or it forks with the children named. -/
structure Fork where
  lane : Nat
  forks : Bool
  kids : List Nat
  deriving DecidableEq, Repr

/-- R355: the active lanes take their children in turn. -/
def State.forks (s : State) (n : Nat → Nat) (ls cands : List Nat) : List Fork × State :=
  let r := ls.foldl (fun (a : List Fork × List Nat × State) l =>
    match a.2.2.onLane l forkable with
    | .ok true t =>
      if n l = 0 then (a.1 ++ [⟨l, false, []⟩], a.2.1, t)
      else (a.1 ++ [⟨l, true, a.2.1.take (n l - 1)⟩], a.2.1.drop (n l - 1), t)
    | .ok false t => (a.1 ++ [⟨l, false, []⟩], a.2.1, t)
    | .code t => (a.1 ++ [⟨l, false, []⟩], a.2.1, t)
    | _ => a) ([], cands, s)
  (r.1, r.2.2)

/-- R355: the header of a child whose parent has the fork depth given. -/
def TermRun.childHeader (r : TermRun) (depth : Nat) : TermRun :=
  let h := r.h
  let mark (o n : Nat) : Bool := r.s.memPoisoned (r.slotKey o) n
  let q := r.slotPut 0x484 4 h.trBase (mark 0x480 4)
  let q := (q.slotPut 0x490 4 h.cpBase (mark 0x48C 4)).slotPut 0x498 4 h.cpBase (mark 0x48C 4)
  let q := q.slotPut 0x49C 4 (depth * 65536) false
  let q := (q.slotPut 0x4A8 8 h.hBase (mark 0x4A0 8)).slotPut 0x4B8 8 h.hBase (mark 0x4A0 8)
  (List.range 512).foldl (fun (t : TermRun) i => t.slotPut (0x500 + 8 * i) 8 0 false) q

/-- R355: a parent's header; its fork depth as it was. -/
def forkParent : TermM Nat := do
  let r ← get
  setHeader fun h => { h with fDepth := h.fDepth + 1, fHeap := h.hTop }
  return r.h.fDepth

/-- R355: the headers a fork leaves. -/
def State.forkHeaders (s : State) (f : Fork) : State :=
  if !f.forks then s
  else
    match s.onLane f.lane forkParent with
    | .ok d t => f.kids.foldl (fun (u : State) c => ((u.termRun u.g c (fun _ => true) none).childHeader (d + 1)).s) t
    | _ => s

/-- R355: the registers of a fork: v0 to v15 of the children, and d. -/
def Group.forkRegs (g : Group) (now d : Nat) (fs : List Fork) (helpers : List Nat) : Group :=
  let kids := fs.flatMap fun f => f.kids.map fun c => (c, f.lane)
  let h := if kids.isEmpty then g else
    (List.range 16).foldl (fun (k : Group) r =>
      k.putLanes r (kids.map fun c => (c.1, (g.rdV now r).lane c.2, (g.rdV now r).poison.getLsbD c.2))) g
  let word (n : Nat) : Word × Bool := (BitVec.ofNat 32 n, false)
  h.putLanes d (helpers.map (fun l => (l, word 0))
    ++ fs.map (fun f => (f.lane, word (if f.forks then f.kids.length + 1 else 0)))
    ++ fs.flatMap fun f => (f.kids.zipIdx).map fun c => (c.1, word (c.2 + 1)))

/-- R355: TFORK once TMCNT is 0; the mask is ready at once (DEDUCED, log entry 24). -/
def tforkBody (d p b : Nat) : M Unit := fun s =>
  let now := s.clock
  let m := s.g.rdMask now
  let ls := lanesOf (m &&& ~~~s.g.helpers)
  let r := s.forks (fun l => ((s.g.rdV now b).lane l).toNat) ls (s.forkCandidates p)
  let kids := r.1.flatMap (·.kids)
  match s.g.takeSlots ((if kids.isEmpty then [] else List.range 16) ++ [d]) with
  | .error k => .error (.trap 8 k 127 0) s
  | .ok _ =>
    let t := r.1.foldl State.forkHeaders r.2
    let km := maskOf fun l => kids.contains l
    .ok () (t.mg fun g =>
      ((g.forkRegs now d r.1 (lanesOf (m &&& s.g.helpers))).p7Now (m ||| km) km).setMask now 0 (m ||| km))

/-- R355: TFORK. -/
def execTfork (o : TF) (s : State) : Out :=
  .next (vunit .memv o.st.toNat 4 [.v o.b.toNat, .p o.a.toNat] (do
    let s ← get
    consumeReg ((s.g.rdV s.clock o.b.toNat).poison &&& s.g.rdMask s.clock &&& ~~~s.g.helpers != 0)
    strideCheck
    releaseHold
    settleOwn
    tforkBody o.d.toNat o.a.toNat o.b.toNat) s)

end Sys2Proof.Machine
end

