-- ==== Sys2Proof/Machine/Dispatch.lean ====
section
/-! DEFINITION. One arm per constructor of Instr: a direct call of its meaning. -/

namespace Sys2Proof.Machine

def exec (i : Instr) (s : State) : Host.Outcome State Fault Refusal :=
  match i with
  | .vmov16 o => Sys2Proof.Machine.execVmov16 o s
  | .vaddI3216 o => Sys2Proof.Machine.execVaddI3216 o s
  | .vsubI3216 o => Sys2Proof.Machine.execVsubI3216 o s
  | .vand16 o => Sys2Proof.Machine.execVand16 o s
  | .vor16 o => Sys2Proof.Machine.execVor16 o s
  | .vxor16 o => Sys2Proof.Machine.execVxor16 o s
  | .vshl16 o => Sys2Proof.Machine.execVshl16 o s
  | .vshrN16 o => Sys2Proof.Machine.execVshrN16 o s
  | .vshrI16 o => Sys2Proof.Machine.execVshrI16 o s
  | .vmulLo16 o => Sys2Proof.Machine.execVmulLo16 o s
  | .vaddF3216 o => Sys2Proof.Machine.execVaddF3216 o s
  | .vsubF3216 o => Sys2Proof.Machine.execVsubF3216 o s
  | .vmulF3216 o => Sys2Proof.Machine.execVmulF3216 o s
  | .vmaxF3216 o => Sys2Proof.Machine.execVmaxF3216 o s
  | .vminF3216 o => Sys2Proof.Machine.execVminF3216 o s
  | .vmovs16 o => Sys2Proof.Machine.execVmovs16 o s
  | .sadd o => Sys2Proof.Machine.execSadd o s
  | .ssub o => Sys2Proof.Machine.execSsub o s
  | .smul o => Sys2Proof.Machine.execSmul o s
  | .smulhI o => Sys2Proof.Machine.execSmulhI o s
  | .smulhN o => Sys2Proof.Machine.execSmulhN o s
  | .saddc o => Sys2Proof.Machine.execSaddc o s
  | .ssubb o => Sys2Proof.Machine.execSsubb o s
  | .sneg o => Sys2Proof.Machine.execSneg o s
  | .sand o => Sys2Proof.Machine.execSand o s
  | .sor o => Sys2Proof.Machine.execSor o s
  | .sxor o => Sys2Proof.Machine.execSxor o s
  | .sandn o => Sys2Proof.Machine.execSandn o s
  | .sshl o => Sys2Proof.Machine.execSshl o s
  | .sshrN o => Sys2Proof.Machine.execSshrN o s
  | .sshrI o => Sys2Proof.Machine.execSshrI o s
  | .srotl o => Sys2Proof.Machine.execSrotl o s
  | .sminI o => Sys2Proof.Machine.execSminI o s
  | .smaxI o => Sys2Proof.Machine.execSmaxI o s
  | .sminN o => Sys2Proof.Machine.execSminN o s
  | .smaxN o => Sys2Proof.Machine.execSmaxN o s
  | .ssel o => Sys2Proof.Machine.execSsel o s
  | .spopc o => Sys2Proof.Machine.execSpopc o s
  | .sclz o => Sys2Proof.Machine.execSclz o s
  | .sbrev o => Sys2Proof.Machine.execSbrev o s
  | .seq o => Sys2Proof.Machine.execSeq o s
  | .sne o => Sys2Proof.Machine.execSne o s
  | .sltI o => Sys2Proof.Machine.execSltI o s
  | .sleI o => Sys2Proof.Machine.execSleI o s
  | .sltN o => Sys2Proof.Machine.execSltN o s
  | .sleN o => Sys2Proof.Machine.execSleN o s
  | .stst o => Sys2Proof.Machine.execStst o s
  | .saddi o => Sys2Proof.Machine.execSaddi o s
  | .sandi o => Sys2Proof.Machine.execSandi o s
  | .sori o => Sys2Proof.Machine.execSori o s
  | .sxori o => Sys2Proof.Machine.execSxori o s
  | .sshli o => Sys2Proof.Machine.execSshli o s
  | .sshriN o => Sys2Proof.Machine.execSshriN o s
  | .sshriI o => Sys2Proof.Machine.execSshriI o s
  | .sli o => Sys2Proof.Machine.execSli o s
  | .scmpi o => Sys2Proof.Machine.execScmpi o s
  | .sbfeN o => Sys2Proof.Machine.execSbfeN o s
  | .sbfeI o => Sys2Proof.Machine.execSbfeI o s
  | .sbfi o => Sys2Proof.Machine.execSbfi o s
  | .sgetr o => Sys2Proof.Machine.execSgetr o s
  | .ssetr o => Sys2Proof.Machine.execSsetr o s
  | .srdlane o => Sys2Proof.Machine.execSrdlane o s
  | .swrlane o => Sys2Proof.Machine.execSwrlane o s
  | .sfirst o => Sys2Proof.Machine.execSfirst o s
  | .bra o => Sys2Proof.Machine.execBra o s
  | .bscc o => Sys2Proof.Machine.execBscc o s
  | .bnscc o => Sys2Proof.Machine.execBnscc o s
  | .bz o => Sys2Proof.Machine.execBz o s
  | .bnz o => Sys2Proof.Machine.execBnz o s
  | .call o => Sys2Proof.Machine.execCall o s
  | .nop o => Sys2Proof.Machine.execNop o s
  | .ret o => Sys2Proof.Machine.execRet o s
  | .exit o => Sys2Proof.Machine.execExit o s
  | .yield o => Sys2Proof.Machine.execYield o s
  | .sleep o => Sys2Proof.Machine.execSleep o s
  | .elect o => Sys2Proof.Machine.execElect o s
  | .electw o => Sys2Proof.Machine.execElectw o s
  | .jtab o => Sys2Proof.Machine.execJtab o s
  | .lpad o => Sys2Proof.Machine.execLpad o s
  | .sigchk o => Sys2Proof.Machine.execSigchk o s
  | .vif o => Sys2Proof.Machine.execVif o s
  | .velse o => Sys2Proof.Machine.execVelse o s
  | .vend o => Sys2Proof.Machine.execVend o s
  | .vloop o => Sys2Proof.Machine.execVloop o s
  | .vbrk o => Sys2Proof.Machine.execVbrk o s
  | .vcont o => Sys2Proof.Machine.execVcont o s
  | .vendl o => Sys2Proof.Machine.execVendl o s
  | .wait o => Sys2Proof.Machine.execWait o s
  | .vaddI32 o => Sys2Proof.Machine.execVaddI32 o s
  | .vsubI32 o => Sys2Proof.Machine.execVsubI32 o s
  | .vmulLo o => Sys2Proof.Machine.execVmulLo o s
  | .vmulhI o => Sys2Proof.Machine.execVmulhI o s
  | .vmulhN o => Sys2Proof.Machine.execVmulhN o s
  | .vaddsI o => Sys2Proof.Machine.execVaddsI o s
  | .vsubsI o => Sys2Proof.Machine.execVsubsI o s
  | .vabsdI o => Sys2Proof.Machine.execVabsdI o s
  | .vand o => Sys2Proof.Machine.execVand o s
  | .vor o => Sys2Proof.Machine.execVor o s
  | .vxor o => Sys2Proof.Machine.execVxor o s
  | .vandn o => Sys2Proof.Machine.execVandn o s
  | .vshl o => Sys2Proof.Machine.execVshl o s
  | .vshrN o => Sys2Proof.Machine.execVshrN o s
  | .vshrI o => Sys2Proof.Machine.execVshrI o s
  | .vrotl o => Sys2Proof.Machine.execVrotl o s
  | .vminI o => Sys2Proof.Machine.execVminI o s
  | .vmaxI o => Sys2Proof.Machine.execVmaxI o s
  | .vminN o => Sys2Proof.Machine.execVminN o s
  | .vmaxN o => Sys2Proof.Machine.execVmaxN o s
  | .vpopc o => Sys2Proof.Machine.execVpopc o s
  | .vclz o => Sys2Proof.Machine.execVclz o s
  | .vbrev o => Sys2Proof.Machine.execVbrev o s
  | .vmov o => Sys2Proof.Machine.execVmov o s
  | .vcmp o => Sys2Proof.Machine.execVcmp o s
  | .vsel o => Sys2Proof.Machine.execVsel o s
  | .vbfeN o => Sys2Proof.Machine.execVbfeN o s
  | .vbfeI o => Sys2Proof.Machine.execVbfeI o s
  | .vbfi o => Sys2Proof.Machine.execVbfi o s
  | .vpermb o => Sys2Proof.Machine.execVpermb o s
  | .vaddi o => Sys2Proof.Machine.execVaddi o s
  | .vandi o => Sys2Proof.Machine.execVandi o s
  | .vori o => Sys2Proof.Machine.execVori o s
  | .vxori o => Sys2Proof.Machine.execVxori o s
  | .vshli o => Sys2Proof.Machine.execVshli o s
  | .vshriN o => Sys2Proof.Machine.execVshriN o s
  | .vshriI o => Sys2Proof.Machine.execVshriI o s
  | .vli o => Sys2Proof.Machine.execVli o s
  | .vcmpi o => Sys2Proof.Machine.execVcmpi o s
  | .vaddS o => Sys2Proof.Machine.execVaddS o s
  | .vmulS o => Sys2Proof.Machine.execVmulS o s
  | .vandS o => Sys2Proof.Machine.execVandS o s
  | .vshlS o => Sys2Proof.Machine.execVshlS o s
  | .vshrSN o => Sys2Proof.Machine.execVshrSN o s
  | .vmovs o => Sys2Proof.Machine.execVmovs o s
  | .vmadS o => Sys2Proof.Machine.execVmadS o s
  | .vlaneid o => Sys2Proof.Machine.execVlaneid o s
  | .vaddI64 o => Sys2Proof.Machine.execVaddI64 o s
  | .vsubI64 o => Sys2Proof.Machine.execVsubI64 o s
  | .vshlI64 o => Sys2Proof.Machine.execVshlI64 o s
  | .vshrN64 o => Sys2Proof.Machine.execVshrN64 o s
  | .vshrI64 o => Sys2Proof.Machine.execVshrI64 o s
  | .vmulwI o => Sys2Proof.Machine.execVmulwI o s
  | .vmulwN o => Sys2Proof.Machine.execVmulwN o s
  | .vaddF32 o => Sys2Proof.Machine.execVaddF32 o s
  | .vsubF32 o => Sys2Proof.Machine.execVsubF32 o s
  | .vmulF32 o => Sys2Proof.Machine.execVmulF32 o s
  | .vfmaF32 o => Sys2Proof.Machine.execVfmaF32 o s
  | .vfmsF32 o => Sys2Proof.Machine.execVfmsF32 o s
  | .vfnmaF32 o => Sys2Proof.Machine.execVfnmaF32 o s
  | .vminF32 o => Sys2Proof.Machine.execVminF32 o s
  | .vmaxF32 o => Sys2Proof.Machine.execVmaxF32 o s
  | .vabsF32 o => Sys2Proof.Machine.execVabsF32 o s
  | .vnegF32 o => Sys2Proof.Machine.execVnegF32 o s
  | .vcopysign o => Sys2Proof.Machine.execVcopysign o s
  | .vclass o => Sys2Proof.Machine.execVclass o s
  | .vrint o => Sys2Proof.Machine.execVrint o s
  | .vfract o => Sys2Proof.Machine.execVfract o s
  | .vscalb o => Sys2Proof.Machine.execVscalb o s
  | .vgetexp o => Sys2Proof.Machine.execVgetexp o s
  | .vcmpf o => Sys2Proof.Machine.execVcmpf o s
  | .vaddBf2 o => Sys2Proof.Machine.execVaddBf2 o s
  | .vsubBf2 o => Sys2Proof.Machine.execVsubBf2 o s
  | .vmulBf2 o => Sys2Proof.Machine.execVmulBf2 o s
  | .vfmaBf2 o => Sys2Proof.Machine.execVfmaBf2 o s
  | .vminBf2 o => Sys2Proof.Machine.execVminBf2 o s
  | .vmaxBf2 o => Sys2Proof.Machine.execVmaxBf2 o s
  | .vdot2Bf o => Sys2Proof.Machine.execVdot2Bf o s
  | .vaddF32S o => Sys2Proof.Machine.execVaddF32S o s
  | .vmulF32S o => Sys2Proof.Machine.execVmulF32S o s
  | .vfmaF32S o => Sys2Proof.Machine.execVfmaF32S o s
  | .vminF32S o => Sys2Proof.Machine.execVminF32S o s
  | .vmaxF32S o => Sys2Proof.Machine.execVmaxF32S o s
  | .vrcpA o => Sys2Proof.Machine.execVrcpA o s
  | .vrsqA o => Sys2Proof.Machine.execVrsqA o s
  | .vex2A o => Sys2Proof.Machine.execVex2A o s
  | .vlg2A o => Sys2Proof.Machine.execVlg2A o s
  | .vsinA o => Sys2Proof.Machine.execVsinA o s
  | .vcosA o => Sys2Proof.Machine.execVcosA o s
  | .vtanhA o => Sys2Proof.Machine.execVtanhA o s
  | .vsqrt o => Sys2Proof.Machine.execVsqrt o s
  | .vdivF32 o => Sys2Proof.Machine.execVdivF32 o s
  | .vrand o => Sys2Proof.Machine.execVrand o s
  | .vseed o => Sys2Proof.Machine.execVseed o s
  | .vunpk o => Sys2Proof.Machine.execVunpk o s
  | .vunpk2 o => Sys2Proof.Machine.execVunpk2 o s
  | .vpack o => Sys2Proof.Machine.execVpack o s
  | .vpack2 o => Sys2Proof.Machine.execVpack2 o s
  | .vmxscale o => Sys2Proof.Machine.execVmxscale o s
  | .vscaleE8 o => Sys2Proof.Machine.execVscaleE8 o s
  | .vscaleE8Inv o => Sys2Proof.Machine.execVscaleE8Inv o s
  | .vcvt o => Sys2Proof.Machine.execVcvt o s
  | .pand o => Sys2Proof.Machine.execPand o s
  | .por o => Sys2Proof.Machine.execPor o s
  | .pxor o => Sys2Proof.Machine.execPxor o s
  | .pandn o => Sys2Proof.Machine.execPandn o s
  | .pnot o => Sys2Proof.Machine.execPnot o s
  | .pmov o => Sys2Proof.Machine.execPmov o s
  | .pset o => Sys2Proof.Machine.execPset o s
  | .pclr o => Sys2Proof.Machine.execPclr o s
  | .ptos o => Sys2Proof.Machine.execPtos o s
  | .pfroms o => Sys2Proof.Machine.execPfroms o s
  | .pcnt o => Sys2Proof.Machine.execPcnt o s
  | .pany o => Sys2Proof.Machine.execPany o s
  | .pall o => Sys2Proof.Machine.execPall o s
  | .pfirst o => Sys2Proof.Machine.execPfirst o s
  | .vld o => Sys2Proof.Machine.execVld o s
  | .vldLine o => Sys2Proof.Machine.execVldLine o s
  | .vst o => Sys2Proof.Machine.execVst o s
  | .vldNr o => Sys2Proof.Machine.execVldNr o s
  | .vldi o => Sys2Proof.Machine.execVldi o s
  | .vsti o => Sys2Proof.Machine.execVsti o s
  | .sld o => Sys2Proof.Machine.execSld o s
  | .sst o => Sys2Proof.Machine.execSst o s
  | .fence o => Sys2Proof.Machine.execFence o s
  | .fenceOpr o => Sys2Proof.Machine.execFenceOpr o s
  | .fenceH o => Sys2Proof.Machine.execFenceH o s
  | .cinv o => Sys2Proof.Machine.execCinv o s
  | .cwb o => Sys2Proof.Machine.execCwb o s
  | .cflush o => Sys2Proof.Machine.execCflush o s
  | .vpref o => Sys2Proof.Machine.execVpref o s
  | .pagereq o => Sys2Proof.Machine.execPagereq o s
  | .llock o => Sys2Proof.Machine.execLlock o s
  | .ltry o => Sys2Proof.Machine.execLtry o s
  | .lunlock o => Sys2Proof.Machine.execLunlock o s
  | .lquery o => Sys2Proof.Machine.execLquery o s
  | .lbreak o => Sys2Proof.Machine.execLbreak o s
  | .hdecl o => Sys2Proof.Machine.execHdecl o s
  | .hend o => Sys2Proof.Machine.execHend o s
  | .hdrain o => Sys2Proof.Machine.execHdrain o s
  | .hquery o => Sys2Proof.Machine.execHquery o s
  | .haddF32 o => Sys2Proof.Machine.execHaddF32 o s
  | .haddI32 o => Sys2Proof.Machine.execHaddI32 o s
  | .hldF32 o => Sys2Proof.Machine.execHldF32 o s
  | .hldI32 o => Sys2Proof.Machine.execHldI32 o s
  | .vatomAddI32 o => Sys2Proof.Machine.execVatomAddI32 o s
  | .vatomAddF32 o => Sys2Proof.Machine.execVatomAddF32 o s
  | .vatomAddBf2 o => Sys2Proof.Machine.execVatomAddBf2 o s
  | .vatomMinI o => Sys2Proof.Machine.execVatomMinI o s
  | .vatomMaxI o => Sys2Proof.Machine.execVatomMaxI o s
  | .vatomAnd o => Sys2Proof.Machine.execVatomAnd o s
  | .vatomOr o => Sys2Proof.Machine.execVatomOr o s
  | .vatomXchg o => Sys2Proof.Machine.execVatomXchg o s
  | .vatom2MinN o => Sys2Proof.Machine.execVatom2MinN o s
  | .vatom2MaxN o => Sys2Proof.Machine.execVatom2MaxN o s
  | .vatom2Xor o => Sys2Proof.Machine.execVatom2Xor o s
  | .vatom2AddI64 o => Sys2Proof.Machine.execVatom2AddI64 o s
  | .vatom2Xchg64 o => Sys2Proof.Machine.execVatom2Xchg64 o s
  | .vatom2MinF32 o => Sys2Proof.Machine.execVatom2MinF32 o s
  | .vatom2MaxF32 o => Sys2Proof.Machine.execVatom2MaxF32 o s
  | .vcas32 o => Sys2Proof.Machine.execVcas32 o s
  | .vcas64 o => Sys2Proof.Machine.execVcas64 o s
  | .vcas128 o => Sys2Proof.Machine.execVcas128 o s
  | .satomAddI32 o => Sys2Proof.Machine.execSatomAddI32 o s
  | .satomXchg o => Sys2Proof.Machine.execSatomXchg o s
  | .satomCas32 o => Sys2Proof.Machine.execSatomCas32 o s
  | .satomCas64 o => Sys2Proof.Machine.execSatomCas64 o s
  | .satomCas128 o => Sys2Proof.Machine.execSatomCas128 o s
  | .satomAddI64 o => Sys2Proof.Machine.execSatomAddI64 o s
  | .satomOr o => Sys2Proof.Machine.execSatomOr o s
  | .satomAnd o => Sys2Proof.Machine.execSatomAnd o s
  | .cpy o => Sys2Proof.Machine.execCpy o s
  | .cpy2 o => Sys2Proof.Machine.execCpy2 o s
  | .cpyg o => Sys2Proof.Machine.execCpyg o s
  | .cpyz o => Sys2Proof.Machine.execCpyz o s
  | .cpyw o => Sys2Proof.Machine.execCpyw o s
  | .decJpeg o => Sys2Proof.Machine.execDecJpeg o s
  | .decG4 o => Sys2Proof.Machine.execDecG4 o s
  | .decPng o => Sys2Proof.Machine.execDecPng o s
  | .decQuery o => Sys2Proof.Machine.execDecQuery o s
  | .swset o => Sys2Proof.Machine.execSwset o s
  | .swarr o => Sys2Proof.Machine.execSwarr o s
  | .swwait o => Sys2Proof.Machine.execSwwait o s
  | .swread o => Sys2Proof.Machine.execSwread o s
  | .mmarJ o => Sys2Proof.Machine.execMmarJ o s
  | .mmarS o => Sys2Proof.Machine.execMmarS o s
  | .mmatT o => Sys2Proof.Machine.execMmatT o s
  | .mmatC o => Sys2Proof.Machine.execMmatC o s
  | .mmatTz o => Sys2Proof.Machine.execMmatTz o s
  | .mmatCz o => Sys2Proof.Machine.execMmatCz o s
  | .mzero o => Sys2Proof.Machine.execMzero o s
  | .mquant o => Sys2Proof.Machine.execMquant o s
  | .mstat o => Sys2Proof.Machine.execMstat o s
  | .tderef o => Sys2Proof.Machine.execTderef o s
  | .ttag o => Sys2Proof.Machine.execTtag o s
  | .tunifyN o => Sys2Proof.Machine.execTunifyN o s
  | .tunifyOc o => Sys2Proof.Machine.execTunifyOc o s
  | .tbind o => Sys2Proof.Machine.execTbind o s
  | .tmatch o => Sys2Proof.Machine.execTmatch o s
  | .tchoice o => Sys2Proof.Machine.execTchoice o s
  | .tfail o => Sys2Proof.Machine.execTfail o s
  | .tcut o => Sys2Proof.Machine.execTcut o s
  | .tpopcp o => Sys2Proof.Machine.execTpopcp o s
  | .ttrailtop o => Sys2Proof.Machine.execTtrailtop o s
  | .tfork o => Sys2Proof.Machine.execTfork o s
  | .tcommit o => Sys2Proof.Machine.execTcommit o s
  | .tjoin o => Sys2Proof.Machine.execTjoin o s
  | .launch o => Sys2Proof.Machine.execLaunch o s
  | .spawn o => Sys2Proof.Machine.execSpawn o s
  | .trigger o => Sys2Proof.Machine.execTrigger o s
  | .bar o => Sys2Proof.Machine.execBar o s
  | .cbar o => Sys2Proof.Machine.execCbar o s
  | .trap o => Sys2Proof.Machine.execTrap o s
  | .eret o => Sys2Proof.Machine.execEret o s
  | .chkerr o => Sys2Proof.Machine.execChkerr o s
  | .irgnGrp o => Sys2Proof.Machine.execIrgnGrp o s
  | .irgnWg o => Sys2Proof.Machine.execIrgnWg o s
  | .irge o => Sys2Proof.Machine.execIrge o s
  | .bkpt o => Sys2Proof.Machine.execBkpt o s
  | .tlbinv o => Sys2Proof.Machine.execTlbinv o s
  | .harvest o => Sys2Proof.Machine.execHarvest o s
  | .pendingReplace core quarter => Sys2Proof.Machine.execPendingReplace core quarter s
  | .sleepExpiry grp => Sys2Proof.Machine.execSleepExpiry grp s
  | .squallWindow core => Sys2Proof.Machine.execSquallWindow core s
  | .loadReturn grp => Sys2Proof.Machine.execLoadReturn grp s
  | .storePerformed grp => Sys2Proof.Machine.execStorePerformed grp s
  | .atomicResult grp => Sys2Proof.Machine.execAtomicResult grp s
  | .farAtomic grp => Sys2Proof.Machine.execFarAtomic grp s
  | .pageWalk core ctx va => Sys2Proof.Machine.execPageWalk core ctx va s
  | .shareRequest n => Sys2Proof.Machine.execShareRequest n s
  | .shareAck n => Sys2Proof.Machine.execShareAck n s
  | .missRequest core line excl => Sys2Proof.Machine.execMissRequest core line excl s
  | .invalidation n => Sys2Proof.Machine.execInvalidation n s
  | .invalidationAck n => Sys2Proof.Machine.execInvalidationAck n s
  | .writeBack core line => Sys2Proof.Machine.execWriteBack core line s
  | .hazeShareRequest n => Sys2Proof.Machine.execHazeShareRequest n s
  | .recall n => Sys2Proof.Machine.execRecall n s
  | .recallAck n => Sys2Proof.Machine.execRecallAck n s
  | .grant n => Sys2Proof.Machine.execGrant n s
  | .hazeReturn core line => Sys2Proof.Machine.execHazeReturn core line s
  | .forcedDrain n => Sys2Proof.Machine.execForcedDrain n s
  | .drain n => Sys2Proof.Machine.execDrain n s
  | .farAdd n => Sys2Proof.Machine.execFarAdd n s
  | .lockRequest n => Sys2Proof.Machine.execLockRequest n s
  | .link n => Sys2Proof.Machine.execLink n s
  | .lockHandover n => Sys2Proof.Machine.execLockHandover n s
  | .releaseRequest n => Sys2Proof.Machine.execReleaseRequest n s
  | .lockTimeout grp => Sys2Proof.Machine.execLockTimeout grp s
  | .commandAccept engine => Sys2Proof.Machine.execCommandAccept engine s
  | .arrival engine => Sys2Proof.Machine.execArrival engine s
  | .matrixComplete core => Sys2Proof.Machine.execMatrixComplete core s
  | .termJobStart core quarter => Sys2Proof.Machine.execTermJobStart core quarter s
  | .termJobEnd core quarter n => Sys2Proof.Machine.execTermJobEnd core quarter n s
  | .packetDecode queue => Sys2Proof.Machine.execPacketDecode queue s
  | .workgroupStart => Sys2Proof.Machine.execWorkgroupStart s
  | .cloudStart => Sys2Proof.Machine.execCloudStart s
  | .gridComplete grid => Sys2Proof.Machine.execGridComplete grid s
  | .childGroupStart cluster entry => Sys2Proof.Machine.execChildGroupStart cluster entry s
  | .idleRelease cluster entry => Sys2Proof.Machine.execIdleRelease cluster entry s
  | .pqcomp v => Sys2Proof.Machine.execPqcomp v s
  | .pqsize v => Sys2Proof.Machine.execPqsize v s
  | .pqhead v => Sys2Proof.Machine.execPqhead v s
  | .dlsize v => Sys2Proof.Machine.execDlsize v s
  | .lqtail q v => Sys2Proof.Machine.execLqtail q v s
  | .lqsize q v => Sys2Proof.Machine.execLqsize q v s
  | .eqsize v => Sys2Proof.Machine.execEqsize v s
  | .eqhead v => Sys2Proof.Machine.execEqhead v s
  | .preempt ctx => Sys2Proof.Machine.execPreempt ctx s
  | .workgroupSave wg => Sys2Proof.Machine.execWorkgroupSave wg s
  | .resume ctx => Sys2Proof.Machine.execResume ctx s
  | .gnum ctx v => Sys2Proof.Machine.execGnum ctx v s
  | .selfTest bank pass => Sys2Proof.Machine.execSelfTest bank pass s
  | .coreRetire core => Sys2Proof.Machine.execCoreRetire core s
  | .logClear bank => Sys2Proof.Machine.execLogClear bank s
  | .arm bank v => Sys2Proof.Machine.execArm bank v s
  | .hostAccess pa n act => Sys2Proof.Machine.execHostAccess pa n act s
  | .hostSnoop line => Sys2Proof.Machine.execHostSnoop line s
  | .backInvalidate line => Sys2Proof.Machine.execBackInvalidate line s
  | .atomicopCompletion grp err => Sys2Proof.Machine.execAtomicopCompletion grp err s
  | .atomicopTimeout grp => Sys2Proof.Machine.execAtomicopTimeout grp s
  | .zeroLengthRead grp => Sys2Proof.Machine.execZeroLengthRead grp s
  | .inboundRequest pa n act => Sys2Proof.Machine.execInboundRequest pa n act s
  | .response ans => Sys2Proof.Machine.execResponse ans s
  | .requestTimeout grp => Sys2Proof.Machine.execRequestTimeout grp s
  | .peerWindow w v => Sys2Proof.Machine.execPeerWindow w v s
  | .linkDown port => Sys2Proof.Machine.execLinkDown port s
  | .linkUp port => Sys2Proof.Machine.execLinkUp port s
  | .reset => Sys2Proof.Machine.execReset s
  | .bootWatchdog => Sys2Proof.Machine.execBootWatchdog s
  | .bootOk => Sys2Proof.Machine.execBootOk s
  | .clr => Sys2Proof.Machine.execClr s
  | .powerLoss => Sys2Proof.Machine.execPowerLoss s
  | .attcmd => Sys2Proof.Machine.execAttcmd s
  | .pwrcap v => Sys2Proof.Machine.execPwrcap v s
  | .clockStep => Sys2Proof.Machine.execClockStep s
  | .thermalTrip die temp => Sys2Proof.Machine.execThermalTrip die temp s
  | .registerWrite off size v => Sys2Proof.Machine.execRegisterWrite off size v s
  | .illegalInstruction step => Sys2Proof.Machine.execIllegalInstruction step s
  | .tunifySwap grp => Sys2Proof.Machine.execTunifySwap grp s
  | .tlbinvCompletion grp => Sys2Proof.Machine.execTlbinvCompletion grp s
  | .harvestCompletion grp => Sys2Proof.Machine.execHarvestCompletion grp s
  | .attestationReport => Sys2Proof.Machine.execAttestationReport s
  | .firmwareStartFailure reason => Sys2Proof.Machine.execFirmwareStartFailure reason s
  | .scrubber bank addr bad => Sys2Proof.Machine.execScrubber bank addr bad s
  | .flitCrcFailure bank grp tries => Sys2Proof.Machine.execFlitCrcFailure bank grp tries s
  | .freeBufferSignal port => Sys2Proof.Machine.execFreeBufferSignal port s
  | .hopForwarding port n => Sys2Proof.Machine.execHopForwarding port n s

end Sys2Proof.Machine
end

