-- ==== Sys2Proof/Machine/Internal.lean ====
section
/-! DEFINITION. What the device does by itself beside issuing units: one turn of every unit that has work. The spec leaves the
order of these events open; the agenda of a state can name any other order (DESIGN CHOICE, log entry 21). -/

namespace Sys2Proof.Machine

/-- R71: the oldest operation of each counter of a group completes, when it can. -/
def State.retireGroup (s : State) (grp : Nat) : State :=
  [Ctr.ld, .st, .mx, .en, .tm].foldl (fun (t : State) c =>
    let u := t.hazeMark grp
    if ((u.group? grp).map fun g => g.canRetire c).getD false then u.retire grp c else u) s
/-- Every group's operations: element operations are performed, and what is done completes. -/
def State.turnResults (s : State) : State :=
  let ids := (s.groups.filter fun g => g.running && !g.pend.isEmpty).map (·.id)
  let t := ids.foldl State.retireGroup (if ids.isEmpty then s else s.performEverywhere)
  ((t.groups.filter fun g => g.wait == .dying).map (·.id)).foldl State.endDying t

/-- The haze, lock, directory and share messages: one of each. -/
def State.turnMessages (s : State) : State :=
  let s := match s.hazeNext with
    | some i => s.hazeServe i
    | none => s
  let s := match s.lockNext with
    | some i => s.lockServe i
    | none => s
  let s := if s.invals.isEmpty then s else s.invalidate 0
  let s := if s.invAcks.isEmpty then s else s.invalidateAck 0
  if s.shares.isEmpty then s
  else if (s.shares.headD ⟨0, 0, 0, 0, false⟩).acked then s.shareAckServe 0 else s.shareServe 0

/-- R240: the timeouts of waiting groups. -/
def State.turnTimeouts (s : State) : State :=
  (s.groups.filter fun g => match g.wait with | .lock _ _ (some t) => decide (t ≤ s.clock) | _ => false).foldl
    (fun (t : State) g => t.lockTimeout g.id) s

/-- The distinct members of a list. -/
def nubNat (l : List Nat) : List Nat := l.foldl (fun r x => if r.contains x then r else r ++ [x]) []

/-- R300, R301: each engine accepts a command and completes one. -/
def State.turnEngines (s : State) : State :=
  (nubNat (s.engQ.map (·.engine))).foldl (fun (t : State) e => (t.arriveCommand e).acceptCommand e) s
/-- R331: each matrix unit completes an operation. -/
def State.turnMatrix (s : State) : State :=
  (nubNat (s.mxQ.map (·.core))).foldl (fun (t : State) c => match t.mxNext c with
    | some o => t.mxComplete o
    | none => t) s
/-- R338: each quarter of a term unit starts a job and ends one. -/
def State.turnTerms (s : State) : State :=
  (nubNat (s.termQ.map fun u => 4 * u.core + u.quarter)).foldl (fun (t : State) q =>
    let u := t.startJob (q / 4) (q % 4)
    match (u.runningJobs (q / 4) (q % 4)).find? fun x => x.2.page.isNone with
    | some (k, j) => u.runJob k j
    | none => u) s

/-- R247, R251: a packet of each queue is decoded. -/
def State.turnPackets (s : State) : State := ((s.lqs.map (·.q)).foldl State.decodeQueue s).decodeLaunch
/-- R253: the distributor starts the next workgroup or cloud; a grid that is over completes. -/
def State.turnGrids (s : State) : State :=
  let s := s.releaseBlocks
  let s := if s.candidates.isEmpty then s else (match s.prune.nextStart with
    | (some (_, t), _) => t
    | (none, t) => t)
  match s.grids.find? s.gridOver with
  | some k =>
    let t := { s.prune with grids := s.grids.filter fun j => j.id != k.id }
    t.completeRecord k.queue k.id k.pkt.ctx k.pkt.tables true k.pkt.compl k.pkt.seq 0 0 0
  | none => s
/-- R261: each packing unit starts a child group that is due. -/
def State.turnSpawn (s : State) : State :=
  s.spawn.foldl (fun (t : State) u => match (t.spawnUnit u.cluster).held.find? fun h => t.entryFull h || t.entryIdle h with
    | some h => t.startChild u.cluster h
    | none => t) s

/-- R369 to R372: commands of contexts and workgroups being saved make progress. -/
def State.turnContexts (s : State) : State :=
  let s := s.ctxs.foldl (fun (t : State) b =>
    match b.busy, b.cmd with
    | true, 1 => t.beginPreempt b.ctx
    | true, 2 => (t.setCtx { b with cmd := 4 }).resumeNext b.ctx
    | true, 4 => t.resumeNext b.ctx
    | _, _ => t) s
  match s.wgs.find? fun w => w.saving with
  | some w => s.saveUnit w
  | none => s

/-- R66, R67: pending groups come in, and windows end. -/
def State.turnQuarters (s : State) : State :=
  let s := s.quarters.foldl (fun (t : State) q => t.refill q.1 q.2) s
  s.cores.foldl (fun (t : State) k => if k.window < t.clock / 4096 then t.setCore (k.endWindow t.clock) else t) s

/-- R396, R404, R419, R423: marked cores retire, zero-length reads complete, a report is built, a start that takes too long
fails. -/
def State.turnDevice (s : State) : State :=
  let s := (s.cores.filter (·.retireMark)).foldl (fun (t : State) k => t.retireCore k.core) s
  let s := { s with zlr := [] }
  let s := if s.mgmt.attBusy then s.finishReport else s
  if !s.mgmt.ok && decide (2 ^ 33 ≤ s.fabricClock) then (s.failStart 5).boot 4 else s

/-- R395: engines, term units, stations and ports are tested at once, and pass when nothing says otherwise. -/
def State.turnTests (s : State) : State :=
  (s.banks.filter fun b => b.test == 1 && decide (6 ≤ bankKind b.idx)).foldl (fun (t : State) b =>
    b.tests.foldl (fun (u : State) _ => u.selfTest (u.bank b.idx) true) t) s

/-- One turn of everything. -/
def State.internal (s : State) : State :=
  s.turnResults.turnMessages.turnTimeouts.turnEngines.turnMatrix.turnTerms.turnPackets.turnGrids.turnSpawn.turnContexts.turnQuarters.turnTests.turnDevice

end Sys2Proof.Machine
end

