-- ==== Sys2Proof/Machine/Fetch.lean ====
section
/-! DEFINITION. One unit of the issuing group: fetched at its pc, decoded, its halfwords folded into %sig, executed (R28,
R43, R103). -/

noncomputable section

namespace Sys2Proof.Machine

/-- R103, R104: every unit but SIGCHK is folded into %sig. -/
def folds : Instr → Bool
  | .sigchk _ => false
  | _ => true

/-- R43, item 1: what a fetch that fails does. -/
def State.fetchFault (s : State) : Fetched → State
  | .half _ => s
  | .trap cause _ => s.takeTrap cause 0 127 0 s.g.pc s.g.sigLatch
  | .page base => s.pageFault base false 127 0
  | .poison ck => (s.mg (·.ck ck)).errorReach 0
  | .busy => s.hold (s.clock + 1)

/-- The issuing group runs the instruction its pc decodes to; the unit's own halfwords are folded into %sig before it acts (R103; DESIGN CHOICE, log
entry 59). -/
def State.runDecoded (s : State) (i : Instr) (hs : List Nat) : Out :=
  exec i (if folds i then s.mg fun g => { g with sig := foldSig g.sig hs } else s)

/-- The issuing group issues its next unit; the stall bits of one that cannot be decoded count as 0 (DESIGN CHOICE, log entry 63). -/
def State.runUnit (s : State) : Out :=
  match s.g.refused with
  | some (lane, addr) =>
    -- R367: the page it waited for was refused
    .next ((s.mg fun g => { g with refused := none, replay := false }).takeTrap 3 1 lane addr s.g.pc s.g.sig)
  | none =>
    let s := s.mg fun g => { g with sigLatch := g.sig, wait := .ready, replay := false }
    match s.fetchUnit s.g.pc 8 [] with
    | (.error f, t) => .next (t.fetchFault f)
    | (.ok hs, t) =>
      match decodeUnit hs with
      | .ok (i, _) => t.runDecoded i hs
      | .error (.illegal k) => .next (t.decodeTrap 1 k 0)
      | .error .truncated => .next (t.decodeTrap 1 2 0)

/-- R65: the class in which a unit issues. -/
def classOf : Instr → Cls
  | .vmov16 _ | .vaddI3216 _ | .vsubI3216 _ | .vand16 _ | .vor16 _ | .vxor16 _ | .vshl16 _ | .vshrN16 _ | .vshrI16 _
  | .vmulLo16 _ | .vaddF3216 _ | .vsubF3216 _ | .vmulF3216 _ | .vmaxF3216 _ | .vminF3216 _ | .vmovs16 _ | .vaddI32 _
  | .vsubI32 _ | .vmulLo _ | .vmulhI _ | .vmulhN _ | .vaddsI _ | .vsubsI _ | .vabsdI _ | .vand _ | .vor _ | .vxor _
  | .vandn _ | .vshl _ | .vshrN _ | .vshrI _ | .vrotl _ | .vminI _ | .vmaxI _ | .vminN _ | .vmaxN _ | .vpopc _ | .vclz _
  | .vbrev _ | .vmov _ | .vcmp _ | .vsel _ | .vbfeN _ | .vbfeI _ | .vbfi _ | .vpermb _ | .vaddi _ | .vandi _ | .vori _
  | .vxori _ | .vshli _ | .vshriN _ | .vshriI _ | .vli _ | .vcmpi _ | .vaddS _ | .vmulS _ | .vandS _ | .vshlS _
  | .vshrSN _ | .vmovs _ | .vmadS _ | .vlaneid _ | .vaddI64 _ | .vsubI64 _ | .vshlI64 _ | .vshrN64 _ | .vshrI64 _
  | .vmulwI _ | .vmulwN _ | .vaddF32 _ | .vsubF32 _ | .vmulF32 _ | .vfmaF32 _ | .vfmsF32 _ | .vfnmaF32 _ | .vminF32 _
  | .vmaxF32 _ | .vabsF32 _ | .vnegF32 _ | .vcopysign _ | .vclass _ | .vrint _ | .vfract _ | .vscalb _ | .vgetexp _
  | .vcmpf _ | .vaddBf2 _ | .vsubBf2 _ | .vmulBf2 _ | .vfmaBf2 _ | .vminBf2 _ | .vmaxBf2 _ | .vdot2Bf _ | .vaddF32S _
  | .vmulF32S _ | .vfmaF32S _ | .vminF32S _ | .vmaxF32S _ | .vrand _ | .vseed _ | .vunpk _ | .vunpk2 _ | .vpack _
  | .vpack2 _ | .vmxscale _ | .vscaleE8 _ | .vscaleE8Inv _ | .vcvt _ | .pand _ | .por _ | .pxor _ | .pandn _ | .pnot _
  | .pmov _ | .pset _ | .pclr _ | .ttag _ => .vec
  | .vrcpA _ | .vrsqA _ | .vex2A _ | .vlg2A _ | .vsinA _ | .vcosA _ | .vtanhA _ | .vsqrt _ | .vdivF32 _ => .sfu
  | .vld _ | .vldLine _ | .vst _ | .vldNr _ | .vldi _ | .vsti _ | .sld _ | .sst _ | .fence _ | .fenceOpr _ | .fenceH _
  | .cinv _ | .cwb _ | .cflush _ | .vpref _ | .pagereq _ | .llock _ | .ltry _ | .lunlock _ | .lquery _ | .lbreak _
  | .hdecl _ | .hend _ | .hdrain _ | .hquery _ | .haddF32 _ | .haddI32 _ | .hldF32 _ | .hldI32 _ | .vatomAddI32 _
  | .vatomAddF32 _ | .vatomAddBf2 _ | .vatomMinI _ | .vatomMaxI _ | .vatomAnd _ | .vatomOr _ | .vatomXchg _
  | .vatom2MinN _ | .vatom2MaxN _ | .vatom2Xor _ | .vatom2AddI64 _ | .vatom2Xchg64 _ | .vatom2MinF32 _ | .vatom2MaxF32 _
  | .vcas32 _ | .vcas64 _ | .vcas128 _ | .satomAddI32 _ | .satomXchg _ | .satomCas32 _ | .satomCas64 _ | .satomCas128 _
  | .satomAddI64 _ | .satomOr _ | .satomAnd _ | .cpy _ | .cpy2 _ | .cpyg _ | .cpyz _ | .cpyw _ | .decJpeg _ | .decG4 _
  | .decPng _ | .decQuery _ | .swset _ | .swarr _ | .swwait _ | .swread _ | .mmarJ _ | .mmarS _ | .mmatT _ | .mmatC _
  | .mmatTz _ | .mmatCz _ | .mzero _ | .mquant _ | .tderef _ | .tunifyN _ | .tunifyOc _ | .tbind _ | .tmatch _
  | .tchoice _ | .tfail _ | .tcut _ | .tpopcp _ | .ttrailtop _ | .tfork _ | .tcommit _ | .tjoin _ | .launch _ | .spawn _
  | .tlbinv _ | .harvest _ => .mem
  | _ => .scal

/-- R53: the privileged units. -/
def privileged : Instr → Bool
  | .ssetr o => o.r = 17 || o.r = 18
  | .lbreak _ => true
  | .tlbinv _ => true
  | .harvest _ => true
  | _ => false

/-- The class in which the issuing group's next unit issues; a unit that cannot be fetched or decoded, or that lacks privilege, takes
none (R43, R65). -/
def State.nextClass (s : State) : Option Cls :=
  if s.g.refused.isSome then none
  else
    match (s.fetchUnit s.g.pc 8 []).1 with
    | .ok hs => (match decodeUnit hs with
      | .ok (i, _) => if privileged i && !s.g.priv then none else some (classOf i)
      | .error _ => none)
    | .error _ => none

/-- R65: the group that issues next in this clock. The oldest group that can issue has its turn, unless the group that its
quarter issued last in the class of its unit can issue a unit of that class. -/
def State.pick (s : State) : Option Nat :=
  match s.issuable with
  | [] => none
  | g :: rest =>
    match (s.focus g.id).nextClass with
    | none => some g.id
    | some c =>
      match s.pipeLast g.core g.quarter c.pipe with
      | none => some g.id
      | some b =>
        if rest.any fun h => h.id == b && h.onQuarter g.core g.quarter && (s.focus b).nextClass == some c then some b
        else some g.id

/-- Events that a device which has tripped still answers (R420, R425). -/
def wakes : Instr → Bool
  | .reset => true
  | .powerLoss => true
  | _ => false
/-- What becomes of the state when an event of the agenda is taken. -/
def State.takeEvent (s : State) (e : Instr) : Out :=
  if s.tripped && !wakes e then .next s else exec e s

/-- Neither an event nor a turn is named: the group R65 picks issues; when no group can issue any more in this clock, the
device's own work goes on and the clock passes. -/
def State.runOn (s : State) : Out :=
  match s.pick with
  | some id => (s.focus id).runUnit
  | none => .next s.internal.tick

/-! ### Loading a program from outside (DESIGN CHOICE, log entry 14) -/

/-- The bytes of an instruction numbered as the opcode table numbers them, and zeros up to the longest unit. -/
def fetchBytes (nbits w : Nat) : List Byte := leBytes (nbits / 8) w ++ List.replicate (16 - nbits / 8) 0

/-- The leaf entry under which a loaded program is fetched: physical page 0x10000, resident, readable, writable and
executable, private to core 0. -/
def loadedPte : Addr := 0x1283F

/-- The grid, workgroup and group of a loaded program: one group of 96 lanes on core 0 in context 0, with stacks of
4096 bytes a lane (DESIGN CHOICE, log entry 14). -/
def loadedGrid (id : Nat) : Grid :=
  { id := id, addr := 0, queue := 255, pri := 0, pkt := { Packet.zero with entry := 0x10000, stack := 0x100000, stride := 0x1000 }, children := [],
    cursor := 1, started := 1, batch := 0, pred := none, tried := none }
def loadedWg (id : Nat) : Wg :=
  { id := id, grid := id, cloud := id, core := 0, member := 0, members := 1, x := 0, y := 0, z := 0, n := 1, child := none,
    offW := 0, offA := 0, offC := 0, sizeW := 0, sizeA := 0, sizeC := 0, saving := false, saved := false, live := true }
def loadedGroup (id : Nat) : Group :=
  { Group.blank with id := id, grid := id, wg := id, real := 96, present := BitVec.allOnes 96, mask := BitVec.allOnes 96,
                     gslots := 64, pc := 0x10000, wait := .ready, active := true }

/-- Where the issuing group fetches its next unit, when it can issue now. -/
def State.fetchKey (s : State) : Option Nat :=
  let pc := s.g.pc.toNat
  if s.g.running && s.g.active && s.ready s.g && s.g.refused.isNone then
    match s.tlb.find? fun t => !t.l2 && t.unit == s.g.core && t.hits s.g.ctx pc with
    | some t =>
      let e := t.pte.toNat
      if bit e 5 && bit e 2 && (!bit e 6 || s.g.priv) && pteType e == 0 && decide (pc + 16 ≤ t.va + t.size) then
        some (ptePa e + (pc - t.va)) else none
    | none => none
  else none

end Sys2Proof.Machine

end
end

