-- ==== Sys2Proof/Machine/Step.lean ====
section
/-! DEFINITION. One step of the device: an event from outside, or one unit of one group, or the passing of a core clock; and the
state in which a given instruction is the next to issue. -/

noncomputable section

namespace Sys2Proof.Machine

/-- One step. Events named in the agenda come first, then the schedule's turns, then the group R65 picks; when no group can issue
any more in this core clock, the device's own work goes on and the clock passes. A tripped device waits for a reset (R425). -/
def step (s : State) : Host.Outcome State Fault Refusal :=
  match s.agenda with
  | e :: rest => { s with agenda := rest }.takeEvent e
  | [] =>
    if s.tripped then .fault .tripped
    else
      match s.takeTurn with
      | some t => t.runUnit
      | none => { s with turns := [] }.runOn

/-- The state with an instruction where the step fetches next. A state whose group can issue takes the bytes at its pc;
otherwise the program is loaded as log entry 14 says (DESIGN CHOICE). -/
def State.withFetchWord (s : State) (nbits w : Nat) : State :=
  let t := { s with agenda := [], turns := [], tripped := false }
  match t.fetchKey with
  | some k => { t with turns := [t.g.id], mem := Memory.write t.mem k (fetchBytes nbits w),
                       memPoison := clearPoison t.memPoison k 16 }
  | none =>
    let id := t.nextId
    { t with
      nextId := id + 1, turns := [id], g := loadedGroup id,
      others := if t.g.wait = .ended then t.others else insertByAge t.g t.others,
      grids := t.grids ++ [loadedGrid id], wgs := t.wgs ++ [loadedWg id],
      tlb := (⟨false, 0, 0, 0x10000, 65536, loadedPte, 0⟩ : Tlb) :: t.tlb,
      mem := Memory.write t.mem 0x10000 (fetchBytes nbits w), memPoison := clearPoison t.memPoison 0x10000 16 }

end Sys2Proof.Machine

end
end

