-- ==== Sys2Proof/Safety.lean ====
section
/-! DEFINITION. The terms the statements use: when a unit issues, what it leaves of the device and of its group, and the
invariant of the memory list and of the registers' numbers. -/

namespace Sys2Proof

/-- The step answers a next state. -/
def Machine.Steps (s t : Machine.State) : Prop := Machine.step s = .next t

/-- Memory stands in its canonical form. -/
def Machine.State.memOk (s : Machine.State) : Prop := Machine.Memory.wf s.mem = true

namespace Machine

/-- R12, R142: a group has 64 vector, 64 scalar and 8 predicate registers, and 96 random states. -/
structure Group.Formed (g : Group) : Prop where
  v : g.v.length = 64
  s : g.s.length = 64
  p : g.p.length = 8
  rnd : g.rnd.length = 96

/-- Memory in its canonical form, every group with its registers, every group under a number of its own that has been given
out. -/
structure State.Sound (s : State) : Prop where
  mem : s.memOk
  formed : ∀ g ∈ s.groups, g.Formed
  ids : (s.groups.map (·.id)).Nodup
  given : ∀ g ∈ s.groups, g.id < s.nextId

/-! ### When a unit issues (R55, R65, R67, R69, R70) -/

/-- R389, R394: no error is armed or lies in the register file of the issuing group's quarter. -/
def State.unarmed (s : State) : Prop :=
  (s.bank (bankIdx 0 (4 * s.g.core + s.g.quarter))).arm = false ∧ (s.bank (bankIdx 0 (4 * s.g.core + s.g.quarter))).latent = []

/-- R380: no error marks a predicate, a stack on chip or the mask of the issuing group. -/
def State.unspoilt (s : State) : Prop := s.g.bad = 0 ∧ s.g.maskSpoilt s.clock = false

/-- A unit of the class that reads the registers refs issues now: its pipe is free, the squall limit does not hold it, the
checking scoreboard, when enabled, finds every register ready, and no error is armed, lies in the register file or marks what every unit
uses. -/
structure State.Issues (s : State) (cls : Cls) (refs : List Ref) : Prop where
  free : s.classHeld cls = none
  ready : s.g.chk = false ∨ ∀ r ∈ refs, s.g.notReady s.clock r = false
  unarmed : s.unarmed
  unspoilt : s.unspoilt

/-! ### What a unit leaves -/

/-- Of the device, only the issuing group and the pipes of its quarter have changed: memory, its marks, every table and
every other group stand as they did. -/
def State.OnlyGroup (s t : State) : Prop := t = { s with g := t.g, pipes := t.pipes }

/-- R55, R69: the unit has issued: its pipe is taken, the pc stands at next, and the next unit comes no earlier than the
stall count says. -/
structure State.Issued (s t : State) (cls : Cls) (next : Addr) (st : Nat) : Prop where
  pc : t.g.pc = next
  after : t.g.notBefore = s.clock + 1 + st
  pipe : t.pipes = (s.occupy cls.pipe (s.clock + cls.occupies (s.g.rdMask s.clock))).pipes

/-- The counted operations in flight are those that were, apart from the marks of R60. -/
def Group.SamePend (g h : Group) : Prop :=
  h.pend.map (fun p => (p.ctr, p.kind, p.tag, p.todo, p.dest, p.pages, p.peers, p.done))
    = g.pend.map (fun p => (p.ctr, p.kind, p.tag, p.todo, p.dest, p.pages, p.peers, p.done))

/-- A group apart from what every unit may change of it: pc, the clock of its next unit, results not ready, races. -/
def Group.kept (g h : Group) : Group :=
  { g with pc := h.pc, notBefore := h.notBefore, inflight := h.inflight, pend := h.pend }

/-- R57: what scalar register r holds after x is written to it: e0, e1 and e2 keep the bits of absent and exited lanes
at 0. -/
def Group.heldS (g : Group) (r : Nat) (x : Word) : Word := if isMaskReg r then x &&& maskWord g.live (r - 56) else x

/-- R69, R77: a unit wrote scalar register d, ready after lat clocks, and nothing else: its value, its mark (R381), every
other scalar register. -/
structure State.WroteScalar (s t : State) (lat d : Nat) (x : Word) (pz : Bool) : Prop where
  device : s.OnlyGroup t
  value : t.g.rawS d = s.g.heldS d x
  mark : isMaskReg d = false → t.g.rawSP d = pz
  others : ∀ r, r ≠ d → t.g.rawS r = (if isMaskReg d && isMaskReg r then s.g.heldS r (s.g.rawS r) else s.g.rawS r)
  marks : ∀ r, r ≠ d → t.g.rawSP r = s.g.rawSP r
  later : t.g.inflight = (s.g.produce (.s d) (s.clock + lat)).inflight
  pend : s.g.SamePend t.g
  rest : t.g = { s.g.kept t.g with
    s := t.g.s, sPoison := t.g.sPoison, mask := t.g.mask, ckint := if pz then setBit s.g.ckint 0 true else s.g.ckint }

/-- R69: a unit wrote SCC, ready after lat clocks, and nothing else. -/
structure State.WroteScc (s t : State) (lat : Nat) (b : Bool) : Prop where
  device : s.OnlyGroup t
  value : t.g.gsrBit 0 = b
  bits : ∀ i, i ≠ 0 → t.g.gsrBit i = s.g.gsrBit i
  later : t.g.inflight = (s.g.produce .scc (s.clock + lat)).inflight
  rest : t.g = { s.g.kept t.g with gsr := t.g.gsr, pend := s.g.pend }

/-- R60: a write of the values x to register d in the lanes m has a place: it is full and compact with no counted result
to come, or d has a slot, or a slot is free. -/
def Group.Room (g : Group) (d : Nat) : Prop := (g.v.getD d VReg.zero).val.slot?.isSome = true ∨ g.freeSlot.isSome = true

/-- R60: the registers d and d + 1 of a pair have places: each has a slot or one is free, and two are free where neither has
one. -/
def Group.RoomPair (g : Group) (d : Nat) : Prop :=
  g.Room d ∧ g.Room (d + 1) ∧
  ((g.v.getD d VReg.zero).val.slot?.isSome = true ∨ (g.v.getD (d + 1) VReg.zero).val.slot?.isSome = true ∨
    ∃ i j, i ≠ j ∧ i < g.gslots ∧ j < g.gslots ∧ (∀ x ∈ g.v, x.val.slot? ≠ some i ∧ x.val.slot? ≠ some j))

/-- R59, R69, R119: a unit wrote lanes m of vector register d with the words x, ready after lat clocks, and raised the sticky
flags: other lanes and other registers stand as they did. -/
structure State.WroteLanes (s t : State) (lat d : Nat) (m : Mask) (x : Nat → Word) (pz : Mask) (ovf sat : Bool) : Prop where
  device : s.OnlyGroup t
  value : ∀ l, m.getLsbD l = true → (t.g.v.getD d VReg.zero).lane l = x l
  idle : ∀ l, l < 96 → s.g.present.getLsbD l = true → m.getLsbD l = false →
    (t.g.v.getD d VReg.zero).lane l = (s.g.v.getD d VReg.zero).lane l
  marks : (t.g.v.getD d VReg.zero).poison = ((s.g.v.getD d VReg.zero).poison &&& ~~~m) ||| (pz &&& m)
  others : ∀ r, r ≠ d → t.g.v.getD r VReg.zero = s.g.v.getD r VReg.zero
  later : t.g.inflight = (s.g.produceIn (.v d) (s.clock + lat) m).inflight
  runs : t.g.mxRuns = (s.g.touchRun d).mxRuns
  pend : s.g.SamePend t.g
  flags : ∀ i, t.g.gsrBit i = (s.g.gsrBit i || (i == 3 && ovf) || (i == 4 && sat))
  rest : t.g = { s.g.kept t.g with v := t.g.v, gsr := t.g.gsr, ckint := t.g.ckint, mxRuns := t.g.mxRuns }

/-- R82, R103: control went to a target: two more core clocks at least, and %sig starts afresh; nothing else of the group or
the device has changed. -/
structure State.Jumped (s t : State) (target : Addr) (st : Nat) : Prop where
  device : s.OnlyGroup t
  group : t.g = { s.g with pc := target, notBefore := s.clock + 1 + max st 2, sig := 0xFFFF }
  pipe : t.pipes = (s.occupy 2 (s.clock + 1)).pipes

/-- The unit took its slot and nothing but the pc moved. -/
structure State.Passed (s t : State) (len st : Nat) : Prop where
  device : s.OnlyGroup t
  group : t.g = { s.g with pc := s.g.pc + BitVec.ofNat 64 len, notBefore := s.clock + 1 + st }

/-- R69, R116: a unit wrote lanes m of predicate d, ready after lat clocks, and nothing else; no mark of an error has come to be (R380). -/
structure State.WrotePred (s t : State) (lat d : Nat) (m x : Mask) : Prop where
  device : s.OnlyGroup t
  value : t.g.p.getD d 0 = (s.g.p.getD d 0 &&& ~~~m) ||| (x &&& m)
  others : ∀ r, r ≠ d → t.g.p.getD r 0 = s.g.p.getD r 0
  later : t.g.inflight = (s.g.produceIn (.p d) (s.clock + lat) m).inflight
  pend : s.g.SamePend t.g
  clean : s.g.bad = 0 → t.g.bad = 0
  rest : t.g = { s.g.kept t.g with p := t.g.p, bad := t.g.bad }

/-! ### Memory units -/

/-- Nothing poisoned, nothing outstanding in the group, no lane active that has exited, no error armed or lying in an array, no matrix
operation, no own bytes of host memory in an L1. -/
structure State.Quiet (s : State) : Prop where
  banks : s.banks = []
  matrix : s.mxQ = []
  owners : s.mxOwns = []
  runs : s.g.mxRuns = []
  own : ∀ k ∈ s.l1, k.data = []
  lanes : s.g.mask &&& ~~~s.g.live = 0
  pend : s.g.pend = []
  inflight : s.g.inflight = []
  scalars : s.g.sPoison = 0
  vectors : ∀ r, (s.g.v.getD r VReg.zero).poison = 0
  memory : s.memPoison = []

/-- A quiet device in which no haze contribution is on its way or withheld, at a home or in an L1. -/
structure State.Calm (s : State) : Prop extends s.Quiet where
  hazeNet : s.hazeNet = []
  hazeHomes : s.hazeHomes = []
  hazeLines : ∀ k ∈ s.l1, k.haze = false

/-- The place is a byte of memory itself: device memory, the pool, scratch or a stack. -/
def Loc.plain (l : Loc) : Prop := l.ty = 0 ∨ l.ty = 1 ∨ l.ty = tyScratch ∨ l.ty = tyStack

/-- R408, R409: the n bytes from an address on lie side by side in the memory of one device. -/
def State.Flat (s : State) (a n : Nat) : Prop := ∀ i, i < n → s.place (a + i) = s.place a + i
/-- Every byte of memory but the n bytes at an address reads as before. -/
def State.Frame (s t : State) (a n : Nat) : Prop := ∀ x, x < s.place a ∨ s.place a + n ≤ x → Memory.get t.mem x = Memory.get s.mem x

/-- R169, R170: an access of n bytes by a lane passes every check at the place l, from a TLB that holds its page. -/
def State.Reaches (s : State) (lane a n : Nat) (p : Perm) (l : Loc) : Prop :=
  s.checkAccess s.g lane a n n p = (.ok l, s) ∧ l.plain ∧ s.Flat l.key n

/-- A unit passed: its pc stands behind it, and every register of the group stands as it did. -/
structure State.PassedBy (s t : State) (len st : Nat) : Prop where
  pc : t.g.pc = s.g.pc + BitVec.ofNat 64 len
  after : t.g.notBefore = s.clock + 1 + st
  vec : t.g.v = s.g.v
  scal : t.g.s = s.g.s
  pred : t.g.p = s.g.p
  mask : t.g.mask = s.g.mask
  gsr : t.g.gsr = s.g.gsr
  fmt : t.g.fmt = s.g.fmt
  others : t.others = s.others

end Machine

end Sys2Proof
end

