-- ==== Sys2Proof/Certificates/Slice0/Obligations.lean ====
section
/-! DEFINITION. The statements for the provers: what the rules of the spec say each instruction, each event and each step does. -/

noncomputable section

open Sys2Proof Sys2Proof.Machine

/-! ### Scalar instructions (R76 to R80) -/

namespace Sys2Proof.Machine

/-- R77: what the forms that write d from a and b compute. -/
def scalarForms : List ((DAB → Instr) × (Word → Word → Word)) :=
  [(.sadd, fun x y => x + y), (.ssub, fun x y => x - y), (.smul, fun x y => x * y),
   (.smulhI, fun x y => BitVec.ofInt 32 ((x.toInt * y.toInt) / 2 ^ 32)), (.smulhN, fun x y => BitVec.ofNat 32 (x.toNat * y.toNat / 2 ^ 32)),
   (.sand, fun x y => x &&& y), (.sor, fun x y => x ||| y), (.sxor, fun x y => x ^^^ y), (.sandn, fun x y => x &&& ~~~y),
   (.sshl, fun x y => if y.toNat % 64 < 32 then x <<< (y.toNat % 64) else 0),
   (.sshrN, fun x y => if y.toNat % 64 < 32 then x >>> (y.toNat % 64) else 0),
   (.sshrI, fun x y => if y.toNat % 64 < 32 then x.sshiftRight (y.toNat % 64) else if x.msb then 0xFFFFFFFF else 0),
   (.srotl, fun x y => x.rotateLeft (y.toNat % 32)),
   (.sminI, fun x y => if x.toInt ≤ y.toInt then x else y), (.smaxI, fun x y => if x.toInt ≤ y.toInt then y else x),
   (.sminN, fun x y => if x.toNat ≤ y.toNat then x else y), (.smaxN, fun x y => if x.toNat ≤ y.toNat then y else x),
   (.sbfeN, bfeN), (.sbfeI, bfeI)]

/-- R77: the unary forms. -/
def scalarUnary : List ((DA → Instr) × (Word → Word)) :=
  [(.sneg, fun x => -x), (.spopc, popc), (.sclz, clz), (.sbrev, fun x => x.reverse)]

/-- R77: the forms with an immediate. -/
def scalarImmediate : List ((SDAI → Instr) × (Word → Word → Word)) :=
  [(.saddi, fun x y => x + y), (.sandi, fun x y => x &&& y), (.sori, fun x y => x ||| y), (.sxori, fun x y => x ^^^ y),
   (.sshli, fun x y => if y.toNat % 64 < 32 then x <<< (y.toNat % 64) else 0),
   (.sshriN, fun x y => if y.toNat % 64 < 32 then x >>> (y.toNat % 64) else 0),
   (.sshriI, fun x y => if y.toNat % 64 < 32 then x.sshiftRight (y.toNat % 64) else if x.msb then 0xFFFFFFFF else 0)]

/-- R77, R78: the conditions the compares set SCC by. -/
def scalarCompares : List ((AB → Instr) × (Word → Word → Bool)) :=
  [(.seq, fun x y => decide (x = y)), (.sne, fun x y => decide (x ≠ y)), (.sltI, fun x y => decide (x.toInt < y.toInt)),
   (.sleI, fun x y => decide (x.toInt ≤ y.toInt)), (.sltN, fun x y => decide (x.toNat < y.toNat)),
   (.sleN, fun x y => decide (x.toNat ≤ y.toNat)), (.stst, fun x y => decide (x &&& y ≠ 0))]

/-- A unit with one scalar result, as a whole: it completes in the next state, whose register d holds x (marked pz), ready after
lat clocks, with everything else as it was. -/
def State.GivesScalar (s : State) (i : Instr) (len st lat d : Nat) (x : Word) (pz : Bool) : Prop :=
  ∃ t, exec i s = .next t ∧ s.Issued t .scal (s.g.pc + BitVec.ofNat 64 len) st ∧ s.WroteScalar t lat d x pz

/-- A unit that sets SCC. -/
def State.GivesScc (s : State) (i : Instr) (len st lat : Nat) (b : Bool) : Prop :=
  ∃ t, exec i s = .next t ∧ s.Issued t .scal (s.g.pc + BitVec.ofNat 64 len) st ∧ s.WroteScc t lat b

end Sys2Proof.Machine

/-- R77, R79, R381: every scalar form of two registers, and every unary one, writes its result to d and nothing else; a poisoned
operand marks the result and sets REG of %ckint, unless d is e0, e1 or e2.
That a marked word keeps its bits and the result is computed on them is the model's reading (DEDUCED, log entry 26). -/
def Sys2Proof.Claim.ScalarRegisterForms : Prop :=
  (∀ c ∈ scalarForms, ∀ (o : DAB) (s : State), s.g.Formed → s.Issues .scal [.s o.a.toNat, .s o.b.toNat] →
    ((s.useS o.a.toNat || s.useS o.b.toNat) = true → isMaskReg o.d.toNat = false) →
    s.GivesScalar (c.1 o) 4 o.st.toNat 2 o.d.toNat (c.2 (s.g.rdS s.clock o.a.toNat) (s.g.rdS s.clock o.b.toNat))
      (s.useS o.a.toNat || s.useS o.b.toNat)) ∧
  (∀ c ∈ scalarUnary, ∀ (o : DA) (s : State), s.g.Formed → s.Issues .scal [.s o.a.toNat] →
    (s.useS o.a.toNat = true → isMaskReg o.d.toNat = false) →
    s.GivesScalar (c.1 o) 4 o.st.toNat 2 o.d.toNat (c.2 (s.g.rdS s.clock o.a.toNat)) (s.useS o.a.toNat))

/-- R77, R33: the immediate forms and SLI; the immediate is the sign-extended field, or with a LIMM the 32 bits of both.
That a marked word keeps its bits and the result is computed on them is the model's reading (DEDUCED, log entry 26). -/
def Sys2Proof.Claim.ScalarImmediateForms : Prop :=
  (∀ c ∈ scalarImmediate, ∀ (o : SDAI) (s : State), s.g.Formed → s.Issues .scal [.s o.a.toNat] →
    (s.useS o.a.toNat = true → isMaskReg o.d.toNat = false) →
    s.GivesScalar (c.1 o) (if o.limm.isSome then 8 else 4) o.st.toNat 2 o.d.toNat
      (c.2 (s.g.rdS s.clock o.a.toNat) (match o.limm with | none => o.i.signExtend 32 | some x => x ++ o.i |>.setWidth 32))
      (s.useS o.a.toNat)) ∧
  (∀ (o : SDI) (s : State), s.g.Formed → s.Issues .scal [] →
    s.GivesScalar (.sli o) (if o.limm.isSome then 8 else 4) o.st.toNat 2 o.d.toNat
      (match o.limm with | none => o.i.signExtend 32 | some x => x ++ o.i |>.setWidth 32) false)

/-- R77: SADDC and SSUBB: the sum with the carry in SCC, the difference with the borrow, and the new SCC.
That a marked operand counts with its bits, in the result and in SCC, is the model's reading (DEDUCED, log entry 26). -/
def Sys2Proof.Claim.ScalarCarryForms : Prop :=
  ∀ (o : DAB) (s : State), s.g.Formed → s.Issues .scal [.s o.a.toNat, .s o.b.toNat, .scc] →
    ((s.useS o.a.toNat || s.useS o.b.toNat) = true → isMaskReg o.d.toNat = false) →
    let x := (s.g.rdS s.clock o.a.toNat).toNat
    let y := (s.g.rdS s.clock o.b.toNat).toNat
    let c := if s.g.rdScc s.clock then 1 else 0
    (∃ t, exec (.saddc o) s = .next t ∧ s.Issued t .scal (s.g.pc + 4) o.st.toNat ∧ s.OnlyGroup t
      ∧ t.g.rawS o.d.toNat = s.g.heldS o.d.toNat (BitVec.ofNat 32 (x + y + c)) ∧ t.g.gsrBit 0 = decide (2 ^ 32 ≤ x + y + c)
      ∧ (∀ r, r ≠ o.d.toNat → isMaskReg r = false → t.g.rawS r = s.g.rawS r) ∧ (∀ i, i ≠ 0 → t.g.gsrBit i = s.g.gsrBit i)
      ∧ t.g.v = s.g.v ∧ t.g.p = s.g.p) ∧
    (∃ t, exec (.ssubb o) s = .next t ∧ s.Issued t .scal (s.g.pc + 4) o.st.toNat ∧ s.OnlyGroup t
      ∧ t.g.rawS o.d.toNat = s.g.heldS o.d.toNat (BitVec.ofInt 32 (x - y - c)) ∧ t.g.gsrBit 0 = decide (x < y + c)
      ∧ (∀ r, r ≠ o.d.toNat → isMaskReg r = false → t.g.rawS r = s.g.rawS r) ∧ (∀ i, i ≠ 0 → t.g.gsrBit i = s.g.gsrBit i)
      ∧ t.g.v = s.g.v ∧ t.g.p = s.g.p)

/-- R77, R78, R381: the compares set SCC and nothing else; a poisoned operand is consumed. -/
def Sys2Proof.Claim.ScalarCompareForms : Prop :=
  (∀ c ∈ scalarCompares, ∀ (o : AB) (s : State), s.Issues .scal [.s o.a.toNat, .s o.b.toNat] →
    s.useS o.a.toNat = false → s.useS o.b.toNat = false →
    s.GivesScc (c.1 o) 4 o.st.toNat 2 (c.2 (s.g.rdS s.clock o.a.toNat) (s.g.rdS s.clock o.b.toNat))) ∧
  (∀ (o : SCAI) (s : State), s.Issues .scal [.s o.a.toNat] → s.useS o.a.toNat = false →
    s.GivesScc (.scmpi o) (if o.limm.isSome then 8 else 4) o.st.toNat 2
      (condition o.c.toNat (s.g.rdS s.clock o.a.toNat) (immWord o.i o.limm))) ∧
  (∀ c ∈ scalarCompares, ∀ (o : AB) (s : State), s.Issues .scal [.s o.a.toNat, .s o.b.toNat] →
    (s.useS o.a.toNat || s.useS o.b.toNat) = true → exec (c.1 o) s = .next ((s.mg fun g => g.ck 0).stopped .scal 1 o.st.toNat (.consumed 0)))

/-- R77, R79: SSEL takes a where SCC is 1 and b where it is 0; SBFI inserts the field of a that b describes into d. -/
def Sys2Proof.Claim.ScalarSelectAndInsert : Prop :=
  (∀ (o : DAB) (s : State), s.g.Formed → s.Issues .scal [.s o.a.toNat, .s o.b.toNat, .scc] →
    s.useS o.a.toNat = false → s.useS o.b.toNat = false →
    s.GivesScalar (.ssel o) 4 o.st.toNat 2 o.d.toNat
      (if s.g.rdScc s.clock then s.g.rdS s.clock o.a.toNat else s.g.rdS s.clock o.b.toNat) false) ∧
  (∀ (o : DAB) (s : State), s.g.Formed → s.Issues .scal [.s o.a.toNat, .s o.b.toNat, .s o.d.toNat] →
    s.useS o.a.toNat = false → s.useS o.b.toNat = false → s.useS o.d.toNat = false →
    let y := s.g.rdS s.clock o.b.toNat
    ∃ x : Word, s.GivesScalar (.sbfi o) 4 o.st.toNat 2 o.d.toNat x false
      ∧ ∀ i, i < 32 → x.getLsbD i
        = (if y.toNat % 32 ≤ i ∧ i < y.toNat % 32 + y.toNat / 256 % 64 then (s.g.rdS s.clock o.a.toNat).getLsbD (i - y.toNat % 32)
           else (s.g.rdS s.clock o.d.toNat).getLsbD i))

/-- R80: SRDLANE reads the lane that b names (0 for an absent or impossible lane), SFIRST the lowest active lane with SCC, and
SWRLANE writes one live lane of a register that has room. -/
def Sys2Proof.Claim.ScalarLaneCrossings : Prop :=
  (∀ (o : DAB) (s : State), s.g.Formed → s.Issues .scal [.v o.a.toNat, .s o.b.toNat] → s.useS o.b.toNat = false →
    let l := (s.g.rdS s.clock o.b.toNat).toNat
    (s.g.readPz s.clock o.a.toNat l = true → isMaskReg o.d.toNat = false) →
    s.GivesScalar (.srdlane o) 4 o.st.toNat 4 o.d.toNat
      (if l < 96 ∧ s.g.present.getLsbD l = true then (s.g.rdV s.clock o.a.toNat).lane l else 0) (s.g.readPz s.clock o.a.toNat l)) ∧
  (∀ (o : DAB) (s : State), s.g.Formed → s.Issues .scal [.s o.a.toNat, .s o.b.toNat] → s.useS o.a.toNat = false →
    s.useS o.b.toNat = false → s.g.Room o.d.toNat →
    let l := (s.g.rdS s.clock o.b.toNat).toNat
    (l < 96 ∧ s.g.live.getLsbD l = true →
      ∃ t, exec (.swrlane o) s = .next t ∧ s.Issued t .scal (s.g.pc + 4) o.st.toNat
        ∧ s.WroteLanes t 4 o.d.toNat (BitVec.twoPow 96 l) (fun _ => s.g.rdS s.clock o.a.toNat) 0 false false) ∧
    (¬(l < 96 ∧ s.g.live.getLsbD l = true) →
      ∃ t, exec (.swrlane o) s = .next t ∧ s.Issued t .scal (s.g.pc + 4) o.st.toNat ∧ s.OnlyGroup t ∧ t.g = s.g.kept t.g)) ∧
  (∀ (o : DA) (s : State), s.g.Formed → s.Issues .scal (maskRefs ++ [.v o.a.toNat]) →
    (∀ r, (s.g.rdV s.clock r).poison = 0) →
    let m := s.g.rdMask s.clock
    ∃ t, exec (.sfirst o) s = .next t ∧ s.Issued t .scal (s.g.pc + 4) o.st.toNat ∧ s.OnlyGroup t
      ∧ t.g.gsrBit 0 = decide (m ≠ 0) ∧ (∀ i, i ≠ 0 → t.g.gsrBit i = s.g.gsrBit i)
      ∧ (m = 0 → t.g.rawS o.d.toNat = 0)
      ∧ (∀ l, m.getLsbD l = true → (∀ k, k < l → m.getLsbD k = false) →
          t.g.rawS o.d.toNat = s.g.heldS o.d.toNat ((s.g.rdV s.clock o.a.toNat).lane l))
      ∧ (∀ r, r ≠ o.d.toNat → isMaskReg r = false → t.g.rawS r = s.g.rawS r) ∧ t.g.v = s.g.v ∧ t.g.p = s.g.p)

/-! ### Special registers (R74 to R76) -/

/-- R74, R76: SGETR writes the word of the register it names to d; a read of %cyc, the clocks of the group's own core, latches the
high half that %cych then gives; %rpc goes to the pair at d. -/
def Sys2Proof.Claim.SpecialRegisterReads : Prop :=
  ∀ (o : GR) (s : State), s.g.Formed → s.g.inflight = [] → s.Issues .scal [] →
    (∀ (n : Nat) (x : Word), (n, x) ∈ [(0, s.g.gsr), (1, s.g.fmt), (2, s.g.sig), (3, s.g.sw), (4, s.g.mshape), (5, s.g.mcloud),
        (6, s.g.wgidX), (7, s.g.wgidY), (8, s.g.wgidZ), (9, BitVec.ofNat 32 s.g.gidx), (10, BitVec.ofNat 32 s.g.core),
        (12, s.g.ckint), (14, s.g.cych), (16, s.g.seed), (17, (s.core s.g.core).fragstall)] →
      o.r.toNat = n → s.GivesScalar (.sgetr o) 4 o.st.toNat 2 o.d.toNat x false) ∧
    (o.r = 11 → s.GivesScalar (.sgetr o) 4 o.st.toNat 2 o.d.toNat (BitVec.ofNat 32 s.memberOf) false) ∧
    (o.r = 13 → ∃ t, exec (.sgetr o) s = .next t ∧ s.Issued t .scal (s.g.pc + 4) o.st.toNat ∧ s.OnlyGroup t
      ∧ t.g.rawS o.d.toNat = s.g.heldS o.d.toNat (BitVec.ofNat 32 s.cyc) ∧ t.g.cych = BitVec.ofNat 32 (s.cyc / 2 ^ 32)
      ∧ (∀ r, r ≠ o.d.toNat → isMaskReg r = false → t.g.rawS r = s.g.rawS r) ∧ t.g.v = s.g.v ∧ t.g.p = s.g.p ∧ t.g.gsr = s.g.gsr) ∧
    (o.r = 15 → o.d.toNat < 63 → ∃ t, exec (.sgetr o) s = .next t ∧ s.Issued t .scal (s.g.pc + 4) o.st.toNat ∧ s.OnlyGroup t
      ∧ t.g.rawS o.d.toNat = s.g.heldS o.d.toNat (s.g.rpc.setWidth 32)
      ∧ t.g.rawS (o.d.toNat + 1) = s.g.heldS (o.d.toNat + 1) ((s.g.rpc >>> 32).setWidth 32)
      ∧ (∀ r, r ≠ o.d.toNat → r ≠ o.d.toNat + 1 → isMaskReg r = false → t.g.rawS r = s.g.rawS r) ∧ t.g.v = s.g.v ∧ t.g.p = s.g.p ∧ t.g.gsr = s.g.gsr) ∧
    (o.r = 18 → ∃ x : Word, s.GivesScalar (.sgetr o) 4 o.st.toNat 2 o.d.toNat x false
      ∧ (∀ i, i < 13 → x.getLsbD i = (s.core s.g.core).sqctl.getLsbD i)
      ∧ x.getLsbD 15 = decide ((s.core s.g.core).lim < 8) ∧ (∀ i, 16 ≤ i → x.getLsbD i = false))

/-- R75, R76: SSETR writes the RW bits of the register it names, clears the W1C bits of %ckint where a holds a 1, and leaves the
RO bits, PRIV among them, and every other register alone.
That %sig keeps all 32 bits written is the model's reading (DEDUCED, log entry 25). -/
def Sys2Proof.Claim.SpecialRegisterWrites : Prop :=
  ∀ (o : SR) (s : State), s.g.Formed → s.Issues .scal [.s o.a.toNat] → s.useS o.a.toNat = false →
    let x := s.g.rdS s.clock o.a.toNat
    (o.r.toNat < 17 → ∃ t, exec (.ssetr o) s = .next t ∧ s.Issued t .scal (s.g.pc + 4) o.st.toNat ∧ s.OnlyGroup t
      ∧ (∀ i, t.g.gsrBit i = if o.r = 0 ∧ (i = 0 ∨ i = 1 ∨ i = 3 ∨ i = 4) then x.getLsbD i
          else if o.r = 0 ∧ 5 ≤ i then false else s.g.gsrBit i)
      ∧ t.g.fmt = (if o.r = 1 then fmtWrite x else s.g.fmt)
      ∧ t.g.sig = (if o.r = 2 then x else s.g.sig)
      ∧ t.g.sw = (if o.r = 3 then x else s.g.sw)
      ∧ (∀ i, t.g.mshape.getLsbD i = if o.r = 4 then x.getLsbD i && decide (i < 13) else s.g.mshape.getLsbD i)
      ∧ t.g.mcloud = (if o.r = 5 then (if x.toNat % 4 = 3 then x &&& 4 else x &&& 7) else s.g.mcloud)
      ∧ (∀ i, t.g.ckint.getLsbD i = if o.r = 12 then s.g.ckint.getLsbD i && !x.getLsbD i else s.g.ckint.getLsbD i)
      ∧ t.g.rawS = s.g.rawS ∧ t.g.v = s.g.v ∧ t.g.p = s.g.p ∧ t.g.rpc = s.g.rpc ∧ t.g.seed = s.g.seed ∧ t.g.cych = s.g.cych) ∧
    (s.g.priv = true → o.r = 17 ∨ o.r = 18 → ∃ t, exec (.ssetr o) s = .next t ∧ s.Issued t .scal (s.g.pc + 4) o.st.toNat
      ∧ t.mem = s.mem ∧ t.others = s.others ∧ t.g = s.g.kept t.g
      ∧ (o.r = 17 → (t.core s.g.core).fragstall = x ∧ (t.core s.g.core).sqctl = (s.core s.g.core).sqctl)
      ∧ (o.r = 18 → (∀ i, (t.core s.g.core).sqctl.getLsbD i = (x.getLsbD i && decide (i < 13)))
          ∧ (x.getLsbD 12 = false → (t.core s.g.core).lim = 8) ∧ (t.core s.g.core).fragstall = (s.core s.g.core).fragstall)
      ∧ ∀ c, c ≠ s.g.core → t.core c = s.core c)

/-- R53, R76: without privilege an SSETR of %fragstall or %sqctl raises the protection trap at its turn, whatever its operand,
its pipe and the checking scoreboard, and nothing is written. -/
def Sys2Proof.Claim.SpecialRegisterPrivilege : Prop :=
  ∀ (o : SR) (s : State), s.g.priv = false → (o.r = 17 ∨ o.r = 18) → exec (.ssetr o) s = .next (s.decodeTrap 3 0 o.st.toNat)

/-! ### Control transfers (R81 to R90) -/

/-- R82, R83: the branches: the target is the unit's own address and twice the offset; a branch not taken passes. -/
def Sys2Proof.Claim.Branches : Prop :=
  (∀ (o : B21) (s : State), s.Issues .scal [] →
    ∃ t, exec (.bra o) s = .next t ∧ s.Jumped t (s.g.pc + (o.o.signExtend 64 <<< 1)) o.st.toNat) ∧
  (∀ c ∈ [((.bscc : B20 → Instr), true), (.bnscc, false)], ∀ (o : B20) (s : State), s.Issues .scal [.scc] →
    ∃ t, exec (c.1 o) s = .next t ∧
      (s.g.rdScc s.clock = c.2 → s.Jumped t (s.g.pc + (o.o.signExtend 64 <<< 1)) o.st.toNat) ∧
      (s.g.rdScc s.clock ≠ c.2 → s.Passed t 4 o.st.toNat)) ∧
  (∀ c ∈ [((.bz : BC → Instr), true), (.bnz, false)], ∀ (o : BC) (s : State), s.Issues .scal [.s o.a.toNat] →
    s.useS o.a.toNat = false →
    ∃ t, exec (c.1 o) s = .next t ∧
      (decide (s.g.rdS s.clock o.a.toNat = 0) = c.2 → s.Jumped t (s.g.pc + (o.o.signExtend 64 <<< 1)) o.st.toNat) ∧
      (decide (s.g.rdS s.clock o.a.toNat = 0) ≠ c.2 → s.Passed t 4 o.st.toNat))

/-- R84, R85: CALL pushes the address behind it and the reconvergence depth, the oldest of 16 entries on chip going to the control
area, and goes to its target; with 64 entries it raises the control-structure trap of subcause 7. -/
def Sys2Proof.Claim.Calls : Prop :=
  ∀ (o : B21) (s : State), s.memOk → s.Issues .scal [] →
    (s.g.retDepth < 64 → s.g.ret.length < 16 → ∃ t, exec (.call o) s = .next t ∧ s.OnlyGroup t
      ∧ t.g = { s.g with ret := s.g.ret ++ [.at (s.g.pc + 4) s.g.reconDepth], pc := s.g.pc + (o.o.signExtend 64 <<< 1),
                         notBefore := s.clock + 1 + max o.st.toNat 2, sig := 0xFFFF }) ∧
    (∀ (e : RetEntry) (r : List RetEntry), s.g.retDepth < 64 → s.g.ret = e :: r → s.g.ret.length = 16 → s.Flat (s.stackKey s.g 0 0) 0x480 →
      ∃ t, exec (.call o) s = .next t
      ∧ t.g = { s.g with ret := r ++ [.at (s.g.pc + 4) s.g.reconDepth], retArea := s.g.retArea + 1,
                         pc := s.g.pc + (o.o.signExtend 64 <<< 1), notBefore := s.clock + 1 + max o.st.toNat 2, sig := 0xFFFF }
      ∧ t.memRead (s.stackKey s.g 0 (8 * s.g.retArea)) 8 = e.word % 2 ^ 64
      ∧ t.memRead (s.stackKey s.g 0 0x460) 32 = 0
      ∧ (∀ a, a < s.place (s.stackKey s.g 0 (8 * s.g.retArea)) ∨ s.place (s.stackKey s.g 0 (8 * s.g.retArea)) + 8 ≤ a →
          a < s.place (s.stackKey s.g 0 0x460) ∨ s.place (s.stackKey s.g 0 0x460) + 32 ≤ a → Memory.get t.mem a = Memory.get s.mem a)
      ∧ t = { s with g := t.g, mem := t.mem, memPoison := t.memPoison, banks := t.banks, pipes := t.pipes }) ∧
    (64 ≤ s.g.retDepth → exec (.call o) s = .next (s.stopped .scal 1 o.st.toNat (.trap 6 7 127 0)))

/-- R84, R85, R106: RET goes to the address of the newest entry and removes it; the entry's depth must be the reconvergence depth
(subcause 6); with an empty stack it acts as EXIT. -/
def Sys2Proof.Claim.Returns : Prop :=
  (∀ (o : Z0) (s : State) (r : List RetEntry) (e : RetEntry), s.g.ret = r ++ [e] → s.Issues .scal [] →
    s.g.region = none → s.g.retLost < s.g.retDepth →
    (e.depth = s.g.reconDepth → r ≠ [] ∨ s.g.retArea = 0 → ∃ t, exec (.ret o) s = .next t ∧ s.OnlyGroup t
      ∧ t.g = { s.g with ret := r, pc := e.addr, notBefore := s.clock + 1 + max o.st.toNat 2, sig := 0xFFFF }) ∧
    (e.depth = s.g.reconDepth → r = [] → s.g.retArea ≠ 0 → s.g.retLost < s.g.retArea → s.banks = [] →
      s.memPoisoned (s.stackKey s.g 0 (8 * (s.g.retArea - 1))) 8 = false → ∃ t, exec (.ret o) s = .next t ∧ s.OnlyGroup t
      ∧ t.g = { s.g with ret := [RetEntry.ofWord (s.memRead (s.stackKey s.g 0 (8 * (s.g.retArea - 1))) 8)], retArea := s.g.retArea - 1,
                         pc := e.addr, notBefore := s.clock + 1 + max o.st.toNat 2 + 20, sig := 0xFFFF }) ∧
    (e.depth ≠ s.g.reconDepth → r ≠ [] ∨ s.g.retArea = 0 ∨ (s.banks = [] ∧ s.memPoisoned (s.stackKey s.g 0 (8 * (s.g.retArea - 1))) 8 = false) →
      exec (.ret o) s = .next (s.stopped .scal 1 o.st.toNat (.trap 6 6 127 0)))) ∧
  (∀ (o : Z0) (s : State), s.g.ret = [] → s.g.retArea = 0 → exec (.ret o) s = exec (.exit o) s)

/-- R93, R100: EXIT ends the active lanes: their bits leave the mask and every reconvergence entry on chip, and while a present
lane remains the group goes on behind it; when none remains the group has ended. An all-zero mask ends nothing. -/
def Sys2Proof.Claim.Exits : Prop :=
  ∀ (o : Z0) (s : State), s.Issues .scal maskRefs → s.g.reconArea = 0 →
    let m := s.g.rdMask s.clock &&& s.g.live
    (m ≠ 0 → s.g.live &&& ~~~m ≠ 0 → ∃ t, exec (.exit o) s = .next t ∧ s.OnlyGroup t
      ∧ t.g.pc = s.g.pc + 4 ∧ t.g.exited = s.g.exited ||| m ∧ t.g.mask = s.g.mask &&& ~~~m
      ∧ t.g.recon = s.g.recon.map (fun e => { e with m := e.m &&& t.g.live, x := e.x &&& t.g.live })
      ∧ t.g.v = s.g.v ∧ t.g.s = s.g.s ∧ t.g.p = s.g.p ∧ t.g.gsr = s.g.gsr ∧ t.g.ret = s.g.ret) ∧
    (m = 0 → s.g.live ≠ 0 → ∃ t, exec (.exit o) s = .next t ∧ s.Passed t 4 o.st.toNat) ∧
    (s.g.live &&& ~~~m = 0 → m ≠ 0 → (s.g.pend.all fun p => p.kind != .term) = true → s.Sound →
      ∃ t, exec (.exit o) s = .next t ∧ t.g.id = s.g.id ∧ t.g.wait = .ended ∧ t.g.mask = 0 ∧ t.g.exited = s.g.present ∧ t.g.pend = [])

/-- R89, R90: JTAB through a well-formed table whose header and entries can be fetched, at an LPAD of the table's label, goes to the
target of entry i, or to the default target where the index lies past the table; a misaligned table, a malformed header (log entry
12) and a target without that label trap, and a poisoned index is consumed; LPAD itself does nothing. -/
def Sys2Proof.Claim.JumpTables : Prop :=
  (∀ (o : BC) (s : State) (h e w : Nat), s.Issues .scal [.s o.a.toNat] → s.useS o.a.toNat = false →
    let tab := (s.g.pc + (o.o.signExtend 64 <<< 1)).toNat
    let i := (s.g.rdS s.clock o.a.toNat).toNat
    let entry := if i < h / 65536 then tab + 8 + 4 * i else tab + 4
    let target := BitVec.ofNat 64 tab + ((BitVec.ofNat 32 e).signExtend 64 <<< 1)
    tab % 4 = 0 → fetchWord tab s = .ok h s → h / 4096 % 16 = 0 → fetchWord entry s = .ok e s →
    fetchWord target.toNat s = .ok w s →
    (isLpad w (h % 4096) = true → ∃ t, exec (.jtab o) s = .next t ∧ s.OnlyGroup t
        ∧ t.g = { s.g with pc := target, notBefore := s.clock + 1 + max (max o.st.toNat 5) 2, sig := 0xFFFF }) ∧
    (isLpad w (h % 4096) = false → exec (.jtab o) s = .next (s.stopped .scal 1 o.st.toNat (.trap 7 0 127 0)))) ∧
  (∀ (o : BC) (s : State), s.Issues .scal [.s o.a.toNat] → s.useS o.a.toNat = true →
    exec (.jtab o) s = .next ((s.mg fun g => g.ck 0).stopped .scal 1 o.st.toNat (.consumed 0))) ∧
  (∀ (o : BC) (s : State), s.Issues .scal [.s o.a.toNat] → s.useS o.a.toNat = false →
    let tab := (s.g.pc + (o.o.signExtend 64 <<< 1)).toNat
    (tab % 4 ≠ 0 → exec (.jtab o) s = .next (s.stopped .scal 1 o.st.toNat (.trap 2 0 127 0))) ∧
    (∀ h, tab % 4 = 0 → fetchWord tab s = .ok h s → h / 4096 % 16 ≠ 0 →
      exec (.jtab o) s = .next (s.stopped .scal 1 o.st.toNat (.trap 1 5 127 0)))) ∧
  (∀ (o : LP) (s : State), s.Issues .scal [] → ∃ t, exec (.lpad o) s = .next t ∧ s.Passed t 4 o.st.toNat)

/-! ### Divergence (R91 to R97) -/

namespace Sys2Proof.Machine

/-- A group with the registers rs not ready before clock c. -/
def Group.later (g : Group) (rs : List Ref) (c : Nat) : Group := rs.foldl (fun k r => k.produce r c) g
/-- e0, e1 and e2, and with them %fmt. -/
def maskWords : List Ref := [.s 56, .s 57, .s 58]
def maskAndFmt : List Ref := maskWords ++ [.spr 1]

/-- What divergence instructions leave alone: the device, and of the group every register but the mask, %fmt and the
reconvergence stack; and when the registers rs that they write are ready: after lat clocks. -/
def State.Diverged (s t : State) (rs : List Ref) (lat : Nat) : Prop :=
  s.OnlyGroup t ∧ t.g.inflight = (s.g.later rs (s.clock + lat)).inflight ∧ t.g.pend = s.g.pend ∧ t.g = { s.g.kept t.g with
    mask := t.g.mask, fmt := t.g.fmt, recon := t.g.recon, reconArea := t.g.reconArea, reconLost := t.g.reconLost, sig := t.g.sig }

/-- The pc after an instruction that jumps to target when a condition holds and otherwise passes. -/
def State.Goes (s t : State) (c : Prop) (target : Addr) (st : Nat) : Prop :=
  (c → t.g.pc = target ∧ t.g.sig = 0xFFFF ∧ t.g.notBefore = s.clock + 1 + max st 2) ∧
  (¬c → t.g.pc = s.g.pc + 4 ∧ t.g.sig = s.g.sig ∧ t.g.notBefore = s.clock + 1 + st)

/-- A predicate or its complement, as bit n of the word says. -/
def Group.side (g : Group) (now p : Nat) (n : BitVec 1) (l : Nat) : Bool := (g.rdP now p).getLsbD l != decide (n = 1)

end Sys2Proof.Machine

/-- R91, R96: VIF pushes an IF entry of the mask, the lanes that leave and %fmt; the mask keeps the lanes of the predicate and is ready
after 4 clocks, and an empty mask jumps. The ninth entry moves the oldest to the control area; beyond 31 it traps. -/
def Sys2Proof.Claim.IfBegins : Prop :=
  ∀ (o : DF) (s : State), s.memOk → s.Issues .scal (maskRefs ++ [.p o.p.toNat, .spr 1]) →
    let m := s.g.rdMask s.clock
    let target := s.g.pc + (o.o.signExtend 64 <<< 1)
    (s.g.reconDepth < 31 → s.g.recon.length < 8 → ∃ t, exec (.vif o) s = .next t ∧ s.Diverged t maskWords 4
      ∧ (∃ x : Mask, t.g.recon = s.g.recon ++ [⟨false, false, m, x, s.g.rdFmt s.clock⟩] ∧ t.g.reconArea = s.g.reconArea
        ∧ ∀ l, l < 96 → x.getLsbD l = (m.getLsbD l && !s.g.side s.clock o.p.toNat o.n l))
      ∧ (∀ l, l < 96 → t.g.mask.getLsbD l = (m.getLsbD l && s.g.side s.clock o.p.toNat o.n l && s.g.live.getLsbD l))
      ∧ t.g.fmt = s.g.fmt
      ∧ s.Goes t (∀ l, l < 96 → (m.getLsbD l && s.g.side s.clock o.p.toNat o.n l) = false) target o.st.toNat) ∧
    (∀ (e : ReconEntry) (r : List ReconEntry), s.g.reconDepth < 31 → s.g.recon = e :: r → s.g.recon.length = 8 →
      s.Flat (s.stackKey s.g 0 0) 0x480 →
      ∃ t y, exec (.vif o) s = .next t ∧ t.g.recon = r ++ [y] ∧ t.g.reconArea = s.g.reconArea + 1
      ∧ (∀ l, l < 96 → t.g.mask.getLsbD l = (m.getLsbD l && s.g.side s.clock o.p.toNat o.n l && s.g.live.getLsbD l))
      ∧ t.g.inflight = (s.g.later maskWords (s.clock + 4)).inflight
      ∧ t.memBytes (s.stackKey s.g 0 (0x180 + 32 * s.g.reconArea)) 32 = e.bytes
      ∧ t.memRead (s.stackKey s.g 0 0x460) 32 = 0
      ∧ (∀ a, a < s.place (s.stackKey s.g 0 (0x180 + 32 * s.g.reconArea)) ∨ s.place (s.stackKey s.g 0 (0x180 + 32 * s.g.reconArea)) + 32 ≤ a →
          a < s.place (s.stackKey s.g 0 0x460) ∨ s.place (s.stackKey s.g 0 0x460) + 32 ≤ a → Memory.get t.mem a = Memory.get s.mem a)) ∧
    (31 ≤ s.g.reconDepth → exec (.vif o) s = .next (s.stopped .scal 1 o.st.toNat (.trap 6 5 127 0)))

/-- R94 to R96: VELSE hands the mask to the lanes the IF entry kept and restores %fmt; VEND restores the outer mask and %fmt and
removes the entry, and with the last one on chip refills the newest of the control area. A newest entry that is none of the kind raises subcause 4, a mask outside the entry's subcause 3.
That these masks and %fmt are ready after two clocks is the model's reading (DEDUCED, log entry 24). -/
def Sys2Proof.Claim.IfElseEnds : Prop :=
  (∀ (o : DO) (s : State) (r : List ReconEntry) (e : ReconEntry), s.Issues .scal [] → s.g.recon = r ++ [e] →
    (e.loop = false → e.els = false → ∃ t, exec (.velse o) s = .next t ∧ s.Diverged t maskAndFmt 2
      ∧ t.g.recon = r ++ [{ e with els := true, x := 0 }] ∧ t.g.reconArea = s.g.reconArea ∧ t.g.mask = e.x &&& s.g.live
      ∧ t.g.fmt = fmtWrite e.f ∧ s.Goes t (e.x &&& s.g.live = 0) (s.g.pc + (o.o.signExtend 64 <<< 1)) o.st.toNat) ∧
    (e.loop = true ∨ e.els = true → exec (.velse o) s = .next (s.stopped .scal 1 o.st.toNat (.trap 6 4 127 0)))) ∧
  (∀ (o : Z0) (s : State) (r : List ReconEntry) (e : ReconEntry), s.Issues .scal maskRefs → s.g.recon = r ++ [e] →
    s.g.region = none →
    (e.loop = false → s.g.rdMask s.clock &&& ~~~e.m = 0 → r ≠ [] ∨ s.g.reconArea = 0 → ∃ t, exec (.vend o) s = .next t ∧ s.Diverged t maskAndFmt 2
      ∧ t.g.recon = r ∧ t.g.reconArea = s.g.reconArea ∧ t.g.mask = e.m &&& s.g.live ∧ t.g.fmt = fmtWrite e.f ∧ t.g.pc = s.g.pc + 4) ∧
    (e.loop = false → s.g.rdMask s.clock &&& ~~~e.m = 0 → r = [] → s.g.reconArea ≠ 0 → s.g.reconLost < s.g.reconArea → s.banks = [] →
      s.memPoisoned (s.stackKey s.g 0 (0x180 + 32 * (s.g.reconArea - 1))) 32 = false → ∃ t, exec (.vend o) s = .next t ∧ s.Diverged t maskAndFmt 2
      ∧ (let k := ReconEntry.ofBytes (s.memBytes (s.stackKey s.g 0 (0x180 + 32 * (s.g.reconArea - 1))) 32)
         t.g.recon = [{ k with m := k.m &&& s.g.live, x := k.x &&& s.g.live }])
      ∧ t.g.reconArea = s.g.reconArea - 1 ∧ t.g.mask = e.m &&& s.g.live ∧ t.g.fmt = fmtWrite e.f ∧ t.g.pc = s.g.pc + 4) ∧
    (e.loop = false → s.g.rdMask s.clock &&& ~~~e.m ≠ 0 → r ≠ [] ∨ s.g.reconArea = 0 → exec (.vend o) s = .next (s.stopped .scal 1 o.st.toNat (.trap 6 3 127 0))) ∧
    (e.loop = true → exec (.vend o) s = .next (s.stopped .scal 1 o.st.toNat (.trap 6 4 127 0))))

/-- R97: VLOOP pushes a LOOP entry; VBRK takes lanes out of the innermost loop and every IF entry above it, VCONT parks them in the
LOOP entry; VENDL goes back with the lanes that go on, or restores the loop's mask and %fmt and removes the entry.
That these masks and %fmt are ready after two clocks is the model's reading (DEDUCED, log entry 24). -/
def Sys2Proof.Claim.Loops : Prop :=
  (∀ (o : DO) (s : State), s.Issues .scal (maskRefs ++ [.spr 1]) → s.g.reconDepth < 31 → s.g.recon.length < 8 →
    ∃ t, exec (.vloop o) s = .next t ∧ s.Diverged t [] 0
      ∧ t.g.recon = s.g.recon ++ [⟨true, false, s.g.rdMask s.clock, 0, s.g.rdFmt s.clock⟩] ∧ t.g.reconArea = s.g.reconArea
      ∧ t.g.mask = s.g.mask ∧ t.g.fmt = s.g.fmt
      ∧ s.Goes t (s.g.rdMask s.clock = 0) (s.g.pc + (o.o.signExtend 64 <<< 1)) o.st.toNat) ∧
  (∀ c ∈ [((.vbrk : DP → Instr), false), (.vcont, true)], ∀ (o : DP) (s : State) (r q : List ReconEntry) (e : ReconEntry),
    s.Issues .scal (maskRefs ++ [.p o.p.toNat]) → s.g.reconArea = 0 → s.g.recon = r ++ [e] ++ q → e.loop = true →
    (∀ k ∈ q, k.loop = false) →
    ∃ t, exec (c.1 o) s = .next t ∧ s.Diverged t maskWords 2 ∧ t.g.pc = s.g.pc + 4 ∧ t.g.fmt = s.g.fmt
      ∧ ∃ out : Mask, (∀ l, l < 96 → out.getLsbD l = ((s.g.rdMask s.clock).getLsbD l && s.g.side s.clock o.p.toNat o.n l))
      ∧ t.g.recon = r ++ [if c.2 then { e with x := e.x ||| out } else e] ++ q.map (fun k => { k with m := k.m &&& ~~~out, x := k.x &&& ~~~out })
      ∧ t.g.mask = s.g.rdMask s.clock &&& ~~~out &&& s.g.live) ∧
  (∀ (o : DF) (s : State) (r : List ReconEntry) (e : ReconEntry), s.Issues .scal (maskRefs ++ [.p o.p.toNat]) → s.g.recon = r ++ [e] →
    e.loop = true → s.g.region = none →
    ∀ go : Mask, (∀ l, l < 96 → go.getLsbD l =
      (((s.g.rdMask s.clock).getLsbD l || e.x.getLsbD l) && s.g.side s.clock o.p.toNat o.n l && s.g.live.getLsbD l)) →
    (go ≠ 0 → ∃ t, exec (.vendl o) s = .next t ∧ s.Diverged t maskWords 2 ∧ t.g.recon = r ++ [{ e with x := 0 }] ∧ t.g.mask = go
      ∧ t.g.fmt = s.g.fmt ∧ t.g.pc = s.g.pc + (o.o.signExtend 64 <<< 1)) ∧
    (go = 0 → s.g.rdMask s.clock &&& ~~~e.m = 0 → r ≠ [] ∨ s.g.reconArea = 0 → ∃ t, exec (.vendl o) s = .next t ∧ s.Diverged t maskAndFmt 2
      ∧ t.g.recon = r ∧ t.g.mask = e.m &&& s.g.live ∧ t.g.fmt = fmtWrite e.f ∧ t.g.pc = s.g.pc + 4))

/-- R94, R106: with no entry on the stack, or none of its kind, VELSE, VEND and VENDL raise the control-structure trap of subcause
4, and so do VBRK and VCONT outside every loop. -/
def Sys2Proof.Claim.UnmatchedDivergence : Prop :=
  (∀ (o : DO) (p : Z0) (s : State), s.Issues .scal maskRefs → s.g.recon = [] →
    exec (.velse o) s = .next (s.stopped .scal 1 o.st.toNat (.trap 6 4 127 0))
    ∧ exec (.vend p) s = .next (s.stopped .scal 1 p.st.toNat (.trap 6 4 127 0))) ∧
  (∀ (o : DF) (s : State), s.Issues .scal (maskRefs ++ [.p o.p.toNat]) → (∀ e, s.g.recon.getLast? = some e → e.loop = false) →
    exec (.vendl o) s = .next (s.stopped .scal 1 o.st.toNat (.trap 6 4 127 0))) ∧
  (∀ (o : DP) (s : State), s.Issues .scal (maskRefs ++ [.p o.p.toNat]) → s.g.reconArea = 0 → s.g.reconLost = 0 →
    (∀ e ∈ s.g.recon, e.loop = false) → exec (.vbrk o) s = .next (s.stopped .scal 1 o.st.toNat (.trap 6 4 127 0))
    ∧ exec (.vcont o) s = .next (s.stopped .scal 1 o.st.toNat (.trap 6 4 127 0)))

/-! ### WAIT, NOP, YIELD, SLEEP, elections, signatures (R72, R99 to R104) -/

/-- R72, R99: NOP passes; WAIT passes when every counter is at or below its threshold and otherwise leaves the group waiting at it,
its pc unmoved; a WAIT that passes covers every matrix unit but as many as its threshold on MXCNT (R194); SLEEP passes and leaves the group not ready for the clocks its scalar names; YIELD passes and gives the group's
active place to the oldest ready pending group of its quarter, if there is one, waiting first for a swap the quarter has already
started in this clock (log entry 52). That SLEEP's clocks count from its issue on is the model's choice (log entry 59). -/
def Sys2Proof.Claim.WaitsAndPauses : Prop :=
  (∀ (o : Z0) (s : State), s.Issues .scal [] → ∃ t, exec (.nop o) s = .next t ∧ s.Passed t 4 o.st.toNat) ∧
  (∀ (o : WT) (s : State), s.Issues .scal [] →
    ((s.g.count .ld ≤ o.l.toNat ∧ s.g.count .st ≤ o.w.toNat ∧ s.g.count .mx ≤ o.m.toNat ∧ s.g.count .en ≤ o.e.toNat
        ∧ s.g.count .tm ≤ o.t.toNat) → ∃ t, exec (.wait o) s = .next t ∧ (s.mxOwns = [] → s.Passed t 4 o.st.toNat)
        ∧ t.g = { s.g with pc := s.g.pc + 4, notBefore := s.clock + 1 + o.st.toNat, mxRuns := t.g.mxRuns } ∧ t.others = s.others
        ∧ t.mxTags.length ≤ o.m.toNat) ∧
    (¬(s.g.count .ld ≤ o.l.toNat ∧ s.g.count .st ≤ o.w.toNat ∧ s.g.count .mx ≤ o.m.toNat ∧ s.g.count .en ≤ o.e.toNat
        ∧ s.g.count .tm ≤ o.t.toNat) →
      exec (.wait o) s = .next { s with g := { s.g with sig := s.g.sigLatch, wait := .counts o.l.toNat o.w.toNat o.m.toNat o.e.toNat o.t.toNat } })) ∧
  (∀ (o : A1) (s : State), s.Issues .scal [.s o.a.toNat] → s.useS o.a.toNat = false →
    ∃ t, exec (.sleep o) s = .next t ∧ s.OnlyGroup t ∧
      t.g = { s.g with pc := s.g.pc + 4, notBefore := s.clock + 1 + o.st.toNat,
                       wait := if s.g.rdS s.clock o.a.toNat = 0 then s.g.wait
                               else .sleep (s.clock + (s.g.rdS s.clock o.a.toNat).toNat) }) ∧
  (∀ (o : Z0) (s : State), s.Issues .scal [] →
    (s.pendingReady s.g.core s.g.quarter = [] → ∃ t, exec (.yield o) s = .next t ∧ s.Passed t 4 o.st.toNat) ∧
    (s.pendingReady s.g.core s.g.quarter ≠ [] → s.swapped s.g.core s.g.quarter = true → exec (.yield o) s = .next (s.hold (s.clock + 1))) ∧
    (∀ h r, s.pendingReady s.g.core s.g.quarter = h :: r → h.id ≠ s.g.id → s.swapped s.g.core s.g.quarter = false → ∃ t, exec (.yield o) s = .next t
      ∧ t.g.pc = s.g.pc + 4 ∧ t.g.active = false ∧ t.g.v = s.g.v ∧ t.g.s = s.g.s ∧ t.g.p = s.g.p ∧ t.mem = s.mem
      ∧ ∀ k ∈ t.others, k.id = h.id → k.active = true ∧ s.clock + 2 ≤ k.notBefore))

/-- R101: ELECT leaves in a predicate the lowest active lane alone, and in SCC whether there is one. -/
def Sys2Proof.Claim.Elects : Prop :=
  ∀ (o : PP) (s : State), s.g.Formed → s.Issues .scal maskRefs →
    let m := s.g.rdMask s.clock
    ∃ t, exec (.elect o) s = .next t ∧ s.Issued t .scal (s.g.pc + 4) o.st.toNat ∧ s.OnlyGroup t
      ∧ (∀ l, l < 96 → s.g.live.getLsbD l = true →
          (t.g.p.getD o.p.toNat 0).getLsbD l = (m.getLsbD l && decide (∀ k, k < l → m.getLsbD k = false)))
      ∧ (∀ l, s.g.live.getLsbD l = false → (t.g.p.getD o.p.toNat 0).getLsbD l = (s.g.p.getD o.p.toNat 0).getLsbD l)
      ∧ (∀ r, r ≠ o.p.toNat → t.g.p.getD r 0 = s.g.p.getD r 0)
      ∧ t.g.gsrBit 0 = decide (m ≠ 0) ∧ (∀ i, i ≠ 0 → t.g.gsrBit i = s.g.gsrBit i) ∧ t.g.v = s.g.v ∧ t.g.s = s.g.s

/-- R104: SIGCHK passes and starts %sig afresh when %sig and the reconvergence depth are those it names; otherwise it raises the
control-structure trap of subcause 1 or 2. -/
def Sys2Proof.Claim.Signatures : Prop :=
  ∀ (o : SG) (s : State), s.Issues .scal [.spr 2] → s.g.inflight = [] →
    (s.g.sig = o.c.setWidth 32 → s.g.reconDepth = o.d.toNat → ∃ t, exec (.sigchk o) s = .next t ∧ s.OnlyGroup t
      ∧ t.g = { s.g with pc := s.g.pc + 4, notBefore := s.clock + 1 + o.st.toNat, sig := 0xFFFF }) ∧
    (s.g.sig ≠ o.c.setWidth 32 → exec (.sigchk o) s = .next (s.stopped .scal 1 o.st.toNat (.trap 6 1 127 0))) ∧
    (s.g.sig = o.c.setWidth 32 → s.g.reconDepth ≠ o.d.toNat →
      exec (.sigchk o) s = .next (s.stopped .scal 1 o.st.toNat (.trap 6 2 127 0)))

/-- R103: every unit's halfwords, low byte first, are folded into a CRC-16 of polynomial 0x1021: a byte is added to the upper half, and eight
times the sum is shifted left by one, with 0x1021 added when bit 15 was set. -/
def Sys2Proof.Claim.SignatureFold : Prop :=
  (∀ sig : Word, foldSig sig [] = sig &&& 0xFFFF) ∧
  (∀ (sig : Word) (h : Nat) (r : List Nat), foldSig sig (h :: r)
    = foldSig (BitVec.ofNat 32 (crcByte (crcByte (sig.toNat % 65536) (h % 256)) (h / 256 % 256))) r) ∧
  (∀ c b, c < 65536 → b < 256 → crcByte c b < 65536 ∧ ∃ r : Nat → BitVec 16, (r 0).toNat = c ^^^ (b * 256)
    ∧ (∀ i, i < 8 → r (i + 1) = (if (r i).getLsbD 15 then (r i <<< 1) ^^^ 0x1021 else r i <<< 1)) ∧ (r 8).toNat = crcByte c b)

/-- R102, R262: a group that arrives at BAR, CBAR or ELECTW while another group of its workgroup has not arrived waits there, its pc
behind the instruction. -/
def Sys2Proof.Claim.RendezvousWaits : Prop :=
  ∀ (o : Z0) (p : PP) (s : State) (h : Group), s.Sound → s.Issues .scal maskRefs → (s.g.pend.all fun q => q.kind != .term && q.todo.isEmpty) = true →
    s.g.wait = .ready → h ∈ s.others → h.wg = s.g.wg → h.wait ≠ .ended → h.wait.isBar = false → h.wait ≠ .cbar → h.wait.isElectw = false →
    (h.nBar ≤ s.g.nBar → (∀ k ∈ s.others, k.wait.isBar = true → s.g.nBar < k.nBar) →
      ∃ t, exec (.bar o) s = .next t ∧ t.g.pc = s.g.pc + 4 ∧ t.g.wait = .bar 0 ∧ t.g.nBar = s.g.nBar + 1 ∧ t.others = s.others
        ∧ t.mem = s.mem ∧ t.g.v = s.g.v ∧ t.g.s = s.g.s ∧ t.g.p = s.g.p ∧ t.g.gsr = s.g.gsr) ∧
    (h.nElectw ≤ s.g.nElectw → (∀ k ∈ s.others, k.wait.isElectw = true → s.g.nElectw < k.nElectw) →
      ∃ t, exec (.electw p) s = .next t ∧ t.g.pc = s.g.pc + 4 ∧ t.g.wait.isElectw = true ∧ t.g.nElectw = s.g.nElectw + 1
        ∧ t.others = s.others ∧ t.mem = s.mem ∧ t.g.v = s.g.v ∧ t.g.s = s.g.s ∧ t.g.p = s.g.p ∧ t.g.gsr = s.g.gsr) ∧
    (h.nCbar ≤ s.g.nCbar → (∀ k ∈ s.others, k.wait = .cbar → s.g.nCbar < k.nCbar) →
      ∃ t, exec (.cbar o) s = .next t ∧ t.g.pc = s.g.pc + 4 ∧ t.g.wait = .cbar ∧ t.g.nCbar = s.g.nCbar + 1 ∧ t.others = s.others
        ∧ t.mem = s.mem ∧ t.g.v = s.g.v ∧ t.g.s = s.g.s ∧ t.g.p = s.g.p ∧ t.g.gsr = s.g.gsr)

/-- R102, R262: the last group of a workgroup that arrives passes at once, and with it every group that waited: no earlier than four
core clocks later. ELECTW elects the lowest active lane of the lowest-numbered group that has one. -/
def Sys2Proof.Claim.RendezvousPasses : Prop :=
  ∀ (o : Z0) (p : PP) (s : State), s.Sound → s.Issues .scal maskRefs → (s.g.pend.all fun q => q.kind != .term && q.todo.isEmpty) = true →
    s.g.wait = .ready →
    ((∀ k ∈ s.others, k.wg = s.g.wg → k.wait ≠ .ended → k.wait = .bar 0 ∧ k.nBar = s.g.nBar + 1) →
      ∃ t, exec (.bar o) s = .next t ∧ t.g.pc = s.g.pc + 4 ∧ t.g.wait = .ready ∧ s.clock + 4 ≤ t.g.notBefore ∧ t.mem = s.mem
        ∧ t.g.v = s.g.v ∧ t.g.s = s.g.s ∧ t.g.p = s.g.p
        ∧ ∀ k ∈ t.others, k.wg = s.g.wg → k.wait ≠ .ended → k.wait = .ready ∧ s.clock + 4 ≤ k.notBefore) ∧
    ((∀ k ∈ s.others, k.wg = s.g.wg → k.wait ≠ .ended → k.wait.isElectw = true ∧ k.nElectw = s.g.nElectw + 1) →
      let m := s.g.rdMask s.clock
      (∀ k ∈ s.others, k.wg = s.g.wg → ∀ q l, k.wait = .electw q (some l) → s.g.gidx < k.gidx) →
      ∃ t, exec (.electw p) s = .next t ∧ t.g.pc = s.g.pc + 4 ∧ t.g.wait = .ready ∧ s.clock + 4 ≤ t.g.notBefore ∧ t.mem = s.mem
        ∧ t.g.gsrBit 0 = decide (m ≠ 0)
        ∧ (∀ l, s.g.live.getLsbD l = true →
            (t.g.p.getD p.p.toNat 0).getLsbD l = (m.getLsbD l && decide (∀ k, k < l → m.getLsbD k = false)))) ∧
    ((∀ k ∈ s.others, k.wg = s.g.wg → k.wait ≠ .ended → k.wait.isElectw = true ∧ k.nElectw = s.g.nElectw + 1) →
      (∃ k ∈ s.others, k.wg = s.g.wg ∧ k.gidx < s.g.gidx ∧ ∃ q l, k.wait = .electw q (some l)) →
      ∃ t, exec (.electw p) s = .next t ∧ t.g.pc = s.g.pc + 4 ∧ t.g.wait = .ready ∧ t.g.gsrBit 0 = false
        ∧ ∀ l, s.g.live.getLsbD l = true → (t.g.p.getD p.p.toNat 0).getLsbD l = false) ∧
    ((∀ k ∈ s.others, k.wg = s.g.wg → k.wait = .ended) → (∀ w, s.wg? s.g.wg = some w → w.inCloud = false) →
      ∃ t, exec (.cbar o) s = .next t ∧ t.g.pc = s.g.pc + 4 ∧ t.g.wait = .ready ∧ s.clock + 4 ≤ t.g.notBefore
        ∧ (s.mxOwns = [] → t.mem = s.mem) ∧ t.g.v = s.g.v ∧ t.g.s = s.g.s ∧ t.g.p = s.g.p)

/-! ### Lane arithmetic (R119 to R143) -/

namespace Sys2Proof.Machine

/-- R119: a lane instruction as a whole. The unit issues, some lane is active, no operand word of an active lane is poisoned and
the destination has room: then in the next state every active lane of d holds f of its operand words, ready after lat clocks and
those its routed sources add, the sticky flags are raised as f says, and nothing else has changed. -/
def State.GivesLanes (s : State) (i : Instr) (cls : Cls) (len st lat d : Nat) (refs : List Ref) (srcs : List Opd)
    (f : List Word → FRes) : Prop :=
  s.g.Formed → s.Issues cls (maskRefs ++ refs) → s.g.rdMask s.clock ≠ 0 → (∀ o ∈ srcs, o.pz &&& s.g.rdMask s.clock = 0) →
  s.g.Room d →
  ∃ t, exec i s = .next t ∧ s.Issued t cls (s.g.pc + BitVec.ofNat 64 len) st ∧
    s.WroteLanes t (lat + (srcs.map (·.lat)).sum) d (s.g.rdMask s.clock)
      (fun l => BitVec.ofNat 32 (f (srcs.map fun o => o.val.lane l)).bits) 0
      ((lanesOf (s.g.rdMask s.clock)).any fun l => (f (srcs.map fun o => o.val.lane l)).ovf)
      ((lanesOf (s.g.rdMask s.clock)).any fun l => (f (srcs.map fun o => o.val.lane l)).sat)

/-- Sources a and b of a V3 unit, routed. -/
def State.srcs (s : State) (o : RDAB) : List Opd := [s.g.opd s.clock o.a.toNat (rtA o.rt), s.g.opd s.clock o.b.toNat (rtB o.rt)]
/-- The registers they read. -/
def State.refs (s : State) (o : RDAB) : List Ref := s.g.opdRefs s.clock o.a.toNat (rtA o.rt) ++ s.g.opdRefs s.clock o.b.toNat (rtB o.rt)
/-- Source a of a VS unit and its scalar. -/
def State.srcsS (s : State) (o : RDAB) : List Opd :=
  [s.g.opd s.clock o.a.toNat (rtA o.rt), scalarOpd (s.g.rdS s.clock o.b.toNat) (s.g.rdSP s.clock o.b.toNat)]
def State.refsS (s : State) (o : RDAB) : List Ref := s.g.opdRefs s.clock o.a.toNat (rtA o.rt) ++ [.s o.b.toNat]

/-- R123, R126: two-source integer forms. -/
def laneInt : List ((RDAB → Instr) × (Word → Word → Word)) :=
  [(.vaddI32, fun x y => x + y), (.vsubI32, fun x y => x - y), (.vmulLo, fun x y => x * y),
   (.vmulhI, fun x y => BitVec.ofInt 32 ((x.toInt * y.toInt) / 2 ^ 32)), (.vmulhN, fun x y => BitVec.ofNat 32 (x.toNat * y.toNat / 2 ^ 32)),
   (.vabsdI, fun x y => BitVec.ofNat 32 (x.toInt - y.toInt).natAbs),
   (.vand, fun x y => x &&& y), (.vor, fun x y => x ||| y), (.vxor, fun x y => x ^^^ y), (.vandn, fun x y => x &&& ~~~y),
   (.vshl, fun x y => if y.toNat % 64 < 32 then x <<< (y.toNat % 64) else 0),
   (.vshrN, fun x y => if y.toNat % 64 < 32 then x >>> (y.toNat % 64) else 0),
   (.vshrI, fun x y => if y.toNat % 64 < 32 then x.sshiftRight (y.toNat % 64) else if x.msb then 0xFFFFFFFF else 0),
   (.vrotl, fun x y => x.rotateLeft (y.toNat % 32)),
   (.vminI, fun x y => if x.toInt ≤ y.toInt then x else y), (.vmaxI, fun x y => if x.toInt ≤ y.toInt then y else x),
   (.vminN, fun x y => if x.toNat ≤ y.toNat then x else y), (.vmaxN, fun x y => if x.toNat ≤ y.toNat then y else x),
   (.vbfeN, bfeN), (.vbfeI, bfeI), (.vpermb, permb)]
/-- R123: one-source integer forms. -/
def laneUnary : List ((RDA → Instr) × (Word → Word)) :=
  [(.vpopc, popc), (.vclz, clz), (.vbrev, fun x => x.reverse)]
/-- R19: the 16-bit integer forms, whose first source is d. -/
def laneShort : List ((H16 → Instr) × (Word → Word → Word)) :=
  [(.vaddI3216, fun x y => x + y), (.vsubI3216, fun x y => x - y), (.vand16, fun x y => x &&& y), (.vor16, fun x y => x ||| y),
   (.vxor16, fun x y => x ^^^ y), (.vmulLo16, fun x y => x * y),
   (.vshl16, fun x y => if y.toNat % 64 < 32 then x <<< (y.toNat % 64) else 0),
   (.vshrN16, fun x y => if y.toNat % 64 < 32 then x >>> (y.toNat % 64) else 0),
   (.vshrI16, fun x y => if y.toNat % 64 < 32 then x.sshiftRight (y.toNat % 64) else if x.msb then 0xFFFFFFFF else 0)]
/-- R124: the immediate forms. -/
def laneImmediate : List ((VDAI → Instr) × (Word → Word → Word)) :=
  [(.vaddi, fun x y => x + y), (.vandi, fun x y => x &&& y), (.vori, fun x y => x ||| y), (.vxori, fun x y => x ^^^ y),
   (.vshli, fun x y => if y.toNat % 64 < 32 then x <<< (y.toNat % 64) else 0),
   (.vshriN, fun x y => if y.toNat % 64 < 32 then x >>> (y.toNat % 64) else 0),
   (.vshriI, fun x y => if y.toNat % 64 < 32 then x.sshiftRight (y.toNat % 64) else if x.msb then 0xFFFFFFFF else 0)]
/-- R125: the forms of a vector and a scalar source. -/
def laneScalar : List ((RDAB → Instr) × (Word → Word → Word)) :=
  [(.vaddS, fun x y => x + y), (.vmulS, fun x y => x * y), (.vandS, fun x y => x &&& y),
   (.vshlS, fun x y => if y.toNat % 64 < 32 then x <<< (y.toNat % 64) else 0),
   (.vshrSN, fun x y => if y.toNat % 64 < 32 then x >>> (y.toNat % 64) else 0)]

/-- R123: a signed sum or difference saturated to 32 bits, with SAT. -/
def saturated (v : Int) : FRes :=
  if v < -2 ^ 31 then ⟨2 ^ 31, false, true⟩ else if 2 ^ 31 ≤ v then ⟨2 ^ 31 - 1, false, true⟩ else ⟨(BitVec.ofInt 32 v).toNat, false, false⟩
/-- R137: the halves of BF16 pairs by themselves, OVF.F for either. -/
def pair2 (f : Nat → Nat → FRes) (x y : Nat) : FRes :=
  ⟨(f (x % 65536) (y % 65536)).bits + 65536 * (f (x / 65536) (y / 65536)).bits,
    (f (x % 65536) (y % 65536)).ovf || (f (x / 65536) (y / 65536)).ovf, false⟩

/-- R132, R137: two-source float forms under a rounding mode and FTZ. -/
def laneFloat : List ((RDAB → Instr) × (RMode → Bool → Nat → Nat → FRes)) :=
  [(.vaddF32, fun m z => fmtF32.add m z false), (.vsubF32, fun m z => fmtF32.add m z true), (.vmulF32, fun m z => fmtF32.mul m z),
   (.vminF32, fun _ z x y => .ok (fmtF32.minmax z false x y)), (.vmaxF32, fun _ z x y => .ok (fmtF32.minmax z true x y)),
   (.vscalb, fun m z x y => fscalb m z x (BitVec.ofNat 32 y).toInt),
   (.vaddBf2, fun m z => pair2 (fmtBF16.add m z false)), (.vsubBf2, fun m z => pair2 (fmtBF16.add m z true)),
   (.vmulBf2, fun m z => pair2 (fmtBF16.mul m z)), (.vminBf2, fun _ z => pair2 fun x y => .ok (fmtBF16.minmax z false x y)),
   (.vmaxBf2, fun _ z => pair2 fun x y => .ok (fmtBF16.minmax z true x y))]
/-- R132, R137, R138: the float forms that read d as a third source. -/
def laneFloat3 : List ((RDAB → Instr) × (RMode → Bool → Nat → Nat → Nat → FRes)) :=
  [(.vfmaF32, fun m z => fmtF32.fma m z false false), (.vfmsF32, fun m z => fmtF32.fma m z false true),
   (.vfnmaF32, fun m z => fmtF32.fma m z true false), (.vdot2Bf, fun m z => dot2 m z),
   (.vfmaBf2, fun m z x y w => ⟨(fmtBF16.fma m z false false (x % 65536) (y % 65536) (w % 65536)).bits
      + 65536 * (fmtBF16.fma m z false false (x / 65536) (y / 65536) (w / 65536)).bits,
      (fmtBF16.fma m z false false (x % 65536) (y % 65536) (w % 65536)).ovf
        || (fmtBF16.fma m z false false (x / 65536) (y / 65536) (w / 65536)).ovf, false⟩)]
/-- R19: the 16-bit float forms. -/
def laneFloatShort : List ((H16 → Instr) × (RMode → Bool → Nat → Nat → FRes)) :=
  [(.vaddF3216, fun m z => fmtF32.add m z false), (.vsubF3216, fun m z => fmtF32.add m z true), (.vmulF3216, fun m z => fmtF32.mul m z),
   (.vminF3216, fun _ z x y => .ok (fmtF32.minmax z false x y)), (.vmaxF3216, fun _ z x y => .ok (fmtF32.minmax z true x y))]
/-- R134: the float forms with a scalar. -/
def laneFloatScalar : List ((RDAB → Instr) × (RMode → Bool → Nat → Nat → FRes)) :=
  [(.vaddF32S, fun m z => fmtF32.add m z false), (.vmulF32S, fun m z => fmtF32.mul m z),
   (.vminF32S, fun _ z x y => .ok (fmtF32.minmax z false x y)), (.vmaxF32S, fun _ z x y => .ok (fmtF32.minmax z true x y))]
/-- R135: signs, which are bit patterns, and the integer results of classes and exponents. -/
def laneSigns : List ((RDA → Instr) × List Ref × (Bool → Nat → FRes)) :=
  [(.vabsF32, [], fun _ x => .ok (x % 2 ^ 31)), (.vnegF32, [], fun _ x => .ok (if 2 ^ 31 ≤ x then x - 2 ^ 31 else x + 2 ^ 31)),
   (.vclass, [], fun _ x => .ok (fclass x)), (.vgetexp, [.spr 1], fun z x => .ok (BitVec.ofInt 32 (fgetexp z x)).toNat),
   (.vfract, [.spr 1], fun z x => ffract z x)]
/-- R139: the approximate functions, which ignore %fmt. -/
def laneApprox : List ((RDA → Instr) × (Nat → FRes)) :=
  [(.vrcpA, fun x => .ok (approxRcp x)), (.vrsqA, fun x => .ok (approxRsq x)), (.vex2A, approxEx2), (.vlg2A, fun x => .ok (approxLg2 x)),
   (.vsinA, fun x => .ok (approxSin x)), (.vcosA, fun x => .ok (approxCos x)), (.vtanhA, fun x => .ok (approxTanh x))]

end Sys2Proof.Machine

/-- R19, R119, R123, R126: the integer forms of two and of one vector source, in 32-bit and in 16-bit words. -/
def Obligations.LaneIntegerForms : Prop :=
  (∀ c ∈ laneInt, ∀ (o : RDAB) (s : State),
    s.GivesLanes (c.1 o) .vec (if o.rt.isSome then 8 else 4) o.st.toNat 4 o.d.toNat (s.refs o) (s.srcs o) (fn2 c.2)) ∧
  (∀ c ∈ [((.vaddsI : RDAB → Instr), fun (x y : Int) => x + y), (.vsubsI, fun x y => x - y)], ∀ (o : RDAB) (s : State),
    s.GivesLanes (c.1 o) .vec (if o.rt.isSome then 8 else 4) o.st.toNat 4 o.d.toNat (s.refs o) (s.srcs o)
      (fun ws => match ws with | [x, y] => saturated (c.2 x.toInt y.toInt) | _ => .ok 0)) ∧
  (∀ c ∈ laneUnary, ∀ (o : RDA) (s : State),
    s.GivesLanes (c.1 o) .vec (if o.rt.isSome then 8 else 4) o.st.toNat 4 o.d.toNat (s.g.opdRefs s.clock o.a.toNat (rtA o.rt))
      [s.g.opd s.clock o.a.toNat (rtA o.rt)] (fn1 c.2)) ∧
  (∀ c ∈ laneShort, ∀ (o : H16) (s : State),
    s.GivesLanes (c.1 o) .vec 2 (if o.st = 1 then 3 else 0) 4 o.d.toNat [.v o.d.toNat, .v o.b.toNat]
      [s.g.opd s.clock o.d.toNat 0, s.g.opd s.clock o.b.toNat 0] (fn2 c.2)) ∧
  (∀ (o : RDAB) (s : State),
    s.GivesLanes (.vbfi o) .vec (if o.rt.isSome then 8 else 4) o.st.toNat 4 o.d.toNat (s.refs o ++ [.v o.d.toNat])
      (s.srcs o ++ [s.g.opd s.clock o.d.toNat 0]) (fn3 bfi))

/-- R124, R125: the forms with an immediate and with a scalar. -/
def Sys2Proof.Claim.LaneImmediateAndScalarForms : Prop :=
  (∀ c ∈ laneImmediate, ∀ (o : VDAI) (s : State),
    s.GivesLanes (c.1 o) .vec (4 + (if o.limm.isSome then 4 else 0) + (if o.rt.isSome then 4 else 0)) o.st.toNat 4 o.d.toNat
      (s.g.opdRefs s.clock o.a.toNat (rtA o.rt)) [s.g.opd s.clock o.a.toNat (rtA o.rt), scalarOpd (immWord o.i o.limm) false] (fn2 c.2)) ∧
  (∀ c ∈ laneScalar, ∀ (o : RDAB) (s : State),
    s.GivesLanes (c.1 o) .vec (if o.rt.isSome then 8 else 4) o.st.toNat 4 o.d.toNat (s.refsS o) (s.srcsS o) (fn2 c.2)) ∧
  (∀ (o : RDAB) (s : State),
    s.GivesLanes (.vmadS o) .vec (if o.rt.isSome then 8 else 4) o.st.toNat 4 o.d.toNat (s.refsS o ++ [.v o.d.toNat])
      (s.srcsS o ++ [s.g.opd s.clock o.d.toNat 0]) (fn3 fun x u c => x * u + c))

/-- R20, R122, R124, R125: moves: VLI, VMOVS and VLANEID, and VMOV, which writes nothing when it names one register twice without a
route. -/
def Sys2Proof.Claim.LaneMoves : Prop :=
  (∀ (o : VDI) (s : State), s.GivesLanes (.vli o) .vec (4 + (if o.limm.isSome then 4 else 0) + (if o.rt.isSome then 4 else 0)) o.st.toNat 4 o.d.toNat []
    [scalarOpd (immWord o.i o.limm) false] (fn1 fun x => x)) ∧
  (∀ (o : RDB) (s : State), s.GivesLanes (.vmovs o) .vec (if o.rt.isSome then 8 else 4) o.st.toNat 4 o.d.toNat [.s o.b.toNat]
    [scalarOpd (s.g.rdS s.clock o.b.toNat) (s.g.rdSP s.clock o.b.toNat)] (fn1 fun x => x)) ∧
  (∀ (o : H16) (s : State), s.GivesLanes (.vmovs16 o) .vec 2 (if o.st = 1 then 3 else 0) 4 o.d.toNat [.s o.b.toNat]
    [scalarOpd (s.g.rdS s.clock o.b.toNat) (s.g.rdSP s.clock o.b.toNat)] (fn1 fun x => x)) ∧
  (∀ (o : RD) (s : State), s.g.Formed → s.Issues .vec maskRefs → s.g.rdMask s.clock ≠ 0 → s.g.Room o.d.toNat →
    ∃ t, exec (.vlaneid o) s = .next t ∧ s.Issued t .vec (s.g.pc + BitVec.ofNat 64 (if o.rt.isSome then 8 else 4)) o.st.toNat ∧
      s.WroteLanes t 4 o.d.toNat (s.g.rdMask s.clock) (fun l => BitVec.ofNat 32 l) 0 false false) ∧
  (∀ (o : RDB) (s : State), o.d ≠ o.b ∨ rtB o.rt ≠ 0 →
    s.GivesLanes (.vmov o) .vec (if o.rt.isSome then 8 else 4) o.st.toNat 4 o.d.toNat (s.g.opdRefs s.clock o.b.toNat (rtB o.rt))
      [s.g.opd s.clock o.b.toNat (rtB o.rt)] (fn1 fun x => x)) ∧
  (∀ (o : RDB) (s : State), o.d = o.b → rtB o.rt = 0 → s.g.rdMask s.clock ≠ 0 → s.Issues .vec (maskRefs ++ [.v o.b.toNat]) →
    ∃ t, exec (.vmov o) s = .next t ∧ s.Passed t (if o.rt.isSome then 8 else 4) o.st.toNat) ∧
  (∀ (o : H16) (s : State), o.d ≠ o.b →
    s.GivesLanes (.vmov16 o) .vec 2 (if o.st = 1 then 3 else 0) 4 o.d.toNat [.v o.b.toNat] [s.g.opd s.clock o.b.toNat 0]
      (fn1 fun x => x)) ∧
  (∀ (o : H16) (s : State), o.d = o.b → s.g.rdMask s.clock ≠ 0 → s.Issues .vec (maskRefs ++ [.v o.b.toNat]) →
    ∃ t, exec (.vmov16 o) s = .next t ∧ s.Passed t 2 (if o.st = 1 then 3 else 0))

/-- R19, R130 to R135, R137, R138: float arithmetic under the rounding mode and FTZ of %fmt. -/
def Sys2Proof.Claim.LaneFloatForms : Prop :=
  (∀ c ∈ laneFloat, ∀ (o : RDAB) (s : State),
    s.GivesLanes (c.1 o) .vec (if o.rt.isSome then 8 else 4) o.st.toNat 4 o.d.toNat (s.refs o ++ [.spr 1]) (s.srcs o)
      (f2 (c.2 (rmOf (s.g.rdFmt s.clock)) (ftzOf (s.g.rdFmt s.clock))))) ∧
  (∀ c ∈ laneFloat3, ∀ (o : RDAB) (s : State),
    s.GivesLanes (c.1 o) .vec (if o.rt.isSome then 8 else 4) o.st.toNat 4 o.d.toNat (s.refs o ++ [.v o.d.toNat, .spr 1])
      (s.srcs o ++ [s.g.opd s.clock o.d.toNat 0]) (f3 (c.2 (rmOf (s.g.rdFmt s.clock)) (ftzOf (s.g.rdFmt s.clock))))) ∧
  (∀ c ∈ laneFloatShort, ∀ (o : H16) (s : State),
    s.GivesLanes (c.1 o) .vec 2 (if o.st = 1 then 3 else 0) 4 o.d.toNat [.v o.d.toNat, .v o.b.toNat, .spr 1]
      [s.g.opd s.clock o.d.toNat 0, s.g.opd s.clock o.b.toNat 0] (f2 (c.2 (rmOf (s.g.rdFmt s.clock)) (ftzOf (s.g.rdFmt s.clock))))) ∧
  (∀ c ∈ laneFloatScalar, ∀ (o : RDAB) (s : State),
    s.GivesLanes (c.1 o) .vec (if o.rt.isSome then 8 else 4) o.st.toNat 4 o.d.toNat (s.refsS o ++ [.spr 1]) (s.srcsS o)
      (f2 (c.2 (rmOf (s.g.rdFmt s.clock)) (ftzOf (s.g.rdFmt s.clock))))) ∧
  (∀ (o : RDAB) (s : State),
    s.GivesLanes (.vfmaF32S o) .vec (if o.rt.isSome then 8 else 4) o.st.toNat 4 o.d.toNat (s.refsS o ++ [.v o.d.toNat, .spr 1])
      (s.srcsS o ++ [s.g.opd s.clock o.d.toNat 0])
      (f3 (fmtF32.fma (rmOf (s.g.rdFmt s.clock)) (ftzOf (s.g.rdFmt s.clock)) false false))) ∧
  (∀ c ∈ laneSigns, ∀ (o : RDA) (s : State),
    s.GivesLanes (c.1 o) .vec (if o.rt.isSome then 8 else 4) o.st.toNat 4 o.d.toNat (s.g.opdRefs s.clock o.a.toNat (rtA o.rt) ++ c.2.1)
      [s.g.opd s.clock o.a.toNat (rtA o.rt)] (f1 (c.2.2 (ftzOf (s.g.rdFmt s.clock))))) ∧
  (∀ (o : RDA) (s : State),
    s.GivesLanes (.vrint o) .vec (if o.rt.isSome then 8 else 4) o.st.toNat 4 o.d.toNat (s.g.opdRefs s.clock o.a.toNat (rtA o.rt) ++ [.spr 1])
      [s.g.opd s.clock o.a.toNat (rtA o.rt)] (f1 (frint (rmOf (s.g.rdFmt s.clock)) (ftzOf (s.g.rdFmt s.clock))))) ∧
  (∀ (o : RDAB) (s : State),
    s.GivesLanes (.vcopysign o) .vec (if o.rt.isSome then 8 else 4) o.st.toNat 4 o.d.toNat (s.refs o) (s.srcs o)
      (f2 fun x y => .ok (x % 2 ^ 31 + y / 2 ^ 31 * 2 ^ 31)))

/-- R139, R141: the special functions: class and latency of their own; the approximate ones ignore %fmt.
Which of the values R139 lets them take they give is free (DESIGN CHOICE, log entry 6). -/
def Sys2Proof.Claim.LaneSpecialFunctions : Prop :=
  (∀ c ∈ laneApprox, ∀ (o : RDA) (s : State),
    s.GivesLanes (c.1 o) .sfu (if o.rt.isSome then 8 else 4) o.st.toNat 12 o.d.toNat (s.g.opdRefs s.clock o.a.toNat (rtA o.rt))
      [s.g.opd s.clock o.a.toNat (rtA o.rt)] (f1 c.2)) ∧
  (∀ (o : RDA) (s : State),
    s.GivesLanes (.vsqrt o) .sfu (if o.rt.isSome then 8 else 4) o.st.toNat 20 o.d.toNat (s.g.opdRefs s.clock o.a.toNat (rtA o.rt) ++ [.spr 1])
      [s.g.opd s.clock o.a.toNat (rtA o.rt)] (f1 (fmtF32.sqrt (rmOf (s.g.rdFmt s.clock)) (ftzOf (s.g.rdFmt s.clock))))) ∧
  (∀ (o : RDAB) (s : State),
    s.GivesLanes (.vdivF32 o) .sfu (if o.rt.isSome then 8 else 4) o.st.toNat 20 o.d.toNat (s.refs o ++ [.spr 1]) (s.srcs o)
      (f2 (fmtF32.div (rmOf (s.g.rdFmt s.clock)) (ftzOf (s.g.rdFmt s.clock)))))

namespace Sys2Proof.Machine

/-- R108: Read(v, p): the word of register v in lane p, 0 for a lane that is absent or does not exist. -/
def Group.partnerWord (g : Group) (now v p : Nat) : Word := if p < 96 ∧ g.present.getLsbD p = true then (g.rdV now v).lane p else 0

/-- The word a unit writes in every lane of a full write of the shape. -/
def VVal.hasShape (x : VVal) (v : VOp) : Prop :=
  match v with
  | .uniform w => x = .uniform w
  | .affine b d => x = .affine b d
  | .general _ => ∃ k ls, x = .general k ls

/-- R59: a write of every present lane to a register that no counted result is still to reach. -/
def State.FullWrite (s : State) (d : Nat) : Prop := s.g.present &&& ~~~(s.g.rdMask s.clock) = 0 ∧ s.g.owed d = false

/-- R122: a unit completes and leaves register d in the shape given. -/
def State.GivesShape (s : State) (i : Instr) (refs : List Ref) (srcs : List Opd) (d : Nat) (v : VOp) : Prop :=
  s.g.Formed → s.Issues .vec (maskRefs ++ refs) → s.g.rdMask s.clock ≠ 0 → s.FullWrite d →
  (∀ o ∈ srcs, o.pz &&& s.g.rdMask s.clock = 0) →
  ∃ t, exec i s = .next t ∧ ((t.g.v.getD d VReg.zero).val).hasShape v ∧ s.OnlyGroup t ∧ ∀ r, r ≠ d → t.g.v.getD r VReg.zero = s.g.v.getD r VReg.zero

/-- R59, R60: register d is general afterwards, in the slot it had, or in the lowest free one. -/
def State.InSlot (s t : State) (d : Nat) : Prop :=
  ((t.g.v.getD d VReg.zero).val).hasShape (.general []) ∧
  (t.g.v.getD d VReg.zero).val.slot? = match (s.g.v.getD d VReg.zero).val.slot? with
    | some k => some k
    | none => s.g.freeSlot
/-- R122: a unit whose result has no compact shape completes and leaves register d general. -/
def State.GivesGeneral (s : State) (i : Instr) (refs : List Ref) (srcs : List Opd) (d : Nat) : Prop :=
  s.g.Formed → s.Issues .vec (maskRefs ++ refs) → s.g.rdMask s.clock ≠ 0 → s.g.Room d → (∀ o ∈ srcs, o.pz &&& s.g.rdMask s.clock = 0) →
  ∃ t, exec i s = .next t ∧ s.InSlot t d ∧ s.OnlyGroup t ∧ ∀ r, r ≠ d → t.g.v.getD r VReg.zero = s.g.v.getD r VReg.zero
/-- R122: the integer forms of two vector sources without an affine row. -/
def laneNoRow : List (RDAB → Instr) :=
  [.vmulhI, .vmulhN, .vabsdI, .vand, .vor, .vxor, .vandn, .vshrN, .vshrI, .vrotl, .vminI, .vmaxI, .vminN, .vmaxN, .vbfeN, .vbfeI, .vpermb,
   .vaddsI, .vsubsI]

/-- R153, R154, R156: a conversion in mode SR as a whole: every active lane makes its draws, each the new w of its state advanced once, and holds f
of their modes and its operand words; register d is general, the states of the other lanes stand, and both results are ready together. -/
def State.DrawsLanes (s : State) (i : Instr) (len st d : Nat) (refs : List Ref) (srcs : List Opd) (draws : Nat)
    (f : (Nat → RMode) → List Word → FRes) : Prop :=
  s.g.Formed → s.Issues .vec (maskRefs ++ refs ++ [.rnd]) → s.g.rdMask s.clock ≠ 0 → (∀ o ∈ srcs, o.pz &&& s.g.rdMask s.clock = 0) →
  s.g.Room d → s.g.inflight = [] →
  let m := s.g.rdMask s.clock
  let r (l : Nat) : Rnd := s.g.rnd.getD l ⟨0, 0, 0, 0⟩
  let x (l : Nat) : FRes := f (fun k => .sr (if k = 0 then (r l).next.w.toNat else (r l).next.next.w.toNat)) (srcs.map fun o => o.val.lane l)
  let ready := s.clock + 6 + (srcs.map (·.lat)).sum
  ∃ t, exec i s = .next t ∧ s.Issued t .vec (s.g.pc + BitVec.ofNat 64 len) st ∧ s.OnlyGroup t ∧ s.InSlot t d ∧
    (∀ l, m.getLsbD l = true → (t.g.v.getD d VReg.zero).lane l = BitVec.ofNat 32 (x l).bits
      ∧ t.g.rnd.getD l ⟨0, 0, 0, 0⟩ = if draws = 1 then (r l).next else (r l).next.next) ∧
    (∀ l, l < 96 → m.getLsbD l = false → (t.g.v.getD d VReg.zero).lane l = (s.g.v.getD d VReg.zero).lane l ∧ t.g.rnd.getD l ⟨0, 0, 0, 0⟩ = r l) ∧
    (∀ q, q ≠ d → t.g.v.getD q VReg.zero = s.g.v.getD q VReg.zero) ∧
    t.g.inflight = ((s.g.produceIn (.v d) ready m).produceIn .rnd ready m).inflight ∧
    (∀ k, t.g.gsrBit k = (s.g.gsrBit k || (k == 3 && (lanesOf m).any fun l => (x l).ovf) || (k == 4 && (lanesOf m).any fun l => (x l).sat))) ∧
    t.g = { s.g.kept t.g with v := t.g.v, gsr := t.g.gsr, rnd := t.g.rnd, mxRuns := t.g.mxRuns }

/-- R129: what the forms on two 64-bit operands compute. -/
def lanePairs : List ((RDAB → Instr) × (Nat → Nat → Nat)) :=
  [(.vaddI64, fun x y => (x + y) % 2 ^ 64), (.vsubI64, fun x y => (x + (2 ^ 64 - y)) % 2 ^ 64),
   (.vshlI64, fun x y => if y % 128 < 64 then x * 2 ^ (y % 128) % 2 ^ 64 else 0),
   (.vshrN64, fun x y => if y % 128 < 64 then x / 2 ^ (y % 128) else 0),
   (.vshrI64, fun x y => if x < 2 ^ 63 then (if y % 128 < 64 then x / 2 ^ (y % 128) else 0)
      else 2 ^ 64 - 1 - (if y % 128 < 64 then (2 ^ 64 - 1 - x) / 2 ^ (y % 128) else 0))]
/-- R129: the widening products. -/
def laneWidening : List ((RDAB → Instr) × (Word → Word → Nat)) :=
  [(.vmulwN, fun x y => x.toNat * y.toNat), (.vmulwI, fun x y => (BitVec.ofInt 64 (x.toInt * y.toInt)).toNat)]

/-- A unit writes the halves of a 64-bit value x to registers d and d + 1 in the lanes of the mask. -/
def State.WrotePair (s t : State) (d : Nat) (x : Nat → Nat) : Prop :=
  s.OnlyGroup t ∧
  (∀ l, (s.g.rdMask s.clock).getLsbD l = true →
    (t.g.v.getD d VReg.zero).lane l = BitVec.ofNat 32 (x l) ∧ (t.g.v.getD (d + 1) VReg.zero).lane l = BitVec.ofNat 32 (x l / 2 ^ 32)) ∧
  (∀ l, l < 96 → s.g.present.getLsbD l = true → (s.g.rdMask s.clock).getLsbD l = false →
    (t.g.v.getD d VReg.zero).lane l = (s.g.v.getD d VReg.zero).lane l
    ∧ (t.g.v.getD (d + 1) VReg.zero).lane l = (s.g.v.getD (d + 1) VReg.zero).lane l) ∧
  (∀ r, r ≠ d → r ≠ d + 1 → t.g.v.getD r VReg.zero = s.g.v.getD r VReg.zero) ∧
  t.g = { s.g.kept t.g with v := t.g.v, mxRuns := t.g.mxRuns }

/-- R117: the predicate forms by what they write in an active lane. -/
def predForms : List ((PDAB → Instr) × (Bool → Bool → Bool)) :=
  [(.pand, fun x y => x && y), (.por, fun x y => x || y), (.pxor, fun x y => x != y), (.pandn, fun x y => x && !y)]

/-- R55: the vector instructions, by their operands. -/
def vectorRDAB : List (RDAB → Instr) :=
  laneInt.map (·.1) ++ laneScalar.map (·.1) ++ laneFloat.map (·.1) ++ laneFloat3.map (·.1) ++ laneFloatScalar.map (·.1)
    ++ lanePairs.map (·.1) ++ laneWidening.map (·.1)
    ++ [.vaddsI, .vsubsI, .vbfi, .vmadS, .vfmaF32S, .vcopysign, .vscaleE8, .vscaleE8Inv]
def vectorRDA : List (RDA → Instr) := laneUnary.map (·.1) ++ laneSigns.map (·.1) ++ [.vrint]

end Sys2Proof.Machine

/-- R55: under an all-zero mask a vector instruction (of the vector and special-function classes, and VLD, VST and VLD.NR) takes its
slot and has no other effect. -/
def Sys2Proof.Claim.ZeroMask : Prop :=
  ∀ s : State, s.g.rdMask s.clock = 0 →
    (s.Issues .vec maskRefs →
      (∀ c ∈ vectorRDAB, ∀ o : RDAB, ∃ t, exec (c o) s = .next t ∧ s.Passed t (if o.rt.isSome then 8 else 4) o.st.toNat) ∧
      (∀ c ∈ vectorRDA, ∀ o : RDA, ∃ t, exec (c o) s = .next t ∧ s.Passed t (if o.rt.isSome then 8 else 4) o.st.toNat) ∧
      (∀ c ∈ laneShort.map (·.1) ++ laneFloatShort.map (·.1) ++ [.vmovs16, .vmov16], ∀ o : H16,
        ∃ t, exec (c o) s = .next t ∧ s.Passed t 2 (if o.st = 1 then 3 else 0)) ∧
      (∀ c ∈ laneImmediate.map (·.1), ∀ o : VDAI, ∃ t, exec (c o) s = .next t
        ∧ s.Passed t (4 + (if o.limm.isSome then 4 else 0) + (if o.rt.isSome then 4 else 0)) o.st.toNat) ∧
      (∀ c ∈ [Instr.vcmp, Instr.vcmpf], ∀ o : VCAB, ∃ t, exec (c o) s = .next t ∧ s.Passed t (if o.rt.isSome then 8 else 4) o.st.toNat) ∧
      (∀ c ∈ predForms.map (·.1), ∀ o : PDAB, ∃ t, exec (c o) s = .next t ∧ s.Passed t 4 o.st.toNat) ∧
      (∀ c ∈ [Instr.vlaneid, Instr.vrand], ∀ o : RD, ∃ t, exec (c o) s = .next t ∧ s.Passed t (if o.rt.isSome then 8 else 4) o.st.toNat) ∧
      (∀ c ∈ [Instr.pnot, Instr.pmov], ∀ o : PDA, ∃ t, exec (c o) s = .next t ∧ s.Passed t 4 o.st.toNat) ∧
      (∀ c ∈ [Instr.pset, Instr.pclr], ∀ o : PD, ∃ t, exec (c o) s = .next t ∧ s.Passed t 4 o.st.toNat) ∧
      (∀ c ∈ [Instr.vunpk, Instr.vunpk2, Instr.vpack, Instr.vpack2], ∀ o : UFM,
        ∃ t, exec (c o) s = .next t ∧ s.Passed t (if o.rt.isSome then 8 else 4) o.st.toNat) ∧
      (∀ o : UMX, ∃ t, exec (.vmxscale o) s = .next t ∧ s.Passed t (if o.rt.isSome then 8 else 4) o.st.toNat) ∧
      (∀ o : CVT, ∃ t, exec (.vcvt o) s = .next t ∧ s.Passed t (if o.rt.isSome then 8 else 4) o.st.toNat) ∧
      (∀ o : VSELO, ∃ t, exec (.vsel o) s = .next t ∧ s.Passed t (if o.rt.isSome then 8 else 4) o.st.toNat) ∧
      (∀ o : VCAI, ∃ t, exec (.vcmpi o) s = .next t
        ∧ s.Passed t (4 + (if o.limm.isSome then 4 else 0) + (if o.rt.isSome then 4 else 0)) o.st.toNat) ∧
      (∀ o : RDB, ∃ t, exec (.vmov o) s = .next t ∧ s.Passed t (if o.rt.isSome then 8 else 4) o.st.toNat) ∧
      (∀ o : RA, ∃ t, exec (.vseed o) s = .next t ∧ s.Passed t (if o.rt.isSome then 8 else 4) o.st.toNat) ∧
      (∀ o : VDI, ∃ t, exec (.vli o) s = .next t
        ∧ s.Passed t (4 + (if o.limm.isSome then 4 else 0) + (if o.rt.isSome then 4 else 0)) o.st.toNat) ∧
      (∀ o : RDB, ∃ t, exec (.vmovs o) s = .next t ∧ s.Passed t (if o.rt.isSome then 8 else 4) o.st.toNat)) ∧
    (s.Issues .sfu maskRefs →
      (∀ c ∈ laneApprox.map (·.1) ++ [.vsqrt], ∀ o : RDA, ∃ t, exec (c o) s = .next t ∧ s.Passed t (if o.rt.isSome then 8 else 4) o.st.toNat) ∧
      (∀ o : RDAB, ∃ t, exec (.vdivF32 o) s = .next t ∧ s.Passed t (if o.rt.isSome then 8 else 4) o.st.toNat)) ∧
    (s.Issues .memv maskRefs →
      (∀ c ∈ [Instr.vld, Instr.vst, Instr.vldNr], ∀ o : MV, ∃ t, exec (c o) s = .next t
        ∧ s.Passed t (4 + (if o.rt.isSome then 4 else 0) + (if o.mq.isSome then 4 else 0)) o.st.toNat))

/-- R108: what a lane that computes reads from a routed source. -/
def Obligations.RoutedSources : Prop :=
  ∀ (g : Group) (now v l : Nat) (f : BitVec 9), v < 64 → l < 96 → g.present.getLsbD l = true →
    let arg := f.toNat % 128
    (f.toNat / 128 = 0 → (g.opd now v f).val.lane l = g.partnerWord now v l) ∧
    (f.toNat / 128 = 1 → (g.opd now v f).val.lane l = g.partnerWord now v ((l + arg) % 96)) ∧
    (f.toNat / 128 = 2 → (g.opd now v f).val.lane l = g.partnerWord now v arg) ∧
    (f.toNat / 128 = 3 → arg < 64 → (g.opd now v f).val.lane l = g.partnerWord now v (l ^^^ arg)) ∧
    (f.toNat / 128 = 3 → 64 ≤ arg →
      let x := ((g.rdV now (arg - 64)).lane l).toNat
      (g.opd now v f).val.lane l = if 63 < v + x / 128 % 8 then 0 else g.partnerWord now (v + x / 128 % 8) (x % 128))

/-- R114, R115: the shape a routed source presents and the clocks it adds. -/
def Sys2Proof.Claim.RoutedShapes : Prop :=
  ∀ (g : Group) (now v : Nat) (f : BitVec 9),
    let arg := f.toNat % 128
    let src := (g.rdV now v).val.op
    (f.toNat / 128 = 0 → (g.opd now v f).val = src ∧ (g.opd now v f).lat = 0) ∧
    (f.toNat / 128 = 2 → (g.opd now v f).val = .uniform (g.partnerWord now v arg) ∧ (g.opd now v f).lat = if src.isUniform then 0 else 1) ∧
    (f.toNat / 128 = 1 → (src.isUniform = false → (g.opd now v f).val.isGeneral = true ∧ (g.opd now v f).lat = 2)
      ∧ (src.isUniform = true → (g.opd now v f).lat = 0)) ∧
    (f.toNat / 128 = 3 → arg < 64 → (src.isUniform = false → (g.opd now v f).val.isGeneral = true
        ∧ (g.opd now v f).lat = if arg < 32 then 1 else 2) ∧ (src.isUniform = true → (g.opd now v f).lat = 0)) ∧
    (f.toNat / 128 = 3 → 64 ≤ arg → (g.opd now v f).val.isGeneral = true ∧ (g.opd now v f).lat = 3) ∧
    (∀ part : Nat → Nat, (f.toNat / 128 = 1 ∧ part = fun l => (l + arg) % 96) ∨ (f.toNat / 128 = 3 ∧ arg < 64 ∧ part = fun l => l ^^^ arg) →
      ∀ w, src = .uniform w →
      ((∀ l, l < 96 → g.present.getLsbD l = true → part l < 96 ∧ g.present.getLsbD (part l) = true) → (g.opd now v f).val = .uniform w) ∧
      ((∃ l, l < 96 ∧ g.present.getLsbD l = true ∧ (96 ≤ part l ∨ g.present.getLsbD (part l) = false)) → (g.opd now v f).val.isGeneral = true))

/-- R59, R60, R122: a full write takes the shape of the result: uniform from uniform operands, affine by the rows of R122, else general, in the slot
the register had or the lowest free one.
That the addition, multiplication and shift forms of operands that are all uniform give a uniform result is the model's reading (DEDUCED, log entry 64). -/
def Sys2Proof.Claim.ResultShapes : Prop :=
  (∀ c ∈ laneInt, ∀ (o : RDAB) (s : State) (x y : Word), (s.srcs o).map (·.val) = [.uniform x, .uniform y] →
    s.GivesShape (c.1 o) (s.refs o) (s.srcs o) o.d.toNat (.uniform (c.2 x y))) ∧
  (∀ (o : RDAB) (s : State) (a b : VOp) (x d y e : Word), (s.srcs o).map (·.val) = [a, b] → (a.isUniform && b.isUniform) = false →
    a.affine? = some (x, d) → b.affine? = some (y, e) →
    s.GivesShape (.vaddI32 o) (s.refs o) (s.srcs o) o.d.toNat (.affine (x + y) (d + e))
    ∧ s.GivesShape (.vsubI32 o) (s.refs o) (s.srcs o) o.d.toNat (.affine (x - y) (d - e))) ∧
  (∀ (o : RDAB) (s : State) (x d u : Word), (s.srcs o).map (·.val) = [.affine x d, .uniform u] →
    s.GivesShape (.vmulLo o) (s.refs o) (s.srcs o) o.d.toNat (.affine (x * u) (d * u))
    ∧ ((s.srcs { o with a := o.b, b := o.a }).map (·.val) = [.uniform u, .affine x d] → s.GivesShape (.vmulLo { o with a := o.b, b := o.a })
        (s.refs { o with a := o.b, b := o.a }) (s.srcs { o with a := o.b, b := o.a }) o.d.toNat (.affine (x * u) (d * u)))
    ∧ (u.toNat % 64 < 32 → s.GivesShape (.vshl o) (s.refs o) (s.srcs o) o.d.toNat (.affine (x <<< (u.toNat % 64)) (d <<< (u.toNat % 64))))) ∧
  (∀ (o : RD) (s : State), s.GivesShape (.vlaneid o) [] [] o.d.toNat (.affine 0 1)) ∧
  (∀ (o : VDI) (s : State), s.GivesShape (.vli o) [] [] o.d.toNat (.uniform (immWord o.i o.limm))) ∧
  (∀ (o : RDB) (s : State), (o.d ≠ o.b ∨ rtB o.rt ≠ 0) → (s.g.opd s.clock o.b.toNat (rtB o.rt)).val.isGeneral = false →
    s.GivesShape (.vmov o) (s.g.opdRefs s.clock o.b.toNat (rtB o.rt)) [s.g.opd s.clock o.b.toNat (rtB o.rt)] o.d.toNat
      (s.g.opd s.clock o.b.toNat (rtB o.rt)).val) ∧
  (∀ (o : RDB) (s : State), s.GivesShape (.vmovs o) [.s o.b.toNat] [scalarOpd (s.g.rdS s.clock o.b.toNat) (s.g.rdSP s.clock o.b.toNat)] o.d.toNat
    (.uniform (s.g.rdS s.clock o.b.toNat))) ∧
  (∀ (o : VDAI) (s : State) (x d : Word),
    let u := immWord o.i o.limm
    let a := s.g.opd s.clock o.a.toNat (rtA o.rt)
    let gives (i : Instr) (v : VOp) : Prop :=
      s.GivesShape i (s.g.opdRefs s.clock o.a.toNat (rtA o.rt)) [a, scalarOpd u false] o.d.toNat v
    (a.val = .affine x d → gives (.vaddi o) (.affine (x + u) d)
      ∧ (u.toNat % 64 < 32 → gives (.vshli o) (.affine (x <<< (u.toNat % 64)) (d <<< (u.toNat % 64))))) ∧
    (a.val = .uniform x → ∀ c ∈ laneImmediate, gives (c.1 o) (.uniform (c.2 x u)))) ∧
  (∀ (o : RDAB) (s : State) (x d u : Word),
    ((s.srcsS o).map (·.val) = [.affine x d, .uniform u] →
      s.GivesShape (.vaddS o) (s.refsS o) (s.srcsS o) o.d.toNat (.affine (x + u) d)
      ∧ s.GivesShape (.vmulS o) (s.refsS o) (s.srcsS o) o.d.toNat (.affine (x * u) (d * u))
      ∧ (u.toNat % 64 < 32 → s.GivesShape (.vshlS o) (s.refsS o) (s.srcsS o) o.d.toNat (.affine (x <<< (u.toNat % 64)) (d <<< (u.toNat % 64))))) ∧
    ((s.srcsS o).map (·.val) = [.uniform x, .uniform u] → ∀ c ∈ laneScalar, s.GivesShape (c.1 o) (s.refsS o) (s.srcsS o) o.d.toNat (.uniform (c.2 x u)))) ∧
  (∀ (o : RDAB) (s : State) (a b : VOp) (x e u y f : Word), (s.srcsS o ++ [s.g.opd s.clock o.d.toNat 0]).map (·.val) = [a, .uniform u, b] →
    (a.isUniform && b.isUniform) = false → a.affine? = some (x, e) → b.affine? = some (y, f) →
    s.GivesShape (.vmadS o) (s.refsS o ++ [.v o.d.toNat]) (s.srcsS o ++ [s.g.opd s.clock o.d.toNat 0]) o.d.toNat (.affine (x * u + y) (e * u + f))) ∧
  (∀ (o : VSELO) (s : State) (x : Word),
    let a := s.g.opd s.clock o.a.toNat (rtA o.rt)
    let b := s.g.opd s.clock o.b.toNat (rtB o.rt)
    let refs := s.g.opdRefs s.clock o.a.toNat (rtA o.rt) ++ s.g.opdRefs s.clock o.b.toNat (rtB o.rt) ++ [.p o.n.toNat]
    (a.val = .uniform x → b.val = .uniform x → s.GivesShape (.vsel o) refs [a, b] o.d.toNat (.uniform x)) ∧
    ((∀ y, a.val = .uniform y → b.val ≠ .uniform y) → s.GivesGeneral (.vsel o) refs [a, b] o.d.toNat)) ∧
  (∀ (o : RD) (s : State), s.GivesGeneral (.vrand o) [.rnd] [] o.d.toNat) ∧
  (∀ c ∈ laneInt, ∀ (o : RDAB) (s : State), (∃ x ∈ s.srcs o, x.val.isGeneral = true) → s.GivesGeneral (c.1 o) (s.refs o) (s.srcs o) o.d.toNat) ∧
  (∀ c ∈ laneNoRow, ∀ (o : RDAB) (s : State), (∃ x ∈ s.srcs o, x.val.isUniform = false) → s.GivesGeneral (c o) (s.refs o) (s.srcs o) o.d.toNat) ∧
  (∀ c ∈ laneFloat, ∀ (o : RDAB) (s : State),
    (∀ x y, (s.srcs o).map (·.val) = [.uniform x, .uniform y] → s.GivesShape (c.1 o) (s.refs o ++ [.spr 1]) (s.srcs o) o.d.toNat
      (.uniform (BitVec.ofNat 32 (c.2 (rmOf (s.g.rdFmt s.clock)) (ftzOf (s.g.rdFmt s.clock)) x.toNat y.toNat).bits))) ∧
    ((∃ x ∈ s.srcs o, x.val.isUniform = false) → s.GivesGeneral (c.1 o) (s.refs o ++ [.spr 1]) (s.srcs o) o.d.toNat))

/-- R59, R60: a write that is not full, or whose result is general, needs a general slot: where d has none and none is free the unit
raises the shape-overflow trap, whose detail is d, and writes nothing. -/
def Sys2Proof.Claim.ShapeOverflow : Prop :=
  ∀ c ∈ laneInt, ∀ (o : RDAB) (s : State), s.g.Formed → s.Issues .vec (maskRefs ++ s.refs o) → s.g.rdMask s.clock ≠ 0 →
    s.g.present &&& ~~~(s.g.rdMask s.clock) ≠ 0 ∨ (∃ x ∈ s.srcs o, x.val.isGeneral = true) → ¬ s.g.Room o.d.toNat →
    exec (c.1 o) s = .next (s.stopped .vec (beats (s.g.rdMask s.clock)) o.st.toNat (.trap 8 o.d.toNat 127 0))

/-- R121, R380, R381: a poisoned operand word of an active lane marks that lane's result and sets REG of %ckint in the integer forms,
gives MakeNaN(5) in the F32 sums, and is consumed by a compare, which reaches the group as an error of reach 0. -/
def Sys2Proof.Claim.LanePoison : Prop :=
  (∀ c ∈ laneInt, ∀ (o : RDAB) (s : State), s.g.Formed → s.Issues .vec (maskRefs ++ s.refs o) → s.g.rdMask s.clock ≠ 0 → s.g.Room o.d.toNat →
    ∀ l, (s.g.rdMask s.clock).getLsbD l = true → (∃ x ∈ s.srcs o, x.pz.getLsbD l = true) →
    ∃ t, exec (c.1 o) s = .next t ∧ (t.g.v.getD o.d.toNat VReg.zero).poison.getLsbD l = true ∧ t.g.ckint.getLsbD 0 = true ∧ s.OnlyGroup t) ∧
  (∀ c ∈ [Instr.vaddF32, .vsubF32, .vmulF32], ∀ (o : RDAB) (s : State), s.g.Formed → s.Issues .vec (maskRefs ++ s.refs o ++ [.spr 1]) →
    s.g.rdMask s.clock ≠ 0 → s.g.Room o.d.toNat →
    ∀ l, (s.g.rdMask s.clock).getLsbD l = true → (∃ x ∈ s.srcs o, x.pz.getLsbD l = true) →
    ∃ t, exec (c o) s = .next t ∧ (t.g.v.getD o.d.toNat VReg.zero).lane l = 0x7FC00005
      ∧ (t.g.v.getD o.d.toNat VReg.zero).poison.getLsbD l = false ∧ t.g.ckint.getLsbD 0 = true ∧ s.OnlyGroup t) ∧
  (∀ (o : VCAB) (s : State), s.Issues .vec (maskRefs ++ s.g.opdRefs s.clock o.a.toNat (rtA o.rt) ++ s.g.opdRefs s.clock o.b.toNat (rtB o.rt)) →
    ((s.g.opd s.clock o.a.toNat (rtA o.rt)).pz ||| (s.g.opd s.clock o.b.toNat (rtB o.rt)).pz) &&& s.g.rdMask s.clock ≠ 0 →
    exec (.vcmp o) s = .next ((s.mg fun g => g.ck 0).stopped .vec (beats (s.g.rdMask s.clock)) o.st.toNat (.consumed 0)))

/-- R116, R127, R136: the compares write the bits of active lanes of a predicate by their condition. -/
def Sys2Proof.Claim.LaneCompares : Prop :=
  (∀ (o : VCAB) (s : State), s.g.Formed → s.g.rdMask s.clock ≠ 0 →
    let a := s.g.opd s.clock o.a.toNat (rtA o.rt)
    let b := s.g.opd s.clock o.b.toNat (rtB o.rt)
    let refs := s.g.opdRefs s.clock o.a.toNat (rtA o.rt) ++ s.g.opdRefs s.clock o.b.toNat (rtB o.rt)
    (a.pz ||| b.pz) &&& s.g.rdMask s.clock = 0 →
    (s.Issues .vec (maskRefs ++ refs) → ∃ t x, exec (.vcmp o) s = .next t
      ∧ s.Issued t .vec (s.g.pc + BitVec.ofNat 64 (if o.rt.isSome then 8 else 4)) o.st.toNat
      ∧ s.WrotePred t (4 + a.lat + b.lat) o.p.toNat (s.g.rdMask s.clock) x
      ∧ ∀ l, (s.g.rdMask s.clock).getLsbD l = true → x.getLsbD l = condition o.c.toNat (a.val.lane l) (b.val.lane l)) ∧
    (s.Issues .vec (maskRefs ++ refs ++ [.spr 1]) → ∃ t x, exec (.vcmpf o) s = .next t
      ∧ s.Issued t .vec (s.g.pc + BitVec.ofNat 64 (if o.rt.isSome then 8 else 4)) o.st.toNat
      ∧ s.WrotePred t (4 + a.lat + b.lat) o.p.toNat (s.g.rdMask s.clock) x
      ∧ ∀ l, (s.g.rdMask s.clock).getLsbD l = true → x.getLsbD l
          = fmtF32.cmp (ftzOf (s.g.rdFmt s.clock)) o.c.toNat (a.val.lane l).toNat (b.val.lane l).toNat)) ∧
  (∀ (o : VCAI) (s : State), s.g.Formed → s.g.rdMask s.clock ≠ 0 →
    let a := s.g.opd s.clock o.a.toNat (rtA o.rt)
    a.pz &&& s.g.rdMask s.clock = 0 → s.Issues .vec (maskRefs ++ s.g.opdRefs s.clock o.a.toNat (rtA o.rt)) →
    ∃ t x, exec (.vcmpi o) s = .next t
      ∧ s.Issued t .vec (s.g.pc + BitVec.ofNat 64 (4 + (if o.limm.isSome then 4 else 0) + (if o.rt.isSome then 4 else 0))) o.st.toNat
      ∧ s.WrotePred t (4 + a.lat) o.p.toNat (s.g.rdMask s.clock) x
      ∧ ∀ l, (s.g.rdMask s.clock).getLsbD l = true → x.getLsbD l = condition o.c.toNat (a.val.lane l) (immWord o.i o.limm)) ∧
  (∀ x y : Word, condition 0 x y = decide (x = y) ∧ condition 1 x y = decide (x ≠ y) ∧ condition 2 x y = decide (x.toInt < y.toInt)
    ∧ condition 3 x y = decide (x.toInt ≤ y.toInt) ∧ condition 4 x y = decide (x.toNat < y.toNat)
    ∧ condition 5 x y = decide (x.toNat ≤ y.toNat) ∧ condition 6 x y = decide (x &&& y ≠ 0))

/-- R128: VSEL takes a in the lanes of the predicate and b in the others. -/
def Sys2Proof.Claim.LaneSelect : Prop :=
  ∀ (o : VSELO) (s : State), s.g.Formed → s.g.rdMask s.clock ≠ 0 → s.g.Room o.d.toNat →
    let a := s.g.opd s.clock o.a.toNat (rtA o.rt)
    let b := s.g.opd s.clock o.b.toNat (rtB o.rt)
    (a.pz ||| b.pz) &&& s.g.rdMask s.clock = 0 →
    s.Issues .vec (maskRefs ++ s.g.opdRefs s.clock o.a.toNat (rtA o.rt) ++ s.g.opdRefs s.clock o.b.toNat (rtB o.rt) ++ [.p o.n.toNat]) →
    ∃ t, exec (.vsel o) s = .next t ∧ s.Issued t .vec (s.g.pc + BitVec.ofNat 64 (if o.rt.isSome then 8 else 4)) o.st.toNat
      ∧ s.WroteLanes t (4 + a.lat + b.lat) o.d.toNat (s.g.rdMask s.clock)
          (fun l => if (s.g.rdP s.clock o.n.toNat).getLsbD l then a.val.lane l else b.val.lane l) 0 false false

/-- R129: 64-bit arithmetic on pairs, and the widening products. -/
def Sys2Proof.Claim.LanePairForms : Prop :=
  (∀ c ∈ lanePairs, ∀ (o : RDAB) (s : State), s.g.Formed → s.g.rdMask s.clock ≠ 0 → o.d.toNat < 63 →
    s.g.RoomPair o.d.toNat →
    let a := s.g.opd s.clock o.a.toNat (rtA o.rt)
    let a' := s.g.opd s.clock (o.a.toNat + 1) (rtA o.rt)
    let b := s.g.opd s.clock o.b.toNat (rtB o.rt)
    let b' := s.g.opd s.clock (o.b.toNat + 1) (rtB o.rt)
    (a.pz ||| a'.pz ||| b.pz ||| b'.pz) &&& s.g.rdMask s.clock = 0 →
    s.Issues .vec (maskRefs ++ (s.g.opdRefs s.clock o.a.toNat (rtA o.rt) ++ s.g.opdRefs s.clock (o.a.toNat + 1) (rtA o.rt)
      ++ s.g.opdRefs s.clock o.b.toNat (rtB o.rt) ++ s.g.opdRefs s.clock (o.b.toNat + 1) (rtB o.rt))) →
    ∃ t, exec (c.1 o) s = .next t ∧ s.Issued t .vec (s.g.pc + BitVec.ofNat 64 (if o.rt.isSome then 8 else 4)) o.st.toNat
      ∧ s.WrotePair t o.d.toNat fun l => c.2 ((a.val.lane l).toNat + (a'.val.lane l).toNat * 2 ^ 32)
          ((b.val.lane l).toNat + (b'.val.lane l).toNat * 2 ^ 32)) ∧
  (∀ c ∈ laneWidening, ∀ (o : RDAB) (s : State), s.g.Formed → s.g.rdMask s.clock ≠ 0 → o.d.toNat < 63 →
    s.g.RoomPair o.d.toNat →
    let a := s.g.opd s.clock o.a.toNat (rtA o.rt)
    let b := s.g.opd s.clock o.b.toNat (rtB o.rt)
    (a.pz ||| b.pz) &&& s.g.rdMask s.clock = 0 → s.Issues .vec (maskRefs ++ s.refs o) →
    ∃ t, exec (c.1 o) s = .next t ∧ s.Issued t .vec (s.g.pc + BitVec.ofNat 64 (if o.rt.isSome then 8 else 4)) o.st.toNat
      ∧ s.WrotePair t o.d.toNat fun l => c.2 (a.val.lane l) (b.val.lane l))

/-- R142, R143: VRAND writes the new w of every active lane and advances its state; VSEED seeds it; other lanes keep theirs.
That a poisoned word seeds by its bits is the model's choice (DESIGN CHOICE, log entry 26). -/
def Sys2Proof.Claim.LaneRandom : Prop :=
  (∀ (o : RD) (s : State), s.g.Formed → s.g.rdMask s.clock ≠ 0 → s.g.Room o.d.toNat → s.g.inflight = [] → s.Issues .vec maskRefs →
    ∃ t, exec (.vrand o) s = .next t ∧ s.Issued t .vec (s.g.pc + BitVec.ofNat 64 (if o.rt.isSome then 8 else 4)) o.st.toNat ∧ s.OnlyGroup t
      ∧ (∀ l, (s.g.rdMask s.clock).getLsbD l = true →
          let r := s.g.rnd.getD l ⟨0, 0, 0, 0⟩
          let n := r.x ^^^ (r.x <<< 11)
          t.g.rnd.getD l ⟨0, 0, 0, 0⟩ = ⟨r.y, r.z, r.w, r.w ^^^ (r.w >>> 19) ^^^ n ^^^ (n >>> 8)⟩
          ∧ (t.g.v.getD o.d.toNat VReg.zero).lane l = r.w ^^^ (r.w >>> 19) ^^^ n ^^^ (n >>> 8))
      ∧ (∀ l, (s.g.rdMask s.clock).getLsbD l = false → t.g.rnd.getD l ⟨0, 0, 0, 0⟩ = s.g.rnd.getD l ⟨0, 0, 0, 0⟩)
      ∧ (∀ r, r ≠ o.d.toNat → t.g.v.getD r VReg.zero = s.g.v.getD r VReg.zero) ∧ t.g.s = s.g.s ∧ t.g.p = s.g.p ∧ t.g.gsr = s.g.gsr) ∧
  (∀ (o : RA) (s : State), s.g.Formed → s.g.rdMask s.clock ≠ 0 →
    s.Issues .vec (maskRefs ++ s.g.opdRefs s.clock o.a.toNat (rtA o.rt) ++ [.rnd]) →
    ∃ t, exec (.vseed o) s = .next t ∧ s.Issued t .vec (s.g.pc + BitVec.ofNat 64 (if o.rt.isSome then 8 else 4)) o.st.toNat ∧ s.OnlyGroup t
      ∧ (∀ l, l < 96 → t.g.rnd.getD l ⟨0, 0, 0, 0⟩ = if (s.g.rdMask s.clock).getLsbD l
          then Rnd.next (Rnd.next (Rnd.next (Rnd.next ⟨(s.g.opd s.clock o.a.toNat (rtA o.rt)).val.lane l, BitVec.ofNat 32 l, s.g.seed, 0x6C078965⟩)))
          else s.g.rnd.getD l ⟨0, 0, 0, 0⟩)
      ∧ t.g.v = s.g.v ∧ t.g.s = s.g.s ∧ t.g.p = s.g.p ∧ t.g.gsr = s.g.gsr)

/-- R153 to R161: the conversions outside mode SR; and in it, where each active lane draws from its state, and a draw r rounds up to the next unit exactly
where the fraction and r / 2^32 reach 1. -/
def Obligations.Conversions : Prop :=
  (∀ (o : UFM) (s : State),
    let refs := s.g.opdRefs s.clock o.a.toNat (rtA o.rt)
    let a := s.g.opd s.clock o.a.toNat (rtA o.rt)
    let fm := s.g.rdFmt s.clock
    s.GivesLanes (.vunpk o) .vec (if o.rt.isSome then 8 else 4) o.st.toNat 6 o.d.toNat refs [a]
      (f1 fun w => convert .f32 .rne false false (elemNum o.t.toNat w o.k.toNat)) ∧
    s.GivesLanes (.vunpk2 o) .vec (if o.rt.isSome then 8 else 4) o.st.toNat 6 o.d.toNat refs [a]
      (f1 fun w => .ok ((convert .bf16 .rne false false (elemNum o.t.toNat w o.k.toNat)).bits
        + 65536 * (convert .bf16 .rne false false (elemNum o.t.toNat w (o.k.toNat + 1))).bits)) ∧
    (srOf fm = false → s.GivesLanes (.vpack o) .vec (if o.rt.isSome then 8 else 4) o.st.toNat 6 o.d.toNat (refs ++ [.v o.d.toNat, .spr 1])
      [a, s.g.opd s.clock o.d.toNat 0] (fun ws => match ws with
        | [x, w] =>
          let r := convert (narrowFmt o.t.toNat) (rmOf fm) (ftzOf fm) (nsatOf fm) (fmtF32.num (ftzOf fm) x.toNat)
          ⟨setElem o.t.toNat w.toNat o.k.toNat r.bits, r.ovf, r.sat⟩
        | _ => .ok 0)) ∧
    (srOf fm = false → s.GivesLanes (.vpack2 o) .vec (if o.rt.isSome then 8 else 4) o.st.toNat 6 o.d.toNat (refs ++ [.v o.d.toNat, .spr 1])
      [a, s.g.opd s.clock o.d.toNat 0] (fun ws => match ws with
        | [x, w] =>
          let lo := convert (narrowFmt o.t.toNat) (rmOf fm) (ftzOf fm) (nsatOf fm) (fmtBF16.num (ftzOf fm) (x.toNat % 65536))
          let hi := convert (narrowFmt o.t.toNat) (rmOf fm) (ftzOf fm) (nsatOf fm) (fmtBF16.num (ftzOf fm) (x.toNat / 65536))
          ⟨setElem o.t.toNat (setElem o.t.toNat w.toNat o.k.toNat lo.bits) (o.k.toNat + 1) hi.bits, lo.ovf || hi.ovf, lo.sat || hi.sat⟩
        | _ => .ok 0))) ∧
  (∀ (o : UMX) (s : State), s.GivesLanes (.vmxscale o) .vec (if o.rt.isSome then 8 else 4) o.st.toNat 6 o.d.toNat
    (s.g.opdRefs s.clock o.a.toNat (rtA o.rt) ++ [.spr 1]) [s.g.opd s.clock o.a.toNat (rtA o.rt)]
    (f1 fun x => .ok (mxScale o.t.toNat (ftzOf (s.g.rdFmt s.clock)) x))) ∧
  (∀ c ∈ [((.vscaleE8 : RDAB → Instr), false), (.vscaleE8Inv, true)], ∀ (o : RDAB) (s : State),
    s.GivesLanes (c.1 o) .vec (if o.rt.isSome then 8 else 4) o.st.toNat 6 o.d.toNat (s.refs o ++ [.spr 1]) (s.srcs o)
      (f2 fun x y => fscaleE8 (rmOf (s.g.rdFmt s.clock)) (ftzOf (s.g.rdFmt s.clock)) c.2 x (y % 256))) ∧
  (∀ (o : CVT) (s : State),
    let fm := s.g.rdFmt s.clock
    let src (x : Nat) : CNum := match o.u.toNat with
      | 0 => fmtF32.num (ftzOf fm) x
      | 1 => fmtBF16.num (ftzOf fm) (x % 65536)
      | 2 => fmtF16.num (ftzOf fm) (x % 65536)
      | 3 => intNum (BitVec.ofNat 32 x).toInt
      | _ => intNum x
    let dst : CFmt := match o.v.toNat with | 0 => .f32 | 1 => .bf16 | 2 => .f16 | 3 => .i32 | _ => .n32
    let md : RMode := match o.m.toNat with | 1 => .rne | 2 => .rz | 3 => .rp | 4 => .rm | 6 => .rna | _ => rmOf fm
    o.m ≠ 5 → (o.m = 0 → srOf fm = false) →
    s.GivesLanes (.vcvt o) .vec (if o.rt.isSome then 8 else 4) o.st.toNat 6 o.d.toNat (s.g.opdRefs s.clock o.a.toNat (rtA o.rt) ++ [.spr 1])
      [s.g.opd s.clock o.a.toNat (rtA o.rt)] (f1 fun x => convert dst md (ftzOf fm) (nsatOf fm) (src x))) ∧
  (∀ (o : CVT) (s : State),
    let fm := s.g.rdFmt s.clock
    let src (x : Nat) : CNum := match o.u.toNat with
      | 0 => fmtF32.num (ftzOf fm) x
      | 1 => fmtBF16.num (ftzOf fm) (x % 65536)
      | 2 => fmtF16.num (ftzOf fm) (x % 65536)
      | 3 => intNum (BitVec.ofNat 32 x).toInt
      | _ => intNum x
    let dst : CFmt := match o.v.toNat with | 0 => .f32 | 1 => .bf16 | 2 => .f16 | 3 => .i32 | _ => .n32
    o.m = 5 ∨ (o.m = 0 ∧ srOf fm = true) →
    s.DrawsLanes (.vcvt o) (if o.rt.isSome then 8 else 4) o.st.toNat o.d.toNat (s.g.opdRefs s.clock o.a.toNat (rtA o.rt) ++ [.spr 1])
      [s.g.opd s.clock o.a.toNat (rtA o.rt)] 1 (fun md ws => match ws with | [x] => convert dst (md 0) (ftzOf fm) (nsatOf fm) (src x.toNat) | _ => .ok 0)) ∧
  (∀ (o : UFM) (s : State),
    let refs := s.g.opdRefs s.clock o.a.toNat (rtA o.rt) ++ [.v o.d.toNat, .spr 1]
    let srcs := [s.g.opd s.clock o.a.toNat (rtA o.rt), s.g.opd s.clock o.d.toNat 0]
    let fm := s.g.rdFmt s.clock
    srOf fm = true →
    s.DrawsLanes (.vpack o) (if o.rt.isSome then 8 else 4) o.st.toNat o.d.toNat refs srcs 1 (fun md ws => match ws with
      | [x, w] =>
        let r := convert (narrowFmt o.t.toNat) (md 0) (ftzOf fm) (nsatOf fm) (fmtF32.num (ftzOf fm) x.toNat)
        ⟨setElem o.t.toNat w.toNat o.k.toNat r.bits, r.ovf, r.sat⟩
      | _ => .ok 0) ∧
    s.DrawsLanes (.vpack2 o) (if o.rt.isSome then 8 else 4) o.st.toNat o.d.toNat refs srcs 2 (fun md ws => match ws with
      | [x, w] =>
        let lo := convert (narrowFmt o.t.toNat) (md 0) (ftzOf fm) (nsatOf fm) (fmtBF16.num (ftzOf fm) (x.toNat % 65536))
        let hi := convert (narrowFmt o.t.toNat) (md 1) (ftzOf fm) (nsatOf fm) (fmtBF16.num (ftzOf fm) (x.toNat / 65536))
        ⟨setElem o.t.toNat (setElem o.t.toNat w.toNat o.k.toNat lo.bits) (o.k.toNat + 1) hi.bits, lo.ovf || hi.ovf, lo.sat || hi.sat⟩
      | _ => .ok 0)) ∧
  (∀ (r m k : Nat) (z n : Bool), r < 2 ^ 32 → (m * 2 ^ 32 + r * 2 ^ k) / 2 ^ (k + 32) < 2 ^ 32 →
    convert .n32 (.sr r) z n (.fin ⟨false, m, -(k : Int)⟩) = .ok ((m * 2 ^ 32 + r * 2 ^ k) / 2 ^ (k + 32)))

/-- R117, R118: the predicate forms write the bits of active lanes, and nothing under a zero mask; PTOS and PFROMS move a predicate to and from three scalars;
PCNT, PANY, PALL and PFIRST look at a predicate under the mask, and none of them needs an active lane. A word whose fields that must be zero are not
does not decode. -/
def Obligations.PredicateForms : Prop :=
  (∀ c ∈ predForms, ∀ (o : PDAB) (s : State), s.g.Formed → s.g.rdMask s.clock ≠ 0 → s.Issues .vec (maskRefs ++ [.p o.a.toNat, .p o.b.toNat]) →
    ∃ t x, exec (c.1 o) s = .next t ∧ s.Issued t .vec (s.g.pc + 4) o.st.toNat ∧ s.WrotePred t 4 o.d.toNat (s.g.rdMask s.clock) x
      ∧ ∀ l, l < 96 → x.getLsbD l = c.2 ((s.g.rdP s.clock o.a.toNat).getLsbD l) ((s.g.rdP s.clock o.b.toNat).getLsbD l)) ∧
  (∀ c ∈ [((.pnot : PDA → Instr), fun x => !x), (.pmov, fun x => x)], ∀ (o : PDA) (s : State), s.g.Formed → s.g.rdMask s.clock ≠ 0 →
    s.Issues .vec (maskRefs ++ [.p o.a.toNat]) →
    ∃ t x, exec (c.1 o) s = .next t ∧ s.Issued t .vec (s.g.pc + 4) o.st.toNat ∧ s.WrotePred t 4 o.d.toNat (s.g.rdMask s.clock) x
      ∧ ∀ l, l < 96 → x.getLsbD l = c.2 ((s.g.rdP s.clock o.a.toNat).getLsbD l)) ∧
  (∀ c ∈ [((.pset : PD → Instr), true), (.pclr, false)], ∀ (o : PD) (s : State), s.g.Formed → s.g.rdMask s.clock ≠ 0 →
    s.Issues .vec maskRefs →
    ∃ t x, exec (c.1 o) s = .next t ∧ s.Issued t .vec (s.g.pc + 4) o.st.toNat ∧ s.WrotePred t 4 o.d.toNat (s.g.rdMask s.clock) x
      ∧ ∀ l, l < 96 → x.getLsbD l = c.2) ∧
  (∀ s : State, s.g.rdMask s.clock = 0 → s.Issues .vec maskRefs →
    (∀ c ∈ predForms.map (·.1), ∀ o : PDAB, ∃ t, exec (c o) s = .next t ∧ s.Passed t 4 o.st.toNat) ∧
    (∀ c ∈ [Instr.pnot, Instr.pmov], ∀ o : PDA, ∃ t, exec (c o) s = .next t ∧ s.Passed t 4 o.st.toNat) ∧
    (∀ c ∈ [Instr.pset, Instr.pclr], ∀ o : PD, ∃ t, exec (c o) s = .next t ∧ s.Passed t 4 o.st.toNat)) ∧
  ((∀ x ∈ List.range 64, x ≠ 0 →
      (∀ fn ∈ [4, 5, 6, 7], decodeTableWord 32 (fn * 2 ^ 29 + x * 2 ^ 23 + 0x581) = none) ∧
      (∀ fn ∈ [6, 7], decodeTableWord 32 (fn * 2 ^ 29 + x * 2 ^ 17 + 0x581) = none) ∧
      (∀ fn ∈ List.range 6, decodeTableWord 32 (fn * 2 ^ 29 + x * 2 ^ 23 + 0x591) = none) ∧
      (∀ fn ∈ [3, 4], decodeTableWord 32 (fn * 2 ^ 29 + x * 2 ^ 11 + 0x591) = none))) ∧
  (∀ (o : SDPA) (s : State), s.g.Formed → o.d.toNat < 62 → s.Issues .scal [.p o.a.toNat] →
    ∃ t, exec (.ptos o) s = .next t ∧ s.Issued t .scal (s.g.pc + 4) o.st.toNat ∧ s.OnlyGroup t
      ∧ (∀ k, k < 3 → t.g.rawS (o.d.toNat + k) = s.g.heldS (o.d.toNat + k) (maskWord (s.g.rdP s.clock o.a.toNat) k)
          ∧ ∃ e ∈ t.g.inflight, e.ref = .s (o.d.toNat + k) ∧ e.ready = s.clock + 4)
      ∧ (∀ r, r < o.d.toNat ∨ o.d.toNat + 2 < r → isMaskReg r = false → t.g.rawS r = s.g.rawS r) ∧ t.g.p = s.g.p ∧ t.g.v = s.g.v ∧ t.g.gsr = s.g.gsr) ∧
  (∀ (o : PDSA) (s : State), s.g.Formed → s.Issues .scal [.s o.a.toNat, .s (o.a.toNat + 1), .s (o.a.toNat + 2)] →
    (∀ k, k < 3 → s.g.rdSP s.clock (o.a.toNat + k) = false) →
    ∃ t x, exec (.pfroms o) s = .next t ∧ s.Issued t .scal (s.g.pc + 4) o.st.toNat ∧ s.WrotePred t 4 o.d.toNat s.g.live x
      ∧ ∀ k, k < 3 → maskWord x k = s.g.rdS s.clock (o.a.toNat + k)) ∧
  (∀ (o : SDPA) (s : State), s.g.Formed → s.Issues .scal (maskRefs ++ [.p o.a.toNat]) →
    s.GivesScalar (.pcnt o) 4 o.st.toNat 4 o.d.toNat
      (BitVec.ofNat 32 ((List.range 96).countP fun l => (s.g.rdP s.clock o.a.toNat).getLsbD l && (s.g.rdMask s.clock).getLsbD l)) false) ∧
  (∀ (o : PA) (s : State), s.Issues .scal (maskRefs ++ [.p o.a.toNat]) →
    s.GivesScc (.pany o) 4 o.st.toNat 4 (decide (s.g.rdP s.clock o.a.toNat &&& s.g.rdMask s.clock ≠ 0)) ∧
    s.GivesScc (.pall o) 4 o.st.toNat 4 (decide (s.g.rdP s.clock o.a.toNat &&& s.g.rdMask s.clock = s.g.rdMask s.clock))) ∧
  (∀ (o : SDPA) (s : State), s.g.Formed → s.Issues .scal (maskRefs ++ [.p o.a.toNat]) →
    let x := s.g.rdP s.clock o.a.toNat &&& s.g.rdMask s.clock
    ∃ t, exec (.pfirst o) s = .next t ∧ s.Issued t .scal (s.g.pc + 4) o.st.toNat ∧ s.OnlyGroup t
      ∧ (∀ r ∈ [Ref.s o.d.toNat, .scc], ∃ e ∈ t.g.inflight, e.ref = r ∧ e.ready = s.clock + 4)
      ∧ (x = 0 → t.g.rawS o.d.toNat = s.g.heldS o.d.toNat 96 ∧ t.g.gsrBit 0 = false)
      ∧ (∀ l, x.getLsbD l = true → (∀ k, k < l → x.getLsbD k = false) →
          t.g.rawS o.d.toNat = s.g.heldS o.d.toNat (BitVec.ofNat 32 l) ∧ t.g.gsrBit 0 = true)
      ∧ (∀ r, r ≠ o.d.toNat → isMaskReg r = false → t.g.rawS r = s.g.rawS r) ∧ (∀ i, i ≠ 0 → t.g.gsrBit i = s.g.gsrBit i) ∧ t.g.p = s.g.p ∧ t.g.v = s.g.v)

/-! ### Memory units (R169 to R179) -/

namespace Sys2Proof.Machine

/-- The address of a lane of a unit with base pair a and offset register b (R169). -/
def State.laneAddr (s : State) (a b : Nat) (rt : Option Route) (l : Nat) : Nat :=
  (BitVec.ofNat 64 (s.g.rdPair s.clock a) + ((s.g.opd s.clock b (rtB rt)).val.lane l).signExtend 64).toNat
/-- The bytes and the registers of a load's size code (R171). -/
def sizeBytes (z : Nat) : Nat := [1, 1, 2, 2, 4, 8, 16].getD z 4
def sizeRegs (z : Nat) : Nat := [1, 1, 1, 1, 1, 2, 4].getD z 1
/-- What a lane receives of the bytes x: two of the codes extend the sign (R171). -/
def sizeValue (z x : Nat) : Nat :=
  if z = 1 ∧ 128 ≤ x then 2 ^ 32 - 256 + x else if z = 3 ∧ 32768 ≤ x then 2 ^ 32 - 65536 + x else x

/-- A vector load of n bytes a lane from the places loc completes, and its LOAD_RETURN writes the k registers from d: every active lane
receives the bytes at its place, other lanes and registers and all of memory stand as they did, and LDCNT has risen and fallen. -/
def State.Loads (s : State) (i : Instr) (len st d k z : Nat) (loc : Nat → Loc) : Prop :=
  ∃ t u, exec i s = .next t ∧ t.g.pc = s.g.pc + BitVec.ofNat 64 len ∧ t.g.notBefore = s.clock + 1 + st
    ∧ t.g.count .ld = 1 ∧ t.mem = s.mem ∧ t.others = s.others
    ∧ exec (.loadReturn s.g.id) t = .next u ∧ u.g.count .ld = 0 ∧ u.mem = s.mem ∧ u.g.pc = t.g.pc
    ∧ (∀ l j, (s.g.rdMask s.clock).getLsbD l = true → j < k → (u.g.v.getD (d + j) VReg.zero).lane l
        = BitVec.ofNat 32 (sizeValue z (s.memRead (loc l).key (sizeBytes z)) / 2 ^ (32 * j)))
    ∧ (∀ l j, l < 96 → s.g.present.getLsbD l = true → (s.g.rdMask s.clock).getLsbD l = false → j < k →
        (u.g.v.getD (d + j) VReg.zero).lane l = (s.g.v.getD (d + j) VReg.zero).lane l)
    ∧ (∀ r, r < d ∨ d + k ≤ r → u.g.v.getD r VReg.zero = s.g.v.getD r VReg.zero) ∧ u.g.s = s.g.s ∧ u.g.gsr = s.g.gsr ∧ u.g.mask = s.g.mask

/-- A vector store of n bytes a lane to the places loc completes: the bytes of every storing lane that no later lane overwrites hold its
word, every byte outside the lanes' places reads as before, no register has changed, and STCNT counts it until its
STORE_PERFORMED. -/
def State.Stores (s : State) (i : Instr) (len st n : Nat) (loc : Nat → Loc) (word : Nat → Nat) : Prop :=
  ∃ t u, exec i s = .next t ∧ s.PassedBy t len st ∧ t.g.count .st = 1
    ∧ (∀ l ∈ s.g.storing s.clock, (∀ k ∈ s.g.storing s.clock, l < k → overlaps (s.place (loc l).key) n (s.place (loc k).key) n = false) →
        t.memRead (loc l).key n = word l % 2 ^ (8 * n))
    ∧ (∀ a, (∀ l ∈ s.g.storing s.clock, a < s.place (loc l).key ∨ s.place (loc l).key + n ≤ a) → Memory.get t.mem a = Memory.get s.mem a)
    ∧ exec (.storePerformed s.g.id) t = .next u ∧ u.g.count .st = 0 ∧ u.mem = t.mem

/-- The words of registers d to d + k − 1 in a lane, the first lowest. -/
def State.laneWords (s : State) (d : Nat) : Nat → Nat → Nat
  | 0, _ => 0
  | k + 1, l => ((s.g.rdV s.clock d).lane l).toNat + 2 ^ 32 * State.laneWords s (d + 1) k l
/-- The words of scalars d to d + k − 1. -/
def State.scalarWords (s : State) (d : Nat) : Nat → Nat
  | 0 => 0
  | k + 1 => (s.g.rdS s.clock d).toNat + 2 ^ 32 * State.scalarWords s (d + 1) k

end Sys2Proof.Machine

/-- R169, R171, R172: VLD, VLDI and VLD.LINE.
That memory is read at issue is the model's choice (log entry 15); so is the shape a load gives (log entry 53). -/
def Sys2Proof.Claim.VectorLoads : Prop :=
  (∀ (o : MV) (s : State) (loc : Nat → Loc), s.Sound → s.Calm → s.Issues .memv maskRefs → s.g.rdMask s.clock ≠ 0 → o.z.toNat < 7 →
    o.a.toNat < 63 → o.d.toNat + sizeRegs o.z.toNat ≤ 64 →
    (∀ j, j < sizeRegs o.z.toNat → (s.g.v.getD (o.d.toNat + j) VReg.zero).val.slot?.isSome = true) →
    (∀ l, (s.g.rdMask s.clock).getLsbD l = true →
      s.Reaches l (s.laneAddr o.a.toNat o.b.toNat o.rt l) (sizeBytes o.z.toNat) .rd (loc l)) →
    s.Loads (.vld o) (4 + (if o.rt.isSome then 4 else 0) + (if o.mq.isSome then 4 else 0)) o.st.toNat o.d.toNat
      (sizeRegs o.z.toNat) o.z.toNat loc) ∧
  (∀ (o : MI) (s : State) (loc : Nat → Loc), s.Sound → s.Calm → s.Issues .memv maskRefs → s.g.rdMask s.clock ≠ 0 →
    o.a.toNat < 63 → o.d.toNat + sizeRegs o.z.toNat ≤ 64 →
    (∀ j, j < sizeRegs o.z.toNat → (s.g.v.getD (o.d.toNat + j) VReg.zero).val.slot?.isSome = true) →
    let base := s.g.rdPair s.clock o.a.toNat
    let addr (l : Nat) : Nat := if o.z.toNat = 7 then (base + o.i.toNat * 384) % 2 ^ 64 + 4 * l
      else (base + o.i.toNat * sizeBytes o.z.toNat) % 2 ^ 64
    (o.z.toNat = 7 → addr 0 % 64 = 0 ∧ apertureOf (addr 0) ≠ none
      ∧ ∀ l, (s.g.rdMask s.clock).getLsbD l = true → apertureOf (addr l % 2 ^ 64) = apertureOf (addr 0)) →
    (∀ l, (s.g.rdMask s.clock).getLsbD l = true → s.Reaches l (addr l) (sizeBytes o.z.toNat) .rd (loc l)) →
    s.Loads (.vldi o) (if o.mq.isSome then 8 else 4) o.st.toNat o.d.toNat (sizeRegs o.z.toNat) o.z.toNat loc) ∧
  (∀ (o : MRL) (s : State) (loc : Nat → Loc), s.Sound → s.Calm → s.Issues .memv maskRefs → s.g.rdMask s.clock ≠ 0 →
    o.a.toNat < 63 → (s.g.v.getD o.d.toNat VReg.zero).val.slot?.isSome = true → s.g.rdPair s.clock o.a.toNat % 64 = 0 →
    apertureOf (s.g.rdPair s.clock o.a.toNat) ≠ none →
    (∀ l, (s.g.rdMask s.clock).getLsbD l = true →
      apertureOf ((s.g.rdPair s.clock o.a.toNat + 4 * l) % 2 ^ 64) = apertureOf (s.g.rdPair s.clock o.a.toNat)) →
    (∀ l, (s.g.rdMask s.clock).getLsbD l = true → s.Reaches l (s.g.rdPair s.clock o.a.toNat + 4 * l) 4 .rd (loc l)) →
    s.Loads (.vldLine o) (4 + (if o.rt.isSome then 4 else 0) + (if o.mq.isSome then 4 else 0)) o.st.toNat o.d.toNat 1 7 loc)

/-- R173: VLD.NR reports in p7 the active lanes whose page is not resident and loads the others. -/
def Sys2Proof.Claim.LoadNonResident : Prop :=
  ∀ (o : MV) (s : State) (loc : Nat → Loc) (out : Mask), s.Sound → s.Calm → s.Issues .memv maskRefs → s.g.rdMask s.clock ≠ 0 →
    o.z.toNat < 7 → o.a.toNat < 63 → o.d.toNat + sizeRegs o.z.toNat ≤ 64 →
    (∀ j, j < sizeRegs o.z.toNat → (s.g.v.getD (o.d.toNat + j) VReg.zero).val.slot?.isSome = true) →
    (∀ l, (s.g.rdMask s.clock).getLsbD l = true → s.g.helpers.getLsbD l = false →
      if out.getLsbD l then ∃ page, s.checkAccess s.g l (s.laneAddr o.a.toNat o.b.toNat o.rt l) (sizeBytes o.z.toNat) (sizeBytes o.z.toNat) .rd
          = (.nonres page, s)
      else s.Reaches l (s.laneAddr o.a.toNat o.b.toNat o.rt l) (sizeBytes o.z.toNat) .rd (loc l)) →
    s.g.helpers &&& s.g.rdMask s.clock = 0 →
    ∃ t u, exec (.vldNr o) s = .next t ∧ t.g.count .ld = 1 ∧ t.mem = s.mem
      ∧ t.g.pc = s.g.pc + BitVec.ofNat 64 (4 + (if o.rt.isSome then 4 else 0) + (if o.mq.isSome then 4 else 0))
      ∧ exec (.loadReturn s.g.id) t = .next u ∧ u.mem = s.mem ∧ u.g.s = s.g.s ∧ u.g.gsr = s.g.gsr
      ∧ (∀ l, (s.g.rdMask s.clock).getLsbD l = true → (u.g.p.getD 7 0).getLsbD l = out.getLsbD l)
      ∧ (∀ l, (s.g.rdMask s.clock).getLsbD l = false → (u.g.p.getD 7 0).getLsbD l = (s.g.p.getD 7 0).getLsbD l)
      ∧ (∀ l j, (s.g.rdMask s.clock).getLsbD l = true → out.getLsbD l = false → j < sizeRegs o.z.toNat →
          (u.g.v.getD (o.d.toNat + j) VReg.zero).lane l
          = BitVec.ofNat 32 (sizeValue o.z.toNat (s.memRead (loc l).key (sizeBytes o.z.toNat)) / 2 ^ (32 * j)))

/-- R56, R174: VST and VSTI: the storing lanes are the active ones that are no helpers.
That memory is written at issue is the model's choice (log entry 15). -/
def Obligations.VectorStores : Prop :=
  (∀ (o : MV) (s : State) (loc : Nat → Loc), s.Sound → s.Calm → s.Issues .memv maskRefs → s.g.rdMask s.clock ≠ 0 →
    o.z.toNat < 5 → o.a.toNat < 63 → (∀ q, o.mq = some q → q.scope.toNat ≠ 4) →
    let k := if o.z = 3 then 2 else if o.z = 4 then 4 else 1
    (∀ l ∈ s.g.storing s.clock, s.Reaches l (s.laneAddr o.a.toNat o.b.toNat o.rt l) (2 ^ o.z.toNat) .w (loc l)) →
    s.Stores (.vst o) (4 + (if o.rt.isSome then 4 else 0) + (if o.mq.isSome then 4 else 0)) o.st.toNat (2 ^ o.z.toNat) loc
      (s.laneWords o.d.toNat k)) ∧
  (∀ (o : MI) (s : State) (loc : Nat → Loc), s.Sound → s.Calm → s.Issues .memv maskRefs → s.g.rdMask s.clock ≠ 0 →
    o.z.toNat < 5 → o.a.toNat < 63 → (∀ q, o.mq = some q → q.scope.toNat ≠ 4) →
    let k := if o.z = 3 then 2 else if o.z = 4 then 4 else 1
    (∀ l ∈ s.g.storing s.clock, s.Reaches l ((s.g.rdPair s.clock o.a.toNat + o.i.toNat * 2 ^ o.z.toNat) % 2 ^ 64) (2 ^ o.z.toNat) .w (loc l)) →
    s.Stores (.vsti o) (if o.mq.isSome then 8 else 4) o.st.toNat (2 ^ o.z.toNat) loc (s.laneWords o.d.toNat k)) ∧
  (∀ (s : State) (l : Nat), l ∈ s.g.storing s.clock ↔ (s.g.rdMask s.clock).getLsbD l = true ∧ s.g.helpers.getLsbD l = false)

/-- R176: SLD and SST, whose one access is that of lane slot 0.
That memory is read and written at issue is the model's choice (log entry 15). -/
def Sys2Proof.Claim.ScalarLoadStore : Prop :=
  (∀ (o : MS) (s : State) (loc : Loc), s.Sound → s.Calm → s.Issues .mem [] → o.z.toNat < 5 → o.a.toNat < 63 →
    let k := if o.z = 3 then 2 else if o.z = 4 then 4 else 1
    o.d.toNat + k ≤ 56 →
    s.Reaches 0 (BitVec.ofNat 64 (s.g.rdPair s.clock o.a.toNat) + (s.g.rdS s.clock o.b.toNat).signExtend 64).toNat (2 ^ o.z.toNat) .rd loc →
    ∃ t u, exec (.sld o) s = .next t ∧ s.PassedBy t (if o.mq.isSome then 8 else 4) o.st.toNat ∧ t.mem = s.mem ∧ t.g.count .ld = 1
      ∧ exec (.loadReturn s.g.id) t = .next u ∧ u.g.count .ld = 0 ∧ u.mem = s.mem ∧ u.g.v = s.g.v ∧ u.g.p = s.g.p ∧ u.g.gsr = s.g.gsr
      ∧ (∀ j, j < k → u.g.rawS (o.d.toNat + j) = BitVec.ofNat 32 (s.memRead loc.key (2 ^ o.z.toNat) / 2 ^ (32 * j)))
      ∧ (∀ r, r < o.d.toNat ∨ o.d.toNat + k ≤ r → u.g.rawS r = s.g.rawS r)) ∧
  (∀ (o : MS) (s : State) (loc : Loc), s.Sound → s.Calm → s.Issues .mem [] → o.z.toNat < 5 → o.a.toNat < 63 →
    (∀ q, o.mq = some q → q.scope.toNat ≠ 4) →
    let k := if o.z = 3 then 2 else if o.z = 4 then 4 else 1
    s.Reaches 0 (BitVec.ofNat 64 (s.g.rdPair s.clock o.a.toNat) + (s.g.rdS s.clock o.b.toNat).signExtend 64).toNat (2 ^ o.z.toNat) .w loc →
    ∃ t u, exec (.sst o) s = .next t ∧ s.PassedBy t (if o.mq.isSome then 8 else 4) o.st.toNat ∧ t.g.count .st = 1
      ∧ t.memRead loc.key (2 ^ o.z.toNat) = s.scalarWords o.d.toNat k % 2 ^ (8 * 2 ^ o.z.toNat)
      ∧ s.Frame t loc.key (2 ^ o.z.toNat)
      ∧ exec (.storePerformed s.g.id) t = .next u ∧ u.g.count .st = 0 ∧ u.mem = t.mem)

/-- R169, R170: an access whose address is no multiple of its size raises the alignment trap, with the lowest such lane and its address
(lane 127 for a scalar unit, log entry 13), and nothing is loaded or stored. -/
def Sys2Proof.Claim.MisalignedAccess : Prop :=
  (∀ (s : State) (l : Nat), s.Calm → s.Issues .memv maskRefs → (s.g.rdMask s.clock).getLsbD l = true →
    (∀ k, k < l → (s.g.rdMask s.clock).getLsbD k = false) → s.g.helpers.getLsbD l = false →
    (∀ o : MV, o.z.toNat < 7 → s.laneAddr o.a.toNat o.b.toNat o.rt l % sizeBytes o.z.toNat ≠ 0 → o.a.toNat < 63 →
      exec (.vld o) s = .next (s.stopped .memv (beats (s.g.rdMask s.clock)) o.st.toNat (.trap 2 0 l (s.laneAddr o.a.toNat o.b.toNat o.rt l)))) ∧
    (∀ o : MV, o.z.toNat < 5 → o.mq = none → s.laneAddr o.a.toNat o.b.toNat o.rt l % 2 ^ o.z.toNat ≠ 0 → o.a.toNat < 63 →
      exec (.vst o) s = .next (s.stopped .memv (beats (s.g.rdMask s.clock)) o.st.toNat (.trap 2 0 l (s.laneAddr o.a.toNat o.b.toNat o.rt l)))) ∧
    (∀ o : MF, o.mq = none → s.laneAddr o.a.toNat o.b.toNat o.rt l % 4 ≠ 0 → o.a.toNat < 63 →
      exec (.vatomAddI32 o) s = .next (s.stopped .memv (beats (s.g.rdMask s.clock)) o.st.toNat (.trap 2 0 l (s.laneAddr o.a.toNat o.b.toNat o.rt l))))) ∧
  (∀ (o : MS) (s : State), s.Calm → s.Issues .mem [] → o.z.toNat < 5 → o.a.toNat < 63 →
    let a := (BitVec.ofNat 64 (s.g.rdPair s.clock o.a.toNat) + (s.g.rdS s.clock o.b.toNat).signExtend 64).toNat
    a % 2 ^ o.z.toNat ≠ 0 →
    exec (.sld o) s = .next (s.stopped .mem 1 o.st.toNat (.trap 2 0 127 a)) ∧
    (o.mq = none → exec (.sst o) s = .next (s.stopped .mem 1 o.st.toNat (.trap 2 0 127 a))))

/-- R71: a group whose LDCNT or STCNT stands at its maximum does not issue another load or store: the unit waits, its pc unmoved,
and goes on once the counter is below the maximum. -/
def Sys2Proof.Claim.CountersHold : Prop :=
  ∀ s : State, s.Issues .memv maskRefs → s.g.inflight = [] → s.g.rdMask s.clock ≠ 0 →
    (s.g.count .ld = 63 → ∀ (o : MV) (p : MI) (q : MRL) (r : AB) (u : MS),
      (∀ i ∈ [Instr.vld o, .vldNr o, .vldi p, .vldLine q, .pagereq r], exec i s = .next (s.await (.limits 62 63 7 7 7 false)))
      ∧ (s.Issues .mem [] → exec (.sld u) s = .next (s.await (.limits 62 63 7 7 7 false)))) ∧
    (s.g.count .st = 63 → ∀ (o : MV) (p : MI) (u : MS),
      (∀ i ∈ [Instr.vst o, .vsti p], exec i s = .next (s.await (.limits 63 62 7 7 7 false)))
      ∧ (s.Issues .mem [] → exec (.sst u) s = .next (s.await (.limits 63 62 7 7 7 false)))) ∧
    (∀ (h : Group) (ld st mx en tm : Nat), s.countsOk h ld st mx en tm false
      = decide (h.count .ld ≤ ld ∧ h.count .st ≤ st ∧ h.count .mx ≤ mx ∧ h.count .en ≤ en ∧ h.count .tm ≤ tm))

/-- R177, R178, R217, R218: PAGEREQ over resident pages resolves at once, VPREF changes no register and no byte; TLBINV drops the
context's entries that map the range, once no LAUNCH has its packet there to be read; HARVEST answers how many leaves of it have a set
write record, whose record it clears and whose DTY it sets; both in privileged mode only.
That a prefetch is performed is the model's choice (log entry 39). -/
def Sys2Proof.Claim.PageInstructions : Prop :=
  (∀ (o : AB) (s : State) (loc : Nat → Loc), s.Sound → s.Calm → s.Issues .memv maskRefs → s.g.rdMask s.clock ≠ 0 → o.a.toNat < 63 →
    (∀ l, (s.g.rdMask s.clock).getLsbD l = true → s.Reaches l (s.laneAddr o.a.toNat o.b.toNat none l) 1 .rd (loc l)) →
    ∃ t, exec (.pagereq o) s = .next t ∧ s.PassedBy t 4 o.st.toNat ∧ t.mem = s.mem ∧ t.pageReqs = s.pageReqs ∧ t.g.count .ld = 1
      ∧ ∃ u, exec (.loadReturn s.g.id) t = .next u ∧ u.g.count .ld = 0 ∧ u.g.v = s.g.v ∧ u.mem = s.mem) ∧
  (∀ (o : AB) (s : State) (page l : Nat), s.Sound → s.Calm → s.Issues .memv maskRefs → s.g.rdMask s.clock = BitVec.twoPow 96 l → l < 96 →
    o.a.toNat < 63 → s.g.helpers = 0 → s.mgmt.pqSize ≠ 0 → (s.pageReqs.all fun r => !(r.ctx == s.g.ctx && r.va == page)) = true →
    s.checkAccess s.g l (s.laneAddr o.a.toNat o.b.toNat none l) 1 1 .rd = (.nonres page, s) →
    ∃ t, exec (.pagereq o) s = .next t ∧ s.PassedBy t 4 o.st.toNat ∧ t.g.count .ld = 1
      ∧ ∃ r ∈ t.pageReqs, r.va = page ∧ r.ctx = s.g.ctx ∧ r.seq = s.mgmt.pqSeq ∧ r.kind = 0) ∧
  (∀ (o : AB) (s : State), s.Sound → s.Calm → s.Issues .memv maskRefs → s.g.rdMask s.clock ≠ 0 → o.a.toNat < 63 →
    ∃ t, exec (.vpref o) s = .next t ∧ t.g.pc = s.g.pc + 4 ∧ t.g.v = s.g.v ∧ t.g.s = s.g.s ∧ t.g.p = s.g.p ∧ t.g.gsr = s.g.gsr
      ∧ ((∀ l, (s.g.rdMask s.clock).getLsbD l = true → apertureOf (s.laneAddr o.a.toNat o.b.toNat none l) = some .global →
            ∃ e ∈ s.tlb, e.l2 = false ∧ e.unit = s.g.core ∧ e.hits s.g.ctx (s.laneAddr o.a.toNat o.b.toNat none l) = true) →
          s.PassedBy t 4 o.st.toNat ∧ t.mem = s.mem ∧ t.g.pend = [])) ∧
  (∀ (o : DAB) (s : State), s.Sound → s.Calm → (∀ g ∈ s.groups, g.pend = []) → s.Issues .mem [] → s.g.priv = true → o.a.toNat < 63 →
    let x := (s.g.rdS s.clock o.d.toNat).toNat
    let n := (s.g.rdS s.clock o.b.toNat).toNat
    let base := s.g.rdPair s.clock o.a.toNat
    (s.launchPending (x % 4096) base n = true → exec (.tlbinv o) s = .next (s.hold (s.clock + 1))) ∧
    (s.launchPending (x % 4096) base n = false → ∃ t u, exec (.tlbinv o) s = .next t ∧ s.PassedBy t 4 o.st.toNat ∧ t.mem = s.mem ∧ t.g.count .st = 1
      ∧ (∀ e ∈ s.tlb, e ∈ t.tlb ∨ (e.ctx = x % 4096 ∧ (n = 0 ∨ (e.va < base + n ∧ base < e.va + e.size))))
      ∧ (∀ e ∈ t.tlb, e ∈ s.tlb ∧ ¬(e.ctx = x % 4096 ∧ (n = 0 ∨ (e.va < base + n ∧ base < e.va + e.size))))
      ∧ exec (.tlbinvCompletion s.g.id) t = .next u ∧ u.g.count .st = 0)) ∧
  (∀ (o : DAB) (s : State), s.Sound → s.Calm → s.Issues .mem [] → s.g.priv = true → o.a.toNat < 63 → s.wrec = [] → isMaskReg o.d.toNat = false →
    ∃ t u, exec (.harvest o) s = .next t ∧ s.PassedBy t 4 o.st.toNat ∧ t.mem = s.mem ∧ t.g.count .ld = 1
      ∧ exec (.harvestCompletion s.g.id) t = .next u ∧ u.g.rawS o.d.toNat = 0 ∧ u.g.count .ld = 0) ∧
  (∀ (o : DAB) (s : State) (at_ e size p : Nat), s.Sound → s.Calm → s.Issues .mem [] → s.g.priv = true → o.a.toNat < 63 →
    isMaskReg o.d.toNat = false →
    let base := s.g.rdPair s.clock o.a.toNat
    let n := (s.g.rdS s.clock o.b.toNat).toNat
    let mine (q : Nat) : Bool := decide (ptePa e / 65536 ≤ q ∧ q < ptePa e / 65536 + size / 65536)
    s.walk base s.g.root walkLevels = some (at_, e, size) → n ≠ 0 → base + n ≤ (base / size + 1) * size → base < 0x0200000000000000 →
    p ∈ s.wrec → mine p = true →
    ∃ t u, exec (.harvest o) s = .next t ∧ s.PassedBy t 4 o.st.toNat ∧ t.g.count .ld = 1
      ∧ t.memRead at_ 8 = e ||| 2 ^ 12 ∧ s.Frame t at_ 8 ∧ (∀ q, q ∈ t.wrec ↔ q ∈ s.wrec ∧ mine q = false)
      ∧ exec (.harvestCompletion s.g.id) t = .next u ∧ u.g.rawS o.d.toNat = 1 ∧ u.g.count .ld = 0 ∧ u.mem = t.mem) ∧
  (∀ (o : DAB) (s : State), s.g.priv = false →
    exec (.tlbinv o) s = .next (s.decodeTrap 3 0 o.st.toNat) ∧ exec (.harvest o) s = .next (s.decodeTrap 3 0 o.st.toNat))

/-- R166, R179: CINV, CWB and CFLUSH over a range whose lines translate: each passes and is counted by STCNT; CINV and CFLUSH leave the
core's L1 without the lines, CWB and CFLUSH write the core's own bytes of a line of host non-coherent memory to it.
That the lines are acted on at issue is the model's choice (log entry 15). -/
def Sys2Proof.Claim.CacheInstructions : Prop :=
  (∀ c ∈ [Instr.cinv, .cwb, .cflush], ∀ (o : AB) (s : State) (ls : List Loc), s.Sound → s.Calm → s.Issues .mem [] → o.a.toNat < 63 →
    rangeLocs (rangeLines (s.g.rdPair s.clock o.a.toNat) (s.g.rdS s.clock o.b.toNat).toNat) s = .ok ls s → (∀ l ∈ ls, l.ty = 0 ∨ l.ty = 1) →
    ∃ t u, exec (c o) s = .next t ∧ s.PassedBy t 4 o.st.toNat ∧ t.mem = s.mem ∧ t.g.count .st = 1
      ∧ exec (.storePerformed s.g.id) t = .next u ∧ u.g.count .st = 0) ∧
  (∀ c ∈ [Instr.cinv, .cflush], ∀ (o : AB) (s : State) (l : Loc), s.Sound → s.Calm → s.Issues .mem [] → o.a.toNat < 63 →
    rangeLocs (rangeLines (s.g.rdPair s.clock o.a.toNat) (s.g.rdS s.clock o.b.toNat).toNat) s = .ok [l] s → (l.ty = 0 ∨ l.ty = 3) →
    l.key % 64 = 0 → s.hostDown = false → ∃ t, exec (c o) s = .next t ∧ t.l1Find s.g.core l.key = none) ∧
  (∀ c ∈ [Instr.cwb, .cflush], ∀ (o : AB) (s : State) (l : Loc) (k : L1Line), s.memOk → s.banks = [] → s.hazeNet = [] → s.hazeHomes = [] →
    s.g.pend = [] → s.g.sPoison = 0 → s.g.inflight = [] → s.Issues .mem [] → o.a.toNat < 63 →
    rangeLocs (rangeLines (s.g.rdPair s.clock o.a.toNat) (s.g.rdS s.clock o.b.toNat).toNat) s = .ok [l] s → l.ty = 3 → l.key % 64 = 0 → s.hostDown = false →
    s.Flat l.key 64 →
    s.l1Find s.g.core l.key = some k → k.data.length = 64 →
    ∃ t, exec (c o) s = .next t ∧ t.g.pc = s.g.pc + 4
      ∧ s.Frame t l.key 64 ∧ ∀ i, i < 64 → Memory.get t.mem (s.place l.key + i)
          = if k.dirty.getLsbD i then k.data.getD i 0 else Memory.get s.mem (s.place l.key + i))

namespace Sys2Proof.Machine

/-- A counted operation of one of the kinds is outstanding in the group. -/
def Group.Outstanding (g : Group) (ks : List PendKind) : Prop := ∃ p ∈ g.pend, p.kind ∈ ks
/-- What a fence takes for loads and for stores: an atomic and a term job are both (R181, R191). -/
def loadKinds : List PendKind := [.load, .atomic, .pageReq, .term]
def storeKinds : List PendKind := [.store, .atomic, .cache, .hazeDrain, .term]
/-- A vector register of the group is owed a counted result or is not ready. -/
def Group.VectorsOwed (g : Group) (now : Nat) : Prop :=
  (∃ p ∈ g.pend, ∃ r m xs pz u race, RegWrite.vec r m xs pz u race ∈ p.writes) ∨ ∃ e ∈ g.inflight, now < e.ready ∧ ∃ r, e.ref = .v r

/-- R224, R228: memory after the lanes ls, in that order, have each put f of the n bytes its place then held there. -/
def State.atomMem (s : State) (n : Nat) (f : Nat → Nat → Nat) (loc : Nat → Loc) (ls : List Nat) : List Host.Cell :=
  ls.foldl (fun m l => Memory.write m (s.place (loc l).key) (leBytes n (f l (leNat (Memory.read m (s.place (loc l).key) n))))) s.mem
/-- R224, R228: what lane l finds at its place: the lower ones of the lanes ls have been there. -/
def State.atomOld (s : State) (n : Nat) (f : Nat → Nat → Nat) (loc : Nat → Loc) (ls : List Nat) (l : Nat) : Nat :=
  leNat (Memory.read (s.atomMem n f loc (ls.filter (· < l))) (s.place (loc l).key) n)

/-- R223 to R226: what a vector atomic on elements of n bytes finds: lanes that store, each at a place of its own address where the
operation is performed as near says, every register of its result with a slot, and its release, if it is one, with nothing to wait for. -/
structure State.AtomReady (s : State) (o : MF) (n k : Nat) (loc : Nat → Loc) (at_ : AtomPlace) : Prop where
  sound : s.Sound
  calm : s.Calm
  issues : s.Issues .memv maskRefs
  lanes : s.g.storing s.clock ≠ []
  base : o.a.toNat < 63
  regs : o.d.toNat + k ≤ 64
  posted : ∀ q, o.mq = some q → q.scope.toNat ≠ 4 ∨ s.zlr = []
  slots : ∀ j, j < max 1 (n / 4) → (s.g.v.getD (o.d.toNat + j) VReg.zero).val.slot?.isSome = true
  reach : ∀ l ∈ s.g.storing s.clock, s.Reaches l (s.laneAddr o.a.toNat o.b.toNat o.rt l) n .w (loc l) ∧ s.atomPlace (loc l) o.mq = at_

/-- R224, R226: the vector atomic i of the lanes ls, each of which puts f of what it finds: the pc stands behind it, memory is as the lanes
leave it one after the other, and ATOMIC_RESULT gives every lane what it found, with no other lane, vector register, scalar or
predicate changed. -/
def State.Atomically (s : State) (i : Instr) (o : MF) (n : Nat) (f : Nat → Nat → Nat) (loc : Nat → Loc) : Prop :=
  let ls := s.g.storing s.clock
  let k := max 1 (n / 4)
  ∃ t u, exec i s = .next t ∧ t.g.pc = s.g.pc + BitVec.ofNat 64 (4 + (if o.rt.isSome then 4 else 0) + (if o.mq.isSome then 4 else 0))
    ∧ t.g.count .ld = 1 ∧ t.mem = s.atomMem n f loc ls
    ∧ exec (.atomicResult s.g.id) t = .next u ∧ u.g.count .ld = 0 ∧ u.mem = t.mem
    ∧ (∀ l ∈ ls, ∀ j, j < k → (u.g.v.getD (o.d.toNat + j) VReg.zero).lane l = BitVec.ofNat 32 (s.atomOld n f loc ls l / 2 ^ (32 * j)))
    ∧ (∀ l j, l < 96 → s.g.present.getLsbD l = true → l ∉ ls → j < k →
        (u.g.v.getD (o.d.toNat + j) VReg.zero).lane l = (s.g.v.getD (o.d.toNat + j) VReg.zero).lane l)
    ∧ (∀ r, r < o.d.toNat ∨ o.d.toNat + k ≤ r → u.g.v.getD r VReg.zero = s.g.v.getD r VReg.zero)
    ∧ u.g.s = s.g.s ∧ u.g.p = s.g.p ∧ u.g.gsrBit 0 = s.g.gsrBit 0

end Sys2Proof.Machine

/-- R191, R194: FENCE at GRP scope passes; at a wider scope it waits, its pc unmoved, while a load of its group is outstanding, and as a
release also while a store is; FENCE.OPR waits for stores and vector results; with nothing of that outstanding they pass.
What is outstanding at a fence is the model's choice (log entry 15). -/
def Sys2Proof.Claim.Fences : Prop :=
  (∀ (o : FN) (s : State), s.Issues .mem [] → (s.g.pend.all fun p => p.todo.isEmpty) = true →
    (o.k = 0 ∨ o.c.toNat ≠ 4 ∨ s.zlr = []) →
    let out := s.g.Outstanding loadKinds ∨ (o.k ≠ 0 ∧ s.g.Outstanding storeKinds)
    (o.c = 0 ∨ ¬out → ∃ t, exec (.fence o) s = .next t ∧ s.Passed t 4 o.st.toNat) ∧
    (o.c ≠ 0 → out → exec (.fence o) s = .next (s.await (.fence true (o.k != 0) false)))) ∧
  (∀ (o : Z0) (s : State), s.Issues .mem [] → (s.g.pend.all fun p => p.todo.isEmpty) = true →
    let out := s.g.Outstanding storeKinds ∨ s.g.VectorsOwed s.clock
    (¬out → ∃ t, exec (.fenceOpr o) s = .next t ∧ s.Passed t 4 o.st.toNat) ∧
    (out → exec (.fenceOpr o) s = .next (s.await (.fence false true true)))) ∧
  (∀ (o : FNH) (s : State) (r : HazeRegion), s.Calm → s.Issues .mem [] → s.handleRegion s.g.ctx (s.g.rdS s.clock o.a.toNat) false = some r →
    (s.hazeLines.all fun l => !(l.core == s.g.core && l.region == r.idx)) = true → (o.c.toNat ≠ 4 ∨ s.zlr = []) →
    ∃ t, exec (.fenceH o) s = .next t ∧ s.Passed t 4 o.st.toNat)

/-- R224 to R228: the vector and scalar atomics: lane after lane in ascending order, each element's new value is what the operation gives
of the value there and the lane's word, and d receives what each lane found. Where the home performs them, as PLACE and the page's
class say, they go there in that order.
That those performed by the core are performed at issue is the model's choice (log entry 15). -/
def Obligations.Atomics : Prop :=
  (∀ c ∈ [((.vatomAddI32 : MF → Instr), fun (x y : Nat) => (x + y) % 2 ^ 32), (.vatomAnd, fun x y => x &&& y), (.vatomOr, fun x y => x ||| y),
      (.vatomXchg, fun _ y => y), (.vatom2MinN, fun x y => min x y), (.vatom2MaxN, fun x y => max x y), (.vatom2Xor, fun x y => x ^^^ y),
      (.vatomMinI, fun x y => if (BitVec.ofNat 32 x).toInt ≤ (BitVec.ofNat 32 y).toInt then x else y),
      (.vatomMaxI, fun x y => if (BitVec.ofNat 32 x).toInt ≤ (BitVec.ofNat 32 y).toInt then y else x),
      (.vatomAddF32, fun x y => (fmtF32.add .rne false false x y).bits),
      (.vatomAddBf2, fun x y => (fmtBF16.add .rne false false (x % 65536) (y % 65536)).bits
        + 65536 * (fmtBF16.add .rne false false (x / 65536) (y / 65536)).bits),
      (.vatom2MinF32, fun x y => fmtF32.minmax false false x y), (.vatom2MaxF32, fun x y => fmtF32.minmax false true x y)],
    ∀ (o : MF) (s : State) (loc : Nat → Loc), s.AtomReady o 4 1 loc .near →
    s.Atomically (c.1 o) o 4 (fun l x => c.2 x ((s.g.rdV s.clock o.d.toNat).lane l).toNat) loc) ∧
  (∀ c ∈ [((.vatom2AddI64 : MF → Instr), fun (x y : Nat) => (x + y) % 2 ^ 64), (.vatom2Xchg64, fun _ y => y)],
    ∀ (o : MF) (s : State) (loc : Nat → Loc), s.AtomReady o 8 2 loc .near →
    s.Atomically (c.1 o) o 8 (fun l x => c.2 x (s.laneWords o.d.toNat 2 l)) loc) ∧
  (∀ c ∈ [((.vcas32 : MF → Instr), 1), (.vcas64, 2), (.vcas128, 4)], ∀ (o : MF) (s : State) (loc : Nat → Loc),
    s.AtomReady o (4 * c.2) (2 * c.2) loc .near →
    s.Atomically (c.1 o) o (4 * c.2)
      (fun l x => if x = s.laneWords o.d.toNat c.2 l then s.laneWords (o.d.toNat + c.2) c.2 l else x) loc) ∧
  (∀ (o : MF) (s : State) (loc : Nat → Loc), s.AtomReady o 4 1 loc .home →
    (∀ g ∈ s.others, ∀ p ∈ g.pend, p.todo = []) →
    ∃ t p, exec (.vatomAddI32 o) s = .next t ∧ t.mem = s.mem ∧ t.g.pend = [p] ∧ p.kind = .atomic ∧ p.done = false
      ∧ p.todo.map (fun e => (e.lane, e.loc, e.op, e.n, e.data)) = (s.g.storing s.clock).map (fun l =>
          (l, loc l, .addI32, 4, ((s.g.rdV s.clock o.d.toNat).lane l).toNat))) ∧
  (∀ c ∈ [((.satomAddI32 : ML → Instr), 1, fun (x y : Nat) => (x + y) % 2 ^ 32), (.satomXchg, 1, fun _ y => y), (.satomOr, 1, fun x y => x ||| y),
      (.satomAnd, 1, fun x y => x &&& y), (.satomAddI64, 2, fun x y => (x + y) % 2 ^ 64)],
    ∀ (o : ML) (s : State) (loc : Loc), s.Sound → s.Calm → s.Issues .mem [] → o.a.toNat < 63 → o.d.toNat + c.2.1 ≤ 56 →
    (∀ q, o.mq = some q → q.scope.toNat ≠ 4 ∨ s.zlr = []) → s.atomPlace loc o.mq = .near →
    s.Reaches 0 (s.g.rdPair s.clock o.a.toNat) (4 * c.2.1) .w loc →
    let x := s.memRead loc.key (4 * c.2.1)
    ∃ t u, exec (c.1 o) s = .next t ∧ t.g.pc = s.g.pc + (if o.mq.isSome then 8 else 4)
      ∧ t.memRead loc.key (4 * c.2.1) = c.2.2 x (s.scalarWords o.d.toNat c.2.1)
      ∧ s.Frame t loc.key (4 * c.2.1)
      ∧ exec (.atomicResult s.g.id) t = .next u ∧ u.mem = t.mem
      ∧ (∀ j, j < c.2.1 → u.g.rawS (o.d.toNat + j) = BitVec.ofNat 32 (x / 2 ^ (32 * j)))
      ∧ (∀ r, r < o.d.toNat ∨ o.d.toNat + c.2.1 ≤ r → u.g.rawS r = s.g.rawS r) ∧ u.g.v = s.g.v ∧ u.g.p = s.g.p ∧ u.g.gsr = s.g.gsr) ∧
  (∀ c ∈ [((.satomCas32 : ML → Instr), 1), (.satomCas64, 2), (.satomCas128, 4)], ∀ (o : ML) (s : State) (loc : Loc), s.Sound → s.Calm →
    s.Issues .mem [] → o.a.toNat < 63 → o.d.toNat + 2 * c.2 ≤ 56 → (∀ q, o.mq = some q → q.scope.toNat ≠ 4 ∨ s.zlr = []) →
    s.atomPlace loc o.mq = .near → s.Reaches 0 (s.g.rdPair s.clock o.a.toNat) (4 * c.2) .w loc →
    let x := s.memRead loc.key (4 * c.2)
    ∃ t u, exec (c.1 o) s = .next t ∧ t.g.pc = s.g.pc + (if o.mq.isSome then 8 else 4)
      ∧ t.memRead loc.key (4 * c.2) = (if x = s.scalarWords o.d.toNat c.2 then s.scalarWords (o.d.toNat + c.2) c.2 else x)
      ∧ s.Frame t loc.key (4 * c.2)
      ∧ exec (.atomicResult s.g.id) t = .next u ∧ u.mem = t.mem ∧ u.g.gsrBit 0 = decide (x = s.scalarWords o.d.toNat c.2)
      ∧ (∀ i, i ≠ 0 → u.g.gsrBit i = s.g.gsrBit i)
      ∧ (∀ j, j < c.2 → u.g.rawS (o.d.toNat + j) = BitVec.ofNat 32 (x / 2 ^ (32 * j)))
      ∧ (∀ r, r < o.d.toNat ∨ o.d.toNat + c.2 ≤ r → u.g.rawS r = s.g.rawS r) ∧ u.g.v = s.g.v ∧ u.g.p = s.g.p)

/-! ### Line locks (R231 to R243) -/

namespace Sys2Proof.Machine

/-- An instruction passed and wrote x to scalar d at once; other scalars but the mask's, all of memory and every other register
stand. -/
def State.GivesNow (s : State) (i : Instr) (len st d : Nat) (x : Word) : Prop :=
  ∃ t, exec i s = .next t ∧ t.g.pc = s.g.pc + BitVec.ofNat 64 len ∧ t.g.notBefore = s.clock + 1 + st ∧ t.g.wait = s.g.wait
    ∧ t.g.rawS d = s.g.heldS d x ∧ (∀ r, r ≠ d → isMaskReg r = false → t.g.rawS r = s.g.rawS r) ∧ t.g.v = s.g.v ∧ t.g.p = s.g.p
    ∧ t.g.gsr = s.g.gsr ∧ t.mem = s.mem ∧ t.others = s.others ∧ t.locks = s.locks

/-- R231: the line of a lock instruction with base pair a is l: device or pool memory that the group may write. -/
def State.Locks (s : State) (a : Nat) (l : Loc) : Prop :=
  a < 63 ∧ apertureOf (s.g.rdPair s.clock a) = some .global ∧ l.ty ≤ 1 ∧
    s.checkPage s.g.core s.g.ctx s.g.root s.g.priv (s.g.rdPair s.clock a) .w = (.ok l, s) ∧ s.typeOk l.key l.ty s.g.priv = true

/-- The bead chain of every line but one stands as it did. -/
def State.OtherLocks (s t : State) (line : Nat) : Prop := ∀ k, k ≠ line → t.lockEntry k = s.lockEntry k

/-- A waiting group's lock instruction has ended with a status in d. -/
def Group.Answered (g h : Group) (d st : Nat) : Prop :=
  h.wait = .ready ∧ h.rawS d = g.heldS d (BitVec.ofNat 32 st) ∧ h.pc = g.pc ∧ h.v = g.v ∧ h.p = g.p

end Sys2Proof.Machine

/-- R231, R232, R235, R236, R241: LLOCK and LTRY send a request for the line and wait for its status; an address in another window
or of another memory type gives NOLOCK (7) at once. LOCK_REQUEST: the home grants a free line (0), a line its last holder abandoned (1), refuses a
LTRY of a held line (3) and a line the group holds itself (5), and puts an LLOCK last in the line's chain; LINK names it to
the node before. -/
def Obligations.LockAcquisition : Prop :=
  (∀ (o : DAB) (p : DA) (s : State) (l : Loc), s.Sound → s.Calm → s.Issues .mem [] → s.Locks o.a.toNat l → s.Locks p.a.toNat l →
    let n := (s.g.rdS s.clock o.b.toNat).toNat
    (∃ t, exec (.llock o) s = .next t ∧ t.g.pc = s.g.pc + 4
      ∧ t.g.wait = .lock (lineOf l.key) o.d.toNat (if n = 0 then none else some (s.clock + n))
      ∧ t.lockNet = s.lockNet ++ [.request s.g.id s.g.core { l with key := lineOf l.key } o.d.toNat false]
      ∧ t.locks = s.locks ∧ t.mem = s.mem ∧ t.g.v = s.g.v ∧ t.g.s = s.g.s ∧ t.g.p = s.g.p ∧ t.g.gsr = s.g.gsr) ∧
    (∃ t, exec (.ltry p) s = .next t ∧ t.g.pc = s.g.pc + 4 ∧ t.g.wait = .lock (lineOf l.key) p.d.toNat none
      ∧ t.lockNet = s.lockNet ++ [.request s.g.id s.g.core { l with key := lineOf l.key } p.d.toNat true]
      ∧ t.locks = s.locks ∧ t.mem = s.mem ∧ t.g.v = s.g.v ∧ t.g.s = s.g.s ∧ t.g.p = s.g.p ∧ t.g.gsr = s.g.gsr)) ∧
  (∀ (o : DAB) (p : DA) (s : State), s.Sound → s.Calm → s.Issues .mem [] → o.a.toNat < 63 → p.a.toNat < 63 →
    (apertureOf (s.g.rdPair s.clock o.a.toNat) = some .stack → s.GivesNow (.llock o) 4 o.st.toNat o.d.toNat 7) ∧
    (apertureOf (s.g.rdPair s.clock p.a.toNat) = some .stack → s.GivesNow (.ltry p) 4 p.st.toNat p.d.toNat 7) ∧
    (∀ l : Loc, 1 < l.ty → apertureOf (s.g.rdPair s.clock o.a.toNat) = some .global →
      s.checkPage s.g.core s.g.ctx s.g.root s.g.priv (s.g.rdPair s.clock o.a.toNat) .w = (.ok l, s) →
      s.GivesNow (.llock o) 4 o.st.toNat o.d.toNat 7)) ∧
  (∀ (s : State) (n core d : Nat) (l : Loc) (try_ : Bool), s.Sound → s.lockNet[n]? = some (.request s.g.id core l d try_) →
    s.lockBlocked n (.request s.g.id core l d try_) = false → (∀ k ∈ s.l1, k.data = []) → s.g.pend = [] → d < 64 →
    let line := l.key
    let t := s.lockServe n
    exec (.lockRequest n) s = .next t ∧ t.mem = s.mem ∧ t.others = s.others ∧
    ((s.heldBy s.g.id).length < 4 → s.lockEntry line = none → (s.locks.filter fun e => e.slice == l.slice).length < 512 →
      t.lockEntry line = some ⟨line, l.ty, l.shared, l.slice, some s.g.id, [], false, false⟩ ∧ s.OtherLocks t line ∧ s.g.Answered t.g d 0) ∧
    (∀ e, (s.heldBy s.g.id).length < 4 → s.lockEntry line = some e → e.idle = true →
      t.lockEntry line = some { e with holder := some s.g.id, abn := false } ∧ s.OtherLocks t line
        ∧ s.g.Answered t.g d (if e.abn then 1 else 0)) ∧
    (∀ e, (s.heldBy s.g.id).length < 4 → s.lockEntry line = some e → e.idle = false → e.holder ≠ some s.g.id →
      (try_ = true → t.locks = s.locks ∧ s.g.Answered t.g d 3) ∧
      (try_ = false → s.lockNodes core < 192 → t.g = s.g ∧ s.OtherLocks t line
        ∧ t.lockEntry line = some { e with nodes := e.nodes ++ [⟨s.g.id, core, .wait, false⟩] }
        ∧ t.lockNet = s.lockNet.eraseIdx n ++ [.link line s.g.id])) ∧
    (4 ≤ (s.heldBy s.g.id).length ∨ (∃ e, s.lockEntry line = some e ∧ e.holder = some s.g.id) →
      t.locks = s.locks ∧ s.g.Answered t.g d 5)) ∧
  (∀ (s : State) (n line grp : Nat) (e : LockEntry), s.lockNet[n]? = some (.link line grp) → s.lockEntry line = some e →
    ∃ t, exec (.link n) s = .next t ∧ s.OtherLocks t line ∧ t.g = s.g ∧ t.mem = s.mem ∧ t.lockNet = s.lockNet.eraseIdx n
      ∧ t.lockEntry line = some { e with nodes := e.nodes.map fun k => if k.grp = grp then { k with linked := true } else k })

/-- R211, R237, R239, R242, R243, R339: LUNLOCK by the holder gives the line up, waiting until that is resolved; by anyone else it is refused (6).
A message behind an earlier one of its core to its home, or behind term jobs, is not served yet. RELEASE
frees a line without waiters, or hands it on; LOCK_HANDOVER makes the first waiter the holder with status 0, or 1 after an
abandoned holder. LQUERY reads holder and waiters; LBREAK takes a held line from its holder as if abandoned, behind the holder's queued
term jobs, in privileged mode only. -/
def Sys2Proof.Claim.LockRelease : Prop :=
  (∀ (o : DA) (s : State) (l : Loc), s.Sound → s.Calm → s.Issues .mem [] → s.Locks o.a.toNat l →
    (∀ e, s.lockEntry (lineOf l.key) = some e → e.holder = some s.g.id → (e.nodes = [] ∨ ∃ n r, e.nodes = n :: r ∧ n.linked = false) →
      ∃ t, exec (.lunlock o) s = .next t ∧ t.g.pc = s.g.pc + 4 ∧ t.g.wait = .unlock (lineOf l.key) o.d.toNat
        ∧ t.lockNet = s.lockNet ++ [.release (lineOf l.key) s.g.id s.g.core false] ∧ t.locks = s.locks ∧ t.mem = s.mem ∧ t.g.s = s.g.s) ∧
    (∀ e n r, s.lockEntry (lineOf l.key) = some e → e.holder = some s.g.id → e.nodes = n :: r → n.linked = true →
      ∃ t, exec (.lunlock o) s = .next t ∧ t.g.pc = s.g.pc + 4 ∧ t.g.wait = .ready ∧ t.g.rawS o.d.toNat = s.g.heldS o.d.toNat 0
        ∧ t.lockEntry (lineOf l.key) = some { e with holder := none, passing := true } ∧ s.OtherLocks t (lineOf l.key)
        ∧ t.lockNet = s.lockNet ++ [.handover (lineOf l.key) s.g.core false []] ∧ t.mem = s.mem) ∧
    ((∀ e, s.lockEntry (lineOf l.key) = some e → e.holder ≠ some s.g.id) → s.GivesNow (.lunlock o) 4 o.st.toNat o.d.toNat 6) ∧
    (s.g.priv = true → (∀ e, s.lockEntry (lineOf l.key) = some e → e.holder = none) →
      s.GivesNow (.lbreak o) 4 o.st.toNat o.d.toNat 6) ∧
    (∀ e h, s.g.priv = true → s.lockEntry (lineOf l.key) = some e → e.holder = some h → (∀ g ∈ s.groups, g.pend = []) →
      ∃ t, exec (.lbreak o) s = .next t ∧ t.g.pc = s.g.pc + 4 ∧ t.g.rawS o.d.toNat = s.g.heldS o.d.toNat 0 ∧ t.mem = s.mem
        ∧ s.OtherLocks t (lineOf l.key)
        ∧ t.lockEntry (lineOf l.key) = some { e with holder := none, passing := true }
        ∧ ∃ core, t.lockNet = s.lockNet ++ [.handover (lineOf l.key) core true
            ((s.termQ.filter fun u => u.grp == h).map fun u => (u.grp, u.tag))]) ∧
    (s.g.priv = false → exec (.lbreak o) s = .next (s.decodeTrap 3 0 o.st.toNat)) ∧
    (o.d.toNat < 55 → ∃ t, exec (.lquery o) s = .next t ∧ t.g.pc = s.g.pc + 4 ∧ t.locks = s.locks ∧ t.mem = s.mem ∧ t.g.v = s.g.v
      ∧ (s.lockEntry (lineOf l.key) = none → t.g.rawS o.d.toNat = 0xFFFFFFFF ∧ t.g.rawS (o.d.toNat + 1) = 0)
      ∧ (∀ e, s.lockEntry (lineOf l.key) = some e → t.g.rawS (o.d.toNat + 1) = BitVec.ofNat 32 e.waiters.length
          ∧ (e.holder = none → t.g.rawS o.d.toNat = 0xFFFFFFFF)
          ∧ (e.holder = some s.g.id →
              t.g.rawS o.d.toNat = BitVec.ofNat 32 (s.g.ctx * 65536 + s.g.place * 2048 + s.g.quarter * 512 + s.g.core))))) ∧
  (∀ (s : State) (n line core : Nat) (ab : Bool) (e : LockEntry), s.lockNet[n]? = some (.release line s.g.id core ab) →
    s.lockBlocked n (.release line s.g.id core ab) = false → s.Sound →
    s.lockEntry line = some e → e.holder = some s.g.id → s.g.pend = [] →
    ∃ t, exec (.releaseRequest n) s = .next t ∧ t.mem = s.mem ∧ t.others = s.others ∧ s.OtherLocks t line
      ∧ (∀ d, d < 64 → s.g.wait = .unlock line d → s.g.Answered t.g d 0)
      ∧ (e.nodes = [] → t.lockEntry line = (if ab then some { e with holder := none, abn := true } else none)
          ∧ t.lockNet = s.lockNet.eraseIdx n)
      ∧ (e.nodes ≠ [] → t.lockEntry line = some { e with holder := none, passing := true }
          ∧ t.lockNet = s.lockNet.eraseIdx n ++ [.handover line core ab []])) ∧
  (∀ (s : State) (n line core d : Nat) (dl : Option Nat) (ab : Bool) (ws : List (Nat × Nat)) (e : LockEntry) (q r : List LockNode)
    (k : LockNode), s.Sound → s.lockNet[n]? = some (.handover line core ab ws) → s.lockBlocked n (.handover line core ab ws) = false →
    (∀ k ∈ s.l1, k.data = []) → s.lockEntry line = some e → e.nodes = q ++ [k] ++ r → (∀ x ∈ q, x.st = .stub) →
    k.st = .wait → k.grp = s.g.id → s.g.wait = .lock line d dl → s.g.pend = [] → d < 64 →
    ∃ t, exec (.lockHandover n) s = .next t ∧ t.mem = s.mem ∧ t.others = s.others ∧ s.OtherLocks t line
      ∧ t.lockEntry line = some { e with holder := some s.g.id, nodes := r, passing := false, abn := false } ∧ s.g.Answered t.g d (if ab then 1 else 0)) ∧
  (∀ (s : State) (n line core : Nat) (ab : Bool) (ws : List (Nat × Nat)) (e : LockEntry), s.lockNet[n]? = some (.handover line core ab ws) →
    s.lockBlocked n (.handover line core ab ws) = false → s.lockEntry line = some e →
    (∀ x ∈ e.nodes, x.st = .stub) → ∃ t, exec (.lockHandover n) s = .next t ∧ t.mem = s.mem ∧ t.g = s.g ∧ s.OtherLocks t line
      ∧ t.lockEntry line = (if ab then some { e with holder := none, nodes := [], passing := false, abn := true } else none)) ∧
  (∀ (s : State) (k n grp core d line grp' d' : Nat) (l l' : Loc) (e : LockEntry) (try_ try' ab : Bool), k < n →
    s.lockNet[k]? = some (.request grp core l d try_) →
    (s.lockNet[n]? = some (.request grp' core l' d' try') → l'.slice = l.slice → exec (.lockRequest n) s = .next s) ∧
    (s.lockNet[n]? = some (.release line grp' core ab) → s.lockEntry line = some e → e.slice = l.slice →
      exec (.releaseRequest n) s = .next s)) ∧
  (∀ (s : State) (k n core line line' grp grp' : Nat) (e e' : LockEntry) (ab ab' : Bool), k < n →
    s.lockNet[k]? = some (.release line grp core ab) → s.lockNet[n]? = some (.release line' grp' core ab') →
    s.lockEntry line = some e → s.lockEntry line' = some e' → e'.slice = e.slice → exec (.releaseRequest n) s = .next s) ∧
  (∀ (s : State) (n line core : Nat) (ab : Bool) (ws : List (Nat × Nat)) (u : TermUnit), s.lockNet[n]? = some (.handover line core ab ws) →
    u ∈ s.termQ → (u.grp, u.tag) ∈ ws → exec (.lockHandover n) s = .next s)

/-- R240, R245: LOCK_TIMEOUT withdraws a group whose time is over: status 3, or 4 when the walk from its line comes back to it, which a
deadlock record in HBM reports (or DLDROP counts while the queue is disabled).
That DLTAIL and DLHEAD run free modulo 2^32 is the model's choice (log entry 68). -/
def Sys2Proof.Claim.LockTimeouts : Prop :=
  ∀ (s : State) (line d dl h : Nat) (e : LockEntry), s.Sound → s.g.wait = .lock line d (some dl) → dl ≤ s.clock → s.g.stopped = false →
    s.g.pend = [] → d < 64 → s.lockEntry line = some e → e.holder = some h → h ≠ s.g.id →
    (s.awaits h = none → ∃ t, exec (.lockTimeout s.g.id) s = .next t ∧ s.g.Answered t.g d 3 ∧ t.mem = s.mem ∧ s.OtherLocks t line
      ∧ t.lockEntry line = some (e.withdraw s.g.id)) ∧
    (∀ line2 e2, s.awaits h = some line2 → s.lockEntry line2 = some e2 → e2.holder = some s.g.id → line2 ≠ line →
      (s.mgmt.dlSize = 0 → ∃ t, exec (.lockTimeout s.g.id) s = .next t ∧ s.g.Answered t.g d 4 ∧ t.mem = s.mem
        ∧ t.lockEntry line = some (e.withdraw s.g.id) ∧ t.mgmt = { s.mgmt with dlDrop := satInc s.mgmt.dlDrop }) ∧
      (let at_ := s.mgmt.dlBase.toNat + 512 * (s.mgmt.dlTail % s.mgmt.dlSize)
       (s.mgmt.dlTail + 2 ^ 32 - s.mgmt.dlHead) % 2 ^ 32 < s.mgmt.dlSize → at_ + 512 ≤ s.hbmEnd →
        ∃ t, exec (.lockTimeout s.g.id) s = .next t ∧ s.g.Answered t.g d 4 ∧ t.msix = s.msix ++ [3]
          ∧ t.mgmt = { s.mgmt with dlTail := (s.mgmt.dlTail + 1) % 2 ^ 32 }
          ∧ (t.memRead (at_ + 4) 4 = 2 ∧ t.memRead (at_ + 32) 8 = line % 2 ^ 64 ∧ t.memRead (at_ + 48) 8 = line2 % 2 ^ 64
             ∧ s.Frame t at_ 512)))


/-! ### Haze regions (R275 to R290) -/

namespace Sys2Proof.Machine

/-- The partial an addition leaves: modulo 2^32, or rounded to nearest even in binary32. -/
def partialSum (i32 : Bool) (p x : Word) : Word :=
  if i32 then p + x else BitVec.ofNat 32 (fmtF32.add .rne false false p.toNat x.toNat).bits

/-- The lane's element lies in a live region r of the group's context with elements of the form's kind, at the place l. -/
def State.ReachesHaze (s : State) (i32 : Bool) (lane a : Nat) (p : Perm) (l : Loc) (r : HazeRegion) : Prop :=
  s.Reaches lane a 4 p l ∧ l.ty ≤ 1 ∧ s.hazeAllowed a = (true, s) ∧ s.liveRegionAt s.g.ctx a = some r ∧ r.i32 = i32 ∧
    s.hazeI32 r.idx = i32

/-- The memory of a device in which the partials of an I32 line, whose elements lie side by side, have been added to them. -/
def State.AddedLine (s t : State) (line : Nat) (parts : List Word) : Prop := s.Flat line (4 * parts.length) →
  (∀ i, i < parts.length → t.memRead (line + 4 * i) 4 = (s.memRead (line + 4 * i) 4 + (parts.getD i 0).toNat) % 2 ^ 32) ∧
  s.Frame t line (4 * parts.length)

end Sys2Proof.Machine

/-- R276 to R278, R287, R288: HDECL reads a descriptor and allocates the lowest free entry under a new generation, or gives its code;
HDRAIN and HEND have every holder of the region drain, and HEND retires the region, freeing its entry once that is done; HQUERY
reads a region without a trap.
The lowest free entry, its first generation 1, and the order of arrivals are the model's choices (log entries 29 and 30). -/
def Obligations.HazeRegions : Prop :=
  (∀ (o : DA) (s : State) (l : Loc), s.Sound → s.Calm → s.Issues .mem [] → o.a.toNat < 63 →
    s.checkAccess s.g 0 (s.g.rdPair s.clock o.a.toNat) 64 64 .rd = (.ok l, s) → l.ty = 0 ∨ l.ty = 1 → s.Flat l.key 64 →
    let d := HazeDesc.ofNat (s.memRead l.key 64)
    ∃ t, exec (.hdecl o) s = .next t ∧ t.g.pc = s.g.pc + 4 ∧ t.mem = s.mem ∧ t.g.v = s.g.v ∧ t.g.p = s.g.p ∧
      (d.ok = false → t.hazeRegions = s.hazeRegions ∧ t.g.rawS o.d.toNat = s.g.heldS o.d.toNat 2 ∧ t.g.gsrBit 0 = false) ∧
      (d.ok = true → (∃ r ∈ s.hazeRegions, r.live = true ∧ r.ctx = s.g.ctx ∧ d.base < r.base + r.size ∧ r.base < d.base + d.size) →
        t.hazeRegions = s.hazeRegions ∧ t.g.rawS o.d.toNat = s.g.heldS o.d.toNat 3 ∧ t.g.gsrBit 0 = false) ∧
      (∀ i, d.ok = true → (∀ r ∈ s.hazeRegions, ¬(r.live = true ∧ r.ctx = s.g.ctx ∧ d.base < r.base + r.size ∧ r.base < d.base + d.size)) →
        i < 64 → (∀ j, j < i → ∃ r, s.hazeRegion j = some r ∧ r.live = true) → (∀ r, s.hazeRegion i = some r → r.live = false) →
        let gen := (((s.hazeRegion i).map (·.gen)).getD 0 + 1) % 65536
        t.hazeRegion i = some ⟨i, d.base, d.size, d.flags % 2 == 1, d.flags / 2 % 2 == 1, d.bound, s.g.ctx, gen, true, false, false⟩
          ∧ (∀ j, j ≠ i → t.hazeRegion j = s.hazeRegion j)
          ∧ t.g.rawS o.d.toNat = s.g.heldS o.d.toNat (BitVec.ofNat 32 (gen * 65536 + i)) ∧ t.g.gsrBit 0 = true) ∧
      (d.ok = true → (∀ r ∈ s.hazeRegions, ¬(r.live = true ∧ r.ctx = s.g.ctx ∧ d.base < r.base + r.size ∧ r.base < d.base + d.size)) →
        (∀ j, j < 64 → ∃ r, s.hazeRegion j = some r ∧ r.live = true) →
        t.hazeRegions = s.hazeRegions ∧ t.g.rawS o.d.toNat = s.g.heldS o.d.toNat 1 ∧ t.g.gsrBit 0 = false)) ∧
  (∀ (o : A1) (s : State), s.Sound → s.Quiet → s.hazeNet = [] → s.Issues .mem [] →
    (∀ r, s.handleRegion s.g.ctx (s.g.rdS s.clock o.a.toNat) false = some r → (∀ h ∈ s.hazeHomes, h.region ≠ r.idx) →
      (∃ t, exec (.hdrain o) s = .next t ∧ s.PassedBy t 4 o.st.toNat ∧ t.g.count .st = 1 ∧ t.mem = s.mem
        ∧ t.hazeRegions = s.hazeRegions ∧ t.hazeNet = [] ∧ ∃ u, exec (.storePerformed s.g.id) t = .next u ∧ u.g.count .st = 0) ∧
      (∃ t, exec (.hend o) s = .next t ∧ s.PassedBy t 4 o.st.toNat ∧ t.g.count .st = 1 ∧ t.mem = s.mem
        ∧ t.hazeRegions = s.hazeRegions.map (fun k => if k.idx = r.idx then { k with live := false, retiring := false } else k))) ∧
    (∀ r h, s.handleRegion s.g.ctx (s.g.rdS s.clock o.a.toNat) false = some r → s.hazeHomes = [h] → h.region = r.idx →
      (∃ t, exec (.hdrain o) s = .next t ∧ s.PassedBy t 4 o.st.toNat ∧ t.g.count .st = 1
        ∧ t.hazeNet = [.forced (h.holders.map (·.1)) h.line r.idx false s.g.id s.nextId]
        ∧ exec (.storePerformed s.g.id) t = .next t.fresh) ∧
      (∃ t, exec (.hend o) s = .next t ∧ s.PassedBy t 4 o.st.toNat ∧ t.g.count .st = 1
        ∧ t.hazeNet = [.forced (h.holders.map (·.1)) h.line r.idx true s.g.id s.nextId]
        ∧ t.hazeRegions = s.hazeRegions.map (fun k => if k.idx = r.idx then { k with retiring := true } else k))) ∧
    (s.handleRegion s.g.ctx (s.g.rdS s.clock o.a.toNat) false = none →
      exec (.hdrain o) s = .next (s.stopped .mem 1 o.st.toNat (.trap 3 0 127 0))
      ∧ exec (.hend o) s = .next (s.stopped .mem 1 o.st.toNat (.trap 3 0 127 0)))) ∧
  (∀ (o : DA) (s : State), s.Sound → s.Quiet → s.Issues .mem [] → o.d.toNat < 55 →
    ∃ t, exec (.hquery o) s = .next t ∧ t.g.pc = s.g.pc + 4 ∧ t.mem = s.mem ∧ t.hazeRegions = s.hazeRegions ∧ t.g.v = s.g.v
      ∧ (∀ r, s.handleRegion s.g.ctx (s.g.rdS s.clock o.a.toNat) true = some r → t.g.gsrBit 0 = true
          ∧ t.g.rawS o.d.toNat = BitVec.ofNat 32 (s.hazeLines.filter fun k => k.core == s.g.core && k.region == r.idx).length
          ∧ (∀ i, (t.g.rawS (o.d.toNat + 1)).getLsbD i
              = ((i == 0 && r.i32) || (i == 1 && r.arr) || (i == 2 && r.ovh) || (i == 3 && r.retiring))))
      ∧ (s.handleRegion s.g.ctx (s.g.rdS s.clock o.a.toNat) true = none → t.g.gsrBit 0 = false
          ∧ t.g.rawS o.d.toNat = 0xFFFFFFFF ∧ t.g.rawS (o.d.toNat + 1) = 0xFFFFFFFF))

/-- R279, R283, R285: HADD of one lane into a haze line the core holds: the partial is the sum, and when the greatest partial outgrows
the share the line drains whole and is zeroed; without a line the contribution asks for a share first. HLD answers from the home
value, after draining, largest share first, as many holders as the tolerance requires. An address outside every live region
of its kind traps.
That messages are served one at a time, where they stand, is the model's choice (log entries 15 and 30). -/
def Obligations.HazeAccesses : Prop :=
  (∀ c ∈ [((.haddF32 : MF → Instr), false), (.haddI32, true)], ∀ (o : MF) (s : State) (l : Nat) (loc : Loc) (r : HazeRegion),
    s.Sound → s.Quiet → s.hazeNet = [] → s.Issues .memv maskRefs → s.g.rdMask s.clock = BitVec.twoPow 96 l → l < 96 →
    s.g.helpers = 0 → o.a.toNat < 63 →
    s.ReachesHaze c.2 l (s.laneAddr o.a.toNat o.b.toNat o.rt l) .w loc r →
    let x := (s.g.rdV s.clock o.d.toNat).lane l
    let e := loc.key % 64 / 4
    ∃ t, exec (c.1 o) s = .next t ∧ s.Issued t .memv (s.g.pc + BitVec.ofNat 64 (4 + (if o.rt.isSome then 4 else 0) + (if o.mq.isSome then 4 else 0))) o.st.toNat
      ∧ t.mem = s.mem ∧ t.g.v = s.g.v ∧ t.g.s = s.g.s ∧ t.g.count .st = 1 ∧
      (s.hazeLine? s.g.core (lineOf loc.key) = none →
        t.hazeNet = [.add s.g.id s.nextId s.g.core (lineOf loc.key) r.idx e loc.slice (lpol o.mq) x false] ∧ t.hazeLines = s.hazeLines) ∧
      (∀ h, s.hazeLine? s.g.core (lineOf loc.key) = some h → h.region = r.idx → h.pz = 0 → h.core = s.g.core → h.line = lineOf loc.key →
        (∃ k ∈ s.l1, k.haze = true ∧ k.core = s.g.core ∧ k.line = lineOf loc.key) →
        let k := { h with parts := h.parts.set e (partialSum c.2 (h.parts.getD e 0) x) }
        (k.tracker c.2 ≤ partMag c.2 h.share false → t.hazeLine? s.g.core (lineOf loc.key) = some k ∧ t.hazeNet = []) ∧
        (partMag c.2 h.share false < k.tracker c.2 → t.hazeLine? s.g.core (lineOf loc.key) = some k.zeroed
          ∧ t.hazeNet = [.drain s.g.id s.nextId s.g.core (lineOf loc.key) r.idx k.parts 0]))) ∧
  (∀ c ∈ [((.hldF32 : MF → Instr), false), (.hldI32, true)], ∀ (o : MF) (s : State) (l : Nat) (loc : Loc) (r : HazeRegion),
    s.Sound → s.Quiet → s.hazeNet = [] → s.Issues .memv maskRefs → s.g.rdMask s.clock = BitVec.twoPow 96 l → l < 96 → o.a.toNat < 63 →
    (s.g.v.getD o.d.toNat VReg.zero).val.slot?.isSome = true →
    s.ReachesHaze c.2 l (s.laneAddr o.a.toNat o.b.toNat o.rt l) .rd loc r →
    let eps := (match o.mq with | some q => if q.tol.toNat = 127 then 0 else 2 ^ (q.tol.toNat + 85) | none => 0)
    (∀ h, s.hazeHome? (lineOf loc.key) = some h → (h.holders.map fun k => shareScaled c.2 k.2).sum ≤ eps) →
    ∃ t u, exec (c.1 o) s = .next t ∧ t.mem = s.mem ∧ ((s.l1Find s.g.core (lineOf loc.key)).isSome = true → t.hazeLines = s.hazeLines)
      ∧ t.g.count .ld = 1
      ∧ t.g.pc = s.g.pc + BitVec.ofNat 64 (4 + (if o.rt.isSome then 4 else 0) + (if o.mq.isSome then 4 else 0))
      ∧ exec (.loadReturn s.g.id) t = .next u ∧ (u.g.v.getD o.d.toNat VReg.zero).lane l = BitVec.ofNat 32 (s.memRead loc.key 4)
      ∧ (∀ q, q ≠ o.d.toNat → u.g.v.getD q VReg.zero = s.g.v.getD q VReg.zero)) ∧
  (∀ (o : MF) (s : State) (l c : Nat) (share : Word) (loc : Loc) (r : HazeRegion) (h : HazeHome) (k : HazeLine),
    s.Sound → s.Quiet → s.hazeNet = [] → s.Issues .memv maskRefs → s.g.rdMask s.clock = BitVec.twoPow 96 l → l < 96 → o.a.toNat < 63 →
    o.mq = none → (s.g.v.getD o.d.toNat VReg.zero).val.slot?.isSome = true →
    s.ReachesHaze true l (s.laneAddr o.a.toNat o.b.toNat o.rt l) .rd loc r →
    s.Flat (lineOf loc.key) 64 → s.hazeHome? (lineOf loc.key) = some h → h.holders = [(c, share)] → share ≠ 0 → c < 384 →
    s.hazeLine? c (lineOf loc.key) = some k → k.region = r.idx → k.pz = 0 → k.parts.length = 16 → loc.key % 4 = 0 →
    ∃ t u, exec (.hldI32 o) s = .next t ∧ s.AddedLine t (lineOf loc.key) k.parts
      ∧ ((s.l1Find s.g.core (lineOf loc.key)).isSome = true → t.hazeLine? c (lineOf loc.key) = some k.zeroed) ∧ exec (.loadReturn s.g.id) t = .next u
      ∧ (u.g.v.getD o.d.toNat VReg.zero).lane l
          = BitVec.ofNat 32 (s.memRead loc.key 4 + (k.parts.getD (loc.key % 64 / 4) 0).toNat)) ∧
  (∀ (o : MF) (s : State) (q : MQ) (l c b : Nat) (x y : Word) (loc : Loc) (r : HazeRegion) (h : HazeHome) (k j : HazeLine),
    s.Sound → s.Quiet → s.hazeNet = [] → s.Issues .memv maskRefs → s.g.rdMask s.clock = BitVec.twoPow 96 l → l < 96 → o.a.toNat < 63 →
    o.mq = some q → (s.g.v.getD o.d.toNat VReg.zero).val.slot?.isSome = true →
    s.ReachesHaze true l (s.laneAddr o.a.toNat o.b.toNat o.rt l) .rd loc r → s.Flat (lineOf loc.key) 64 →
    s.hazeHome? (lineOf loc.key) = some h → (h.holders = [(c, x), (b, y)] ∨ h.holders = [(b, y), (c, x)]) → y.toNat < x.toNat → c ≠ b →
    c < 384 → b < 384 → s.hazeLine? c (lineOf loc.key) = some k → s.hazeLine? b (lineOf loc.key) = some j → k.region = r.idx →
    j.region = r.idx → k.pz = 0 → j.pz = 0 → k.parts.length = 16 → j.parts.length = 16 → loc.key % 4 = 0 →
    (s.l1Find s.g.core (lineOf loc.key)).isSome = true →
    let eps := if q.tol.toNat = 127 then 0 else 2 ^ (q.tol.toNat + 85)
    let e := loc.key % 64 / 4
    (y.toNat * 2 ^ 149 ≤ eps → eps < (x.toNat + y.toNat) * 2 ^ 149 →
      ∃ t u, exec (.hldI32 o) s = .next t ∧ s.AddedLine t (lineOf loc.key) k.parts
        ∧ t.hazeLine? c (lineOf loc.key) = some k.zeroed ∧ t.hazeLine? b (lineOf loc.key) = some j ∧ exec (.loadReturn s.g.id) t = .next u
        ∧ (u.g.v.getD o.d.toNat VReg.zero).lane l = BitVec.ofNat 32 (s.memRead loc.key 4 + (k.parts.getD e 0).toNat)) ∧
    (eps < y.toNat * 2 ^ 149 →
      ∃ t u, exec (.hldI32 o) s = .next t ∧ s.AddedLine t (lineOf loc.key) (List.zipWith (· + ·) k.parts j.parts)
        ∧ t.hazeLine? c (lineOf loc.key) = some k.zeroed ∧ t.hazeLine? b (lineOf loc.key) = some j.zeroed
        ∧ exec (.loadReturn s.g.id) t = .next u
        ∧ (u.g.v.getD o.d.toNat VReg.zero).lane l
            = BitVec.ofNat 32 (s.memRead loc.key 4 + (k.parts.getD e 0).toNat + (j.parts.getD e 0).toNat))) ∧
  (∀ c ∈ [((.haddF32 : MF → Instr), Perm.w), (.haddI32, .w), (.hldF32, .rd), (.hldI32, .rd)], ∀ (o : MF) (s : State) (l : Nat) (loc : Loc),
    s.Quiet → s.Issues .memv maskRefs → s.g.rdMask s.clock = BitVec.twoPow 96 l → l < 96 → s.g.helpers = 0 → o.a.toNat < 63 →
    let a := s.laneAddr o.a.toNat o.b.toNat o.rt l
    s.Reaches l a 4 c.2 loc → (s.hazeAllowed a).2 = s → s.liveRegionAt s.g.ctx a = none →
    exec (c.1 o) s = .next (s.stopped .memv (beats (s.g.rdMask s.clock)) o.st.toNat (.trap 3 0 l a)))

/-- R281, R282, R284: the messages of the protocol, one at a time: a share request takes the whole limit, the free share, or half of the
largest holder's share by a recall; a recalled holder keeps the rest and drains when its partials outgrow it; an
acknowledgement, a drain, a far add and a forced set add partials to the home elements; a return sends them and, when it arrives,
gives the share back.
The order in which the partials of a set are added in an ARR region is the model's choice (log entry 30). -/
def Obligations.HazeProtocol : Prop :=
  (∀ (s : State) (core line region slice : Nat), s.hazeNet = [.shareRequest core line region slice] →
    (s.hazeHome? line = none → ∀ r, s.hazeRegion region = some r → r.limit.toNat % 2 ^ 31 ≠ 0 →
      (s.hazeHomes.filter fun h => h.slice == slice).length < 2048 →
      ∃ t, exec (.hazeShareRequest 0) s = .next t ∧ t.hazeHome? line = some ⟨line, slice, region, [(core, r.limit)], 0, none⟩
        ∧ t.hazeNet = [.grant core line region r.limit] ∧ t.mem = s.mem ∧ t.g = s.g) ∧
    (∀ h, s.hazeHome? line = some h → h.recalled = none → 8 ≤ h.holders.length →
      exec (.hazeShareRequest 0) s = .next { s with hazeNet := [.grant core line region 0] }) ∧
    (∀ h, s.hazeHome? line = some h → h.recalled = none → h.holders.length < 8 → h.free ≠ 0 →
      ∃ t, exec (.hazeShareRequest 0) s = .next t ∧ t.hazeHome? line = some { h with holders := h.holders ++ [(core, h.free)], free := 0 }
        ∧ t.hazeNet = [.grant core line region h.free] ∧ t.mem = s.mem ∧ t.g = s.g) ∧
    (∀ h k g, s.hazeHome? line = some h → h.recalled = none → h.free = 0 → h.holders = [(k, g)] → s.hazeI32 region = true → 2 ≤ g.toNat →
      ∃ t, exec (.hazeShareRequest 0) s = .next t ∧ t.hazeHome? line = some { h with recalled := some (k, core) }
        ∧ t.hazeNet = [.recall k line region (BitVec.ofNat 32 (g.toNat - g.toNat / 2)) (BitVec.ofNat 32 (g.toNat / 2)) core]
        ∧ t.mem = s.mem ∧ t.g = s.g)) ∧
  (∀ (s : State) (core line region who : Nat) (keep lose : Word) (k : HazeLine), s.hazeNet = [.recall core line region keep lose who] →
    s.banks = [] →
    s.hazeLine? core line = some k → k.core = core → k.line = line →
    ∃ t, exec (.recall 0) s = .next t ∧ t.mem = s.mem ∧ t.g = s.g ∧
      (k.tracker (s.hazeI32 region) ≤ partMag (s.hazeI32 region) keep false →
        t.hazeLine? core line = some { k with share := keep } ∧ t.hazeNet = [.recallAck core line region [] 0 lose who]) ∧
      (partMag (s.hazeI32 region) keep false < k.tracker (s.hazeI32 region) →
        t.hazeLine? core line = some { k.zeroed with share := keep } ∧ t.hazeNet = [.recallAck core line region k.parts k.pz lose who])) ∧
  (∀ (s : State) (core line region who : Nat) (parts : List Word) (lose : Word) (h : HazeHome),
    s.hazeNet = [.recallAck core line region parts 0 lose who] → s.banks = [] → s.memOk → s.memPoison = [] → s.hazeI32 region = true → line % 64 = 0 →
    s.hazeHome? line = some h →
    ∃ t, exec (.recallAck 0) s = .next t ∧ s.AddedLine t line parts ∧ t.g = s.g ∧ t.hazeNet = [.grant who line region lose]
      ∧ t.hazeHome? line = some { h with recalled := none, holders := h.holders.map (fun p => if p.1 = core then (p.1, p.2 - lose) else p) ++ [(who, lose)] }) ∧
  (∀ (s : State) (core line region : Nat) (share : Word), s.hazeNet = [.grant core line region share] →
    (s.hazeLines.filter fun k => k.core == core).length < 6144 →
    (s.l1.filter fun k => k.core == core && l1Set k.line == l1Set line).length < s.waysOf 1 core (l1Set line) 12 →
    (share ≠ 0 → ∃ t, exec (.grant 0) s = .next t ∧ t.hazeLine? core line = some ⟨core, line, region, List.replicate 16 0, 0, share⟩
      ∧ t.mem = s.mem ∧ t.g = s.g ∧ t.hazeNet = []) ∧
    (share = 0 → exec (.grant 0) s = .next { s with hazeNet := [] })) ∧
  (∀ (s : State) (grp tag core line region elem slice lp : Nat) (x : Word),
    s.hazeNet = [.grant core line region 0, .add grp tag core line region elem slice lp x false] →
    exec (.grant 0) s = .next { s with hazeNet := [.farAdd grp tag core line region elem slice x false] }) ∧
  (∀ (s : State) (grp tag core line region elem slice : Nat) (x : Word), s.hazeNet = [.farAdd grp tag core line region elem slice x false] → s.memOk →
    s.banks = [] →
    s.memPoison = [] → s.hazeI32 region = true → s.recalling line = false →
    ∃ t, exec (.farAdd 0) s = .next t ∧ t.hazeNet = [] ∧ t.g = s.g
      ∧ t.memRead (line + 4 * elem) 4 = (s.memRead (line + 4 * elem) 4 + x.toNat) % 2 ^ 32
      ∧ s.Frame t (line + 4 * elem) 4) ∧
  (∀ (s : State) (grp tag core line region : Nat) (parts : List Word), s.hazeNet = [.drain grp tag core line region parts 0] → s.memOk →
    s.banks = [] → s.memPoison = [] →
    s.hazeI32 region = true → s.recalling line = false →
    ∃ t, exec (.drain 0) s = .next t ∧ t.hazeNet = [] ∧ t.g = s.g ∧ s.AddedLine t line parts) ∧
  (∀ (s : State) (core line region grp tag : Nat) (k : HazeLine), s.hazeNet = [.forced [core] line region false grp tag] → s.memOk →
    s.banks = [] →
    s.memPoison = [] → core < 384 → s.recalling line = false → s.hazeLine? core line = some k → k.core = core → k.line = line →
    s.hazeI32 k.region = true → k.pz = 0 →
    ∃ t, exec (.forcedDrain 0) s = .next t ∧ t.hazeNet = [] ∧ t.g = s.g ∧ s.AddedLine t line k.parts
      ∧ t.hazeLine? core line = some k.zeroed ∧ t.hazeHomes = s.hazeHomes) ∧
  (∀ (s : State) (core line : Nat) (k : HazeLine), s.banks = [] → s.hazeLine? core line = some k →
    ∃ t, exec (.hazeReturn core line) s = .next t ∧ t.g = s.g ∧ t.mem = s.mem ∧ t.hazeLine? core line = none
      ∧ t.hazeNet = s.hazeNet ++ [.ret core line k.region k.parts k.pz] ∧ t.hazeHomes = s.hazeHomes) ∧
  (∀ (s : State) (core line region : Nat) (parts : List Word) (h : HazeHome), s.hazeNet = [.ret core line region parts 0] → s.memOk →
    s.banks = [] → s.memPoison = [] → s.hazeI32 region = true → s.hazeHome? line = some h → h.recalled = none →
    ∃ t, exec (.drain 0) s = .next t ∧ t.hazeNet = [] ∧ t.g = s.g ∧ s.AddedLine t line parts
      ∧ t.hazeHome? line = (if (h.holders.filter fun p => p.1 != core) = [] then none
          else some { h with holders := h.holders.filter (fun p => p.1 != core),
                             free := h.free + ((h.holders.find? fun p => p.1 == core).map (·.2)).getD 0 }))

/-! ### Sync words and engines (R293 to R311) -/

namespace Sys2Proof.Machine

/-- R298: what a command latches at issue: engine, parameters, sync word. -/
def State.latched (s : State) (op nd nb key : Nat) (o : DAB) : EngCmd :=
  let b (i : Nat) : Nat := if i < nb then (s.g.rdS s.clock (o.b.toNat + i)).toNat else 0
  { engine := if op < 5 then s.g.core else 384 + clusterOf s.g.core, grp := s.g.id, tag := s.nextId, core := s.g.core, ctx := s.g.ctx,
    root := s.g.root, priv := s.g.priv, op := op, src := s.g.rdPair s.clock o.a.toNat,
    dst := if nd = 2 then s.g.rdPair s.clock o.d.toNat else (s.g.rdS s.clock o.d.toNat).toNat, b0 := b 0, b1 := b 1, b2 := b 2, b3 := b 3,
    sync := key, members := if op = 4 then maskMembers (b 1 + b 2 % 65536 * 2 ^ 32) else [], wg := s.g.wg, accepted := false }

/-- The engine commands: number, scalars of d, scalars of b. -/
def commandForms : List ((DAB → Instr) × Nat × Nat × Nat) :=
  [(.cpy, 0, 2, 1), (.cpy2, 1, 2, 4), (.cpyg, 2, 2, 4), (.cpyz, 3, 2, 1), (.cpyw, 4, 2, 4), (.decJpeg, 5, 1, 4), (.decG4, 6, 1, 4),
   (.decPng, 7, 1, 4), (.decQuery, 8, 1, 4)]

end Sys2Proof.Machine

/-- R294, R295, R297: SWSET sets threshold and total and keeps the generation; SWARR adds to the total, and each time it passes the
threshold the generation rises; SWWAIT passes when the generation differs from its own and otherwise waits for that; SWREAD
reads the word. A misaligned address traps, and so does one outside scratch.
That the word is changed at issue is the model's choice (log entry 15). -/
def Obligations.SyncWords : Prop :=
  (∀ (o : AB) (s : State) (l : Loc), s.Sound → s.Calm → s.Issues .mem [] → o.a.toNat < 63 → s.g.rdPair s.clock o.a.toNat % 8 = 0 →
    apertureOf (s.g.rdPair s.clock o.a.toNat) = some .scratch →
    s.checkAccess s.g 0 (s.g.rdPair s.clock o.a.toNat) 8 8 .w = (.ok l, s) →
    s.checkAccess s.g 0 (s.g.rdPair s.clock o.a.toNat) 8 8 .rd = (.ok l, s) →
    let w := s.memRead l.key 8
    let x := (s.g.rdS s.clock o.b.toNat).toNat
    (∃ t, exec (.swset o) s = .next t ∧ s.PassedBy t 4 o.st.toNat ∧ t.g.count .st = 1
      ∧ t.memRead l.key 8 = x % 2 ^ 24 + w / 2 ^ 48 * 2 ^ 48
      ∧ s.Frame t l.key 8) ∧
    (∃ t, exec (.swarr o) s = .next t ∧ s.PassedBy t 4 o.st.toNat ∧ t.g.count .st = 1
      ∧ (w % 2 ^ 24 = 0 → t.memRead l.key 8 = w)
      ∧ (w % 2 ^ 24 ≠ 0 → let total := w / 2 ^ 24 % 2 ^ 24 + x
          t.memRead l.key 8 = w % 2 ^ 24 + total % (w % 2 ^ 24) * 2 ^ 24 + (w / 2 ^ 48 + total / (w % 2 ^ 24)) % 65536 * 2 ^ 48)
      ∧ s.Frame t l.key 8) ∧
    (w / 2 ^ 48 ≠ x % 65536 → ∃ t, exec (.swwait o) s = .next t ∧ s.Passed t 4 o.st.toNat) ∧
    (w / 2 ^ 48 = x % 65536 → exec (.swwait o) s = .next (s.await (.sync l.key (x % 65536))))) ∧
  (∀ (s : State) (g : Group) (key gen : Nat), g.wait = .sync key gen → s.waitDone g = decide (s.memRead (key + 6) 2 ≠ gen)) ∧
  (∀ (o : DA) (s : State) (l : Loc), s.Sound → s.Calm → s.Issues .mem [] → o.a.toNat < 63 → o.d.toNat < 55 →
    s.g.rdPair s.clock o.a.toNat % 8 = 0 → apertureOf (s.g.rdPair s.clock o.a.toNat) = some .scratch →
    s.checkAccess s.g 0 (s.g.rdPair s.clock o.a.toNat) 8 8 .rd = (.ok l, s) →
    ∃ t u, exec (.swread o) s = .next t ∧ s.PassedBy t 4 o.st.toNat ∧ t.mem = s.mem ∧ t.g.count .ld = 1
      ∧ exec (.loadReturn s.g.id) t = .next u ∧ u.g.rawS o.d.toNat = BitVec.ofNat 32 (s.memRead l.key 4)
      ∧ u.g.rawS (o.d.toNat + 1) = BitVec.ofNat 32 (s.memRead (l.key + 4) 4) ∧ u.g.v = s.g.v ∧ u.mem = s.mem) ∧
  (∀ (o : AB) (s : State), s.Calm → s.Issues .mem [] → o.a.toNat < 63 →
    let a := s.g.rdPair s.clock o.a.toNat
    (a % 8 ≠ 0 → exec (.swset o) s = .next (s.stopped .mem 1 o.st.toNat (.trap 2 0 127 a))
      ∧ exec (.swarr o) s = .next (s.stopped .mem 1 o.st.toNat (.trap 2 0 127 a))
      ∧ exec (.swwait o) s = .next (s.stopped .mem 1 o.st.toNat (.trap 2 0 127 a))) ∧
    (a % 8 = 0 → apertureOf a = some .global → exec (.swset o) s = .next (s.stopped .mem 1 o.st.toNat (.trap 3 0 127 a))
      ∧ exec (.swarr o) s = .next (s.stopped .mem 1 o.st.toNat (.trap 3 0 127 a))
      ∧ exec (.swwait o) s = .next (s.stopped .mem 1 o.st.toNat (.trap 3 0 127 a))))

/-- R298, R300: every engine command whose checks pass latches its parameters, counts on ENCNT and waits for its engine, and the group
goes on; COMMAND_ACCEPT lets ENCNT fall. A %sw that is no multiple of 8 raises the alignment trap, one outside the
reservation the protection trap, and a counter at 7 holds the command back.
The order of the checks within one number of R298 is the model's reading (DEDUCED, log entry 36). -/
def Sys2Proof.Claim.EngineCommands : Prop :=
  (∀ c ∈ commandForms, ∀ (o : DAB) (s : State), s.Sound → s.Calm → s.Issues .mem [] →
    let sw := s.g.sw.toNat
    (∀ key, sw % 8 = 0 → ((s.wg? s.g.wg).bind fun w => w.scratch sw 8) = some key →
      checkCommand (s.latched c.2.1 c.2.2.1 c.2.2.2 key o) s = .ok () s →
      ∃ t, exec (c.1 o) s = .next t ∧ s.PassedBy t 4 o.st.toNat ∧ t.mem = s.mem ∧ t.g.count .en = 1
        ∧ t.engQ = s.engQ ++ [s.latched c.2.1 c.2.2.1 c.2.2.2 key o]
        ∧ (s.engQ = [] → ∃ u, exec (.commandAccept (s.latched c.2.1 c.2.2.1 c.2.2.2 key o).engine) t = .next u ∧ u.g.count .en = 0
            ∧ u.engQ = [{ s.latched c.2.1 c.2.2.1 c.2.2.2 key o with accepted := true }] ∧ u.mem = s.mem)) ∧
    (sw % 8 ≠ 0 → exec (c.1 o) s = .next (s.stopped .mem 1 o.st.toNat (.trap 2 0 127 0))) ∧
    (sw % 8 = 0 → ((s.wg? s.g.wg).bind fun w => w.scratch sw 8) = none →
      exec (c.1 o) s = .next (s.stopped .mem 1 o.st.toNat (.trap 3 0 127 0)))) ∧
  (∀ c ∈ commandForms, ∀ (o : DAB) (s : State), s.g.inflight = [] → s.Issues .mem [] → s.g.count .en = 7 →
    exec (c.1 o) s = .next (s.await (.limits 63 63 7 6 7 false)))

/-- R295, R299, R301: ARRIVAL of an accepted CPY between two ranges of scratch that do not meet: every byte of the destination is the
source's, no other byte has changed but the sync word, to which the command's bytes arrive; the command leaves the engine.
That the accesses are performed together at the arrival is the model's choice (log entry 15). -/
def Sys2Proof.Claim.CopyArrives : Prop :=
  ∀ (s : State) (c : EngCmd) (ks kd : Nat), s.Sound → s.Quiet → s.engQ = [c] → c.accepted = true → c.op = 0 → s.termsBefore c = false →
    c.src + c.b0 ≤ 2 ^ 64 → c.dst + c.b0 ≤ 2 ^ 64 →
    (∀ i, i < c.b0 → apertureOf (c.src + i) = some .scratch ∧ apertureOf (c.dst + i) = some .scratch
      ∧ s.steer c.as 0 (c.src + i) 1 .rd = (.ok ⟨ks + i, tyScratch, c.core, false⟩, s)
      ∧ s.steer c.as 0 (c.dst + i) 1 .w = (.ok ⟨kd + i, tyScratch, c.core, false⟩, s)) →
    (ks + c.b0 ≤ kd ∨ kd + c.b0 ≤ ks) → (s.place c.sync + 8 ≤ kd ∨ kd + c.b0 ≤ s.place c.sync) →
    ∃ t, exec (.arrival c.engine) s = .next t ∧ t.engQ = [] ∧ t.g = s.g
      ∧ (∀ i, i < c.b0 → (s.place c.sync + 8 ≤ ks ∨ ks + c.b0 ≤ s.place c.sync) → Memory.get t.mem (kd + i) = Memory.get s.mem (ks + i))
      ∧ (∀ a, (a < kd ∨ kd + c.b0 ≤ a) → (a < s.place c.sync ∨ s.place c.sync + 8 ≤ a) → Memory.get t.mem a = Memory.get s.mem a)
      ∧ t.memRead c.sync 8 = (let w := s.memRead c.sync 8
          if w % 2 ^ 24 = 0 then w
          else w % 2 ^ 24 + (w / 2 ^ 24 % 2 ^ 24 + c.b0) % (w % 2 ^ 24) * 2 ^ 24
            + (w / 2 ^ 48 + (w / 2 ^ 24 % 2 ^ 24 + c.b0) / (w % 2 ^ 24)) % 65536 * 2 ^ 48)

/-! ### Matrix operations (R314 to R332) -/

namespace Sys2Proof.Machine

/-- A matrix unit is received: it passes, MXCNT counts it, the core's unit holds the operation last, and its storage belongs to it until
the WAIT (R194). -/
def State.Receives (s : State) (i : Instr) (st : Nat) (o : MxOp) : Prop :=
  ∃ t, exec i s = .next t ∧ s.PassedBy t 4 st ∧ t.mem = s.mem ∧ t.g.count .mx = 1 ∧ t.mxQ = s.mxQ ++ [o]
    ∧ ∃ cloud far, t.mxOwns = s.mxOwns ++ [⟨s.g.id, o.tag, cloud, o.owns, o.reads, far, false, false⟩]

/-- The words of n registers from r in lane l, none poisoned; an absent lane has zeros. -/
def State.runWords (s : State) (r n l : Nat) : List (Word × Bool) :=
  (List.range n).map fun i => (if s.g.present.getLsbD l then (s.g.rdV s.clock (r + i)).lane l else 0, false)

/-- A quiet device but for the operation that a core's unit holds for the issuing group, whose storage and runs nothing has written since
its issue. -/
structure State.AtMatrix (s : State) (o : MxOp) (tag : Nat) : Prop where
  ok : s.memOk
  clean : s.memPoison = []
  banks : s.banks = []
  queue : s.mxQ = [o]
  tagged : o.tag = tag
  grp : o.grp = s.g.id
  owners : o.owners = [(s.g.id, tag)]
  pend : ∃ p, s.g.pend = [p] ∧ p.tag = tag ∧ p.kind = .matrix ∧ p.ctr = .mx ∧ p.writes = []
  owned : ∃ e, s.mxOwns = [e] ∧ e.grp = s.g.id ∧ e.tag = tag ∧ e.tainted = false
  runs : ∀ x ∈ s.g.mxRuns, x.touched = false

/-- The signed byte at a key. -/
def State.int8 (s : State) (key : Nat) : Int := (BitVec.ofNat 8 (s.memRead key 1)).toInt
/-- R316: a value kept within ±(2^31 − 1). -/
def clamp31 (v : Int) : Int := max (-(2 ^ 31 - 1)) (min (2 ^ 31 - 1) v)

end Sys2Proof.Machine

/-- R314, R319, R320, R323, R325 to R330: MMAR.S, MMAT, MZERO and MQUANT latch their operands, are received by the core's unit and counted
by MXCNT; a joint MMAR.J of a set's only group is received at once, and with another group of the set under way the group
waits; MSTAT reads the core's two row-step counts. An unsupported format raises the protection trap, a misaligned operand
the alignment trap.
What MSTAT counts as skipped is the model's reading (DEDUCED, log entry 37). -/
def Obligations.MatrixIssue : Prop :=
  (∀ (o : DAB) (s : State) (w : Wg) (key : Nat → Nat), s.Sound → s.Calm → s.Issues .memv [] →
    s.wg? s.g.wg = some w → s.g.fmt.toNat / 16 % 4096 = 0 → o.a.toNat ≤ 48 →
    let acc := (s.g.rdS s.clock o.d.toNat).toNat
    acc < 2 ^ 22 → acc % 128 = 0 → (∀ l ∈ s.g.storing s.clock, w.row acc l = some (key l)) →
    (o.b.toNat ≤ 48 → s.g.rdMask s.clock ≠ 0 → s.Receives (.mmarS o) o.st.toNat {
      core := s.g.core, grp := s.g.id, tag := s.nextId, kind := .mmar, fmt := 0, m := 0, k := 32, n := 32, nt := 32, b := 0, tiles := [], x := 0,
      rows := (s.g.storing s.clock).map (fun l => ⟨s.g.id, l, key l, s.runWords o.a.toNat 16 l⟩),
      bw := (List.range 32).map (fun k => s.runWords o.b.toNat 16 k), owns := (s.g.storing s.clock).map (fun l => (key l, 128)), reads := [],
      owners := [(s.g.id, s.nextId)], clock := s.clock, quarter := s.g.quarter }) ∧
    (∀ h ∈ s.others, o.b.toNat ≤ 60 → h.wg = s.g.wg → h.gidx / 4 = s.g.gidx / 4 → h.wait = .ready →
      (∀ k ∈ s.others, ∀ i rs bs, k.wait ≠ .join i rs bs) →
      ∃ t, exec (.mmarJ o) s = .next t ∧ t.g.pc = s.g.pc + 4 ∧ t.g.nJoin = s.g.nJoin + 1 ∧ t.mxQ = s.mxQ ∧ t.mem = s.mem
        ∧ t.g.wait = .join s.nextId ((s.g.storing s.clock).map fun l => (l, key l, s.runWords o.a.toNat 16 l))
            ((List.range 32).map fun k => s.runWords o.b.toNat 4 k)) ∧
    (o.b.toNat ≤ 60 → s.g.gidx < 16 → (∀ h ∈ s.others, h.wg = s.g.wg → h.wait = .ended) →
      ∃ t, exec (.mmarJ o) s = .next t ∧ t.g.pc = s.g.pc + 4 ∧ t.g.wait = .ready ∧ t.mem = s.mem ∧ t.g.count .mx = 1
        ∧ ∃ op, t.mxQ = s.mxQ ++ [op] ∧ op.kind = .mmar ∧ op.owners = [(s.g.id, s.nextId)]
          ∧ op.rows = (s.g.storing s.clock).map (fun l => (⟨s.g.id, l, key l, s.runWords o.a.toNat 16 l⟩ : MxRow)))) ∧
  (∀ c ∈ [((.mmatT : DAB → Instr), false, false), (.mmatC, true, false), (.mmatTz, false, true), (.mmatCz, true, true)],
    ∀ (o : DAB) (s : State) (w : Wg) (kb : Nat) (ka kc : Nat → Nat), s.Sound → s.Calm → s.Issues .mem [] → s.g.rdMask s.clock ≠ 0 →
    s.wg? s.g.wg = some w → (mxClass s.g.fmt).isSome = true →
    let d := (s.g.rdS s.clock o.d.toNat).toNat
    let a := (s.g.rdS s.clock o.a.toNat).toNat
    let b := (s.g.rdS s.clock o.b.toNat).toNat
    let m := 32 * (s.g.mshape.toNat % 4 + 1)
    let k := 32 * (s.g.mshape.toNat / 4 % 128 + 1)
    let n := 32 * (s.g.mshape.toNat / 512 % 16 + 1)
    let r := if c.2.1 then 2 ^ (s.g.mcloud.toNat % 4) else 1
    let sp := if c.2.1 then 1 + s.g.mcloud.toNat / 4 % 2 else 1
    let la := operandBytes (afOf s.g.fmt) (m * (k / 32))
    let lb := operandBytes (bfOf s.g.fmt) (k / 32 * (n * sp))
    d % 64 = 0 → a % 64 = 0 → b % 64 = 0 → w.member + r * sp ≤ w.members → w.range 0 b lb = some kb →
    (∀ i, i < r * sp → ∃ x, (if i = 0 then some w else s.member? w (w.member + i)) = some x ∧ x.range 1 a la = some (ka i)
      ∧ x.range 2 d (m * n * 4) = some (kc i)) →
    s.Receives (c.1 o) o.st.toNat {
      core := s.g.core, grp := s.g.id, tag := s.nextId, kind := .mmat c.2.2, fmt := s.g.fmt, m := m, k := k, n := n, nt := n * sp, b := kb,
      tiles := (List.range (r * sp)).map (fun i => ⟨ka i, kc i, i / r * n⟩), x := 0, rows := [], bw := [],
      owns := (List.range (r * sp)).map (fun i => (kc i, m * n * 4)), reads := (kb, lb) :: (List.range (r * sp)).map (fun i => (ka i, la)),
      owners := [(s.g.id, s.nextId)], clock := s.clock, quarter := s.g.quarter }) ∧
  (∀ c ∈ [(.mmatT : DAB → Instr), .mmatC, .mmatTz, .mmatCz], ∀ (o : DAB) (s : State), s.Calm → s.Issues .mem [] →
    s.g.rdMask s.clock ≠ 0 → (mxClass s.g.fmt = none → exec (c o) s = .next (s.stopped .mem 1 o.st.toNat (.trap 3 0 127 0))) ∧
    ((mxClass s.g.fmt).isSome = true → (s.g.rdS s.clock o.a.toNat).toNat % 64 ≠ 0 →
      exec (c o) s = .next (s.stopped .mem 1 o.st.toNat (.trap 2 0 127 0)))) ∧
  (∀ (o : DA) (s : State) (w : Wg) (key : Nat), s.Sound → s.Calm → s.Issues .mem [] → s.g.rdMask s.clock ≠ 0 → s.wg? s.g.wg = some w →
    let off := (s.g.rdS s.clock o.d.toNat).toNat
    let n := (s.g.rdS s.clock o.a.toNat).toNat
    off % 64 = 0 → n % 64 = 0 → n ≠ 0 → w.range 2 off n = some key →
    s.Receives (.mzero o) o.st.toNat {
      core := s.g.core, grp := s.g.id, tag := s.nextId, kind := .mzero, fmt := 0, m := 0, k := 0, n := 0, nt := 0, b := 0, tiles := [], x := n,
      rows := [], bw := [], owns := [(key, n)], reads := [], owners := [(s.g.id, s.nextId)], clock := s.clock, quarter := s.g.quarter }) ∧
  (∀ (o : DAB) (s : State) (w : Wg) (c a : Nat), s.Sound → s.Calm → s.Issues .mem [] → s.g.rdMask s.clock ≠ 0 → s.wg? s.g.wg = some w →
    let dst := (s.g.rdS s.clock o.d.toNat).toNat
    let src := (s.g.rdS s.clock o.a.toNat).toNat
    let ctl := (s.g.rdS s.clock o.b.toNat).toNat
    let m := 32 * (s.g.mshape.toNat % 4 + 1)
    let n := 32 * (s.g.mshape.toNat / 512 % 16 + 1)
    ctl < 65536 → ctl / 16 % 16 = 0 → ctl % 16 = 0 ∨ ctl % 16 = 1 ∨ ctl % 16 = 2 ∨ ctl % 16 = 6 → src % 64 = 0 → dst % 64 = 0 →
    w.range 2 src (m * n * 4) = some c → w.range 1 dst (operandBytes (ctl % 16) (m * (n / 32))) = some a →
    s.Receives (.mquant o) o.st.toNat {
      core := s.g.core, grp := s.g.id, tag := s.nextId, kind := .mquant, fmt := s.g.fmt, m := m, k := n, n := n, nt := n, b := c,
      tiles := [⟨a, c, 0⟩], x := ctl, rows := [], bw := [], owns := [(a, operandBytes (ctl % 16) (m * (n / 32)))], reads := [(c, m * n * 4)],
      owners := [(s.g.id, s.nextId)], clock := s.clock, quarter := s.g.quarter }) ∧
  (∀ (o : D1) (s : State), s.g.Formed → s.Issues .scal [] → o.d.toNat < 55 →
    ∃ t, exec (.mstat o) s = .next t ∧ s.Issued t .scal (s.g.pc + 4) o.st.toNat ∧ s.OnlyGroup t
      ∧ t.g.rawS o.d.toNat = (s.core s.g.core).rowsDone ∧ t.g.rawS (o.d.toNat + 1) = (s.core s.g.core).rowsSkipped
      ∧ (∀ r, r ≠ o.d.toNat → r ≠ o.d.toNat + 1 → t.g.rawS r = s.g.rawS r) ∧ t.g.v = s.g.v ∧ t.g.p = s.g.p ∧ t.g.gsr = s.g.gsr)

/-- R316, R321, R326, R328, R329, R331: MATRIX_COMPLETE performs the operation a core's unit holds, its group's MXCNT falls, and no byte
outside its destination changes: MZERO writes zeros; an INT8 tile of one chunk in I32 mode has, in every element, the start
value and the 32 products, kept within ±(2^31 − 1), with SAT.A set where it was not; an MMAR row is one chunk; MQUANT to
BF16 rounds every element to nearest even.
That the accesses are performed together at completion is the model's choice (log entry 15); the keys of scratch are those from 2^52 on. -/
def Obligations.MatrixResults : Prop :=
  (∀ (s : State) (o : MxOp) (tag key n : Nat), s.AtMatrix o tag → o.kind = .mzero → o.owns = [(key, n)] → 2 ^ 52 ≤ key →
    ∃ t, exec (.matrixComplete o.core) s = .next t ∧ t.mxQ = [] ∧ t.g.count .mx = 0 ∧ t.g.v = s.g.v ∧ t.g.s = s.g.s ∧ t.g.gsr = s.g.gsr
      ∧ ∀ a, Memory.get t.mem a = if key ≤ a ∧ a < key + n then 0 else Memory.get s.mem a) ∧
  (∀ (s : State) (o : MxOp) (tag : Nat) (z : Bool) (q : MxTile), s.AtMatrix o tag → o.kind = .mmat z → o.tiles = [q] → o.k = 32 →
    afOf o.fmt = 6 → bfOf o.fmt = 6 → accOf o.fmt = 1 → o.owns = [(q.c, o.m * o.n * 4)] →
    2 ^ 52 ≤ q.a → 2 ^ 52 ≤ o.b → 2 ^ 52 ≤ q.c →
    let v (m n : Nat) : Int := (if z then 0 else (BitVec.ofNat 32 (s.memRead (q.c + (m * o.n + n) * 4) 4)).toInt)
      + ((List.range 32).map fun i => s.int8 (q.a + m * 32 + i) * s.int8 (o.b + (q.col + n) * 32 + i)).sum
    ∃ t, exec (.matrixComplete o.core) s = .next t ∧ t.mxQ = [] ∧ t.g.count .mx = 0 ∧ t.g.v = s.g.v ∧ t.g.s = s.g.s
      ∧ (∀ m n, m < o.m → n < o.n → t.memRead (q.c + (m * o.n + n) * 4) 4 = (BitVec.ofInt 32 (clamp31 (v m n))).toNat)
      ∧ s.Frame t q.c (o.m * o.n * 4)
      ∧ (t.g.gsrBit 4 = true ↔ s.g.gsrBit 4 = true ∨ ∃ m n, m < o.m ∧ n < o.n ∧ clamp31 (v m n) ≠ v m n)) ∧
  (∀ (s : State) (o : MxOp) (tag : Nat) (r : MxRow), s.AtMatrix o tag → o.kind = .mmar → o.rows = [r] → o.owns = [(r.key, 128)] → 2 ^ 52 ≤ r.key →
    r.grp = s.g.id → (∀ w ∈ r.words, w.2 = false) → (∀ ws ∈ o.bw, ∀ w ∈ ws, w.2 = false) →
    ∃ t, exec (.matrixComplete o.core) s = .next t ∧ t.mxQ = [] ∧ t.g.count .mx = 0 ∧ t.g.v = s.g.v ∧ t.g.s = s.g.s
      ∧ (∀ n, n < 32 → t.memRead (r.key + 4 * n) 4
          = (chunkF ((List.range 32).map fun k => (pairElem r.words k).1) ((List.range 32).map fun k => (pairElem (o.bw.getD k []) n).1) 0
              (s.memRead (r.key + 4 * n) 4)).bits % 2 ^ 32)
      ∧ s.Frame t r.key 128) ∧
  (∀ (s : State) (o : MxOp) (tag : Nat) (q : MxTile), s.AtMatrix o tag → o.kind = .mquant → o.tiles = [q] → o.x = 0 → accOf o.fmt = 0 →
    o.n % 32 = 0 → o.owns = [(q.a, o.m * o.n * 2)] → 2 ^ 52 ≤ q.a → 2 ^ 52 ≤ o.b →
    ∃ t, exec (.matrixComplete o.core) s = .next t ∧ t.mxQ = [] ∧ t.g.count .mx = 0 ∧ t.g.v = s.g.v ∧ t.g.s = s.g.s
      ∧ (∀ m i, m < o.m → i < o.n → t.memRead (q.a + (m * o.n + i) * 2) 2
          = (convert .bf16 .rne false false (fmtF32.num false (s.memRead (o.b + (m * o.n + i) * 4) 4))).bits % 2 ^ 16)
      ∧ s.Frame t q.a (o.m * o.n * 2))

/-! ### Terms (R335 to R357) -/

namespace Sys2Proof.Machine

/-- The header of lane l as its slot holds it. -/
def State.termHeader (s : State) (l : Nat) : TermHeader := (s.termRun s.g l (fun _ => true) none).h
/-- n bytes of lane l's slot. -/
def State.slot (s : State) (l off n : Nat) : Nat := s.memRead (s.stackKey s.g l off) n

/-- Lane l alone is active, with a stack slot in device memory and a header that keeps R341, in a calm device. -/
structure State.TermReady (s : State) (l : Nat) : Prop where
  sound : s.Sound
  calm : s.Calm
  issues : s.Issues .memv []
  lane : s.g.rdMask s.clock = BitVec.twoPow 96 l
  low : l < 96
  live : s.g.live.getLsbD l = true
  helpers : s.g.helpers = 0
  fresh : s.termQ = []
  room : 0x1500 ≤ s.stride s.g
  stack : ∀ c, c < 96 → s.stackKey s.g c 0 + s.stride s.g ≤ 2 ^ 50
  header : (s.termRun s.g l (fun _ => true) none).headerOk = true

/-- No byte outside lane l's slot has changed but those of the cells given. -/
def State.OnlySlot (s t : State) (l : Nat) (cells : List Nat) : Prop :=
  ∀ a, (a < s.stackKey s.g l 0 ∨ s.stackKey s.g l 0 + s.stride s.g ≤ a) → (∀ c ∈ cells, a < s.place c ∨ s.place c + 8 ≤ a) →
    Memory.get t.mem a = Memory.get s.mem a

/-- A queued unit of one lane runs: it passes and TMCNT counts it, its job starts and ends, and TMCNT falls; v is the device then. -/
def State.RunsJob (s : State) (i : Instr) (st : Nat) (v : State) : Prop :=
  ∃ t u, exec i s = .next t ∧ t.g.pc = s.g.pc + 4 ∧ t.g.notBefore = s.clock + 1 + st ∧ t.g.count .tm = 1 ∧ t.mem = s.mem
    ∧ exec (.termJobStart s.g.core s.g.quarter) t = .next u ∧ u.g.count .tm = 1 ∧ u.mem = s.mem
    ∧ exec (.termJobEnd s.g.core s.g.quarter 0) u = .next v ∧ v.g.count .tm = 0 ∧ v.termQ = [] ∧ v.g.pc = t.g.pc ∧ v.g.s = s.g.s
    ∧ v.g.gsr = s.g.gsr

/-- The unbound variable at address a, whose cell lies at loc, outside the lane's slot. -/
def State.Variable (s : State) (l a : Nat) (loc : Loc) : Prop :=
  a % 8 = 0 ∧ a ≠ 0 ∧ a < 0x0200000000000000 ∧ loc.ty ≤ 1 ∧ s.memRead loc.key 8 = a + 1 ∧
    (s.place loc.key + 8 ≤ s.stackKey s.g l 0 ∨ s.stackKey s.g l 0 + s.stride s.g ≤ s.place loc.key) ∧
    (∀ p, p = Perm.rd ∨ p = Perm.w → s.checkGlobal s.g.core s.g.ctx s.g.root s.g.priv a p = (.ok loc, s))

end Sys2Proof.Machine

/-- R338 to R340, R345 to R352, R354, R356: the queued units, from issue to the end of their job, with one lane active: TDEREF gives a
term that is no reference, or an unbound variable; TUNIFY.N, TUNIFY.OC, TBIND and TMATCH bind a private variable to a
constant, trailing it, and fail on two different constants; TCHOICE pushes its choice point; TTRAILTOP gives TRTOP and CPTOP;
TCOMMIT of an empty trail succeeds. TTAG gives tag and arity. A slot too short for a header raises the protection trap.
That a job runs whole at its end is the model's choice (log entry 17). -/
def Obligations.TermUnits : Prop :=
  (∀ (o : DA) (s : State) (l : Nat), s.TermReady l → o.a.toNat < 63 → o.d.toNat < 63 →
    (∀ j, j < 2 → (s.g.v.getD (o.d.toNat + j) VReg.zero).val.slot?.isSome = true) →
    let x := s.laneWords o.a.toNat 2 l
    (2 ≤ x % 8 → ∃ v, s.RunsJob (.tderef o) o.st.toNat v ∧ (v.g.p.getD 7 0).getLsbD l = false ∧ s.OnlySlot v l []
      ∧ v.laneWords o.d.toNat 2 l = x) ∧
    (∀ loc, x % 8 ≤ 1 → s.Variable l (x / 8 * 8) loc → (s.termHeader l).fDepth = 0 →
      ∃ v, s.RunsJob (.tderef o) o.st.toNat v ∧ (v.g.p.getD 7 0).getLsbD l = true ∧ s.OnlySlot v l []
        ∧ v.laneWords o.d.toNat 2 l = x / 8 * 8 + 1)) ∧
  (∀ c ∈ [(.tunifyN : AB → Instr), .tunifyOc, .tbind, .tmatch], ∀ (o : AB) (s : State) (l : Nat), s.TermReady l →
    o.a.toNat < 63 → o.b.toNat < 63 →
    let x := s.laneWords o.a.toNat 2 l
    let y := s.laneWords o.b.toNat 2 l
    let h := s.termHeader l
    (∀ loc, x % 8 = 1 → s.Variable l (x / 8 * 8) loc → h.fDepth = 0 → y % 8 = 2 ∨ y % 8 = 3 → h.trTop + 8 ≤ h.trLim →
      ∃ v, s.RunsJob (c o) o.st.toNat v ∧ (v.g.p.getD 7 0).getLsbD l = true ∧ s.OnlySlot v l [loc.key] ∧ v.memRead loc.key 8 = y
        ∧ v.slot l h.trTop 8 = x / 8 * 8 ∧ v.slot l 0x484 4 = h.trTop + 8 ∧ v.g.v = s.g.v) ∧
    (x % 8 = 2 ∨ x % 8 = 3 → y % 8 = 2 ∨ y % 8 = 3 → x ≠ y →
      ∃ v, s.RunsJob (c o) o.st.toNat v ∧ (v.g.p.getD 7 0).getLsbD l = false ∧ s.OnlySlot v l [] ∧ v.slot l 0x484 4 = h.trTop ∧ v.g.v = s.g.v)) ∧
  (∀ (o : TC) (s : State) (l : Nat), s.TermReady l →
    let h := s.termHeader l
    h.cpTop + choiceSize o.m.toNat ≤ h.cpLim →
    ∃ v, s.RunsJob (.tchoice o) o.st.toNat v ∧ (v.g.p.getD 7 0).getLsbD l = true ∧ s.OnlySlot v l [] ∧ v.g.v = s.g.v
      ∧ v.slot l 0x490 4 = h.cpTop + choiceSize o.m.toNat ∧ v.slot l h.cpTop 8 = (s.g.pc + (o.o.signExtend 64 <<< 1)).toNat
      ∧ v.slot l (h.cpTop + 8) 4 = h.trTop ∧ v.slot l (h.cpTop + 12) 4 = h.cpTop ∧ v.slot l (h.cpTop + 16) 8 = h.hTop
      ∧ v.slot l (h.cpTop + 24) 2 = h.ovCnt ∧ v.slot l (h.cpTop + 26) 1 = h.fDepth ∧ v.slot l (h.cpTop + 27) 1 = o.m.toNat
      ∧ ∀ i, i < (maskPairs o.m.toNat).length →
          v.slot l (h.cpTop + 32 + 8 * i) 8 = s.laneWords ((maskPairs o.m.toNat).getD i 0) 2 l) ∧
  (∀ (o : D1) (s : State) (l : Nat), s.TermReady l → o.d.toNat < 63 →
    (∀ j, j < 2 → (s.g.v.getD (o.d.toNat + j) VReg.zero).val.slot?.isSome = true) →
    let h := s.termHeader l
    (∃ v, s.RunsJob (.ttrailtop o) o.st.toNat v ∧ v.g.p = s.g.p ∧ s.OnlySlot v l [] ∧ v.laneWords o.d.toNat 2 l = h.trTop + 2 ^ 32 * h.cpTop) ∧
    (h.trTop = h.trBase → ∃ v, s.RunsJob (.tcommit o) o.st.toNat v ∧ (v.g.p.getD 7 0).getLsbD l = true ∧ s.OnlySlot v l []
      ∧ v.laneWords o.d.toNat 2 l = 0 ∧ v.slot l 0x49C 2 = 0 ∧ ∀ i, i < 256 → v.slot l (0x500 + 16 * i) 8 = 0)) ∧
  (∀ (o : DA) (s : State), s.g.Formed → s.g.rdMask s.clock ≠ 0 → o.d.toNat < 63 → s.g.RoomPair o.d.toNat →
    let a := s.g.opd s.clock o.a.toNat 0
    a.pz &&& s.g.rdMask s.clock = 0 → s.Issues .vec (maskRefs ++ [.v o.a.toNat, .v (o.a.toNat + 1)]) →
    ∃ t, exec (.ttag o) s = .next t ∧ s.Issued t .vec (s.g.pc + 4) o.st.toNat
      ∧ s.WrotePair t o.d.toNat fun l => (a.val.lane l).toNat % 8
          + (if (a.val.lane l).toNat % 8 = 5 then (a.val.lane l).toNat / 8 % 256 else 0) * 2 ^ 32) ∧
  (∀ (a : DA) (b : AB) (c : TC) (d : D1) (z : Z0) (f : TF) (s : State), s.Calm → s.Issues .memv [] → s.g.rdMask s.clock ≠ 0 →
    s.stride s.g < 0x1500 →
    ∀ x ∈ [(Instr.tderef a, a.st.toNat), (.tunifyN b, b.st.toNat), (.tunifyOc b, b.st.toNat), (.tbind b, b.st.toNat), (.tmatch b, b.st.toNat),
        (.tchoice c, c.st.toNat), (.ttrailtop d, d.st.toNat), (.tcommit d, d.st.toNat), (.tfail z, z.st.toNat), (.tcut z, z.st.toNat),
        (.tpopcp z, z.st.toNat), (.tjoin z, z.st.toNat), (.tfork f, f.st.toNat)],
      exec x.1 s = .next (s.stopped .memv (beats (s.g.rdMask s.clock)) x.2 (.trap 3 0 127 0)))

/-- R353 to R355, R357: the synchronous units, with one lane active: TCUT lowers CPTOP to CUTB; TPOPCP removes the top choice point;
TJOIN starts the lane's state afresh; TFAIL of a lane without a choice point takes it out of the mask, and otherwise goes to
the alternative of its top choice point; TFORK without candidates keeps the parent as alternative 0, and gives a candidate to
it as alternative 1.
How the top choice point is found is the model's reading (DEDUCED, log entry 49). -/
def Obligations.TermSynchronous : Prop :=
  (∀ (o : Z0) (s : State) (l : Nat), s.TermReady l →
    let h := s.termHeader l
    (∃ t, exec (.tcut o) s = .next t ∧ t.g.pc = s.g.pc + 4 ∧ s.OnlySlot t l [] ∧ (t.g.p.getD 7 0).getLsbD l = true ∧ t.g.v = s.g.v
      ∧ t.g.s = s.g.s ∧ t.slot l 0x490 4 = min h.cutb h.cpTop ∧ t.slot l 0x484 4 = h.trTop) ∧
    (h.cpTop = h.cpBase → ∃ t, exec (.tpopcp o) s = .next t ∧ t.g.pc = s.g.pc + 4 ∧ s.OnlySlot t l []
      ∧ (t.g.p.getD 7 0).getLsbD l = true ∧ t.slot l 0x490 4 = h.cpTop) ∧
    (h.cpTop = h.cpBase + choiceSize (s.slot l (h.cpBase + 27) 1) → ∃ t, exec (.tpopcp o) s = .next t ∧ t.g.pc = s.g.pc + 4
      ∧ s.OnlySlot t l [] ∧ (t.g.p.getD 7 0).getLsbD l = true ∧ t.g.v = s.g.v ∧ t.slot l 0x490 4 = s.slot l (h.cpBase + 12) 4) ∧
    (∃ t, exec (.tjoin o) s = .next t ∧ t.g.pc = s.g.pc + 4 ∧ s.OnlySlot t l [] ∧ (t.g.p.getD 7 0).getLsbD l = true ∧ t.g.v = s.g.v
      ∧ t.slot l 0x484 4 = h.trBase ∧ t.slot l 0x490 4 = h.cpBase ∧ t.slot l 0x498 4 = h.cpBase ∧ t.slot l 0x49C 2 = 0
      ∧ t.slot l 0x49E 1 = 0 ∧ ∀ i, i < 256 → t.slot l (0x500 + 16 * i) 8 = 0) ∧
    (h.cpTop = h.cpBase → ∃ t, exec (.tfail o) s = .next t ∧ t.g.pc = s.g.pc + 4 ∧ t.g.mask = 0 ∧ (t.g.p.getD 7 0).getLsbD l = false
      ∧ s.OnlySlot t l [] ∧ t.g.v = s.g.v) ∧
    (h.cpTop = h.cpBase + 32 → s.slot l (h.cpBase + 27) 1 = 0 → h.trTop ≤ s.slot l (h.cpBase + 8) 4 →
      ∃ t, exec (.tfail o) s = .next t ∧ t.g.pc = BitVec.ofNat 64 (s.slot l h.cpBase 8) ∧ t.g.sig = 0xFFFF ∧ t.g.mask = s.g.rdMask s.clock
        ∧ (t.g.p.getD 7 0).getLsbD l = true ∧ s.OnlySlot t l [] ∧ t.g.v = s.g.v ∧ t.slot l 0x490 4 = h.cpTop
        ∧ t.slot l 0x4A8 8 = s.slot l (h.cpBase + 16) 8 ∧ t.slot l 0x49E 1 = s.slot l (h.cpBase + 26) 1)) ∧
  (∀ (o : TF) (s : State) (l : Nat), s.TermReady l → (∀ r, r < 16 ∨ r = o.d.toNat → (s.g.v.getD r VReg.zero).val.slot?.isSome = true) →
    s.g.reconDepth = 0 →
    let h := s.termHeader l
    let n := ((s.g.rdV s.clock o.b.toNat).lane l).toNat
    (n = 0 ∨ h.ovCnt ≠ 0 ∨ h.fDepth = 255 → ∃ t, exec (.tfork o) s = .next t ∧ t.g.pc = s.g.pc + 4 ∧ t.g.mask = s.g.rdMask s.clock
      ∧ (t.g.v.getD o.d.toNat VReg.zero).lane l = 0 ∧ (t.g.p.getD 7 0).getLsbD l = false ∧ s.OnlySlot t l []
      ∧ t.slot l 0x49E 1 = h.fDepth) ∧
    (n ≠ 0 → h.ovCnt = 0 → h.fDepth < 255 → s.g.rdP s.clock o.a.toNat = 0 →
      ∃ t, exec (.tfork o) s = .next t ∧ t.g.pc = s.g.pc + 4 ∧ t.g.mask = s.g.rdMask s.clock
        ∧ (t.g.v.getD o.d.toNat VReg.zero).lane l = 1 ∧ (t.g.p.getD 7 0).getLsbD l = false ∧ s.OnlySlot t l []
        ∧ t.slot l 0x49E 1 = h.fDepth + 1 ∧ t.slot l 0x4B8 8 = h.hTop) ∧
    (∀ c, 2 ≤ n → h.ovCnt = 0 → h.fDepth < 255 → c < 96 → c ≠ l → s.g.live.getLsbD c = true →
      s.g.rdP s.clock o.a.toNat = BitVec.twoPow 96 c → 16 ≤ o.d.toNat →
      ∃ t, exec (.tfork o) s = .next t ∧ t.g.pc = s.g.pc + 4 ∧ t.g.mask = s.g.rdMask s.clock ||| BitVec.twoPow 96 c
        ∧ (t.g.v.getD o.d.toNat VReg.zero).lane l = 2 ∧ (t.g.v.getD o.d.toNat VReg.zero).lane c = 1
        ∧ (t.g.p.getD 7 0).getLsbD l = false ∧ (t.g.p.getD 7 0).getLsbD c = true
        ∧ (∀ r, r < 16 → (t.g.v.getD r VReg.zero).lane c = (s.g.v.getD r VReg.zero).lane l)
        ∧ t.slot l 0x49E 1 = h.fDepth + 1 ∧ t.slot c 0x49E 1 = h.fDepth + 1
        ∧ t.slot c 0x484 4 = s.slot c 0x480 4 ∧ t.slot c 0x490 4 = s.slot c 0x48C 4))

/-! ### Work creation (R246 to R261) -/

namespace Sys2Proof.Machine

/-- The 128 bytes of a packet in two halves of memory. -/
def State.packetAt (s : State) (lo hi : Nat) : RawPacket := ⟨s.memBytes lo 64 ++ s.memBytes hi 64, []⟩

/-- A device in which no group runs: nothing resident, no core out of service, nothing of a context withheld. -/
structure State.Empty (s : State) : Prop where
  mem : s.memOk
  clean : s.memPoison = []
  g : s.g.wait = .ended
  others : s.others = []
  wgs : s.wgs = []
  ctxs : s.ctxs = []
  banks : s.banks = []
  cores : s.cores = []
  eng : s.engQ = []
  mx : s.mxQ = []
  term : s.termQ = []
  retired : s.mgmt.coreRet = []
  full : s.mgmt.minMode = false
  hazeNet : s.hazeNet = []
  hazeHomes : s.hazeHomes = []

/-- R252, R254: the group i of a workgroup w of grid k as it starts. -/
def Group.StartsAs (h : Group) (k : Grid) (w : Wg) (p : Packet) (i real clock : Nat) : Prop :=
  h.gidx = i ∧ h.wg = w.id ∧ h.grid = k.id ∧ h.core = w.core ∧ h.quarter = i % 4 ∧ h.member = w.member ∧ h.ctx = k.pkt.ctx
    ∧ h.wgidX = BitVec.ofNat 32 w.x ∧ h.wgidY = BitVec.ofNat 32 w.y ∧ h.wgidZ = BitVec.ofNat 32 w.z
    ∧ (∀ l, l < 96 → h.present.getLsbD l = decide (l < (real + 3) / 4 * 4)) ∧ h.mask = h.present ∧ h.exited = 0
    ∧ h.pc = BitVec.ofNat 64 p.entry ∧ h.rawS 0 = BitVec.ofNat 32 p.args ∧ h.rawS 1 = BitVec.ofNat 32 (p.args / 2 ^ 32)
    ∧ (∀ r, 2 ≤ r → isMaskReg r = false → h.rawS r = 0) ∧ h.p = List.replicate 8 0 ∧ h.sig = 0xFFFF ∧ h.gsr = 0
    ∧ h.fmt = fmtWrite (BitVec.ofNat 32 p.fmt) ∧ h.seed = BitVec.ofNat 32 k.pkt.seed ∧ h.ret = [] ∧ h.recon = [] ∧ h.pend = []
    ∧ h.wait = .ready ∧ h.active = true ∧ clock < h.notBefore

end Sys2Proof.Machine

/-- R246 to R249, R251, R252: LAUNCH queues its packet and the group waits; PACKET_DECODE gives it the status of the first check that
fails, or 0 with a new grid; of a host queue it moves LQHEAD and LQACC likewise. A packet address that is no multiple of 64
traps. A packet without a spawn table.
What the distributor's walks leave is the model's reading (DEDUCED, log entry 40). -/
def Obligations.Packets : Prop :=
  (∀ (o : DA) (s : State) (lo hi : Loc), s.Sound → s.Calm → s.Issues .mem [] → o.a.toNat < 63 →
    let a := s.g.rdPair s.clock o.a.toNat
    (a % 64 = 0 → s.checkAccess s.g 0 a 128 64 .rd = (.ok lo, s) →
      (if apertureOf a = some .global then s.checkGlobal s.g.core s.g.ctx s.g.root s.g.priv (a + 64) .rd = (.ok hi, s) else hi = lo.plus 64) →
      ∃ t, exec (.launch o) s = .next t ∧ t.g.pc = s.g.pc + 4 ∧ t.g.wait = .launch o.d.toNat ∧ t.mem = s.mem ∧ t.g.s = s.g.s ∧ t.g.v = s.g.v
        ∧ t.launchQ = s.launchQ ++ [⟨s.g.id, o.d.toNat, a, lo, hi⟩]) ∧
    (a % 64 ≠ 0 → exec (.launch o) s = .next (s.stopped .mem 1 o.st.toNat (.trap 2 0 127 a)))) ∧
  (∀ (s : State) (q : LaunchReq) (k : Grid), s.Sound → s.Calm → s.launchQ = [q] → q.grp = s.g.id → q.d < 64 → s.grid? s.g.grid = some k →
    s.g.priv = true → q.lo.ty = 0 → q.hi.ty = 0 → s.Flat q.lo.key 64 → s.Flat q.hi.key 64 →
    let r := s.packetAt q.lo.key q.hi.key
    r.packet.entryCount = 0 → s.launchFull (s.gridPri k) = false →
    (∀ c, firstFailing [r.checks] = some c →
      (∀ i l, i < 16 → s.distLoc r.packet.ctx r.packet.tables (r.packet.compl + i) .w = some l → l.ty = 0) →
      ∃ t, exec (.packetDecode 255) s = .next t ∧ t.launchQ = [] ∧ t.grids = s.grids ∧ t.g.wait = .ready
      ∧ t.g.rawS q.d = s.g.heldS q.d (BitVec.ofNat 32 c.code) ∧ t.g.pc = s.g.pc ∧ t.g.v = s.g.v) ∧
    (firstFailing [r.checks] = none → ∃ t, exec (.packetDecode 255) s = .next t ∧ t.launchQ = [] ∧ t.g.wait = .ready ∧ t.mem = s.mem
      ∧ t.g.rawS q.d = s.g.heldS q.d 0 ∧ t.grids = s.grids ++ [newGrid s.nextId q.va 255 (s.gridPri k) r.packet [] (some s.g.grid)])) ∧
  (∀ (s : State) (q : Nat), s.memOk → s.memPoison = [] → s.banks = [] → s.hazeNet = [] → s.hazeHomes = [] → q < 64 → s.mgmt.ok = true →
    let l := s.lq q
    let base := l.base.toNat + 128 * (l.head % l.size)
    l.q = q → l.en = true → l.size ≠ 0 → l.head ≠ l.tail → base + 128 ≤ s.hbmEnd →
    let r := s.packetAt base (base + 64)
    r.packet.entryCount = 0 → firstFailing [r.checks] = none →
    ∃ t, exec (.packetDecode q) s = .next t ∧ t.mem = s.mem ∧ t.g = s.g ∧ (t.lq q).head = (l.head + 1) % 2 ^ 32
      ∧ (t.lq q).acc = BitVec.ofNat 32 r.packet.seq ∧ (t.lq q).tail = l.tail ∧ (t.lq q).done = l.done
      ∧ (∀ j, j ≠ q → t.lq j = s.lq j)
      ∧ t.grids = s.grids ++ [newGrid s.nextId base q l.pri r.packet [] l.last]) ∧
  (∀ (s : State) (q : Nat), q < 64 → (s.lq q).en = false ∨ (s.lq q).head = (s.lq q).tail ∨ s.mgmt.ok = false →
    exec (.packetDecode q) s = .next s)

/-- R248, R252 to R257: in an empty device a grid's first workgroup, or the members of its first cloud, start on distinct cores at the
first position of the curve, every group in the state R254 gives; GRID_COMPLETE of a grid that is over writes its record and
removes it, and of one that is not does nothing.
Which cores count as free, the lowest place that fits and the contents of new scratch are the model's choices (log entries 16 and 43). -/
def Obligations.WorkStarts : Prop :=
  (∀ c ∈ [(Instr.workgroupStart, false), (.cloudStart, true)], ∀ (s : State) (k : Grid), s.Empty → s.grids = [k] → k.queue = 255 → k.pri < 4 →
    k.started = 0 → k.cursor = 0 → k.pred = none → k.tried = none → k.pkt.curve < 4 →
    let m := k.pkt.memberCount
    (if c.2 then 2 ≤ m ∧ m ≤ 48 else m = 1) → m ≤ k.pkt.x → 1 ≤ k.pkt.y → 1 ≤ k.pkt.z → 1 ≤ k.pkt.groupCount → k.pkt.groupCount ≤ 16 →
    96 * (k.pkt.groupCount - 1) < k.pkt.laneCount → k.pkt.laneCount ≤ 96 * k.pkt.groupCount → k.pkt.general ≤ 64 →
    k.pkt.sw ≤ 0x80000 → k.pkt.sa ≤ 0x80000 → k.pkt.sc ≤ 0x40000 →
    ∃ t, exec c.1 s = .next t ∧ t.wgs.length = m ∧ t.others.length = m * k.pkt.groupCount ∧ t.g = s.g
      ∧ t.grids = [{ k with cursor := 1, started := 1, batch := 0 }]
      ∧ ∀ i, i < m → ∃ w ∈ t.wgs, w.core = i ∧ w.member = i ∧ w.members = m ∧ w.x = i ∧ w.y = 0 ∧ w.z = 0 ∧ w.live = true
          ∧ ∀ j, j < k.pkt.groupCount → ∃ h ∈ t.others, h.StartsAs k w k.pkt j (min 96 (k.pkt.laneCount - 96 * j)) s.clock) ∧
  (∀ (s : State) (k : Grid), s.grid? k.id = some k → s.gridOver k = false → exec (.gridComplete k.id) s = .next s) ∧
  (∀ (s : State) (k : Grid) (l : Loc), s.memOk → s.memPoison = [] → s.banks = [] → s.hazeNet = [] → s.hazeHomes = [] →
    s.grid? k.id = some k → s.gridOver k = true → k.queue = 255 → k.pkt.seq < 2 ^ 32 →
    s.distLoc k.pkt.ctx k.pkt.tables k.pkt.compl .w = some l → l.ty = 0 → s.mgmt.eqSize = 0 →
    (k.pkt.compl % 65536 ≤ 65520 → s.Flat l.key 16 →
      ∃ t, exec (.gridComplete k.id) s = .next t ∧ t.grid? k.id = none ∧ (∀ j ∈ s.grids, j.id ≠ k.id → j ∈ t.grids) ∧ t.g = s.g
        ∧ t.memRead l.key 4 = k.pkt.seq ∧ t.memRead (l.key + 4) 1 = 0 ∧ t.memRead (l.key + 5) 1 = 255 ∧ t.memRead (l.key + 6) 10 = 0
        ∧ s.Frame t l.key 16 ∧ t.mgmt.eqSeq = s.mgmt.eqSeq + 1) ∧
    (∀ l' : Loc, let n := 65536 - k.pkt.compl % 65536
      n < 16 → s.distLoc k.pkt.ctx k.pkt.tables (k.pkt.compl + n) .w = some l' → l'.ty = 0 →
      overlaps (s.place l.key) n (s.place l'.key) (16 - n) = false →
      ∃ t, exec (.gridComplete k.id) s = .next t ∧ t.grid? k.id = none
        ∧ t.memBytes l.key n ++ t.memBytes l'.key (16 - n) = recordBytes k.pkt.seq 0 255 0 0))

/-- R258, R260, R261: TRIGGER marks its group. SPAWN of one lane hands its four words to the entry it names in the cluster's packing unit
and sets its bit of p7, or refuses an entry past the table; CHILD_GROUP_START of a full entry, and IDLE_RELEASE of one that
has waited long enough, start a child group with a lane for each item, whose v0 to v3 hold the items' words.
What lanes without an item hold is free (log entry 42); what a fabric clock is in core clocks (log entry 45), and that the child starts on the first
core of its cluster where all are free (log entry 16), are the model's readings. -/
def Obligations.SpawnedWork : Prop :=
  (∀ (o : Z0) (s : State), s.Calm → s.Issues .scal [] → ∃ t, exec (.trigger o) s = .next t ∧ s.OnlyGroup t ∧
    t.g = { s.g with pc := s.g.pc + 4, notBefore := s.clock + 1 + o.st.toNat, triggered := true }) ∧
  (∀ (o : DA) (s : State) (l : Nat) (k : Grid), s.Sound → s.Calm → s.Issues .memv [] → s.g.rdMask s.clock = BitVec.twoPow 96 l → l < 96 →
    s.g.present.getLsbD l = true → s.g.helpers = 0 → s.grid? s.g.grid = some k → s.spawn = [] → o.d.toNat ≤ 60 →
    let e := ((s.g.rdV s.clock o.a.toNat).lane l).toNat
    ∃ t u, exec (.spawn o) s = .next t ∧ s.PassedBy t 4 o.st.toNat ∧ t.mem = s.mem ∧ t.g.count .st = 1
      ∧ exec (.storePerformed s.g.id) t = .next u ∧ u.g.count .st = 0
      ∧ (e < k.pkt.entryCount → (u.g.p.getD 7 0).getLsbD l = true
          ∧ (t.spawnUnit (s.g.core / 48)).held = [⟨k.id, e, [⟨k.id, e, (List.range 4).map fun i => ((s.g.rdV s.clock (o.d.toNat + i)).lane l, false)⟩], s.fabricClock⟩])
      ∧ (k.pkt.entryCount ≤ e → (u.g.p.getD 7 0).getLsbD l = false ∧ t.spawn = s.spawn)) ∧
  (∀ (s : State) (cluster e : Nat) (k : Grid) (h : HeldEntry) (p : Packet), s.Empty → cluster < 8 → s.grid? h.grid = some k → h.entry = e →
    s.spawn = [{ SpawnUnit.zero cluster with held := [h] }] → 1 ≤ h.items.length → h.items.length ≤ 96 → k.children[e]? = some p →
    p.sw ≤ 0x80000 → p.sa ≤ 0x80000 → p.sc ≤ 0x40000 → p.general ≤ 64 →
    (∀ i ∈ h.items, i.data.length = 4) →
    (h.items.length = 96 ∨ k.pkt.idle = 0 → ∃ t, exec (.childGroupStart cluster e) s = .next t ∧ (t.spawnUnit cluster).held = []
      ∧ (t.spawnUnit cluster).count = 1
      ∧ ∃ w c, t.wgs = [w] ∧ w.core = 48 * cluster ∧ w.child = some e ∧ t.others = [c] ∧ c.StartsAs k w p 0 h.items.length s.clock
          ∧ ∀ i l, i < 4 → l < h.items.length →
              (c.v.getD i VReg.zero).lane l = (((h.items.getD l ⟨0, 0, []⟩).data.getD i (0, false)).1)) ∧
    (k.pkt.idle ≤ s.fabricClock - h.last → ∃ t, exec (.idleRelease cluster e) s = .next t ∧ (t.spawnUnit cluster).held = []
      ∧ ∃ w c, t.wgs = [w] ∧ w.core = 48 * cluster ∧ t.others = [c] ∧ c.StartsAs k w p 0 h.items.length s.clock) ∧
    (s.fabricClock < h.last + k.pkt.idle → h.items.length < 96 → k.pkt.idle ≠ 0 →
      exec (.childGroupStart cluster e) s = .next s ∧ exec (.idleRelease cluster e) s = .next s))

/-! ### Traps and regions (R43, R361 to R366, R374, R375, R383) -/

namespace Sys2Proof.Machine

/-- R362, R364: a trap of the issuing group can be taken: a vector is set, the frame lies at l in device memory, the unit at
the vector can be fetched, and no handler runs. -/
structure State.CanTrap (s : State) (l : Loc) : Prop where
  vec : (s.ctx s.g.ctx).trapVec ≠ 0
  below : s.frameAddr + 256 ≤ 2 ^ 57
  write : s.checkGlobal s.g.core s.g.ctx s.g.root s.g.priv s.frameAddr .w = (.ok l, s)
  read : s.checkGlobal s.g.core s.g.ctx s.g.root s.g.priv s.frameAddr .rd = (.ok l, s)
  ram : l.ty = 0
  flat : s.Flat l.key 256
  code : (s.ctx s.g.ctx).trapVec.toNat + 16 ≤ 2 ^ 57
  fetch : ∀ i, i < 8 → ∃ k : Loc, k.ty = 0 ∧
    s.checkGlobal s.g.core s.g.ctx s.g.root s.g.priv ((s.ctx s.g.ctx).trapVec.toNat + 2 * i) .x = (.ok k, s)
  handler : s.g.handler = none

/-- R362, R363: the group has entered its handler: what its frame at l holds, what its registers hold. -/
structure State.Entered (s t : State) (l : Loc) (cause detail lane addr : Nat) (tpc : Addr) (sig : Word) : Prop where
  pc : t.g.pc = (s.ctx s.g.ctx).trapVec
  mask : t.g.mask = s.g.live
  sigAfter : t.g.sig = 0xFFFF
  handler : t.g.handler = some (s.g.retDepth, s.g.reconDepth)
  wait : t.g.wait = .ready
  frameLow : t.g.rawS 60 = BitVec.ofNat 32 s.frameAddr
  frameHigh : t.g.rawS 61 = BitVec.ofNat 32 (s.frameAddr / 2 ^ 32)
  causeReg : t.g.rawS 62 = causeWord cause detail lane
  flagsReg : t.g.rawS 63 = s.g.flagsWord
  scal : ∀ r, r < 56 ∨ r = 59 → t.g.rawS r = s.g.rawS r
  vec : t.g.v = s.g.v
  pred : t.g.p = s.g.p
  status : t.g.gsr = s.g.gsr ∧ t.g.fmt = s.g.fmt ∧ t.g.ckint = s.g.ckint
  depths : t.g.ret = s.g.ret ∧ t.g.recon = s.g.recon
  frameTpc : t.memRead l.key 8 = tpc.toNat
  frameCause : t.memRead (l.key + 8) 4 = (causeWord cause detail lane).toNat
  frameFlags : t.memRead (l.key + 0x0C) 4 = s.g.flagsWord.toNat
  frameFaddr : t.memRead (l.key + 0x10) 8 = addr % 2 ^ 64
  frameMask : ∀ k, k < 3 → t.memRead (l.key + 0x18 + 4 * k) 4 = (maskWord s.g.mask k).toNat
  frameGsr : t.memRead (l.key + 0x24) 4 = s.g.gsr.toNat
  frameFmt : t.memRead (l.key + 0x28) 4 = s.g.fmt.toNat
  frameSig : t.memRead (l.key + 0x2C) 4 = sig.toNat
  frameSaved : ∀ k, k < 4 → t.memRead (l.key + 0x30 + 4 * k) 4 = (s.g.rawS (60 + k)).toNat
  frameRest : ∀ i, 0x40 ≤ i → i < 0x100 → Memory.get t.mem (s.place l.key + i) = 0
  memory : s.Frame t l.key 256
  others : t.others = s.others

/-- R364: the group has been killed: it has ended, and its context has counted it. -/
structure State.Killed (s t : State) : Prop where
  wait : t.g.wait = .ended
  mask : t.g.mask = 0
  count : (t.ctx s.g.ctx).kills = satInc (s.ctx s.g.ctx).kills

/-- R374: what a region record of the issuing group holds when the region begins at rpc, at its place in lane slot 1. -/
structure State.Recorded (s t : State) (rpc : Addr) (wg : Bool) : Prop where
  rpc : t.memRead (s.stackKey s.g 1 0) 8 = rpc.toNat
  scope : t.memRead (s.stackKey s.g 1 8) 1 = (if wg then 1 else 0)
  depths : s.g.retDepth < 256 → s.g.reconDepth < 256 → t.memRead (s.stackKey s.g 1 9) 1 = s.g.retDepth
    ∧ t.memRead (s.stackKey s.g 1 10) 1 = s.g.reconDepth
  scal : ∀ i, i < 16 → t.memRead (s.stackKey s.g 1 (0x10 + 4 * i)) 4 = (s.g.s.getD i 0).toNat
  mask : t.memRead (s.stackKey s.g 1 0x50) 12 = s.g.mask.toNat
  gsr : t.memRead (s.stackKey s.g 1 0x5C) 4 = s.g.gsr.toNat
  fmt : t.memRead (s.stackKey s.g 1 0x60) 4 = s.g.fmt.toNat
  sw : t.memRead (s.stackKey s.g 1 0x64) 4 = s.g.sw.toNat
  mshape : t.memRead (s.stackKey s.g 1 0x68) 4 = s.g.mshape.toNat
  mcloud : t.memRead (s.stackKey s.g 1 0x6C) 4 = s.g.mcloud.toNat
  memory : s.Frame t (s.stackKey s.g 1 0) 512

end Sys2Proof.Machine

/-- R361 to R364: a trap is taken: the frame, s60 to s63, the mask, %sig and the pc are as R362 and R363 say and nothing else
of the group's registers or of memory has changed; a context without a vector, a frame that cannot be written, and a group whose handler
already runs, kill the group. -/
def Obligations.TrapEntry : Prop :=
  (∀ (s : State) (l : Loc) (cause detail lane addr : Nat) (tpc : Addr) (sig : Word), s.Sound → s.Calm → s.CanTrap l →
    s.Entered (s.takeTrap cause detail lane addr tpc sig) l cause detail lane addr tpc sig) ∧
  (∀ (s : State) (cause detail lane addr : Nat) (tpc : Addr) (sig : Word), s.Sound → s.Calm →
    (s.ctx s.g.ctx).trapVec = 0 ∨ 2 ^ 57 < s.frameAddr + 256 ∨ (s.g.handler.isSome = true ∧ ∃ l : Loc, l.ty = 0 ∧ s.frameLoc = (some l, s)) →
    s.Killed (s.takeTrap cause detail lane addr tpc sig))

/-- R43, R365, R366: TRAP, BKPT, ILLEGAL_INSTRUCTION and an ERET outside a handler take their traps; BKPT without a handler goes on. -/
def Sys2Proof.Claim.TrapInstructions : Prop :=
  (∀ (o : K6) (s : State) (l : Loc), s.Sound → s.Calm → s.Issues .scal [] → s.CanTrap l →
    ∃ t, exec (.trap o) s = .next t ∧ s.Entered t l 11 o.k.toNat 127 0 (s.g.pc + 4) s.g.sig
      ∧ t.g.notBefore = s.clock + 1 + max o.st.toNat 2) ∧
  (∀ (o : Z0) (s : State) (l : Loc), s.Sound → s.Calm → s.Issues .scal [] → s.CanTrap l →
    ∃ t, exec (.bkpt o) s = .next t ∧ s.Entered t l 12 0 127 0 (s.g.pc + 4) s.g.sig
      ∧ t.g.notBefore = s.clock + 1 + max o.st.toNat 2) ∧
  (∀ (o : Z0) (s : State), s.Calm → s.Issues .scal [] → (s.ctx s.g.ctx).trapVec = 0 →
    ∃ t, exec (.bkpt o) s = .next t ∧ s.Passed t 4 o.st.toNat) ∧
  (∀ (s : State) (l : Loc) (step : Nat), s.Sound → s.Calm → s.CanTrap l → s.g.running = true → 2 ≤ step → step ≤ 5 →
    ∃ t, exec (.illegalInstruction step) s = .next t ∧ s.Entered t l 1 step 127 0 s.g.pc s.g.sig) ∧
  (∀ (s : State) (step : Nat), step < 2 ∨ 5 < step → exec (.illegalInstruction step) s = .next s) ∧
  (∀ (o : Z0) (s : State) (l : Loc), s.Sound → s.Calm → s.Issues .scal [] → s.CanTrap l →
    ∃ t, exec (.eret o) s = .next t ∧ s.Entered t l 3 0 127 0 s.g.pc s.g.sigLatch
      ∧ t.g.notBefore = s.clock + 1 + max o.st.toNat 2)

/-- R365: ERET of a group in its handler restores pc, mask, %gsr but for PRIV, %fmt, %sig and s60 to s63 from the frame and leaves the
handler; with a stack depth that has changed since the entry it kills the group. -/
def Sys2Proof.Claim.TrapReturns : Prop :=
  ∀ (o : Z0) (s : State) (l : Loc) (ret recon : Nat), s.Sound → s.Calm → s.Issues .scal [] → s.g.handler = some (ret, recon) →
    s.frameAddr + 256 ≤ 2 ^ 57 → s.checkGlobal s.g.core s.g.ctx s.g.root s.g.priv s.frameAddr .w = (.ok l, s) →
    s.checkGlobal s.g.core s.g.ctx s.g.root s.g.priv s.frameAddr .rd = (.ok l, s) → l.ty = 0 →
    (ret = s.g.retDepth → recon = s.g.reconDepth → ∃ t, exec (.eret o) s = .next t ∧ t.g.pc = BitVec.ofNat 64 (s.memRead l.key 8)
      ∧ (∀ k, k < 3 → maskWord t.g.mask k = BitVec.ofNat 32 (s.memRead (l.key + 0x18 + 4 * k) 4) &&& maskWord s.g.live k)
      ∧ t.g.gsr = (BitVec.ofNat 32 (s.memRead (l.key + 0x24) 4) &&& 0x1B) ||| (s.g.gsr &&& 4)
      ∧ t.g.fmt = fmtWrite (BitVec.ofNat 32 (s.memRead (l.key + 0x28) 4))
      ∧ t.g.sig = BitVec.ofNat 32 (s.memRead (l.key + 0x2C) 4)
      ∧ (∀ k, k < 4 → t.g.rawS (60 + k) = BitVec.ofNat 32 (s.memRead (l.key + 0x30 + 4 * k) 4))
      ∧ (∀ r, r < 56 ∨ r = 59 → t.g.rawS r = s.g.rawS r) ∧ t.g.v = s.g.v ∧ t.g.p = s.g.p ∧ t.g.handler = none ∧ t.g.wait = s.g.wait
      ∧ t.g.notBefore = s.clock + 1 + max o.st.toNat 2 ∧ t.mem = s.mem ∧ t.others = s.others) ∧
    (ret ≠ s.g.retDepth ∨ recon ≠ s.g.reconDepth → ∃ t, exec (.eret o) s = .next t ∧ s.Killed t)

/-- R374, R375, R383: IRGN.GRP records its group and begins a region; IRGN.WG and IRGE of a workgroup-scope region meet the workgroup's
groups first; IRGE ends a region; CHKERR reads %ckint, tests it and clears what it is told to. -/
def Obligations.RegionsAndChecks : Prop :=
  (∀ (o : Z0) (s : State), s.Sound → s.Calm → s.Issues .scal [] → s.Flat (s.stackKey s.g 1 0) 512 → s.g.ret.length ≤ 16 → s.g.recon.length ≤ 8 →
    ∃ t, exec (.irgnGrp o) s = .next t ∧ s.Recorded t (s.g.pc + 4) false ∧ t.others = s.others
      ∧ t.g = { s.g with pc := s.g.pc + 4, notBefore := s.clock + 1 + o.st.toNat, rpc := s.g.pc + 4, recTouched := false, region := some ⟨false, s.g.retDepth, s.g.reconDepth, 0, s.g.nBar, s.g.nCbar, s.g.nElectw⟩ }) ∧
  (∀ (o : Z0) (s : State), s.Sound → s.Calm → s.Issues .scal [] → s.g.wait = .ready →
    ((∀ h ∈ s.others, h.wg ≠ s.g.wg ∨ h.wait = .ended) → s.Flat (s.stackKey s.g 1 0) 512 → s.g.ret.length ≤ 16 → s.g.recon.length ≤ 8 →
      ∃ t, exec (.irgnWg o) s = .next t ∧ s.Recorded t (s.g.pc + 4) true ∧ t.others = s.others ∧ t.g.pc = s.g.pc + 4 ∧ t.g.wait = .ready
        ∧ t.g.nBar = s.g.nBar + 1 ∧ t.g.rpc = s.g.pc + 4 ∧ t.g.v = s.g.v ∧ t.g.s = s.g.s ∧ t.g.p = s.g.p ∧ t.g.gsr = s.g.gsr
        ∧ t.g.region = some ⟨true, s.g.retDepth, s.g.reconDepth, 0, s.g.nBar + 1, s.g.nCbar, s.g.nElectw⟩) ∧
    ((∃ h ∈ s.others, h.wg = s.g.wg ∧ h.wait ≠ .ended ∧ h.nBar < s.g.nBar + 1) →
      ∃ t, exec (.irgnWg o) s = .next t ∧ t.others = s.others ∧ t.mem = s.mem
        ∧ t.g = { s.g with pc := s.g.pc + 4, notBefore := s.clock + 1 + o.st.toNat, nBar := s.g.nBar + 1, wait := .bar 1 })) ∧
  (∀ (o : Z0) (s : State), s.Calm → s.Issues .scal [] →
    (s.g.region = none → ∃ t, exec (.irge o) s = .next t ∧ s.Passed t 4 o.st.toNat) ∧
    (∀ r, s.g.region = some r → r.wg = false → ∃ t, exec (.irge o) s = .next t ∧ s.OnlyGroup t
      ∧ t.g = { s.g with pc := s.g.pc + 4, notBefore := s.clock + 1 + o.st.toNat, region := none }) ∧
    (∀ r, s.g.region = some r → r.wg = true → (∀ h ∈ s.others, h.wg ≠ s.g.wg ∨ h.wait = .ended) → s.g.wait = .ready →
      ∃ t, exec (.irge o) s = .next t ∧ s.OnlyGroup t
        ∧ t.g = { s.g with pc := s.g.pc + 4, notBefore := max (s.clock + 1 + o.st.toNat) (s.clock + 4), nBar := s.g.nBar + 1, region := none })) ∧
  (∀ (o : DAB) (s : State), s.Sound → s.Calm → s.Issues .scal [.s o.a.toNat, .s o.b.toNat] → (∀ c ∈ s.engQ, c.grp ≠ s.g.id) →
    let x := s.g.ckint
    let a := s.g.rdS s.clock o.a.toNat
    let b := s.g.rdS s.clock o.b.toNat
    ∃ t, exec (.chkerr o) s = .next t ∧ s.OnlyGroup t ∧ t.g.pc = s.g.pc + 4 ∧ t.g.rawS o.d.toNat = s.g.heldS o.d.toNat x
      ∧ t.g.gsrBit 0 = (x &&& a != 0) ∧ t.g.ckint = x &&& ~~~(b &&& 0x7F) ∧ (∀ i, i ≠ 0 → t.g.gsrBit i = s.g.gsrBit i) ∧ t.g.v = s.g.v
      ∧ t.g.p = s.g.p ∧ (∀ r, r ≠ o.d.toNat → isMaskReg r = false → t.g.rawS r = s.g.rawS r))

/-- R104, R362 to R366: where the checks and the traps complete. SIGCHK whose %sig and depth are those it names passes. TRAP and BKPT with
a handler enter it; TRAP without a trap vector ends its group; BKPT without one goes on. A unit refused at a step 2 to 5 of decoding enters the
handler, and without a trap vector ends its group. ERET in a handler whose stacks stand at the depths of its entry goes on at the address
its frame holds, outside the handler. -/
def Obligations.ChecksAndTrapsComplete : Prop :=
  (∀ (o : SG) (s : State), s.Issues .scal [.spr 2] → s.g.inflight = [] → s.g.sig = o.c.setWidth 32 → s.g.reconDepth = o.d.toNat →
    ∃ t, exec (.sigchk o) s = .next t ∧ t.g.sig = 0xFFFF ∧ t.g.pc = s.g.pc + 4 ∧ t.g.notBefore = s.clock + 1 + o.st.toNat
      ∧ t.g.s = s.g.s ∧ t.g.v = s.g.v ∧ t.g.p = s.g.p ∧ t.g.gsr = s.g.gsr ∧ t.mem = s.mem) ∧
  (∀ (o : K6) (s : State) (l : Loc), s.Sound → s.Calm → s.Issues .scal [] → s.CanTrap l →
    ∃ t, exec (.trap o) s = .next t ∧ s.Entered t l 11 o.k.toNat 127 0 (s.g.pc + 4) s.g.sig) ∧
  (∀ (o : K6) (s : State), s.Sound → s.Calm → s.Issues .scal [] → (s.ctx s.g.ctx).trapVec = 0 →
    ∃ t, exec (.trap o) s = .next t ∧ s.Killed t) ∧
  (∀ (o : Z0) (s : State) (l : Loc), s.Sound → s.Calm → s.Issues .scal [] → s.CanTrap l →
    ∃ t, exec (.bkpt o) s = .next t ∧ s.Entered t l 12 0 127 0 (s.g.pc + 4) s.g.sig) ∧
  (∀ (o : Z0) (s : State), s.Calm → s.Issues .scal [] → (s.ctx s.g.ctx).trapVec = 0 →
    ∃ t, exec (.bkpt o) s = .next t ∧ s.Passed t 4 o.st.toNat) ∧
  (∀ (s : State) (l : Loc) (step : Nat), s.Sound → s.Calm → s.CanTrap l → s.g.running = true → 2 ≤ step → step ≤ 5 →
    ∃ t, exec (.illegalInstruction step) s = .next t ∧ s.Entered t l 1 step 127 0 s.g.pc s.g.sig) ∧
  (∀ (s : State) (step : Nat), s.Sound → s.Calm → s.g.running = true → (s.ctx s.g.ctx).trapVec = 0 → 2 ≤ step → step ≤ 5 →
    ∃ t, exec (.illegalInstruction step) s = .next t ∧ s.Killed t) ∧
  (∀ (o : Z0) (s : State) (l : Loc), s.Sound → s.Calm → s.Issues .scal [] → s.g.handler = some (s.g.retDepth, s.g.reconDepth) →
    s.frameAddr + 256 ≤ 2 ^ 57 → s.checkGlobal s.g.core s.g.ctx s.g.root s.g.priv s.frameAddr .w = (.ok l, s) →
    s.checkGlobal s.g.core s.g.ctx s.g.root s.g.priv s.frameAddr .rd = (.ok l, s) → l.ty = 0 →
    ∃ t, exec (.eret o) s = .next t ∧ t.g.pc = BitVec.ofNat 64 (s.memRead l.key 8) ∧ t.g.handler = none
      ∧ t.g.sig = BitVec.ofNat 32 (s.memRead (l.key + 0x2C) 4) ∧ t.g.v = s.g.v ∧ t.g.p = s.g.p ∧ t.mem = s.mem ∧ t.others = s.others)

/-! ### Events of groups and memory units (R66, R67, R71, R99, R171, R202 to R209, R213, R223, R229, R403, R411) -/

namespace Sys2Proof.Machine

/-- Nothing poisoned in memory, no error armed, no matrix operation, no haze or directory message on its way, no own bytes of host
memory in an L1. -/
structure State.Settled (s : State) : Prop where
  clean : s.memPoison = []
  banks : s.banks = []
  matrix : s.mxQ = []
  hazeNet : s.hazeNet = []
  hazeHomes : s.hazeHomes = []
  invals : s.invals = []
  invAcks : s.invAcks = []
  own : ∀ k ∈ s.l1, k.dirty = 0

/-- Memory and everything beside the groups and the numbers of free values stand as they did. -/
def State.OnlyGroups (s t : State) : Prop := t = { s with g := t.g, others := t.others, free := t.free }
/-- R66: a quarter has exchanged two groups, its swap of this clock. -/
def State.Swaps (s t : State) (core quarter out in_ : Nat) : Prop :=
  t = { s with g := t.g, others := t.others, swaps := (core, quarter) :: s.swaps } ∧ t.groups = s.groups.map fun g =>
    if g.id = out then { g with active := false, readySince := s.clock }
    else if g.id = in_ then { g with active := true, notBefore := max g.notBefore (s.clock + 2) } else g

/-- R206: the home still waits for acknowledgements of the messages it has sent for a core's request. -/
def State.Invalidates (s t : State) (core : Nat) (d : DirEntry) : Prop :=
  ∃ ms d', t.invals = s.invals ++ ms ∧ t.dirEntry d.line = some d' ∧ d' = { d with acks := ms.length, next := some (core, true) } ∧ 1 ≤ ms.length
    ∧ (∀ i, i < 48 → d.cores.getLsbD i = true → 48 * (d.slice / 48) + i ≠ core → ⟨d.line, .core (48 * (d.slice / 48) + i) false⟩ ∈ ms)
    ∧ (∀ i, i < 7 → d.remote.getLsbD i = true → remoteCluster (d.slice / 48) i ≠ clusterOf core →
        (∀ p, s.proxy? (remoteCluster (d.slice / 48) i) d.line = some p → p.cores ≠ 0) →
        ⟨d.line, .proxy (remoteCluster (d.slice / 48) i) none⟩ ∈ ms)
/-- R205, R206, R208: the home has granted a line to a core: its entry names the core, itself or through its cluster. -/
def State.Grants (t : State) (core : Nat) (d : DirEntry) (excl : Bool) : Prop :=
  ∃ d', t.dirEntry d.line = some d' ∧ d'.acks = 0 ∧ d'.next = none
    ∧ (if clusterOf core = d.slice / 48 then d'.cores.getLsbD (core % 48) = true else d'.remote.getLsbD (remoteBit (d.slice / 48) (clusterOf core)) = true)
    ∧ (excl = true → d'.owner = some core ∧ lineOf d.line / 65536 ∈ t.wrec
        ∧ (∀ i, i < 48 → d'.cores.getLsbD i = true → 48 * (d.slice / 48) + i = core)
        ∧ (∀ i, i < 7 → d'.remote.getLsbD i = true → remoteCluster (d.slice / 48) i = clusterOf core)
        ∧ d'.counter = (if d.owner.isSome ∧ d.owner ≠ some core then min 3 (d.counter + 1) else d.counter))
    ∧ (excl = false → d'.owner = (if d.owner = some core then d.owner else none) ∧ d'.counter = d.counter
        ∧ (∀ i, d.cores.getLsbD i = true → d'.cores.getLsbD i = true) ∧ (∀ i, d.remote.getLsbD i = true → d'.remote.getLsbD i = true))

end Sys2Proof.Machine

/-- R66, R67, R99: PENDING_REPLACE and TUNIFY_SWAP exchange two groups of a quarter, SLEEP_EXPIRY wakes a sleeper whose clock has come, and
SQUALL_WINDOW halves or doubles the limit once a window; when it is not their time they do nothing.
That every core's windows begin at the multiples of 4,096 of the device's clock is the model's choice (log entry 63). -/
def Obligations.SchedulerEvents : Prop :=
  (∀ (s : State) (core quarter : Nat) (p a : Group), s.Sound → s.swapped core quarter = false → (s.pendingReady core quarter).find? (fun g => decide (g.readySince + 256 ≤ s.clock)) = some p →
    (s.activeOn core quarter).reverse.find? (fun g => !s.ready g) = some a →
    ∃ t, exec (.pendingReplace core quarter) s = .next t ∧ s.Swaps t core quarter a.id p.id) ∧
  (∀ (s : State) (core quarter : Nat), s.swapped core quarter = true ∨ (∀ g ∈ s.pendingReady core quarter, s.clock < g.readySince + 256) →
    exec (.pendingReplace core quarter) s = .next s) ∧
  (∀ (s : State) (id ld st mx en tm : Nat) (arr : Bool) (g p : Group) (rest : List Group), s.Sound → s.group? id = some g → g.active = true →
    g.wait = .counts ld st mx en tm ∨ g.wait = .limits ld st mx en tm arr → s.pendingReady g.core g.quarter = p :: rest →
    (tm < g.count .tm → s.swapped g.core g.quarter = false →
      ∃ t, exec (.tunifySwap id) s = .next t ∧ s.Swaps t g.core g.quarter id p.id) ∧
    (g.count .tm ≤ tm ∨ s.swapped g.core g.quarter = true → exec (.tunifySwap id) s = .next s)) ∧
  (∀ (s : State) (till : Nat), s.g.wait = .sleep till →
    (till ≤ s.clock → exec (.sleepExpiry s.g.id) s = .next { s with g := { s.g with wait := .ready } }) ∧
    (s.clock < till → exec (.sleepExpiry s.g.id) s = .next s)) ∧
  (∀ (s : State) (core : Nat), let k := s.core core
    (s.clock / 4096 ≤ k.window → exec (.squallWindow core) s = .next s) ∧
    (k.window < s.clock / 4096 → ∃ t, exec (.squallWindow core) s = .next t ∧ t.g = s.g ∧ t.others = s.others ∧ t.mem = s.mem ∧
      (t.core core).hits = 0 ∧ (∀ c, c ≠ core → t.core c = s.core c) ∧
      (t.core core).lim = (if k.sqctl.getLsbD 12 then (if (k.sqctl &&& 0xFFF).toNat < k.hits then max 2 (k.lim / 2) else min 8 (k.lim * 2)) else 8)))

/-- R71, R171, R217, R218, R223: the oldest operation a counter counts completes once it is done: its words land in their lanes, but for
lanes that have exited, or registers, and the counter falls by one; one that is not done stays. -/
def Obligations.ResultsArrive : Prop :=
  (∀ e ∈ ([(.loadReturn, .load), (.atomicResult, .atomic)] : List ((Nat → Instr) × PendKind)),
    ∀ (s : State) (p : Pending) (rest : List Pending) (r : Nat) (m pz : Mask) (xs : List Word), s.banks = [] → s.g.pend = p :: rest →
      p.ctr = .ld → p.kind = e.2 → p.writes = [.vec r m xs pz false 0] → r < s.g.v.length → s.g.Room r →
      (p.done = true → ∃ t, exec (e.1 s.g.id) s = .next t ∧ s.OnlyGroups t ∧ t.g.count .ld + 1 = s.g.count .ld
          ∧ (∀ l, l < 96 → m.getLsbD l = true → s.g.exited.getLsbD l = false → (t.g.v.getD r VReg.zero).lane l = xs.getD l 0)
          ∧ (∀ l, l < 96 → m.getLsbD l = false ∨ s.g.exited.getLsbD l = true → (t.g.v.getD r VReg.zero).lane l = (s.g.v.getD r VReg.zero).lane l)
          ∧ (∀ k, k ≠ r → t.g.v.getD k VReg.zero = s.g.v.getD k VReg.zero) ∧ t.g.pc = s.g.pc ∧ t.g.s = s.g.s ∧ t.g.gsr = s.g.gsr) ∧
      (p.done = false → ∃ t, exec (e.1 s.g.id) s = .next t ∧ s.OnlyGroups t ∧ t.g.count .ld = s.g.count .ld ∧ t.g.v = s.g.v)) ∧
  (∀ (s : State) (p : Pending) (rest : List Pending), s.banks = [] → s.g.pend = p :: rest → p.ctr = .st → p.done = true → p.writes = [] →
    (p.kind = .store → ∃ t, exec (.storePerformed s.g.id) s = .next t ∧ s.OnlyGroups t ∧ t.g.count .st + 1 = s.g.count .st
      ∧ t.g.v = s.g.v ∧ t.g.s = s.g.s ∧ t.g.pc = s.g.pc) ∧
    (p.kind = .tlbinv → ∃ t, exec (.tlbinvCompletion s.g.id) s = .next t ∧ s.OnlyGroups t ∧ t.g.count .st + 1 = s.g.count .st
      ∧ t.g.v = s.g.v ∧ t.g.s = s.g.s ∧ t.g.pc = s.g.pc)) ∧
  (∀ (s : State) (p : Pending) (rest : List Pending) (d : Nat) (n : Word), s.banks = [] → s.g.pend = p :: rest → p.ctr = .ld → p.kind = .harvest → p.done = true →
    p.writes = [.sreg d n false false] → s.g.s.length = 64 → d < 64 →
    ∃ t, exec (.harvestCompletion s.g.id) s = .next t ∧ s.OnlyGroups t ∧ t.g.count .ld + 1 = s.g.count .ld
      ∧ t.g.rawS d = s.g.heldS d n ∧ t.g.v = s.g.v ∧ t.g.pc = s.g.pc)

/-- R208, R229, R230, R403, R411: the element operation of the oldest unit of a group that waits for a place is performed there: the old value goes
to the result, memory gets the new one; an error or a timeout returns poison and changes nothing of memory. A load of a peer whose request
fails poisons the lanes it serves.
That a failing operation returns zeros marked poisoned is the model's reading (DEDUCED, log entry 27), and so is which request a timeout
meets (log entry 31). -/
def Obligations.ElementOperations : Prop :=
  (∀ (s : State) (p : Pending) (rest : List Pending) (o : ElemOp), s.memOk → s.Settled → s.down = [] → s.mgmt.eqSize = 0 →
    s.g.pend = p :: rest → p.todo = [o] → p.writes = [.vec (p.dest.headD 0) (BitVec.twoPow 96 o.lane) (List.replicate 96 0) 0 false 0] →
    p.dest.length = 1 → o.lane < 96 → o.n = 4 → o.pz = false → o.op = .addI32 ∨ o.op = .and ∨ o.op = .or ∨ o.op = .xchg → o.data < 2 ^ 32 →
    let x := s.memRead o.loc.key 4
    let y := if o.op = .addI32 then (x + o.data) % 2 ^ 32 else if o.op = .and then x &&& o.data else if o.op = .or then x ||| o.data else o.data
    (∀ e ∈ ([(.farAtomic s.g.id, .home, 0), (.atomicopCompletion s.g.id false, .host, 3), (.response ⟨s.g.id, false⟩, .peer, 4)] : List (Instr × AtomPlace × Nat)),
      o.place = e.2.1 → o.loc.ty = e.2.2 → (e.2.2 = 4 → s.peerFails s.g.core o.loc.key = none) →
      ∃ t q, exec e.1 s = .next t ∧ t.g.pend = q :: rest ∧ q.todo = [] ∧ q.done = true ∧ t.memRead o.loc.key 4 = y
        ∧ q.writes = [.vec (p.dest.headD 0) (BitVec.twoPow 96 o.lane) ((List.replicate 96 0).set o.lane (BitVec.ofNat 32 x)) 0 false 0]
        ∧ s.Frame t o.loc.key 4 ∧ t.g = { s.g with pend := q :: rest }
        ∧ t.others = s.others) ∧
    (∀ e ∈ ([(.atomicopCompletion s.g.id true, .host, 1), (.atomicopTimeout s.g.id, .host, 1), (.requestTimeout s.g.id, .peer, 1), (.response ⟨s.g.id, true⟩, .peer, 1)] : List (Instr × AtomPlace × Nat)),
      o.place = e.2.1 →
      ∃ t q, exec e.1 s = .next t ∧ t.g.pend = q :: rest ∧ q.todo = [] ∧ q.done = true ∧ t.mem = s.mem
        ∧ (∃ xs, RegWrite.vec (p.dest.headD 0) (BitVec.twoPow 96 o.lane) xs (BitVec.twoPow 96 o.lane) false 0 ∈ q.writes)
        ∧ t.g = { s.g with pend := q :: rest } ∧ t.mgmt.eqSeq = s.mgmt.eqSeq + BitVec.ofNat 32 e.2.2)) ∧
  (∀ e ∈ ([fun g => .requestTimeout g, fun g => .response ⟨g, true⟩] : List (Nat → Instr)), ∀ (s : State) (p : Pending) (rest : List Pending)
    (m k z : Mask) (port r : Nat) (xs : List Word) (ps : List (Mask × Nat)), s.mgmt.eqSize = 0 → s.g.pend = p :: rest → (∀ q ∈ s.g.pend, q.todo = []) →
    p.peers = (m, port) :: ps → p.writes = [.vec r k xs z false 0] →
    ∃ t, exec (e s.g.id) s = .next t ∧ t.mem = s.mem ∧ t.others = s.others ∧ t.mgmt.eqSeq = s.mgmt.eqSeq + 1
      ∧ t.g = { s.g with pend := { p with peers := ps, writes := [.vec r k xs (z ||| m &&& k) false 0, .ckint (BitVec.twoPow 32 5)] } :: rest })

/-- R202, R203, R213: a walk by a core that finds a resident unclaimed leaf claims the page and fills both TLBs; one that finds a private page of another core
shares it; one without a leaf fills nothing. The owner of a page serves a share request, and the acknowledgement makes the page Shared.
That a leaf that is not resident fills nothing is the model's reading (DEDUCED, log entry 9). -/
def Sys2Proof.Claim.WalksAndShares : Prop :=
  (∀ (s : State) (core va at_ e size : Nat) (g : Group), s.memOk → s.Settled → s.hazeLines = [] → s.shares = [] → s.tlb = [] → s.walkCache = [] →
    s.misses = [] → (s.groups.map (·.id)).Nodup → (∀ h ∈ s.groups, ∀ p ∈ h.pend, p.todo = []) → core < 384 → va < 2 ^ 57 →
    s.groups.find? (fun h => h.core == core && h.ctx == g.ctx && h.running) = some g →
    (s.walk va g.root walkLevels = none ∨ (s.walk va g.root walkLevels = some (at_, e, size) ∧ bit e 2 = false) →
      ∃ t, exec (.pageWalk core g.ctx (BitVec.ofNat 64 va)) s = .next t ∧ t = { s with walkCache := t.walkCache }) ∧
    (s.walk va g.root walkLevels = some (at_, e, size) → bit e 2 = true → pteCls e = 0 ∨ (pteCls e = 1 ∧ pteOwner e ≠ core) →
      ∃ t, exec (.pageWalk core g.ctx (BitVec.ofNat 64 va)) s = .next t ∧ t.groups = s.groups ∧ t.shares = []
        ∧ pteCls (t.memRead at_ 8) = (if pteCls e = 0 then 1 else 2) ∧ pteOwner (t.memRead at_ 8) = (if pteCls e = 0 then core else pteOwner e)
        ∧ ptePa (t.memRead at_ 8) = ptePa e ∧ bit (t.memRead at_ 8) 11 = true
        ∧ s.Frame t at_ 8
        ∧ t.tlb = [⟨false, core, g.ctx, va / size * size, size, BitVec.ofNat 64 (t.memRead at_ 8), at_⟩,
            ⟨true, clusterOf core, g.ctx, va / size * size, size, BitVec.ofNat 64 (t.memRead at_ 8), at_⟩])) ∧
  (∀ (s : State) (core ctx : Nat) (va : BitVec 64), (∀ g ∈ s.groups, g.core ≠ core ∨ g.ctx ≠ ctx ∨ g.running = false) →
    exec (.pageWalk core ctx va) s = .next s) ∧
  (∀ (s : State) (n : Nat) (m : ShareMsg), s.Settled → s.hazeLines = [] → (s.groups.map (·.id)).Nodup →
    (∀ h ∈ s.groups, ∀ p ∈ h.pend, p.todo = []) → s.shares[n]? = some m →
    (m.acked = false → ∃ t, exec (.shareRequest n) s = .next t ∧ t.shares = s.shares.set n { m with acked := true } ∧ t.mem = s.mem ∧ t.groups = s.groups
      ∧ (∀ k ∈ t.tlb, k ∈ s.tlb ∧ ¬ (k.pteAddr = m.pte ∧ k.l2 = false ∧ k.unit = m.owner))
      ∧ (∀ k ∈ s.tlb, k.pteAddr ≠ m.pte → k ∈ t.tlb)
      ∧ (∀ k ∈ t.l1, ¬ (k.haze = false ∧ k.core = m.owner ∧ m.page ≤ k.line ∧ k.line < m.page + m.size))
      ∧ (∀ k ∈ t.slices, ¬ (k.slice = m.owner ∧ m.page ≤ k.line ∧ k.line < m.page + m.size))) ∧
    (m.acked = true → exec (.shareRequest n) s = .next s)) ∧
  (∀ (s : State) (n : Nat) (m : ShareMsg), s.memOk → s.shares[n]? = some m →
    (m.acked = true → pteCls (s.memRead m.pte 8) = 3 → ∃ t, exec (.shareAck n) s = .next t ∧ t.shares = s.shares.eraseIdx n ∧ t.groups = s.groups
      ∧ pteCls (t.memRead m.pte 8) = 2 ∧ pteOwner (t.memRead m.pte 8) = pteOwner (s.memRead m.pte 8)
      ∧ ptePa (t.memRead m.pte 8) = ptePa (s.memRead m.pte 8) ∧ s.Frame t m.pte 8) ∧
    (m.acked = false → exec (.shareAck n) s = .next s))

/-- R205, R206, R208, R209, R211, R219, R407: the home grants a miss, or invalidates the other sharers first, its own cluster's cores and the proxies of the
others; a core drops its copy and acknowledges; a proxy invalidates its cores, and answers when they have; the last acknowledgement grants; a
line written back leaves its L1 with its dirty bytes in memory, and a dirty coherent one clears its bit; while the host link is down the dirty
bytes of a line of host memory are dropped, which sets HST. A message behind its like waits.
That memory holds the one value of a coherent byte is the model's reading (DEDUCED, log entry 56). -/
def Sys2Proof.Claim.DirectoryEvents : Prop :=
  (∀ (s : State) (core line : Nat) (excl : Bool) (d : DirEntry), core < 384 → d.slice < 384 → s.dirEntry (lineOf line) = some d → d.acks = 0 →
    (excl = false ∨ (d.remote = 0 ∧ ∀ i, i < 48 → d.cores.getLsbD i = true → 48 * (d.slice / 48) + i = core) →
      ∃ t, exec (.missRequest core line excl) s = .next t ∧ t.Grants core d excl ∧ (∀ m ∈ t.invals, m ∈ s.invals) ∧ t.g = s.g ∧ t.mem = s.mem) ∧
    (excl = true → (∃ i, i < 48 ∧ d.cores.getLsbD i = true ∧ 48 * (d.slice / 48) + i ≠ core) →
      ∃ t, exec (.missRequest core line excl) s = .next t ∧ s.Invalidates t core d ∧ t.g = s.g ∧ t.mem = s.mem)) ∧
  (∀ (s : State) (core line : Nat) (excl : Bool), s.dirEntry (lineOf line) = none → exec (.missRequest core line excl) s = .next s) ∧
  (∀ (s : State) (n c line : Nat) (b : Bool), s.invals[n]? = some ⟨line, .core c b⟩ → s.invBlocked s.invals n ⟨line, .core c b⟩ = false →
    ∃ t, exec (.invalidation n) s = .next t ∧ t.invals = s.invals.eraseIdx n ∧ t.invAcks = s.invAcks ++ [⟨line, .core c b⟩] ∧ t.l1Find c line = none
      ∧ (∀ k ∈ s.l1, k.core ≠ c ∨ k.line ≠ line → k ∈ t.l1) ∧ t.g = s.g ∧ t.mem = s.mem ∧ t.dir = s.dir) ∧
  (∀ (s : State) (j n : Nat) (m : InvMsg), j < n →
    (s.invals[j]? = some m → s.invals[n]? = some m → exec (.invalidation n) s = .next s) ∧
    (s.invAcks[j]? = some m → s.invAcks[n]? = some m → exec (.invalidationAck n) s = .next s)) ∧
  (∀ (s : State) (n k line : Nat) (keep : Option Nat), s.invals[n]? = some ⟨line, .proxy k keep⟩ →
    s.invBlocked s.invals n ⟨line, .proxy k keep⟩ = false →
    (s.proxy? k line = none → ∃ t, exec (.invalidation n) s = .next t ∧ t.invals = s.invals.eraseIdx n ∧ t.invAcks = s.invAcks ++ [⟨line, .proxy k keep⟩]
      ∧ t.l1 = s.l1 ∧ t.g = s.g ∧ t.mem = s.mem) ∧
    (∀ p i, s.proxy? k line = some p → i < 48 → p.cores.getLsbD i = true → keep ≠ some (48 * k + i) →
      ∃ t p', exec (.invalidation n) s = .next t ∧ t.invAcks = s.invAcks ∧ ⟨line, .core (48 * k + i) true⟩ ∈ t.invals ∧ t.proxy? k line = some p'
        ∧ p'.cores = p.cores ∧ p'.keep = keep ∧ (s.invals.eraseIdx n).length + p'.acks = t.invals.length ∧ t.l1 = s.l1 ∧ t.g = s.g ∧ t.mem = s.mem)) ∧
  (∀ (s : State) (n : Nat) (m : InvMsg) (d : DirEntry) (c : Nat), s.invAcks[n]? = some m → s.invBlocked s.invAcks n m = false → (∀ k, m.rcv ≠ .core k true) →
    s.dirEntry m.line = some d → d.next = some (c, true) → c < 384 → d.slice < 384 →
    (d.acks ≤ 1 → ∃ t, exec (.invalidationAck n) s = .next t ∧ t.Grants c d true ∧ t.g = s.g ∧ t.mem = s.mem
      ∧ (clusterOf c = d.slice / 48 → t.invAcks = s.invAcks.eraseIdx n)) ∧
    (1 < d.acks → ∃ t, exec (.invalidationAck n) s = .next t ∧ t.invAcks = s.invAcks.eraseIdx n
      ∧ t.dirEntry m.line = some { d with acks := d.acks - 1 } ∧ t.g = s.g ∧ t.mem = s.mem)) ∧
  (∀ (s : State) (n c line : Nat) (p : ProxyEntry), s.invAcks[n]? = some ⟨line, .core c true⟩ → s.invBlocked s.invAcks n ⟨line, .core c true⟩ = false → s.proxy? (clusterOf c) line = some p →
    (p.acks ≤ 1 → ∃ t, exec (.invalidationAck n) s = .next t ∧ t.invAcks = s.invAcks.eraseIdx n ++ [⟨line, .proxy (clusterOf c) p.keep⟩]
      ∧ (p.keep = none → t.proxy? (clusterOf c) line = none) ∧ t.dir = s.dir ∧ t.g = s.g ∧ t.mem = s.mem) ∧
    (1 < p.acks → ∃ t, exec (.invalidationAck n) s = .next t ∧ t.invAcks = s.invAcks.eraseIdx n
      ∧ t.proxy? (clusterOf c) line = some { p with acks := p.acks - 1 } ∧ t.dir = s.dir ∧ t.g = s.g ∧ t.mem = s.mem)) ∧
  (∀ (s : State) (l : L1Line) (core line : Nat), s.memOk → s.l1Find core (lineOf line) = some l → l.data.length = 64 ∨ l.data = [] →
    l.data = [] ∨ s.hostDown = false → s.Flat (lineOf line) 64 →
    ∃ t, exec (.writeBack core line) s = .next t ∧ t.l1Find core (lineOf line) = none ∧ t.g = s.g ∧ t.others = s.others
      ∧ (∀ i, i < 64 → Memory.get t.mem (s.place (lineOf line) + i)
          = if l.data ≠ [] ∧ l.dirty.getLsbD i = true then l.data.getD i 0 else Memory.get s.mem (s.place (lineOf line) + i))
      ∧ s.Frame t (lineOf line) 64
      ∧ (l.data = [] → l.dirty ≠ 0 → ∀ d, t.dirEntry (lineOf line) = some d → d.owner ≠ some core
          ∧ (clusterOf core = d.slice / 48 → d.cores.getLsbD (core % 48) = false))) ∧
  (∀ (s : State) (l : L1Line) (core line : Nat), s.l1Find core (lineOf line) = some l → l.data ≠ [] → l.dirty ≠ 0 → s.hostDown = true →
    ∃ t, exec (.writeBack core line) s = .next t ∧ t.l1Find core (lineOf line) = none ∧ t.mem = s.mem
      ∧ ∀ h ∈ t.groups, h.id = l.grp → h.ckint.getLsbD 5 = true) ∧
  (∀ (s : State) (core line : Nat), s.l1Find core (lineOf line) = none → exec (.writeBack core line) s = .next s)

/-! ### Registers of the management space (R4, R216, R245, R249, R368, R406, R409, R423, R424) -/

namespace Sys2Proof.Machine

/-- Only registers of the management space have changed. -/
def State.OnlyMgmt (s t : State) : Prop := t = { s with mgmt := t.mgmt }
/-- Only host queues have changed. -/
def State.OnlyQueues (s t : State) : Prop := t = { s with lqs := t.lqs }
/-- Only context blocks have changed. -/
def State.OnlyContexts (s t : State) : Prop := t = { s with ctxs := t.ctxs }
/-- A ring size is legal: a power of two of the given range. -/
def RingSize (lo hi x : Nat) : Prop := lo ≤ x ∧ x ≤ hi ∧ ∃ n, x = 2 ^ n

end Sys2Proof.Machine

/-- R216, R367: PQCOMP resolves the written request of its number: who waits for the page replays, or is refused; of a number without request it does
nothing. PQSIZE takes 0 and the legal sizes only; PQHEAD is stored.
That a number without a record is ignored is the model's reading (DEDUCED, log entry 48). -/
def Sys2Proof.Claim.PageRequestRegisters : Prop :=
  (∀ (s : State) (v : BitVec 64) (r : PageReq), s.pageReqs = [r] → r.written = true → r.seq = v.toNat / 2 ^ 32 →
    ∃ t, exec (.pqcomp v) s = .next t ∧ t.pageReqs = [] ∧ t.mem = s.mem ∧ t.mgmt = s.mgmt
      ∧ (∀ va st lane addr, s.g.wait = .page va st lane addr → s.g.ctx = r.ctx → va = r.va →
          t.g.wait = .ready ∧ t.g.replay = true ∧ t.g.refused = if v.getLsbD 0 then some (lane, addr) else none)
      ∧ (∀ va st lane addr, s.g.wait = .page va st lane addr → s.g.ctx ≠ r.ctx ∨ va ≠ r.va → t.g.wait = s.g.wait ∧ t.g.refused = s.g.refused)
      ∧ t.g.pc = s.g.pc ∧ t.g.v = s.g.v ∧ t.g.s = s.g.s) ∧
  (∀ (s : State) (v : BitVec 64), (∀ r ∈ s.pageReqs, r.seq ≠ v.toNat / 2 ^ 32 ∨ r.written = false) → exec (.pqcomp v) s = .next s) ∧
  (∀ (s : State) (v : BitVec 32), (∀ r ∈ s.pageReqs, r.written = true) →
    (RingSize 64 65536 v.toNat ∨ v = 0 → ∃ t, exec (.pqsize v) s = .next t ∧ s.OnlyMgmt t ∧ t.mgmt = { s.mgmt with pqSize := v.toNat }) ∧
    (¬ RingSize 64 65536 v.toNat → v ≠ 0 → exec (.pqsize v) s = .next s) ∧
    (∃ t, exec (.pqhead v) s = .next t ∧ s.OnlyMgmt t ∧ t.mgmt = { s.mgmt with pqHead := v.toNat })) ∧
  (∀ (s : State) (v : BitVec 32) (r : PageReq), s.memOk → s.pageReqs = [r] → r.written = false → r.ctx < 4096 → r.kind < 4 → r.va % 65536 = 0 → r.va < 2 ^ 57 → r.seq < 2 ^ 32 →
    s.mgmt.pqSize ≠ 0 → s.mgmt.eqSize = 0 → (s.mgmt.pqTail + 2 ^ 32 - v.toNat) % 2 ^ 32 < s.mgmt.pqSize →
    let a := s.mgmt.pqBase.toNat + 16 * (s.mgmt.pqTail % s.mgmt.pqSize)
    a + 16 ≤ s.hbmEnd →
    ∃ t, exec (.pqhead v) s = .next t ∧ t.pageReqs = [{ r with written := true }] ∧ t.mgmt.pqTail = (s.mgmt.pqTail + 1) % 2 ^ 32
      ∧ t.mgmt.pqHead = v.toNat ∧ t.memRead a 8 = r.va + r.kind * 2 ^ 12 + r.ctx ∧ t.memRead (a + 8) 4 = r.seq
      ∧ t.memRead (a + 12) 4 = r.cluster % 2 ^ 32 ∧ s.Frame t a 16 ∧ t.g = s.g
      ∧ t.msix = s.msix ++ [2])

/-- R249, R407: a host queue's tail moves forward by at most its size while EN is 1, and back to at least its head while EN is 0; its size changes only while EN
is 0 and only to a legal one; no other queue changes. -/
def Sys2Proof.Claim.QueueRegisters : Prop :=
  (∀ (s : State) (q : Nat) (v : BitVec 32), q < 64 → let l := s.lq q
    l.head < 2 ^ 32 → l.tail < 2 ^ 32 →
    let ahead := (v.toNat + 2 ^ 32 - l.head) % 2 ^ 32
    let waiting := (l.tail + 2 ^ 32 - l.head) % 2 ^ 32
    ((l.en = true ∧ ahead ≤ l.size) ∨ (l.en = false ∧ ahead ≤ waiting) →
      ∃ t, exec (.lqtail q v) s = .next t ∧ s.OnlyQueues t ∧ t.lq q = { l with tail := v.toNat } ∧ ∀ p, p ≠ q → t.lq p = s.lq p) ∧
    ((l.en = true ∧ l.size < ahead) ∨ (l.en = false ∧ waiting < ahead) →
      ∃ t, exec (.lqtail q v) s = .next t ∧ s.OnlyQueues t ∧ t.lq q = l ∧ ∀ p, p ≠ q → t.lq p = s.lq p) ∧
    (l.en = false → RingSize 16 4096 v.toNat →
      ∃ t, exec (.lqsize q v) s = .next t ∧ s.OnlyQueues t ∧ t.lq q = { l with size := v.toNat } ∧ ∀ p, p ≠ q → t.lq p = s.lq p) ∧
    (l.en = true ∨ ¬ RingSize 16 4096 v.toNat →
      ∃ t, exec (.lqsize q v) s = .next t ∧ s.OnlyQueues t ∧ ∀ p, t.lq p = s.lq p)) ∧
  (∀ (s : State) (q : Nat) (v : BitVec 32), 64 ≤ q → exec (.lqtail q v) s = .next s ∧ exec (.lqsize q v) s = .next s)

/-- R4, R245, R368, R406, R409, R423, R424: DLSIZE, EQSIZE, EQHEAD, GNUM, a peer window, PWRCAP and ATTCMD take what their rules let them take and change
nothing else; REGISTER_WRITE of a word writes its register, as TRAPVEC shows.
That one off its alignment or past the space does nothing is the model's choice (DESIGN CHOICE, log entry 10). -/
def Sys2Proof.Claim.SingleRegisters : Prop :=
  (∀ (s : State) (v : BitVec 32),
    (RingSize 8 4096 v.toNat ∨ v = 0 → ∃ t, exec (.dlsize v) s = .next t ∧ s.OnlyMgmt t ∧ t.mgmt = { s.mgmt with dlSize := v.toNat }) ∧
    (¬ RingSize 8 4096 v.toNat → v ≠ 0 → exec (.dlsize v) s = .next s) ∧
    (RingSize 64 65536 v.toNat → s.heldEvents = [] →
      ∃ t, exec (.eqsize v) s = .next t ∧ s.OnlyMgmt t ∧ t.mgmt = { s.mgmt with eqSize := v.toNat, eqTail := s.mgmt.eqHead }) ∧
    (v = 0 → ∃ t, exec (.eqsize v) s = .next t ∧ t = { s with mgmt := t.mgmt, heldEvents := [] }
      ∧ t.mgmt = { s.mgmt with eqSize := 0, eqSeq := s.mgmt.eqSeq + BitVec.ofNat 32 s.heldEvents.length }) ∧
    (¬ RingSize 64 65536 v.toNat → v ≠ 0 → exec (.eqsize v) s = .next s) ∧
    (s.heldEvents = [] → ∃ t, exec (.eqhead v) s = .next t ∧ s.OnlyMgmt t ∧ t.mgmt = { s.mgmt with eqHead := v.toNat }) ∧
    (∃ t, exec (.pwrcap v) s = .next t ∧ s.OnlyMgmt t
      ∧ t.mgmt = { s.mgmt with pwrCap := max 1000 (min 2400 (v &&& 0xFFFF).toNat) })) ∧
  (∀ (s : State) (v : BitVec 32) (e : Nat × Nat), s.memOk → s.heldEvents = [e] → s.down = [] → s.mgmt.eqSize ≠ 0 →
    (s.mgmt.eqTail + 2 ^ 32 - v.toNat) % 2 ^ 32 < s.mgmt.eqSize →
    let b := s.mgmt.eqBase.toNat + 16 * (s.mgmt.eqTail % s.mgmt.eqSize)
    let a := hostKey b
    b + 16 ≤ 2 ^ 46 → e.1 < 2 ^ 32 → e.2 < 2 ^ 64 →
    ∃ t, exec (.eqhead v) s = .next t ∧ t.heldEvents = [] ∧ t.mgmt.eqTail = (s.mgmt.eqTail + 1) % 2 ^ 32 ∧ t.mgmt.eqSeq = s.mgmt.eqSeq + 1
      ∧ t.memRead a 4 = (s.mgmt.eqSeq + 1).toNat ∧ t.memRead (a + 4) 4 = e.1 ∧ t.memRead (a + 8) 8 = e.2
      ∧ t.msix = s.msix ++ [0] ∧ t.g = s.g ∧ s.Frame t a 16) ∧
  (∀ (s : State) (v : BitVec 32) (e : Nat × Nat), s.memOk → s.heldEvents = [e] → s.down = [] → RingSize 64 65536 v.toNat → s.mgmt.eqHead < 2 ^ 32 →
    let b := s.mgmt.eqBase.toNat + 16 * (s.mgmt.eqHead % v.toNat)
    let a := hostKey b
    b + 16 ≤ 2 ^ 46 → e.1 < 2 ^ 32 → e.2 < 2 ^ 64 →
    ∃ t, exec (.eqsize v) s = .next t ∧ t.heldEvents = [] ∧ t.mgmt.eqSize = v.toNat ∧ t.mgmt.eqTail = (s.mgmt.eqHead + 1) % 2 ^ 32
      ∧ t.mgmt.eqSeq = s.mgmt.eqSeq + 1 ∧ t.memRead a 4 = (s.mgmt.eqSeq + 1).toNat ∧ t.memRead (a + 4) 4 = e.1
      ∧ t.memRead (a + 8) 8 = e.2 ∧ t.msix = s.msix ++ [0] ∧ t.g = s.g ∧ s.Frame t a 16) ∧
  (∀ (s : State) (c : Nat) (v : BitVec 32),
    ((s.ctx c).held = [] → ∃ t, exec (.gnum c v) s = .next t ∧ s.OnlyContexts t ∧ t.ctx c = { s.ctx c with gnum := min v.toNat (2 ^ 20) }
      ∧ ∀ d, d ≠ c → t.ctx d = s.ctx d) ∧
    ((s.ctx c).held ≠ [] → exec (.gnum c v) s = .next s)) ∧
  (∀ (s : State) (w : Nat) (v : BitVec 64),
    (w < 256 → s.mgmt.minMode = false → ∃ t, exec (.peerWindow w v) s = .next t ∧ s.OnlyMgmt t ∧ (∀ x, x ≠ w → t.peerWin x = s.peerWin x)
      ∧ t.peerWin w = (if (v &&& 0xFFFFF).toNat < 2 ^ 19 then (v &&& 0x1FFFFF).toNat else (v &&& 0xFFFFF).toNat)) ∧
    (256 ≤ w ∨ s.mgmt.minMode = true → exec (.peerWindow w v) s = .next s)) ∧
  (∀ (s : State), ∃ t, exec .attcmd s = .next t ∧ s.OnlyMgmt t ∧ t.mgmt = { s.mgmt with attBusy := true }) ∧
  (∀ (s : State) (c : Nat) (v : BitVec 64), c < 4096 →
    (∃ t, exec (.registerWrite (0x10000 + 64 * c) 4 v) s = .next t ∧ s.OnlyContexts t ∧ (∀ d, d ≠ c → t.ctx d = s.ctx d)
      ∧ t.ctx c = { s.ctx c with trapVec := ((s.ctx c).trapVec &&& 0xFFFFFFFF00000000) ||| (v &&& 0xFFFFFFFE) }) ∧
    (∃ t, exec (.registerWrite (0x10000 + 64 * c) 8 v) s = .next t ∧ s.OnlyContexts t ∧ (∀ d, d ≠ c → t.ctx d = s.ctx d)
      ∧ t.ctx c = { s.ctx c with trapVec := v &&& 0xFFFFFFFFFFFFFFFE })) ∧
  (∀ (s : State) (off size : Nat) (v : BitVec 64), ¬ (size = 1 ∨ size = 2 ∨ size = 4 ∨ size = 8) ∨ off % size ≠ 0 ∨ 2 ^ 24 ≤ off →
    exec (.registerWrite off size v) s = .next s)

/-! ### Pre-emption (R369 to R372) -/

namespace Sys2Proof.Machine

/-- One workgroup of one group stands on the device, with no scratch, and nothing of it is under way. -/
structure State.Alone (s : State) (w : Wg) : Prop where
  sound : s.Sound
  calm : s.Calm
  wgs : s.wgs = [w]
  others : s.others = []
  group : s.g.wg = w.id
  single : w.members ≤ 1
  live : w.live = true
  sizes : w.sizeW = 0 ∧ w.sizeA = 0 ∧ w.sizeC = 0
  running : s.g.wait = .ready
  arrived : s.g.arrived = []
  slots : s.g.gslots ≤ 64
  index : s.g.gidx < 16
  depths : s.g.ret.length ≤ 16 ∧ s.g.recon.length ≤ 8
  eng : s.engQ = []
  term : s.termQ = []
  launch : s.launchQ = []
  locks : s.locks = [] ∧ s.lockNet = [] ∧ s.savedGroups = []
  lines : s.hazeLines = []

end Sys2Proof.Machine

/-- R369: PREEMPT of a context: a workgroup outside a workgroup-scope region is taken when its record fits the save area and left running with FULL set
when it does not; one inside is discarded; with nothing resident it is over at once; a block busy with another command does not take it.
The order of the saves is the model's reading (DEDUCED, log entry 47), and that a save area beyond HBM has no room its choice (log entry 62). -/
def Sys2Proof.Claim.Preemptions : Prop :=
  (∀ (s : State) (c : Nat), (∀ w ∈ s.wgs, w.live = false) → (s.ctx c).busy = false → (s.ctx c).records = [] →
    ∃ t, exec (.preempt c) s = .next t ∧ t.ctx c = { s.ctx c with busy := false, cmd := 0, stopped := true, full := false, saveNext := 0, saveUsed := 0 }
      ∧ (∀ d, d ≠ c → t.ctx d = s.ctx d) ∧ t.g = s.g ∧ t.mem = s.mem ∧ t.wgs = s.wgs) ∧
  (∀ (s : State) (w : Wg) (c : Nat), s.Alone w → s.g.ctx = c → s.g.saved = false → w.saved = false → w.saving = false → (s.ctx c).busy = false →
    (s.ctx c).records = [] →
    ((∀ r, s.g.region = some r → r.wg = false) → s.recordSize w ≤ (s.ctx c).saveLen →
      (s.ctx c).saveBase + s.recordSize w ≤ s.hbmEnd →
      ∃ t, exec (.preempt c) s = .next t ∧ t.wgs = [{ w with saving := true }] ∧ t.g = { s.g with stopped := true, active := false } ∧ t.mem = s.mem
        ∧ t.ctx c = { s.ctx c with busy := true, cmd := 3, stopped := true, full := false, records := [(w.id, (s.ctx c).saveBase)], saveNext := s.recordSize w }) ∧
    ((∀ r, s.g.region = some r → r.wg = false) → (s.ctx c).saveLen < s.recordSize w ∨ s.hbmEnd < (s.ctx c).saveBase + s.recordSize w →
      ∃ t, exec (.preempt c) s = .next t ∧ t.wgs = [w] ∧ t.g = s.g ∧ t.mem = s.mem ∧ (t.ctx c).full = true ∧ (t.ctx c).busy = false
        ∧ (t.ctx c).stopped = true ∧ (t.ctx c).records = []) ∧
    (∀ r, s.g.region = some r → r.wg = true →
      ∃ t, exec (.preempt c) s = .next t ∧ t.wgs = [{ w with saved := true }] ∧ t.g.saved = true ∧ t.g.stopped = true ∧ t.g.region = s.g.region
        ∧ t.mem = s.mem ∧ (t.ctx c).restart = (s.ctx c).restart ++ [w.id] ∧ (t.ctx c).busy = false ∧ (t.ctx c).full = false)) ∧
  (∀ (s : State) (c : Nat), (s.ctx c).busy = true → (s.ctx c).cmd ≠ 1 → exec (.preempt c) s = .next s)

/-- R370, R371: WORKGROUP_SAVE of a workgroup that is taken and has nothing under way writes its record to the place it was given and takes it off the
device; the context's command is over; of one that is not taken it does nothing.
The layout of a record's header is the model's choice (log entry 46). -/
def Sys2Proof.Claim.WorkgroupSaves : Prop :=
  (∀ (s : State) (w : Wg) (c a : Nat), s.Alone w → s.g.ctx = c → s.g.saved = false → w.saving = true → w.saved = false → (s.ctx c).cmd = 3 → (s.ctx c).records = [(w.id, a)] → s.Flat a (s.recordSize w) →
    ∃ t, exec (.workgroupSave w.id) s = .next t ∧ t.wgs = [{ w with saving := false, saved := true }] ∧ t.g = { s.g with saved := true, inflight := [] }
      ∧ (t.ctx c).busy = false ∧ (t.ctx c).cmd = 0 ∧ (t.ctx c).saveUsed = (s.ctx c).saveNext
      ∧ t.memRead (a + 256) 8 = s.g.pc.toNat ∧ t.memRead (a + 256 + 8) 4 = s.g.gidx ∧ t.memRead (a + 256 + 0x0C) 4 = s.g.gslots
      ∧ (∀ i, i < 64 → t.memRead (a + 256 + 0x40 + 4 * i) 4 = (s.g.rawS i).toNat)
      ∧ (∀ i, i < 8 → t.memRead (a + 256 + 0x140 + 12 * i) 12 = (s.g.p.getD i 0).toNat)
      ∧ t.memRead (a + 256 + 0x1A0) 4 = s.g.gsr.toNat ∧ t.memRead (a + 256 + 0x1A4) 4 = s.g.fmt.toNat ∧ t.memRead (a + 256 + 0x1A8) 4 = s.g.sig.toNat
      ∧ t.memRead (a + 256 + 0x1AC) 4 = s.g.sw.toNat ∧ t.memRead (a + 256 + 0x1B0) 4 = s.g.mshape.toNat
      ∧ t.memRead (a + 256 + 0x1B4) 4 = s.g.mcloud.toNat
      ∧ s.Frame t a (s.recordSize w)) ∧
  (∀ (s : State) (id : Nat), (∀ w ∈ s.wgs, w.id ≠ id ∨ w.saving = false) → exec (.workgroupSave id) s = .next s)

/-- R372: RESUME with nothing saved is over at once; with one saved workgroup it is placed on a core, its group's pc and registers are those of its record, and, as every
record has then been read, BUSY clears; a block busy with another command does not take it. -/
def Sys2Proof.Claim.Resumptions : Prop :=
  (∀ (s : State) (c : Nat), (∀ w ∈ s.wgs, w.saved = false) → (s.ctx c).busy = false →
    ∃ t, exec (.resume c) s = .next t ∧ t.ctx c = { s.ctx c with busy := false, cmd := 0, stopped := false, records := [], restart := [] }
      ∧ (∀ d, d ≠ c → t.ctx d = s.ctx d) ∧ t.g = s.g ∧ t.mem = s.mem ∧ t.wgs = s.wgs) ∧
  (∀ (s : State) (w : Wg) (c a : Nat), s.Alone w → s.g.ctx = c → s.g.saved = true → w.saved = true → (s.ctx c).busy = false → (s.ctx c).records = [(w.id, a)] →
    s.mgmt.coreRet = [] → s.mgmt.minMode = false → s.cores = [] →
    ∃ t w', exec (.resume c) s = .next t ∧ t.wgs = [w'] ∧ w'.id = w.id ∧ w'.saved = false ∧ w'.core = 0 ∧ t.g.id = s.g.id ∧ t.g.core = 0
      ∧ t.g.quarter = s.g.gidx % 4 ∧ t.g.saved = false ∧ t.g.stopped = false ∧ t.g.wait = s.g.wait
      ∧ t.g.pc = BitVec.ofNat 64 (s.memRead (a + 256) 8)
      ∧ (∀ i, i < 64 → isMaskReg i = false → t.g.rawS i = BitVec.ofNat 32 (s.memRead (a + 256 + 0x40 + 4 * i) 4))
      ∧ (∀ k, k < 3 → maskWord t.g.mask k = BitVec.ofNat 32 (s.memRead (a + 256 + 0x120 + 4 * k) 4) &&& maskWord s.g.live k)
      ∧ (∀ i, i < 8 → t.g.p.getD i 0 = BitVec.ofNat 96 (s.memRead (a + 256 + 0x140 + 12 * i) 12) &&& s.g.present)
      ∧ t.g.gsr = BitVec.ofNat 32 (s.memRead (a + 256 + 0x1A0) 4) &&& 0x1F ∧ t.g.fmt = fmtWrite (BitVec.ofNat 32 (s.memRead (a + 256 + 0x1A4) 4))
      ∧ t.g.sig = BitVec.ofNat 32 (s.memRead (a + 256 + 0x1A8) 4) ∧ t.g.sw = BitVec.ofNat 32 (s.memRead (a + 256 + 0x1AC) 4)
      ∧ (t.ctx c).busy = false ∧ (t.ctx c).cmd = 0 ∧ (t.ctx c).stopped = false ∧ (t.ctx c).records = []) ∧
  (∀ (s : State) (c : Nat), (s.ctx c).busy = true → (s.ctx c).cmd ≠ 2 → (s.ctx c).cmd ≠ 4 → exec (.resume c) s = .next s)

/-! ### Errors in storage (R389, R392 to R396) -/

/-- R389, R392, R395, R396: LOG_CLEAR and ARM write their bank; SCRUBBER and FLIT_CRC_FAILURE log an error and count it; an error that nothing has found yet lies in
its bank; SELF_TEST repairs or retires; a marked core without work is retired.
That an error found may come at any time, what the scrubber event names, and that a self-test takes the oldest idle row is the model's choice (log entry 32), and so are
the word a latent error lies in (log entry 18) and the set of a disabled way (log entry 7). -/
def Obligations.StorageErrors : Prop :=
  (∀ (s : State) (i : Nat), ∃ t, exec (.logClear i) s = .next t ∧ t = { s with banks := t.banks } ∧ t.bank i = { s.bank i with v := false, ov := false }
    ∧ ∀ j, j ≠ i → t.bank j = s.bank j) ∧
  (∀ (s : State) (i : Nat) (v : BitVec 32), ∃ t, exec (.arm i v) s = .next t ∧ t = { s with banks := t.banks } ∧ (∀ j, j ≠ i → t.bank j = s.bank j)
    ∧ t.bank i = { s.bank i with ibit := ((v >>> 8) &&& 0xFF).toNat, ikind := ((v >>> 1) &&& 3).toNat, arm := v.getLsbD 0 }) ∧
  (∀ (s : State) (kind inst addr : Nat) (bad : Bool), s.mgmt.eqSize = 0 → kind ≤ 5 → inst < 2048 → let i := 2048 * kind + inst
    (s.bank i).v = false →
    ∃ t, exec (.scrubber i addr bad) s = .next t ∧ (t.bank i).v = true ∧ (t.bank i).ov = false ∧ (t.bank i).sev = (if bad then 1 else 0)
      ∧ (t.bank i).addr = BitVec.ofNat 64 addr ∧ (t.bank i).ctx = 0xFFF ∧ (t.bank i).inj = false ∧ (t.bank i).test = 1
      ∧ (∃ r ∈ (t.bank i).tests, r.row = BitVec.ofNat 64 addr)
      ∧ (t.bank i).ccnt = (if bad then (s.bank i).ccnt else satInc (s.bank i).ccnt)
      ∧ (t.bank i).ucnt = (if bad then satInc (s.bank i).ucnt else (s.bank i).ucnt) ∧ t.mem = s.mem
      ∧ (bad = false → t.groups = s.groups ∧ t.memPoison = s.memPoison)
      ∧ (bad = true → kind ≠ 0 → kind ≠ 2 → (kind = 1 → s.l1Find inst (lineOf addr) = none ∧ s.hazeLine? inst (lineOf addr) = none) → s.Flat (addr / 8 * 8) 8 →
          t.memPoisoned addr 1 = true)) ∧
  (∀ (s : State) (kind inst addr : Nat) (bad : Bool), inst < 2048 → let i := 2048 * kind + inst
    (kind ≤ 8 → ∃ t e, exec (.scrubber (if kind ≤ 5 then i + 2048 * 16 else i) addr bad) s = .next t ∧ t = { s with banks := t.banks, free := t.free }
      ∧ (t.bank i).latent = (s.bank i).latent ++ [e] ∧ e.inj = false ∧ (kind ≤ 5 → e.bad = bad ∧ e.word = addrWord i addr)
      ∧ (t.bank i).v = (s.bank i).v ∧ ∀ j, j ≠ i → t.bank j = s.bank j) ∧
    (kind = 11 → exec (.scrubber i addr bad) s = .next { s with tlb := s.tlb.eraseIdx addr }) ∧
    (kind = 12 → exec (.scrubber i addr bad) s = .next { s with walkCache := s.walkCache.eraseIdx addr })) ∧
  (∀ (s : State) (kind inst tries : Nat) (p : Pending) (rest : List Pending) (r : Nat) (m pz race : Mask) (xs : List Word) (uni : Bool), s.mgmt.eqSize = 0 →
    kind = 9 ∨ kind = 10 → inst < 2048 → let i := 2048 * kind + inst
    (s.bank i).v = false → s.g.pend = p :: rest → p.kind = .load → p.writes = [.vec r m xs pz uni race] →
    ∃ t, exec (.flitCrcFailure i (some s.g.id) tries) s = .next t ∧ (t.bank i).v = true ∧ (t.bank i).sev = 2 ∧ (t.bank i).syn = min tries 255 ∧ (t.bank i).ctx = s.g.ctx
      ∧ (t.bank i).arm = false ∧ (t.bank i).inj = (s.bank i).arm ∧ (t.bank i).ucnt = satInc (s.bank i).ucnt ∧ t.mem = s.mem ∧ t.others = s.others
      ∧ (16 ≤ tries → ∃ q, t.g = { s.g with pend := q :: rest } ∧ RegWrite.vec r m xs m uni race ∈ q.writes)
      ∧ (tries < 16 → t.g = s.g)) ∧
  (∀ (s : State) (i : Nat) (pass : Bool), (s.bank i).test ≠ 1 → exec (.selfTest i pass) s = .next s) ∧
  (∀ (s : State) (kind inst : Nat) (pass : Bool) (r : TestRow), kind = 6 ∨ kind = 8 → inst < 384 → let i := 2048 * kind + inst
    let b := s.bank i
    b.test = 1 → b.tests = [r] →
    (pass = true ∨ r.inj = true → ∃ t, exec (.selfTest i pass) s = .next t ∧ t.bank i = { b with tests := [], test := 2 } ∧ t.cores = s.cores ∧ t.mem = s.mem) ∧
    (pass = false → r.inj = false → b.spare ≠ 0 →
      ∃ t, exec (.selfTest i pass) s = .next t ∧ t.bank i = { b with tests := [], test := 3, spare := b.spare - 1 } ∧ t.cores = s.cores ∧ t.mem = s.mem) ∧
    (pass = false → r.inj = false → b.spare = 0 →
      ∃ t, exec (.selfTest i pass) s = .next t ∧ t.bank i = { b with tests := [], test := 4 } ∧ (t.core inst).retireMark = true ∧ t.mem = s.mem
        ∧ ∀ c, c ≠ inst → t.core c = s.core c)) ∧
  (∀ (s : State) (inst : Nat) (r : TestRow), s.memOk → inst < 384 → let i := 2048 * 3 + inst
    let b := s.bank i
    let line := lineOf r.row.toNat
    b.test = 1 → b.tests = [r] → r.inj = false → b.spare ≠ 0 → s.Flat line 64 →
      ∃ t, exec (.selfTest i false) s = .next t ∧ (t.bank i).test = 3 ∧ (t.bank i).tests = [] ∧ (∀ k ∈ t.slices, k.slice = inst → k.line ≠ line)
        ∧ t.ways = (i, l1Set line) :: s.ways ∧ (r.bad = false → t.mem = s.mem) ∧ s.Frame t line 64 ∧ t.groups = s.groups) ∧
  (∀ (s : State) (core : Nat), s.hazeNet = [] → s.hazeLines = [] →
    ((s.core core).retireMark = true → (∀ w ∈ s.wgs, w.core ≠ core) → ∃ t, exec (.coreRetire core) s = .next t ∧ core ∈ t.mgmt.coreRet
      ∧ (∀ c ∈ s.mgmt.coreRet, c ∈ t.mgmt.coreRet) ∧ (t.core core).retireMark = false ∧ t.g = s.g ∧ t.mem = s.mem) ∧
    ((s.core core).retireMark = false ∨ (∃ w ∈ s.wgs, w.core = core ∧ s.wgBusy w = true) → exec (.coreRetire core) s = .next s))

/-! ### The host, the pool, peers and links (R221, R401, R402, R404, R406, R407, R409 to R411) -/

/-- R221, R400 to R402, R404, R409: an access from outside to HBM in service reads, writes or adds at the home and leaves no copy of the lines it writes; snoops drop
copies; an access outside HBM, while the link is down, or from a peer that is not let in, does nothing.
What a snoop leaves of non-coherent copies is the model's reading, and that the event at an address of host memory or of the pool stands for a change made there, of which the
device's copies are gone, is its choice (log entry 51). -/
def Sys2Proof.Claim.OutsideAccesses : Prop :=
  (∀ e ∈ ([(.hostAccess, true), (.inboundRequest, false)] : List ((Nat → Nat → OutsideAct → Instr) × Bool)),
    ∀ (s : State) (pa n : Nat), s.memOk → s.Settled → pa + n ≤ s.hbmEnd →
      ((if e.2 then 31 ∉ s.down else s.mgmt.peerIn = true ∧ s.mgmt.minMode = false) →
        (∃ t, exec (e.1 pa n .read) s = .next t ∧ t.mem = s.mem ∧ t.groups = s.groups) ∧
        (∀ bs, bs.length = n → ∃ t, exec (e.1 pa n (.write bs)) s = .next t ∧ t.groups = s.groups
          ∧ (∀ i, i < n → Memory.get t.mem (pa + i) = bs.getD i 0) ∧ s.Frame t pa n
          ∧ (∀ k ∈ t.l1, k.haze = false → k.data = [] → ∀ i, i < n → k.line ≠ lineOf (pa + i))) ∧
        (∀ x cmp, n = 4 → pa % 4 = 0 → x < 2 ^ 32 → ∃ t, exec (e.1 pa n (.atomic 0 x cmp)) s = .next t ∧ t.groups = s.groups
          ∧ t.memRead pa 4 = (s.memRead pa 4 + x) % 2 ^ 32 ∧ s.Frame t pa 4)) ∧
      ((if e.2 then 31 ∈ s.down else s.mgmt.peerIn = false ∨ s.mgmt.minMode = true) → ∀ act, exec (e.1 pa n act) s = .next s)) ∧
  (∀ (s : State) (pa n : Nat) (act : OutsideAct), s.hbmEnd < pa + n →
    exec (.inboundRequest pa n act) s = .next s ∧ exec (.hostAccess pa n .read) s = .next s ∧
    (pa < hostKey 0 ∨ hostKey (2 ^ 46) < pa + n → s.poolOk pa = false → exec (.hostAccess pa n act) s = .next s)) ∧
  (∀ (s : State) (pa n : Nat) (bs : List Byte), s.memOk → s.Settled → s.hazeLines = [] → bs.length = n → s.hbmEnd < pa + n →
    (hostKey 0 ≤ pa ∧ pa + n ≤ hostKey (2 ^ 46)) ∨
      (pa + n ≤ hostKey 0 ∧ s.poolOk pa = true ∧ s.poolOk (pa + n - 1) = true ∧ s.Flat pa n) →
    ∃ t, exec (.hostAccess pa n (.write bs)) s = .next t ∧ t.groups = s.groups ∧ t.memBytes pa n = bs ∧ s.Frame t pa n
      ∧ ∀ k ∈ t.l1, k.haze = false → k.data = [] → ∀ i, i < n → k.line ≠ lineOf (pa + i)) ∧
  (∀ (s : State) (line : Nat), s.Settled → ∃ t, exec (.hostSnoop line) s = .next t ∧ t.mem = s.mem ∧ t.groups = s.groups
    ∧ (∀ k ∈ t.l1, k.line = lineOf line → k.data ≠ [] ∨ k.haze = true) ∧ (∀ k ∈ s.l1, k.line ≠ lineOf line → k ∈ t.l1) ∧ (∀ d ∈ t.dir, d.line ≠ lineOf line)
    ∧ (∀ l ∈ t.slices, l.line ≠ lineOf line) ∧ lineOf line ∉ t.agent) ∧
  (∀ (s : State) (line : Nat), s.Settled → (∀ k ∈ s.hazeLines, k.line ≠ lineOf line) → ∃ t, exec (.backInvalidate line) s = .next t ∧ t.mem = s.mem ∧ t.groups = s.groups
    ∧ (∀ k ∈ t.l1, k.haze = false → k.data = [] → k.line ≠ lineOf line) ∧ (∀ k ∈ s.l1, k.line ≠ lineOf line → k ∈ t.l1) ∧ (∀ d ∈ t.dir, d.line ≠ lineOf line)
    ∧ (∀ l ∈ t.slices, l.line ≠ lineOf line) ∧ (∀ e ∈ t.filter, e.2 ≠ lineOf line)) ∧
  (∀ (s : State) (grp : Nat), ∃ t, exec (.zeroLengthRead grp) s = .next t ∧ t = { s with zlr := t.zlr } ∧ grp ∉ t.zlr
    ∧ ∀ g ∈ s.zlr, g ≠ grp → g ∈ t.zlr)

/-- R406, R407, R410, R411: a link that goes down or comes up posts an event; a message for another device leaves by a port its tables name, a response at once, a
request when the receiver has a free buffer.
The layout of a header is the model's (DEDUCED, log entry 19). -/
def Sys2Proof.Claim.LinksAndHops : Prop :=
  (∀ (s : State) (port : Nat), s.mgmt.eqSize = 0 → port < 18 ∨ port = 31 →
    (port ∉ s.down → ∃ t, exec (.linkDown port) s = .next t ∧ port ∈ t.down ∧ (∀ p, p ∈ s.down → p ∈ t.down) ∧ t.mgmt.eqSeq = s.mgmt.eqSeq + 1 ∧ t.g = s.g ∧ t.mem = s.mem) ∧
    (port ∈ s.down → exec (.linkDown port) s = .next s) ∧
    (port ∉ s.down → exec (.linkUp port) s = .next s) ∧
    (port ∈ s.down → s.mgmt.minMode = false → s.heldRecs = [] → s.heldEvents = [] →
      ∃ t, exec (.linkUp port) s = .next t ∧ port ∉ t.down ∧ (∀ p, p ∈ s.down → p ≠ port → p ∈ t.down) ∧ t.mgmt.eqSeq = s.mgmt.eqSeq + 1 ∧ t.g = s.g ∧ t.mem = s.mem)) ∧
  (∀ (s : State) (port n : Nat), (18 ≤ port ∨ port ∈ s.down ∨ s.mgmt.minMode = true ∨ n % 2 ^ 20 = s.mgmt.myId) → exec (.hopForwarding port n) s = .next s) ∧
  (∀ (s : State) (port n p : Nat), port < 18 → port ∉ s.down → s.mgmt.minMode = false → n % 2 ^ 20 ≠ s.mgmt.myId → s.hopPort n = some p →
    (n.testBit 49 = true → ∃ t, exec (.hopForwarding port n) s = .next t ∧ t = { s with rykelOut := s.rykelOut ++ [(p, n)] }) ∧
    (n.testBit 49 = false → (∀ h ∈ s.hops, h.1 ≠ p) → p ∉ s.down →
      (0 < s.freeBufs p → ∃ t, exec (.hopForwarding port n) s = .next t ∧ t.rykelOut = s.rykelOut ++ [(p, n)] ∧ t.hops = s.hops
        ∧ t.freeBufs p + 1 = s.freeBufs p ∧ t.g = s.g) ∧
      (s.freeBufs p = 0 → ∃ t, exec (.hopForwarding port n) s = .next t ∧ t = { s with hops := s.hops ++ [(p, n)] }))) ∧
  (∀ (s : State) (port n : Nat), s.hopPort n = none → exec (.hopForwarding port n) s = .next s) ∧
  (∀ (s : State) (p n : Nat) (rest : List (Nat × Nat)), p < 18 → p ∉ s.down → s.hops = (p, n) :: rest → s.freeBufs p = 0 →
    ∃ t, exec (.freeBufferSignal p) s = .next t ∧ t.rykelOut = s.rykelOut ++ [(p, n)] ∧ t.hops = rest ∧ t.freeBufs p = 0 ∧ t.g = s.g) ∧
  (∀ (s : State) (p : Nat), p < 18 → (∀ h ∈ s.hops, h.1 ≠ p) → ∃ t, exec (.freeBufferSignal p) s = .next t ∧ t.freeBufs p = s.freeBufs p + 1
    ∧ t.hops = s.hops ∧ t.rykelOut = s.rykelOut ∧ t.g = s.g)

/-! ### Start, attestation, power (R417 to R425) -/

/-- R407, R417 to R421: RESET with an image the boot ROM accepts starts it on a device whose queues, groups and registers are those after reset and whose memory is kept; an
image it does not accept counts a try, and the third leaves the minimal firmware; BOOT_OK, CLR and POWER_LOSS clear what they clear.
What persists over a reset is the model's reading (DEDUCED, log entry 20); the empty memory after a loss of power is its choice (log entry 4). -/
def Sys2Proof.Claim.Starts : Prop :=
  (∀ (s : State), s.memOk → s.mgmt.fmin = false → s.mgmt.tries < 3 → s.imageFault = none → ∃ t, exec .reset s = .next t ∧ t.g = Group.blank ∧ t.others = []
    ∧ t.grids = [] ∧ t.wgs = [] ∧ t.mgmt.minMode = false ∧ t.mgmt.ok = false ∧ t.mgmt.tries = s.mgmt.tries ∧ t.mgmt.reason = s.mgmt.reason
    ∧ t.mgmt.bootCnt = s.mgmt.bootCnt + 1 ∧ t.mgmt.measurement = fixBytes 64 s.flash.digest ∧ t.flash = s.flash ∧ t.fuses = s.fuses
    ∧ t.tripped = false ∧ t.clock = 0 ∧ (∀ a, a < 2 ^ 52 ∨ 2 ^ 60 ≤ a → Memory.get t.mem a = Memory.get s.mem a)) ∧
  (∀ (s : State), s.mgmt.fmin = true ∨ 3 ≤ s.mgmt.tries → ∃ t, exec .reset s = .next t ∧ t.g = Group.blank ∧ t.mgmt.minMode = true ∧ t.mgmt.ok = false
    ∧ t.mgmt.bootCnt = s.mgmt.bootCnt + 1 ∧ t.down = List.range 18 ∧ t.mgmt.reason = if s.mgmt.fmin then 7 else s.mgmt.reason) ∧
  (∀ (s : State) (r : Nat), s.mgmt.fmin = false → s.mgmt.tries < 3 → s.imageFault = some r → ∃ t, exec .reset s = .next t ∧ t.g = Group.blank ∧ t.mgmt.minMode = true
    ∧ t.mgmt.tries = 3 ∧ t.mgmt.reason = r ∧ t.mgmt.bootCnt = s.mgmt.bootCnt + BitVec.ofNat 32 (4 - s.mgmt.tries)) ∧
  (∀ (s : State) (r : Nat), s.mgmt.fmin = false → s.imageFault = none → s.mgmt.tries < 2 →
    (s.mgmt.ok = false → 2 ^ 33 ≤ s.fabricClock → ∃ t, exec .bootWatchdog s = .next t ∧ t.g = Group.blank ∧ t.mgmt.tries = s.mgmt.tries + 1 ∧ t.mgmt.reason = 5
      ∧ t.mgmt.minMode = false) ∧
    (s.mgmt.ok = true ∨ s.fabricClock < 2 ^ 33 → exec .bootWatchdog s = .next s) ∧
    (s.mgmt.ok = false → r = 4 ∨ r = 6 → ∃ t, exec (.firmwareStartFailure r) s = .next t ∧ t.g = Group.blank ∧ t.mgmt.tries = s.mgmt.tries + 1 ∧ t.mgmt.reason = r
      ∧ t.mgmt.minMode = false) ∧
    (s.mgmt.ok = true ∨ (r ≠ 4 ∧ r ≠ 6) → exec (.firmwareStartFailure r) s = .next s)) ∧
  (∀ (s : State), exec .bootOk s = .next { s with mgmt := { s.mgmt with ok := true, tries := 0 } }) ∧
  (∀ (s : State), exec .clr s = .next { s with mgmt := { s.mgmt with tries := 0, reason := 0 } }) ∧
  (∀ (s : State), ∃ t, exec .powerLoss s = .next t ∧ t.g = Group.blank ∧ t.others = [] ∧ t.mgmt.tries = 0 ∧ t.mgmt.fmin = false ∧ t.mgmt.bootCnt = 0 ∧ t.flash = s.flash
    ∧ t.fuses = s.fuses ∧ ∀ a, a < 2 ^ 39 → Memory.get t.mem a = 0)

/-- R423 to R425: the report is written whole and BUSY clears; the clock falls by 50 while the power is over the cap, rises by 50 while it is at most 95 percent of it, between 1000 and
1900; a die at 105 degrees trips the device, which then does nothing until a reset.
That a measurement is a free value is the model's choice (log entry 50); Ed25519 is taken from outside the spec and the identity secret is opaque (log entry 35). -/
def Sys2Proof.Claim.PowerAndReports : Prop :=
  (∀ (s : State), s.mgmt.attBusy = true → ∃ t, exec .attestationReport s = .next t ∧ s.OnlyMgmt t ∧ t.mgmt.attBusy = false ∧ t.mgmt.attReport.length = 208
    ∧ t.mgmt.attReport.take 32 = fixBytes 32 (identityKey s.mgmt.measurement) ∧ (t.mgmt.attReport.drop 32).take 64 = fixBytes 64 s.mgmt.measurement
    ∧ (t.mgmt.attReport.drop 0x60).take 32 = fixBytes 32 s.mgmt.attNonce
    ∧ t.mgmt.attReport.drop 0x90 = fixBytes 64 (identitySign s.mgmt.measurement (t.mgmt.attReport.take 0x90))) ∧
  (∀ (s : State), s.mgmt.attBusy = false → exec .attestationReport s = .next s) ∧
  (∀ (s : State), ∃ t, exec .clockStep s = .next t ∧ t = { s with mgmt := t.mgmt, free := t.free } ∧ t.mgmt.pwrCap = s.mgmt.pwrCap ∧ t.mgmt.temp0 < 105 ∧ t.mgmt.temp1 < 105
    ∧ (s.mgmt.pwrCap < t.mgmt.pwrNow → t.mgmt.clkNow = max 1000 (s.mgmt.clkNow - 50))
    ∧ (t.mgmt.pwrNow ≤ s.mgmt.pwrCap → t.mgmt.pwrNow * 100 ≤ s.mgmt.pwrCap * 95 → t.mgmt.clkNow = min 1900 (s.mgmt.clkNow + 50))
    ∧ (t.mgmt.pwrNow ≤ s.mgmt.pwrCap → s.mgmt.pwrCap * 95 < t.mgmt.pwrNow * 100 → t.mgmt.clkNow = s.mgmt.clkNow)) ∧
  (∀ (s : State) (die temp : Nat), die < 2 → temp < 256 → s.tripped = false → s.mgmt.eqSize = 0 →
    ∃ t, exec (.thermalTrip die temp) s = .next t ∧ t.tripped = decide (105 ≤ temp) ∧ (if die = 0 then t.mgmt.temp0 else t.mgmt.temp1) = temp ∧ t.g = s.g ∧ t.mem = s.mem) ∧
  (∀ (s : State), s.tripped = true → s.agenda = [] → step s = .fault .tripped)

/-! ### Encodings (R17 to R54) -/

/-- R17 to R54: the halfwords of every well-formed instruction, whatever follows them, decode to that instruction and are as many as the decoder
consumes. -/
def Sys2Proof.Claim.EncodeRoundTrip : Prop :=
  ∀ (i : Instr) (rest : List Nat), i.wf = true → i.isEncoded = true → decodeUnit (encode i ++ rest) = .ok (i, (encode i).length)

/-- R17, R28: the units of two different instructions are different, and neither begins the other: a list of halfwords is one unit in one way only. -/
def Sys2Proof.Claim.UnitsUnambiguous : Prop :=
  ∀ (i j : Instr) (r q : List Nat), i.wf = true → j.wf = true → i.isEncoded = true → j.isEncoded = true → encode i ++ r = encode j ++ q → i = j ∧ r = q

/-- R18 to R24, R29 to R37, R43, R44: words written out from the encoding tables decode to the instructions they stand for, one or more of every family; a unit with
prefixes, as R32, R34 and R37 write it out, decodes with them; a reserved major, a function code without an instruction and an odd pair are refused at the step R43 names. -/
def Obligations.DecodedWords : Prop :=
  (∀ e ∈ ([
    (16, 0xB6C2, .vaddI3216 ⟨22, 13, 1⟩),
    (32, 0x3AB7680B, .ssub ⟨45, 27, 53, 5⟩),
    (32, 0x21B600EB, .ssetr ⟨3, 27, 5⟩),
    (32, 0x02CED11B, .bscc ⟨11501, 5⟩),
    (32, 0x59DA698B, .vif ⟨11501, 1, 5, 5⟩),
    (32, 0xB5F7797B, .sigchk ⟨22, 48879, 5⟩),
    (32, 0xAF56D1B5, .wait ⟨5, 3, 6, 43, 26, 2⟩),
    (32, 0x7AB76B8B, .vfmaF32 ⟨45, 27, 53, none, 5⟩),
    (32, 0x09376D0B, .vunpk ⟨45, 27, 2, 2, none, 5⟩),
    (32, 0x29B76D4B, .vcvt ⟨45, 27, 1, 2, 3, none, 5⟩),
    (32, 0x03062D8B, .pand ⟨5, 3, 6, 5⟩),
    (32, 0xBAB565CB, .vld ⟨5, 44, 26, 53, none, none, 5⟩),
    (32, 0x7AB5662B, .sst ⟨3, 44, 26, 53, none, 5⟩),
    (32, 0x5AB56E9B, .vatom2Xor ⟨45, 26, 53, none, none, 5⟩),
    (32, 0x2000163B, .fence ⟨1, 2, 5⟩),
    (32, 0x1AB56E5B, .llock ⟨45, 26, 53, 5⟩),
    (32, 0x1AB56E7B, .haddF32 ⟨45, 26, 53, none, none, 5⟩),
    (32, 0x3A3566CB, .cpy2 ⟨44, 26, 52, 5⟩),
    (32, 0x1AB406EB, .swset ⟨26, 53, 5⟩),
    (32, 0x1AB76F3B, .mmatT ⟨45, 27, 53, 5⟩),
    (32, 0x676D2F8B, .tchoice ⟨3309, 165, 5⟩),
    (32, 0x203767CB, .spawn ⟨44, 27, 5⟩),
    (32, 0x00016FEB, .trap ⟨45, 5⟩),
    (32, 0xDAB56FEB, .tlbinv ⟨45, 26, 53, 5⟩)] : List (Nat × Nat × Instr)), decodeTableWord e.1 e.2.1 = some e.2.2) ∧
  decodeUnit [0x19C1, 0x1114, 0x2381, 0x0102] = .ok (.vaddF32 ⟨4, 1, 2, some ⟨0x083, 0x111⟩, 0⟩, 4) ∧
  decodeUnit [0x29D7, 0x091A, 0x42D1, 0x3C00] = .ok (.vli ⟨8, 120, some 0x091A2B, none, 0⟩, 4) ∧
  decodeUnit [0x81E1, 0x07F5, 0x1DC1, 0x8388] = .ok (.vld ⟨4, 3, 4, 7, none, some ⟨0, 127, 1, 3, 0, 0⟩, 0⟩, 4) ∧
  decodeUnit [0x01F1, 0x0000] = .error (.illegal 3) ∧ decodeUnit [0x0031, 0xE000] = .error (.illegal 4) ∧
  decodeUnit [0x1B91, 0x0082] = .error (.illegal 5)

/-! ### The step (R43, R65, R103, R419, R425) -/

namespace Sys2Proof.Machine

/-- The group at hand can issue, and its next 16 bytes of code lie at k in the HBM in service, in one page of 64 KiB, under a TLB whose entries
lie on such pages. -/
structure State.CodeAt (s : State) (k : Nat) : Prop where
  key : s.fetchKey = some k
  hbm : k + 16 ≤ s.hbmEnd
  below : s.g.pc.toNat + 16 ≤ 2 ^ 57
  page : s.g.pc.toNat % 65536 + 16 ≤ 65536
  pages : ∀ t ∈ s.tlb, t.va % 65536 = 0 ∧ t.size % 65536 = 0
  clean : s.memPoison = []
  sound : s.banks = []

end Sys2Proof.Machine

/-- R43, R103: a step whose turn is the group at hand, and whose pc stands on the halfwords of a well-formed instruction in device memory, runs exactly that
instruction: exec of it, with %sig kept for a unit that traps and its halfwords folded in unless it is SIGCHK.
That a turn names the group that issues is the model's choice (log entry 21). -/
def Sys2Proof.Claim.StepRunsDecoded : Prop :=
  (∀ (s : State) (i : Instr) (k : Nat), s.agenda = [] → s.tripped = false → s.turns = [s.g.id] → s.CodeAt k →
    i.wf = true → i.isEncoded = true → Memory.read s.mem k (2 * (encode i).length) = (encode i).flatMap (leBytes 2) →
    let g := { s.g with sigLatch := s.g.sig, wait := .ready, replay := false }
    step s = exec i { s with turns := [], g := if folds i then { g with sig := foldSig s.g.sig (encode i) } else g }) ∧
  (∀ (s : State) (i : Instr) (k : Nat), s.agenda = [] → s.tripped = false → s.turns = [] → s.pick = some s.g.id → s.CodeAt k →
    i.wf = true → i.isEncoded = true → Memory.read s.mem k (2 * (encode i).length) = (encode i).flatMap (leBytes 2) →
    let g := { s.g with sigLatch := s.g.sig, wait := .ready, replay := false }
    step s = exec i { s with g := if folds i then { g with sig := foldSig s.g.sig (encode i) } else g })

/-- R43: a unit in device memory that does not decode traps with cause 1 and the step that fails, before anything of it happens. -/
def Sys2Proof.Claim.StepRefusesUndecodable : Prop :=
  ∀ (s : State) (k : Nat) (hs : List Nat) (e : Nat), s.agenda = [] → s.tripped = false → s.turns = [s.g.id] → s.CodeAt k →
    hs.length = 8 → (∀ h ∈ hs, h < 65536) → Memory.read s.mem k 16 = hs.flatMap (leBytes 2) → decodeUnit hs = .error (.illegal e) →
    step s = .next (({ s with turns := [], g := { s.g with sigLatch := s.g.sig, wait := .ready, replay := false } } : State).decodeTrap 1 e 0)

/-- R65: an event that is due comes first; a state that can issue nothing lets the device work and the clock pass; after reset, with nothing placed, nothing but
the clock changes.
That events, turns and the device's own work come in this order is the model's choice (log entry 21). -/
def Obligations.EventsAndClock : Prop :=
  (∀ (s : State) (e : Instr) (r : List Instr), s.agenda = e :: r → s.tripped = false → step s = exec e { s with agenda := r }) ∧
  (∀ (s : State), s.agenda = [] → s.turns = [] → s.tripped = false → s.issuable = [] → step s = .next s.internal.tick) ∧
  (∀ (n : Nat), n < 8000000000 → step { State.reset with clock := n } = .next { State.reset with clock := n + 1 })

/-- R64, R68, R249, R368, R392, R406, R420, R424, R425: the state after reset: nothing runs, and the registers whose reset values the spec gives have them.
That memory is empty (DESIGN CHOICE, log entry 4) and PEERIN 0 (log entry 5) is the model's choice. -/
def Sys2Proof.Claim.ResetState : Prop :=
  State.reset.groups.all (fun g => g.wait == .ended) = true ∧ State.reset.grids = [] ∧ State.reset.wgs = [] ∧ State.reset.mem = []
  ∧ (∀ q, (State.reset.lq q).en = false ∧ (State.reset.lq q).size = 0)
  ∧ (∀ c, (State.reset.core c).sqctl = 0x1040 ∧ (State.reset.core c).lim = 8 ∧ (State.reset.core c).fragstall = 0)
  ∧ (∀ c, (State.reset.ctx c).trapVec = 0 ∧ (State.reset.ctx c).busy = false ∧ (State.reset.ctx c).priv = false)
  ∧ State.reset.mgmt.pqSize = 0 ∧ State.reset.mgmt.dlSize = 0 ∧ State.reset.mgmt.eqSize = 0 ∧ State.reset.mgmt.ok = false
  ∧ State.reset.mgmt.peerIn = false ∧ State.reset.mgmt.pwrCap = 2400 ∧ State.reset.mgmt.clkNow = 1900

/-- The invariant of the two statements after it holds after reset. -/
def Sys2Proof.Claim.ResetSound : Prop := State.reset.Sound

/-- Every step keeps memory in its canonical form, whatever runs and whatever event is due: equal memories stay equal data.
The form is the model's choice (DESIGN CHOICE, log entry 4). -/
def Obligations.StepKeepsMemory : Prop := ∀ s t : State, s.memOk → Steps s t → t.memOk

/-- R12, R142: every step keeps every group with 64 vector, 64 scalar and 8 predicate registers and 96 random states, and under a number of its own. -/
def Obligations.StepKeepsGroups : Prop := ∀ s t : State, s.Sound → Steps s t → t.Sound

/-- R417, R418: the fuses, and the image in the flash, are changed by no step: no instruction, no event and no reset writes them.
That a reset, and every event that stands for the outside, keeps them is the model's reading (DEDUCED, log entry 20). -/
def Obligations.StepKeepsFuses : Prop := ∀ s t : State, Steps s t → t.fuses = s.fuses ∧ t.flash = s.flash

/-! ### Statements of several parts -/

/-- R77, R79, R381: every scalar form of two registers, and every unary one, writes its result to d and nothing else; a poisoned
operand marks the result and sets REG of %ckint, unless d is e0, e1 or e2. That a marked word keeps its bits and the result is
computed on them is the model's reading (DEDUCED, log entry 26). R77, R79: SSEL takes a where SCC is 1 and b where it is 0; SBFI
inserts the field of a that b describes into d. R80: SRDLANE reads the lane that b names (0 for an absent or impossible lane),
SFIRST the lowest active lane with SCC, and SWRLANE writes one live lane of a register that has room. -/
def Obligations.ScalarRegisterForms : Prop := Claim.ScalarRegisterForms ∧ Claim.ScalarSelectAndInsert ∧ Claim.ScalarLaneCrossings

/-- R77, R33: the immediate forms and SLI; the immediate is the sign-extended field, or with a LIMM the 32 bits of both. That a marked
word keeps its bits and the result is computed on them is the model's reading (DEDUCED, log entry 26). R77: SADDC and SSUBB: the
sum with the carry in SCC, the difference with the borrow, and the new SCC. That a marked operand counts with its bits, in the
result and in SCC, is the model's reading (DEDUCED, log entry 26). R77, R78, R381: the compares set SCC and nothing else; a
poisoned operand is consumed. -/
def Obligations.ScalarImmediateCarryAndCompare : Prop := Claim.ScalarImmediateForms ∧ Claim.ScalarCarryForms ∧ Claim.ScalarCompareForms

/-- R74, R76: SGETR writes the word of the register it names to d; a read of %cyc, the clocks of the group's own core, latches the
high half that %cych then gives; %rpc goes to the pair at d. R75, R76: SSETR writes the RW bits of the register it names, clears
the W1C bits of %ckint where a holds a 1, and leaves the RO bits, PRIV among them, and every other register alone. That %sig keeps
all 32 bits written is the model's reading (DEDUCED, log entry 25). R53, R76: without privilege an SSETR of %fragstall or %sqctl
raises the protection trap at its turn, whatever its operand, its pipe and the checking scoreboard, and nothing is written. -/
def Obligations.SpecialRegisters : Prop := Claim.SpecialRegisterReads ∧ Claim.SpecialRegisterWrites ∧ Claim.SpecialRegisterPrivilege

/-- R82, R83: the branches: the target is the unit's own address and twice the offset; a branch not taken passes. R89, R90: JTAB
through a well-formed table whose header and entries can be fetched, at an LPAD of the table's label, goes to the target of entry
i, or to the default target where the index lies past the table; a misaligned table, a malformed header (log entry 12) and a
target without that label trap, and a poisoned index is consumed; LPAD itself does nothing. -/
def Obligations.BranchesAndTables : Prop := Claim.Branches ∧ Claim.JumpTables

/-- R84, R85: CALL pushes the address behind it and the reconvergence depth, the oldest of 16 entries on chip going to the control
area, and goes to its target; with 64 entries it raises the control-structure trap of subcause 7. R84, R85, R106: RET goes to the
address of the newest entry and removes it; the entry's depth must be the reconvergence depth (subcause 6); with an empty stack it
acts as EXIT. R93, R100: EXIT ends the active lanes: their bits leave the mask and every reconvergence entry on chip, and while a
present lane remains the group goes on behind it; when none remains the group has ended. An all-zero mask ends nothing. -/
def Obligations.CallsReturnsExits : Prop := Claim.Calls ∧ Claim.Returns ∧ Claim.Exits

/-- R91, R96: VIF pushes an IF entry of the mask, the lanes that leave and %fmt; the mask keeps the lanes of the predicate and is
ready after 4 clocks, and an empty mask jumps. The ninth entry moves the oldest to the control area; beyond 31 it traps. R94 to
R96: VELSE hands the mask to the lanes the IF entry kept and restores %fmt; VEND restores the outer mask and %fmt and removes the
entry, and with the last one on chip refills the newest of the control area. A newest entry that is none of the kind raises
subcause 4, a mask outside the entry's subcause 3. That these masks and %fmt are ready after two clocks is the model's reading
(DEDUCED, log entry 24). -/
def Obligations.Conditionals : Prop := Claim.IfBegins ∧ Claim.IfElseEnds

/-- R97: VLOOP pushes a LOOP entry; VBRK takes lanes out of the innermost loop and every IF entry above it, VCONT parks them in the
LOOP entry; VENDL goes back with the lanes that go on, or restores the loop's mask and %fmt and removes the entry. That these
masks and %fmt are ready after two clocks is the model's reading (DEDUCED, log entry 24). R94, R106: with no entry on the stack,
or none of its kind, VELSE, VEND and VENDL raise the control-structure trap of subcause 4, and so do VBRK and VCONT outside every
loop. -/
def Obligations.LoopsAndErrors : Prop := Claim.Loops ∧ Claim.UnmatchedDivergence

/-- R72, R99: NOP passes; WAIT passes when every counter is at or below its threshold and otherwise leaves the group waiting at it,
its pc unmoved; a WAIT that passes covers every matrix unit but as many as its threshold on MXCNT (R194); SLEEP passes and leaves
the group not ready for the clocks its scalar names; YIELD passes and gives the group's active place to the oldest ready pending
group of its quarter, if there is one, waiting first for a swap the quarter has already started in this clock (log entry 52). That
SLEEP's clocks count from its issue on is the model's choice (log entry 59). R71: a group whose LDCNT or STCNT stands at its
maximum does not issue another load or store: the unit waits, its pc unmoved, and goes on once the counter is below the maximum. -/
def Obligations.WaitsPausesAndCounters : Prop := Claim.WaitsAndPauses ∧ Claim.CountersHold

/-- R101: ELECT leaves in a predicate the lowest active lane alone, and in SCC whether there is one. R102, R262: a group that arrives
at BAR, CBAR or ELECTW while another group of its workgroup has not arrived waits there, its pc behind the instruction. R102,
R262: the last group of a workgroup that arrives passes at once, and with it every group that waited: no earlier than four core
clocks later. ELECTW elects the lowest active lane of the lowest-numbered group that has one. -/
def Obligations.Rendezvous : Prop := Claim.Elects ∧ Claim.RendezvousWaits ∧ Claim.RendezvousPasses

/-- R104: SIGCHK passes and starts %sig afresh when %sig and the reconvergence depth are those it names; otherwise it raises the
control-structure trap of subcause 1 or 2. R103: every unit's halfwords, low byte first, are folded into a CRC-16 of polynomial
0x1021: a byte is added to the upper half, and eight times the sum is shifted left by one, with 0x1021 added when bit 15 was set. -/
def Obligations.SignatureChecks : Prop := Claim.Signatures ∧ Claim.SignatureFold

/-- R124, R125: the forms with an immediate and with a scalar. R20, R122, R124, R125: moves: VLI, VMOVS and VLANEID, and VMOV, which
writes nothing when it names one register twice without a route. -/
def Obligations.LaneImmediateScalarAndMoveForms : Prop := Claim.LaneImmediateAndScalarForms ∧ Claim.LaneMoves

/-- R19, R130 to R135, R137, R138: float arithmetic under the rounding mode and FTZ of %fmt. R139, R141: the special functions: class
and latency of their own; the approximate ones ignore %fmt. Which of the values R139 lets them take they give is free (DESIGN
CHOICE, log entry 6). -/
def Obligations.LaneFloatAndSpecialFunctions : Prop := Claim.LaneFloatForms ∧ Claim.LaneSpecialFunctions

/-- R55: under an all-zero mask a vector instruction (of the vector and special-function classes, and VLD, VST and VLD.NR) takes its
slot and has no other effect. R121, R380, R381: a poisoned operand word of an active lane marks that lane's result and sets REG of
%ckint in the integer forms, gives MakeNaN(5) in the F32 sums, and is consumed by a compare, which reaches the group as an error
of reach 0. -/
def Obligations.ZeroMaskAndPoison : Prop := Claim.ZeroMask ∧ Claim.LanePoison

/-- R114, R115: the shape a routed source presents and the clocks it adds. R59, R60, R122: a full write takes the shape of the result:
uniform from uniform operands, affine by the rows of R122, else general, in the slot the register had or the lowest free one. That
the addition, multiplication and shift forms of operands that are all uniform give a uniform result is the model's reading
(DEDUCED, log entry 64). R59, R60: a write that is not full, or whose result is general, needs a general slot: where d has none
and none is free the unit raises the shape-overflow trap, whose detail is d, and writes nothing. -/
def Obligations.Shapes : Prop := Claim.RoutedShapes ∧ Claim.ResultShapes ∧ Claim.ShapeOverflow

/-- R116, R127, R136: the compares write the bits of active lanes of a predicate by their condition. R128: VSEL takes a in the lanes
of the predicate and b in the others. -/
def Obligations.LaneComparesAndSelect : Prop := Claim.LaneCompares ∧ Claim.LaneSelect

/-- R129: 64-bit arithmetic on pairs, and the widening products. R142, R143: VRAND writes the new w of every active lane and advances
its state; VSEED seeds it; other lanes keep theirs. That a poisoned word seeds by its bits is the model's choice (DESIGN CHOICE,
log entry 26). -/
def Obligations.LanePairsAndRandom : Prop := Claim.LanePairForms ∧ Claim.LaneRandom

/-- R169, R171, R172: VLD, VLDI and VLD.LINE. That memory is read at issue is the model's choice (log entry 15); so is the shape a
load gives (log entry 53). R173: VLD.NR reports in p7 the active lanes whose page is not resident and loads the others. -/
def Obligations.VectorLoads : Prop := Claim.VectorLoads ∧ Claim.LoadNonResident

/-- R176: SLD and SST, whose one access is that of lane slot 0. That memory is read and written at issue is the model's choice (log
entry 15). R169, R170: an access whose address is no multiple of its size raises the alignment trap, with the lowest such lane and
its address (lane 127 for a scalar unit, log entry 13), and nothing is loaded or stored. -/
def Obligations.ScalarAccessAndAlignment : Prop := Claim.ScalarLoadStore ∧ Claim.MisalignedAccess

/-- R177, R178, R217, R218: PAGEREQ over resident pages resolves at once, VPREF changes no register and no byte; TLBINV drops the
context's entries that map the range, once no LAUNCH has its packet there to be read; HARVEST answers how many leaves of it have a
set write record, whose record it clears and whose DTY it sets; both in privileged mode only. That a prefetch is performed is the
model's choice (log entry 39). R166, R179: CINV, CWB and CFLUSH over a range whose lines translate: each passes and is counted by
STCNT; CINV and CFLUSH leave the core's L1 without the lines, CWB and CFLUSH write the core's own bytes of a line of host
non-coherent memory to it. That the lines are acted on at issue is the model's choice (log entry 15). R191, R194: FENCE at GRP
scope passes; at a wider scope it waits, its pc unmoved, while a load of its group is outstanding, and as a release also while a
store is; FENCE.OPR waits for stores and vector results; with nothing of that outstanding they pass. What is outstanding at a
fence is the model's choice (log entry 15). -/
def Obligations.PagesCachesAndFences : Prop := Claim.PageInstructions ∧ Claim.CacheInstructions ∧ Claim.Fences

/-- R211, R237, R239, R242, R243, R339: LUNLOCK by the holder gives the line up, waiting until that is resolved; by anyone else it is
refused (6). A message behind an earlier one of its core to its home, or behind term jobs, is not served yet. RELEASE frees a line
without waiters, or hands it on; LOCK_HANDOVER makes the first waiter the holder with status 0, or 1 after an abandoned holder.
LQUERY reads holder and waiters; LBREAK takes a held line from its holder as if abandoned, behind the holder's queued term jobs,
in privileged mode only. R240, R245: LOCK_TIMEOUT withdraws a group whose time is over: status 3, or 4 when the walk from its line
comes back to it, which a deadlock record in HBM reports (or DLDROP counts while the queue is disabled). That DLTAIL and DLHEAD
run free modulo 2^32 is the model's choice (log entry 68). -/
def Obligations.LockReleaseAndTimeouts : Prop := Claim.LockRelease ∧ Claim.LockTimeouts

/-- R298, R300: every engine command whose checks pass latches its parameters, counts on ENCNT and waits for its engine, and the group
goes on; COMMAND_ACCEPT lets ENCNT fall. A %sw that is no multiple of 8 raises the alignment trap, one outside the reservation the
protection trap, and a counter at 7 holds the command back. The order of the checks within one number of R298 is the model's
reading (DEDUCED, log entry 36). R295, R299, R301: ARRIVAL of an accepted CPY between two ranges of scratch that do not meet:
every byte of the destination is the source's, no other byte has changed but the sync word, to which the command's bytes arrive;
the command leaves the engine. That the accesses are performed together at the arrival is the model's choice (log entry 15). -/
def Obligations.EngineCommands : Prop := Claim.EngineCommands ∧ Claim.CopyArrives

/-- R43, R365, R366: TRAP, BKPT, ILLEGAL_INSTRUCTION and an ERET outside a handler take their traps; BKPT without a handler goes on.
R365: ERET of a group in its handler restores pc, mask, %gsr but for PRIV, %fmt, %sig and s60 to s63 from the frame and leaves the
handler; with a stack depth that has changed since the entry it kills the group. -/
def Obligations.TrapInstructionsAndReturn : Prop := Claim.TrapInstructions ∧ Claim.TrapReturns

/-- R202, R203, R213: a walk by a core that finds a resident unclaimed leaf claims the page and fills both TLBs; one that finds a
private page of another core shares it; one without a leaf fills nothing. The owner of a page serves a share request, and the
acknowledgement makes the page Shared. That a leaf that is not resident fills nothing is the model's reading (DEDUCED, log entry
9). R205, R206, R208, R209, R211, R219, R407: the home grants a miss, or invalidates the other sharers first, its own cluster's
cores and the proxies of the others; a core drops its copy and acknowledges; a proxy invalidates its cores, and answers when they
have; the last acknowledgement grants; a line written back leaves its L1 with its dirty bytes in memory, and a dirty coherent one
clears its bit; while the host link is down the dirty bytes of a line of host memory are dropped, which sets HST. A message behind
its like waits. That memory holds the one value of a coherent byte is the model's reading (DEDUCED, log entry 56). -/
def Obligations.WalksSharesAndDirectory : Prop := Claim.WalksAndShares ∧ Claim.DirectoryEvents

/-- R216, R367: PQCOMP resolves the written request of its number: who waits for the page replays, or is refused; of a number without
request it does nothing. PQSIZE takes 0 and the legal sizes only; PQHEAD is stored. That a number without a record is ignored is
the model's reading (DEDUCED, log entry 48). R249, R407: a host queue's tail moves forward by at most its size while EN is 1, and
back to at least its head while EN is 0; its size changes only while EN is 0 and only to a legal one; no other queue changes. R4,
R245, R368, R406, R409, R423, R424: DLSIZE, EQSIZE, EQHEAD, GNUM, a peer window, PWRCAP and ATTCMD take what their rules let them
take and change nothing else; REGISTER_WRITE of a word writes its register, as TRAPVEC shows. That one off its alignment or past
the space does nothing is the model's choice (DESIGN CHOICE, log entry 10). -/
def Obligations.ManagementRegisters : Prop := Claim.PageRequestRegisters ∧ Claim.QueueRegisters ∧ Claim.SingleRegisters

/-- R369: PREEMPT of a context: a workgroup outside a workgroup-scope region is taken when its record fits the save area and left
running with FULL set when it does not; one inside is discarded; with nothing resident it is over at once; a block busy with
another command does not take it. The order of the saves is the model's reading (DEDUCED, log entry 47), and that a save area
beyond HBM has no room its choice (log entry 62). R370, R371: WORKGROUP_SAVE of a workgroup that is taken and has nothing under
way writes its record to the place it was given and takes it off the device; the context's command is over; of one that is not
taken it does nothing. The layout of a record's header is the model's choice (log entry 46). R372: RESUME with nothing saved is
over at once; with one saved workgroup it is placed on a core, its group's pc and registers are those of its record, and, as every
record has then been read, BUSY clears; a block busy with another command does not take it. -/
def Obligations.PreemptionAndResumption : Prop := Claim.Preemptions ∧ Claim.WorkgroupSaves ∧ Claim.Resumptions

/-- R221, R400 to R402, R404, R409: an access from outside to HBM in service reads, writes or adds at the home and leaves no copy of
the lines it writes; snoops drop copies; an access outside HBM, while the link is down, or from a peer that is not let in, does
nothing. What a snoop leaves of non-coherent copies is the model's reading, and that the event at an address of host memory or of
the pool stands for a change made there, of which the device's copies are gone, is its choice (log entry 51). R406, R407, R410,
R411: a link that goes down or comes up posts an event; a message for another device leaves by a port its tables name, a response
at once, a request when the receiver has a free buffer. The layout of a header is the model's (DEDUCED, log entry 19). -/
def Obligations.OutsideAccessesAndLinks : Prop := Claim.OutsideAccesses ∧ Claim.LinksAndHops

/-- R407, R417 to R421: RESET with an image the boot ROM accepts starts it on a device whose queues, groups and registers are those
after reset and whose memory is kept; an image it does not accept counts a try, and the third leaves the minimal firmware;
BOOT_OK, CLR and POWER_LOSS clear what they clear. What persists over a reset is the model's reading (DEDUCED, log entry 20); the
empty memory after a loss of power is its choice (log entry 4). R423 to R425: the report is written whole and BUSY clears; the
clock falls by 50 while the power is over the cap, rises by 50 while it is at most 95 percent of it, between 1000 and 1900; a die
at 105 degrees trips the device, which then does nothing until a reset. That a measurement is a free value is the model's choice
(log entry 50); Ed25519 is taken from outside the spec and the identity secret is opaque (log entry 35). -/
def Obligations.StartsPowerAndReports : Prop := Claim.Starts ∧ Claim.PowerAndReports

/-- R17 to R54: the halfwords of every well-formed instruction, whatever follows them, decode to that instruction and are as many as
the decoder consumes. R17, R28: the units of two different instructions are different, and neither begins the other: a list of
halfwords is one unit in one way only. -/
def Obligations.EncodeRoundTrip : Prop := Claim.EncodeRoundTrip ∧ Claim.UnitsUnambiguous

/-- R43, R103: a step whose turn is the group at hand, and whose pc stands on the halfwords of a well-formed instruction in device
memory, runs exactly that instruction: exec of it, with %sig kept for a unit that traps and its halfwords folded in unless it is
SIGCHK. That a turn names the group that issues is the model's choice (log entry 21). R43: a unit in device memory that does not
decode traps with cause 1 and the step that fails, before anything of it happens. -/
def Obligations.StepRunsDecoded : Prop := Claim.StepRunsDecoded ∧ Claim.StepRefusesUndecodable

/-- R64, R68, R249, R368, R392, R406, R420, R424, R425: the state after reset: nothing runs, and the registers whose reset values the
spec gives have them. That memory is empty (DESIGN CHOICE, log entry 4) and PEERIN 0 (log entry 5) is the model's choice. The
invariant of the two statements after it holds after reset. -/
def Obligations.ResetState : Prop := Claim.ResetState ∧ Claim.ResetSound

end
end

