-- ==== Sys2Proof/Laws/Crypto.lean ====
section
/-! SUPPORT. The neutral point of Ed25519: sums and multiples of it, and the signature it makes. -/

namespace Sys2Proof.Machine

/-- A form of the neutral point. -/
def EdPoint.Neutral (p : EdPoint) : Prop := p.x = 0 ∧ p.t = 0 ∧ p.z = p.y

theorem edSub_zero (a : Nat) : edSub a 0 = a % edPrime := by simp [edSub]
theorem edAdd_neutral (p q : EdPoint) (hp : p.Neutral) (hq : q.Neutral) : (edAdd p q).Neutral := by
  obtain ⟨a, b, c⟩ := hp
  obtain ⟨d, e, f⟩ := hq
  have m : p.y % edPrime * (q.y % edPrime) % edPrime = p.y * q.y % edPrime := (Nat.mul_mod _ _ _).symm
  have z : ∀ n, edSub (n % edPrime) (n % edPrime) = 0 := fun n => by
    have h : n % edPrime < edPrime := Nat.mod_lt _ (by decide)
    unfold edSub
    rw [Nat.add_sub_cancel' (Nat.le_of_lt h), Nat.mod_self]
  have t : ∀ n, (n % edPrime + n % edPrime) % edPrime = 2 * n % edPrime := fun n => by rw [← Nat.add_mod, Nat.two_mul]
  refine ⟨?_, ?_, ?_⟩ <;> simp only [edAdd, a, b, c, d, e, f, Nat.add_zero, m, z, Nat.zero_mul, Nat.mul_zero, Nat.zero_mod, edSub_zero, t]
  rw [Nat.mod_mod, Nat.mul_comm p.y 2, Nat.mul_assoc]
theorem edMul_fold (f : Nat → Bool) (p : EdPoint) (hp : (∃ i, f i = true) → p.Neutral) (l : List Nat) (r : EdPoint) (hr : r.Neutral) :
    (l.foldl (fun r i => if f i then edAdd (edAdd r r) p else edAdd r r) r).Neutral := by
  induction l generalizing r with
  | nil => exact hr
  | cons i l ih =>
    refine ih _ ?_
    show (if f i then edAdd (edAdd r r) p else edAdd r r).Neutral
    split
    · exact edAdd_neutral _ _ (edAdd_neutral _ _ hr hr) (hp ⟨i, ‹_›⟩)
    · exact edAdd_neutral _ _ hr hr
theorem edMul_neutral (n : Nat) (p : EdPoint) (h : p.Neutral) : (edMul n p).Neutral :=
  edMul_fold _ p (fun _ => h) _ _ ⟨rfl, rfl, rfl⟩
theorem edMul_zero (p : EdPoint) : (edMul 0 p).Neutral :=
  edMul_fold _ p (fun ⟨i, hi⟩ => by simp at hi) _ _ ⟨rfl, rfl, rfl⟩
theorem edSame_neutral (p q : EdPoint) (hp : p.Neutral) (hq : q.Neutral) : edSame p q = true := by
  obtain ⟨a, b, c⟩ := hp
  obtain ⟨d, e, f⟩ := hq
  simp [edSame, a, c, d, f, Nat.mul_comm p.y]
theorem edDecode_one : edDecode 1 = some ⟨0, 1, 1, 0⟩ := by
  have u : edSub (1 * 1) 1 = 0 := by decide
  have y : 1 % 2 ^ 255 = 1 := by decide
  have s : 1 / 2 ^ 255 = 0 := by decide
  have p : ¬ edPrime ≤ 1 := by decide
  unfold edDecode
  simp only [y, s, u, Nat.zero_mul, Nat.zero_mod, Nat.mul_zero, if_true, p]
  rfl
/-- The neutral point as key and as first half, zero as second half, sign every message. -/
theorem verify_neutral (key msg sig : List Byte) (k : edNat (key.take 32) = 1) (r : edNat (sig.take 32) = 1) (s : edNat ((sig.drop 32).take 32) = 0) :
    ed25519Verify key msg sig = true := by
  have n : EdPoint.Neutral ⟨0, 1, 1, 0⟩ := ⟨rfl, rfl, rfl⟩
  unfold ed25519Verify
  simp only [k, r, s, edDecode_one]
  have a := fun m => edAdd_neutral _ _ n (edMul_neutral m _ n)
  have o : decide (0 < edOrder) = true := by decide
  rw [o, edSame_neutral _ _ (edMul_zero _) (a _), edSame_neutral _ _ (edMul_neutral 8 _ (edMul_zero _)) (edMul_neutral 8 _ (a _)), ite_self]
  rfl

end Sys2Proof.Machine
end

