-- ==== Sys2Proof/Laws/Exec.lean ====
section
/-! SUPPORT. What exec calls for each constructor: one equation an arm, so that no proof unfolds the dispatch. -/

namespace Sys2Proof.Machine

@[simp] theorem exec_vmov16 o (s : State) : exec (.vmov16 o) s = execVmov16 o s := rfl
@[simp] theorem exec_vaddI3216 o (s : State) : exec (.vaddI3216 o) s = execVaddI3216 o s := rfl
@[simp] theorem exec_vsubI3216 o (s : State) : exec (.vsubI3216 o) s = execVsubI3216 o s := rfl
@[simp] theorem exec_vand16 o (s : State) : exec (.vand16 o) s = execVand16 o s := rfl
@[simp] theorem exec_vor16 o (s : State) : exec (.vor16 o) s = execVor16 o s := rfl
@[simp] theorem exec_vxor16 o (s : State) : exec (.vxor16 o) s = execVxor16 o s := rfl
@[simp] theorem exec_vshl16 o (s : State) : exec (.vshl16 o) s = execVshl16 o s := rfl
@[simp] theorem exec_vshrN16 o (s : State) : exec (.vshrN16 o) s = execVshrN16 o s := rfl
@[simp] theorem exec_vshrI16 o (s : State) : exec (.vshrI16 o) s = execVshrI16 o s := rfl
@[simp] theorem exec_vmulLo16 o (s : State) : exec (.vmulLo16 o) s = execVmulLo16 o s := rfl
@[simp] theorem exec_vaddF3216 o (s : State) : exec (.vaddF3216 o) s = execVaddF3216 o s := rfl
@[simp] theorem exec_vsubF3216 o (s : State) : exec (.vsubF3216 o) s = execVsubF3216 o s := rfl
@[simp] theorem exec_vmulF3216 o (s : State) : exec (.vmulF3216 o) s = execVmulF3216 o s := rfl
@[simp] theorem exec_vmaxF3216 o (s : State) : exec (.vmaxF3216 o) s = execVmaxF3216 o s := rfl
@[simp] theorem exec_vminF3216 o (s : State) : exec (.vminF3216 o) s = execVminF3216 o s := rfl
@[simp] theorem exec_vmovs16 o (s : State) : exec (.vmovs16 o) s = execVmovs16 o s := rfl
@[simp] theorem exec_sadd o (s : State) : exec (.sadd o) s = execSadd o s := rfl
@[simp] theorem exec_ssub o (s : State) : exec (.ssub o) s = execSsub o s := rfl
@[simp] theorem exec_smul o (s : State) : exec (.smul o) s = execSmul o s := rfl
@[simp] theorem exec_smulhI o (s : State) : exec (.smulhI o) s = execSmulhI o s := rfl
@[simp] theorem exec_smulhN o (s : State) : exec (.smulhN o) s = execSmulhN o s := rfl
@[simp] theorem exec_saddc o (s : State) : exec (.saddc o) s = execSaddc o s := rfl
@[simp] theorem exec_ssubb o (s : State) : exec (.ssubb o) s = execSsubb o s := rfl
@[simp] theorem exec_sneg o (s : State) : exec (.sneg o) s = execSneg o s := rfl
@[simp] theorem exec_sand o (s : State) : exec (.sand o) s = execSand o s := rfl
@[simp] theorem exec_sor o (s : State) : exec (.sor o) s = execSor o s := rfl
@[simp] theorem exec_sxor o (s : State) : exec (.sxor o) s = execSxor o s := rfl
@[simp] theorem exec_sandn o (s : State) : exec (.sandn o) s = execSandn o s := rfl
@[simp] theorem exec_sshl o (s : State) : exec (.sshl o) s = execSshl o s := rfl
@[simp] theorem exec_sshrN o (s : State) : exec (.sshrN o) s = execSshrN o s := rfl
@[simp] theorem exec_sshrI o (s : State) : exec (.sshrI o) s = execSshrI o s := rfl
@[simp] theorem exec_srotl o (s : State) : exec (.srotl o) s = execSrotl o s := rfl
@[simp] theorem exec_sminI o (s : State) : exec (.sminI o) s = execSminI o s := rfl
@[simp] theorem exec_smaxI o (s : State) : exec (.smaxI o) s = execSmaxI o s := rfl
@[simp] theorem exec_sminN o (s : State) : exec (.sminN o) s = execSminN o s := rfl
@[simp] theorem exec_smaxN o (s : State) : exec (.smaxN o) s = execSmaxN o s := rfl
@[simp] theorem exec_ssel o (s : State) : exec (.ssel o) s = execSsel o s := rfl
@[simp] theorem exec_spopc o (s : State) : exec (.spopc o) s = execSpopc o s := rfl
@[simp] theorem exec_sclz o (s : State) : exec (.sclz o) s = execSclz o s := rfl
@[simp] theorem exec_sbrev o (s : State) : exec (.sbrev o) s = execSbrev o s := rfl
@[simp] theorem exec_seq o (s : State) : exec (.seq o) s = execSeq o s := rfl
@[simp] theorem exec_sne o (s : State) : exec (.sne o) s = execSne o s := rfl
@[simp] theorem exec_sltI o (s : State) : exec (.sltI o) s = execSltI o s := rfl
@[simp] theorem exec_sleI o (s : State) : exec (.sleI o) s = execSleI o s := rfl
@[simp] theorem exec_sltN o (s : State) : exec (.sltN o) s = execSltN o s := rfl
@[simp] theorem exec_sleN o (s : State) : exec (.sleN o) s = execSleN o s := rfl
@[simp] theorem exec_stst o (s : State) : exec (.stst o) s = execStst o s := rfl
@[simp] theorem exec_saddi o (s : State) : exec (.saddi o) s = execSaddi o s := rfl
@[simp] theorem exec_sandi o (s : State) : exec (.sandi o) s = execSandi o s := rfl
@[simp] theorem exec_sori o (s : State) : exec (.sori o) s = execSori o s := rfl
@[simp] theorem exec_sxori o (s : State) : exec (.sxori o) s = execSxori o s := rfl
@[simp] theorem exec_sshli o (s : State) : exec (.sshli o) s = execSshli o s := rfl
@[simp] theorem exec_sshriN o (s : State) : exec (.sshriN o) s = execSshriN o s := rfl
@[simp] theorem exec_sshriI o (s : State) : exec (.sshriI o) s = execSshriI o s := rfl
@[simp] theorem exec_sli o (s : State) : exec (.sli o) s = execSli o s := rfl
@[simp] theorem exec_scmpi o (s : State) : exec (.scmpi o) s = execScmpi o s := rfl
@[simp] theorem exec_sbfeN o (s : State) : exec (.sbfeN o) s = execSbfeN o s := rfl
@[simp] theorem exec_sbfeI o (s : State) : exec (.sbfeI o) s = execSbfeI o s := rfl
@[simp] theorem exec_sbfi o (s : State) : exec (.sbfi o) s = execSbfi o s := rfl
@[simp] theorem exec_sgetr o (s : State) : exec (.sgetr o) s = execSgetr o s := rfl
@[simp] theorem exec_ssetr o (s : State) : exec (.ssetr o) s = execSsetr o s := rfl
@[simp] theorem exec_srdlane o (s : State) : exec (.srdlane o) s = execSrdlane o s := rfl
@[simp] theorem exec_swrlane o (s : State) : exec (.swrlane o) s = execSwrlane o s := rfl
@[simp] theorem exec_sfirst o (s : State) : exec (.sfirst o) s = execSfirst o s := rfl
@[simp] theorem exec_bra o (s : State) : exec (.bra o) s = execBra o s := rfl
@[simp] theorem exec_bscc o (s : State) : exec (.bscc o) s = execBscc o s := rfl
@[simp] theorem exec_bnscc o (s : State) : exec (.bnscc o) s = execBnscc o s := rfl
@[simp] theorem exec_bz o (s : State) : exec (.bz o) s = execBz o s := rfl
@[simp] theorem exec_bnz o (s : State) : exec (.bnz o) s = execBnz o s := rfl
@[simp] theorem exec_call o (s : State) : exec (.call o) s = execCall o s := rfl
@[simp] theorem exec_nop o (s : State) : exec (.nop o) s = execNop o s := rfl
@[simp] theorem exec_ret o (s : State) : exec (.ret o) s = execRet o s := rfl
@[simp] theorem exec_exit o (s : State) : exec (.exit o) s = execExit o s := rfl
@[simp] theorem exec_yield o (s : State) : exec (.yield o) s = execYield o s := rfl
@[simp] theorem exec_sleep o (s : State) : exec (.sleep o) s = execSleep o s := rfl
@[simp] theorem exec_elect o (s : State) : exec (.elect o) s = execElect o s := rfl
@[simp] theorem exec_electw o (s : State) : exec (.electw o) s = execElectw o s := rfl
@[simp] theorem exec_jtab o (s : State) : exec (.jtab o) s = execJtab o s := rfl
@[simp] theorem exec_lpad o (s : State) : exec (.lpad o) s = execLpad o s := rfl
@[simp] theorem exec_sigchk o (s : State) : exec (.sigchk o) s = execSigchk o s := rfl
@[simp] theorem exec_vif o (s : State) : exec (.vif o) s = execVif o s := rfl
@[simp] theorem exec_velse o (s : State) : exec (.velse o) s = execVelse o s := rfl
@[simp] theorem exec_vend o (s : State) : exec (.vend o) s = execVend o s := rfl
@[simp] theorem exec_vloop o (s : State) : exec (.vloop o) s = execVloop o s := rfl
@[simp] theorem exec_vbrk o (s : State) : exec (.vbrk o) s = execVbrk o s := rfl
@[simp] theorem exec_vcont o (s : State) : exec (.vcont o) s = execVcont o s := rfl
@[simp] theorem exec_vendl o (s : State) : exec (.vendl o) s = execVendl o s := rfl
@[simp] theorem exec_wait o (s : State) : exec (.wait o) s = execWait o s := rfl
@[simp] theorem exec_vaddI32 o (s : State) : exec (.vaddI32 o) s = execVaddI32 o s := rfl
@[simp] theorem exec_vsubI32 o (s : State) : exec (.vsubI32 o) s = execVsubI32 o s := rfl
@[simp] theorem exec_vmulLo o (s : State) : exec (.vmulLo o) s = execVmulLo o s := rfl
@[simp] theorem exec_vmulhI o (s : State) : exec (.vmulhI o) s = execVmulhI o s := rfl
@[simp] theorem exec_vmulhN o (s : State) : exec (.vmulhN o) s = execVmulhN o s := rfl
@[simp] theorem exec_vaddsI o (s : State) : exec (.vaddsI o) s = execVaddsI o s := rfl
@[simp] theorem exec_vsubsI o (s : State) : exec (.vsubsI o) s = execVsubsI o s := rfl
@[simp] theorem exec_vabsdI o (s : State) : exec (.vabsdI o) s = execVabsdI o s := rfl
@[simp] theorem exec_vand o (s : State) : exec (.vand o) s = execVand o s := rfl
@[simp] theorem exec_vor o (s : State) : exec (.vor o) s = execVor o s := rfl
@[simp] theorem exec_vxor o (s : State) : exec (.vxor o) s = execVxor o s := rfl
@[simp] theorem exec_vandn o (s : State) : exec (.vandn o) s = execVandn o s := rfl
@[simp] theorem exec_vshl o (s : State) : exec (.vshl o) s = execVshl o s := rfl
@[simp] theorem exec_vshrN o (s : State) : exec (.vshrN o) s = execVshrN o s := rfl
@[simp] theorem exec_vshrI o (s : State) : exec (.vshrI o) s = execVshrI o s := rfl
@[simp] theorem exec_vrotl o (s : State) : exec (.vrotl o) s = execVrotl o s := rfl
@[simp] theorem exec_vminI o (s : State) : exec (.vminI o) s = execVminI o s := rfl
@[simp] theorem exec_vmaxI o (s : State) : exec (.vmaxI o) s = execVmaxI o s := rfl
@[simp] theorem exec_vminN o (s : State) : exec (.vminN o) s = execVminN o s := rfl
@[simp] theorem exec_vmaxN o (s : State) : exec (.vmaxN o) s = execVmaxN o s := rfl
@[simp] theorem exec_vpopc o (s : State) : exec (.vpopc o) s = execVpopc o s := rfl
@[simp] theorem exec_vclz o (s : State) : exec (.vclz o) s = execVclz o s := rfl
@[simp] theorem exec_vbrev o (s : State) : exec (.vbrev o) s = execVbrev o s := rfl
@[simp] theorem exec_vmov o (s : State) : exec (.vmov o) s = execVmov o s := rfl
@[simp] theorem exec_vcmp o (s : State) : exec (.vcmp o) s = execVcmp o s := rfl
@[simp] theorem exec_vsel o (s : State) : exec (.vsel o) s = execVsel o s := rfl
@[simp] theorem exec_vbfeN o (s : State) : exec (.vbfeN o) s = execVbfeN o s := rfl
@[simp] theorem exec_vbfeI o (s : State) : exec (.vbfeI o) s = execVbfeI o s := rfl
@[simp] theorem exec_vbfi o (s : State) : exec (.vbfi o) s = execVbfi o s := rfl
@[simp] theorem exec_vpermb o (s : State) : exec (.vpermb o) s = execVpermb o s := rfl
@[simp] theorem exec_vaddi o (s : State) : exec (.vaddi o) s = execVaddi o s := rfl
@[simp] theorem exec_vandi o (s : State) : exec (.vandi o) s = execVandi o s := rfl
@[simp] theorem exec_vori o (s : State) : exec (.vori o) s = execVori o s := rfl
@[simp] theorem exec_vxori o (s : State) : exec (.vxori o) s = execVxori o s := rfl
@[simp] theorem exec_vshli o (s : State) : exec (.vshli o) s = execVshli o s := rfl
@[simp] theorem exec_vshriN o (s : State) : exec (.vshriN o) s = execVshriN o s := rfl
@[simp] theorem exec_vshriI o (s : State) : exec (.vshriI o) s = execVshriI o s := rfl
@[simp] theorem exec_vli o (s : State) : exec (.vli o) s = execVli o s := rfl
@[simp] theorem exec_vcmpi o (s : State) : exec (.vcmpi o) s = execVcmpi o s := rfl
@[simp] theorem exec_vaddS o (s : State) : exec (.vaddS o) s = execVaddS o s := rfl
@[simp] theorem exec_vmulS o (s : State) : exec (.vmulS o) s = execVmulS o s := rfl
@[simp] theorem exec_vandS o (s : State) : exec (.vandS o) s = execVandS o s := rfl
@[simp] theorem exec_vshlS o (s : State) : exec (.vshlS o) s = execVshlS o s := rfl
@[simp] theorem exec_vshrSN o (s : State) : exec (.vshrSN o) s = execVshrSN o s := rfl
@[simp] theorem exec_vmovs o (s : State) : exec (.vmovs o) s = execVmovs o s := rfl
@[simp] theorem exec_vmadS o (s : State) : exec (.vmadS o) s = execVmadS o s := rfl
@[simp] theorem exec_vlaneid o (s : State) : exec (.vlaneid o) s = execVlaneid o s := rfl
@[simp] theorem exec_vaddI64 o (s : State) : exec (.vaddI64 o) s = execVaddI64 o s := rfl
@[simp] theorem exec_vsubI64 o (s : State) : exec (.vsubI64 o) s = execVsubI64 o s := rfl
@[simp] theorem exec_vshlI64 o (s : State) : exec (.vshlI64 o) s = execVshlI64 o s := rfl
@[simp] theorem exec_vshrN64 o (s : State) : exec (.vshrN64 o) s = execVshrN64 o s := rfl
@[simp] theorem exec_vshrI64 o (s : State) : exec (.vshrI64 o) s = execVshrI64 o s := rfl
@[simp] theorem exec_vmulwI o (s : State) : exec (.vmulwI o) s = execVmulwI o s := rfl
@[simp] theorem exec_vmulwN o (s : State) : exec (.vmulwN o) s = execVmulwN o s := rfl
@[simp] theorem exec_vaddF32 o (s : State) : exec (.vaddF32 o) s = execVaddF32 o s := rfl
@[simp] theorem exec_vsubF32 o (s : State) : exec (.vsubF32 o) s = execVsubF32 o s := rfl
@[simp] theorem exec_vmulF32 o (s : State) : exec (.vmulF32 o) s = execVmulF32 o s := rfl
@[simp] theorem exec_vfmaF32 o (s : State) : exec (.vfmaF32 o) s = execVfmaF32 o s := rfl
@[simp] theorem exec_vfmsF32 o (s : State) : exec (.vfmsF32 o) s = execVfmsF32 o s := rfl
@[simp] theorem exec_vfnmaF32 o (s : State) : exec (.vfnmaF32 o) s = execVfnmaF32 o s := rfl
@[simp] theorem exec_vminF32 o (s : State) : exec (.vminF32 o) s = execVminF32 o s := rfl
@[simp] theorem exec_vmaxF32 o (s : State) : exec (.vmaxF32 o) s = execVmaxF32 o s := rfl
@[simp] theorem exec_vabsF32 o (s : State) : exec (.vabsF32 o) s = execVabsF32 o s := rfl
@[simp] theorem exec_vnegF32 o (s : State) : exec (.vnegF32 o) s = execVnegF32 o s := rfl
@[simp] theorem exec_vcopysign o (s : State) : exec (.vcopysign o) s = execVcopysign o s := rfl
@[simp] theorem exec_vclass o (s : State) : exec (.vclass o) s = execVclass o s := rfl
@[simp] theorem exec_vrint o (s : State) : exec (.vrint o) s = execVrint o s := rfl
@[simp] theorem exec_vfract o (s : State) : exec (.vfract o) s = execVfract o s := rfl
@[simp] theorem exec_vscalb o (s : State) : exec (.vscalb o) s = execVscalb o s := rfl
@[simp] theorem exec_vgetexp o (s : State) : exec (.vgetexp o) s = execVgetexp o s := rfl
@[simp] theorem exec_vcmpf o (s : State) : exec (.vcmpf o) s = execVcmpf o s := rfl
@[simp] theorem exec_vaddBf2 o (s : State) : exec (.vaddBf2 o) s = execVaddBf2 o s := rfl
@[simp] theorem exec_vsubBf2 o (s : State) : exec (.vsubBf2 o) s = execVsubBf2 o s := rfl
@[simp] theorem exec_vmulBf2 o (s : State) : exec (.vmulBf2 o) s = execVmulBf2 o s := rfl
@[simp] theorem exec_vfmaBf2 o (s : State) : exec (.vfmaBf2 o) s = execVfmaBf2 o s := rfl
@[simp] theorem exec_vminBf2 o (s : State) : exec (.vminBf2 o) s = execVminBf2 o s := rfl
@[simp] theorem exec_vmaxBf2 o (s : State) : exec (.vmaxBf2 o) s = execVmaxBf2 o s := rfl
@[simp] theorem exec_vdot2Bf o (s : State) : exec (.vdot2Bf o) s = execVdot2Bf o s := rfl
@[simp] theorem exec_vaddF32S o (s : State) : exec (.vaddF32S o) s = execVaddF32S o s := rfl
@[simp] theorem exec_vmulF32S o (s : State) : exec (.vmulF32S o) s = execVmulF32S o s := rfl
@[simp] theorem exec_vfmaF32S o (s : State) : exec (.vfmaF32S o) s = execVfmaF32S o s := rfl
@[simp] theorem exec_vminF32S o (s : State) : exec (.vminF32S o) s = execVminF32S o s := rfl
@[simp] theorem exec_vmaxF32S o (s : State) : exec (.vmaxF32S o) s = execVmaxF32S o s := rfl
@[simp] theorem exec_vrcpA o (s : State) : exec (.vrcpA o) s = execVrcpA o s := rfl
@[simp] theorem exec_vrsqA o (s : State) : exec (.vrsqA o) s = execVrsqA o s := rfl
@[simp] theorem exec_vex2A o (s : State) : exec (.vex2A o) s = execVex2A o s := rfl
@[simp] theorem exec_vlg2A o (s : State) : exec (.vlg2A o) s = execVlg2A o s := rfl
@[simp] theorem exec_vsinA o (s : State) : exec (.vsinA o) s = execVsinA o s := rfl
@[simp] theorem exec_vcosA o (s : State) : exec (.vcosA o) s = execVcosA o s := rfl
@[simp] theorem exec_vtanhA o (s : State) : exec (.vtanhA o) s = execVtanhA o s := rfl
@[simp] theorem exec_vsqrt o (s : State) : exec (.vsqrt o) s = execVsqrt o s := rfl
@[simp] theorem exec_vdivF32 o (s : State) : exec (.vdivF32 o) s = execVdivF32 o s := rfl
@[simp] theorem exec_vrand o (s : State) : exec (.vrand o) s = execVrand o s := rfl
@[simp] theorem exec_vseed o (s : State) : exec (.vseed o) s = execVseed o s := rfl
@[simp] theorem exec_vunpk o (s : State) : exec (.vunpk o) s = execVunpk o s := rfl
@[simp] theorem exec_vunpk2 o (s : State) : exec (.vunpk2 o) s = execVunpk2 o s := rfl
@[simp] theorem exec_vpack o (s : State) : exec (.vpack o) s = execVpack o s := rfl
@[simp] theorem exec_vpack2 o (s : State) : exec (.vpack2 o) s = execVpack2 o s := rfl
@[simp] theorem exec_vmxscale o (s : State) : exec (.vmxscale o) s = execVmxscale o s := rfl
@[simp] theorem exec_vscaleE8 o (s : State) : exec (.vscaleE8 o) s = execVscaleE8 o s := rfl
@[simp] theorem exec_vscaleE8Inv o (s : State) : exec (.vscaleE8Inv o) s = execVscaleE8Inv o s := rfl
@[simp] theorem exec_vcvt o (s : State) : exec (.vcvt o) s = execVcvt o s := rfl
@[simp] theorem exec_pand o (s : State) : exec (.pand o) s = execPand o s := rfl
@[simp] theorem exec_por o (s : State) : exec (.por o) s = execPor o s := rfl
@[simp] theorem exec_pxor o (s : State) : exec (.pxor o) s = execPxor o s := rfl
@[simp] theorem exec_pandn o (s : State) : exec (.pandn o) s = execPandn o s := rfl
@[simp] theorem exec_pnot o (s : State) : exec (.pnot o) s = execPnot o s := rfl
@[simp] theorem exec_pmov o (s : State) : exec (.pmov o) s = execPmov o s := rfl
@[simp] theorem exec_pset o (s : State) : exec (.pset o) s = execPset o s := rfl
@[simp] theorem exec_pclr o (s : State) : exec (.pclr o) s = execPclr o s := rfl
@[simp] theorem exec_ptos o (s : State) : exec (.ptos o) s = execPtos o s := rfl
@[simp] theorem exec_pfroms o (s : State) : exec (.pfroms o) s = execPfroms o s := rfl
@[simp] theorem exec_pcnt o (s : State) : exec (.pcnt o) s = execPcnt o s := rfl
@[simp] theorem exec_pany o (s : State) : exec (.pany o) s = execPany o s := rfl
@[simp] theorem exec_pall o (s : State) : exec (.pall o) s = execPall o s := rfl
@[simp] theorem exec_pfirst o (s : State) : exec (.pfirst o) s = execPfirst o s := rfl
@[simp] theorem exec_vld o (s : State) : exec (.vld o) s = execVld o s := rfl
@[simp] theorem exec_vldLine o (s : State) : exec (.vldLine o) s = execVldLine o s := rfl
@[simp] theorem exec_vst o (s : State) : exec (.vst o) s = execVst o s := rfl
@[simp] theorem exec_vldNr o (s : State) : exec (.vldNr o) s = execVldNr o s := rfl
@[simp] theorem exec_vldi o (s : State) : exec (.vldi o) s = execVldi o s := rfl
@[simp] theorem exec_vsti o (s : State) : exec (.vsti o) s = execVsti o s := rfl
@[simp] theorem exec_sld o (s : State) : exec (.sld o) s = execSld o s := rfl
@[simp] theorem exec_sst o (s : State) : exec (.sst o) s = execSst o s := rfl
@[simp] theorem exec_fence o (s : State) : exec (.fence o) s = execFence o s := rfl
@[simp] theorem exec_fenceOpr o (s : State) : exec (.fenceOpr o) s = execFenceOpr o s := rfl
@[simp] theorem exec_fenceH o (s : State) : exec (.fenceH o) s = execFenceH o s := rfl
@[simp] theorem exec_cinv o (s : State) : exec (.cinv o) s = execCinv o s := rfl
@[simp] theorem exec_cwb o (s : State) : exec (.cwb o) s = execCwb o s := rfl
@[simp] theorem exec_cflush o (s : State) : exec (.cflush o) s = execCflush o s := rfl
@[simp] theorem exec_vpref o (s : State) : exec (.vpref o) s = execVpref o s := rfl
@[simp] theorem exec_pagereq o (s : State) : exec (.pagereq o) s = execPagereq o s := rfl
@[simp] theorem exec_llock o (s : State) : exec (.llock o) s = execLlock o s := rfl
@[simp] theorem exec_ltry o (s : State) : exec (.ltry o) s = execLtry o s := rfl
@[simp] theorem exec_lunlock o (s : State) : exec (.lunlock o) s = execLunlock o s := rfl
@[simp] theorem exec_lquery o (s : State) : exec (.lquery o) s = execLquery o s := rfl
@[simp] theorem exec_lbreak o (s : State) : exec (.lbreak o) s = execLbreak o s := rfl
@[simp] theorem exec_hdecl o (s : State) : exec (.hdecl o) s = execHdecl o s := rfl
@[simp] theorem exec_hend o (s : State) : exec (.hend o) s = execHend o s := rfl
@[simp] theorem exec_hdrain o (s : State) : exec (.hdrain o) s = execHdrain o s := rfl
@[simp] theorem exec_hquery o (s : State) : exec (.hquery o) s = execHquery o s := rfl
@[simp] theorem exec_haddF32 o (s : State) : exec (.haddF32 o) s = execHaddF32 o s := rfl
@[simp] theorem exec_haddI32 o (s : State) : exec (.haddI32 o) s = execHaddI32 o s := rfl
@[simp] theorem exec_hldF32 o (s : State) : exec (.hldF32 o) s = execHldF32 o s := rfl
@[simp] theorem exec_hldI32 o (s : State) : exec (.hldI32 o) s = execHldI32 o s := rfl
@[simp] theorem exec_vatomAddI32 o (s : State) : exec (.vatomAddI32 o) s = execVatomAddI32 o s := rfl
@[simp] theorem exec_vatomAddF32 o (s : State) : exec (.vatomAddF32 o) s = execVatomAddF32 o s := rfl
@[simp] theorem exec_vatomAddBf2 o (s : State) : exec (.vatomAddBf2 o) s = execVatomAddBf2 o s := rfl
@[simp] theorem exec_vatomMinI o (s : State) : exec (.vatomMinI o) s = execVatomMinI o s := rfl
@[simp] theorem exec_vatomMaxI o (s : State) : exec (.vatomMaxI o) s = execVatomMaxI o s := rfl
@[simp] theorem exec_vatomAnd o (s : State) : exec (.vatomAnd o) s = execVatomAnd o s := rfl
@[simp] theorem exec_vatomOr o (s : State) : exec (.vatomOr o) s = execVatomOr o s := rfl
@[simp] theorem exec_vatomXchg o (s : State) : exec (.vatomXchg o) s = execVatomXchg o s := rfl
@[simp] theorem exec_vatom2MinN o (s : State) : exec (.vatom2MinN o) s = execVatom2MinN o s := rfl
@[simp] theorem exec_vatom2MaxN o (s : State) : exec (.vatom2MaxN o) s = execVatom2MaxN o s := rfl
@[simp] theorem exec_vatom2Xor o (s : State) : exec (.vatom2Xor o) s = execVatom2Xor o s := rfl
@[simp] theorem exec_vatom2AddI64 o (s : State) : exec (.vatom2AddI64 o) s = execVatom2AddI64 o s := rfl
@[simp] theorem exec_vatom2Xchg64 o (s : State) : exec (.vatom2Xchg64 o) s = execVatom2Xchg64 o s := rfl
@[simp] theorem exec_vatom2MinF32 o (s : State) : exec (.vatom2MinF32 o) s = execVatom2MinF32 o s := rfl
@[simp] theorem exec_vatom2MaxF32 o (s : State) : exec (.vatom2MaxF32 o) s = execVatom2MaxF32 o s := rfl
@[simp] theorem exec_vcas32 o (s : State) : exec (.vcas32 o) s = execVcas32 o s := rfl
@[simp] theorem exec_vcas64 o (s : State) : exec (.vcas64 o) s = execVcas64 o s := rfl
@[simp] theorem exec_vcas128 o (s : State) : exec (.vcas128 o) s = execVcas128 o s := rfl
@[simp] theorem exec_satomAddI32 o (s : State) : exec (.satomAddI32 o) s = execSatomAddI32 o s := rfl
@[simp] theorem exec_satomXchg o (s : State) : exec (.satomXchg o) s = execSatomXchg o s := rfl
@[simp] theorem exec_satomCas32 o (s : State) : exec (.satomCas32 o) s = execSatomCas32 o s := rfl
@[simp] theorem exec_satomCas64 o (s : State) : exec (.satomCas64 o) s = execSatomCas64 o s := rfl
@[simp] theorem exec_satomCas128 o (s : State) : exec (.satomCas128 o) s = execSatomCas128 o s := rfl
@[simp] theorem exec_satomAddI64 o (s : State) : exec (.satomAddI64 o) s = execSatomAddI64 o s := rfl
@[simp] theorem exec_satomOr o (s : State) : exec (.satomOr o) s = execSatomOr o s := rfl
@[simp] theorem exec_satomAnd o (s : State) : exec (.satomAnd o) s = execSatomAnd o s := rfl
@[simp] theorem exec_cpy o (s : State) : exec (.cpy o) s = execCpy o s := rfl
@[simp] theorem exec_cpy2 o (s : State) : exec (.cpy2 o) s = execCpy2 o s := rfl
@[simp] theorem exec_cpyg o (s : State) : exec (.cpyg o) s = execCpyg o s := rfl
@[simp] theorem exec_cpyz o (s : State) : exec (.cpyz o) s = execCpyz o s := rfl
@[simp] theorem exec_cpyw o (s : State) : exec (.cpyw o) s = execCpyw o s := rfl
@[simp] theorem exec_decJpeg o (s : State) : exec (.decJpeg o) s = execDecJpeg o s := rfl
@[simp] theorem exec_decG4 o (s : State) : exec (.decG4 o) s = execDecG4 o s := rfl
@[simp] theorem exec_decPng o (s : State) : exec (.decPng o) s = execDecPng o s := rfl
@[simp] theorem exec_decQuery o (s : State) : exec (.decQuery o) s = execDecQuery o s := rfl
@[simp] theorem exec_swset o (s : State) : exec (.swset o) s = execSwset o s := rfl
@[simp] theorem exec_swarr o (s : State) : exec (.swarr o) s = execSwarr o s := rfl
@[simp] theorem exec_swwait o (s : State) : exec (.swwait o) s = execSwwait o s := rfl
@[simp] theorem exec_swread o (s : State) : exec (.swread o) s = execSwread o s := rfl
@[simp] theorem exec_mmarJ o (s : State) : exec (.mmarJ o) s = execMmarJ o s := rfl
@[simp] theorem exec_mmarS o (s : State) : exec (.mmarS o) s = execMmarS o s := rfl
@[simp] theorem exec_mmatT o (s : State) : exec (.mmatT o) s = execMmatT o s := rfl
@[simp] theorem exec_mmatC o (s : State) : exec (.mmatC o) s = execMmatC o s := rfl
@[simp] theorem exec_mmatTz o (s : State) : exec (.mmatTz o) s = execMmatTz o s := rfl
@[simp] theorem exec_mmatCz o (s : State) : exec (.mmatCz o) s = execMmatCz o s := rfl
@[simp] theorem exec_mzero o (s : State) : exec (.mzero o) s = execMzero o s := rfl
@[simp] theorem exec_mquant o (s : State) : exec (.mquant o) s = execMquant o s := rfl
@[simp] theorem exec_mstat o (s : State) : exec (.mstat o) s = execMstat o s := rfl
@[simp] theorem exec_tderef o (s : State) : exec (.tderef o) s = execTderef o s := rfl
@[simp] theorem exec_ttag o (s : State) : exec (.ttag o) s = execTtag o s := rfl
@[simp] theorem exec_tunifyN o (s : State) : exec (.tunifyN o) s = execTunifyN o s := rfl
@[simp] theorem exec_tunifyOc o (s : State) : exec (.tunifyOc o) s = execTunifyOc o s := rfl
@[simp] theorem exec_tbind o (s : State) : exec (.tbind o) s = execTbind o s := rfl
@[simp] theorem exec_tmatch o (s : State) : exec (.tmatch o) s = execTmatch o s := rfl
@[simp] theorem exec_tchoice o (s : State) : exec (.tchoice o) s = execTchoice o s := rfl
@[simp] theorem exec_tfail o (s : State) : exec (.tfail o) s = execTfail o s := rfl
@[simp] theorem exec_tcut o (s : State) : exec (.tcut o) s = execTcut o s := rfl
@[simp] theorem exec_tpopcp o (s : State) : exec (.tpopcp o) s = execTpopcp o s := rfl
@[simp] theorem exec_ttrailtop o (s : State) : exec (.ttrailtop o) s = execTtrailtop o s := rfl
@[simp] theorem exec_tfork o (s : State) : exec (.tfork o) s = execTfork o s := rfl
@[simp] theorem exec_tcommit o (s : State) : exec (.tcommit o) s = execTcommit o s := rfl
@[simp] theorem exec_tjoin o (s : State) : exec (.tjoin o) s = execTjoin o s := rfl
@[simp] theorem exec_launch o (s : State) : exec (.launch o) s = execLaunch o s := rfl
@[simp] theorem exec_spawn o (s : State) : exec (.spawn o) s = execSpawn o s := rfl
@[simp] theorem exec_trigger o (s : State) : exec (.trigger o) s = execTrigger o s := rfl
@[simp] theorem exec_bar o (s : State) : exec (.bar o) s = execBar o s := rfl
@[simp] theorem exec_cbar o (s : State) : exec (.cbar o) s = execCbar o s := rfl
@[simp] theorem exec_trap o (s : State) : exec (.trap o) s = execTrap o s := rfl
@[simp] theorem exec_eret o (s : State) : exec (.eret o) s = execEret o s := rfl
@[simp] theorem exec_chkerr o (s : State) : exec (.chkerr o) s = execChkerr o s := rfl
@[simp] theorem exec_irgnGrp o (s : State) : exec (.irgnGrp o) s = execIrgnGrp o s := rfl
@[simp] theorem exec_irgnWg o (s : State) : exec (.irgnWg o) s = execIrgnWg o s := rfl
@[simp] theorem exec_irge o (s : State) : exec (.irge o) s = execIrge o s := rfl
@[simp] theorem exec_bkpt o (s : State) : exec (.bkpt o) s = execBkpt o s := rfl
@[simp] theorem exec_tlbinv o (s : State) : exec (.tlbinv o) s = execTlbinv o s := rfl
@[simp] theorem exec_harvest o (s : State) : exec (.harvest o) s = execHarvest o s := rfl
@[simp] theorem exec_pendingReplace core quarter (s : State) : exec (.pendingReplace core quarter) s = execPendingReplace core quarter s := rfl
@[simp] theorem exec_sleepExpiry grp (s : State) : exec (.sleepExpiry grp) s = execSleepExpiry grp s := rfl
@[simp] theorem exec_squallWindow core (s : State) : exec (.squallWindow core) s = execSquallWindow core s := rfl
@[simp] theorem exec_loadReturn grp (s : State) : exec (.loadReturn grp) s = execLoadReturn grp s := rfl
@[simp] theorem exec_storePerformed grp (s : State) : exec (.storePerformed grp) s = execStorePerformed grp s := rfl
@[simp] theorem exec_atomicResult grp (s : State) : exec (.atomicResult grp) s = execAtomicResult grp s := rfl
@[simp] theorem exec_farAtomic grp (s : State) : exec (.farAtomic grp) s = execFarAtomic grp s := rfl
@[simp] theorem exec_pageWalk core ctx va (s : State) : exec (.pageWalk core ctx va) s = execPageWalk core ctx va s := rfl
@[simp] theorem exec_shareRequest n (s : State) : exec (.shareRequest n) s = execShareRequest n s := rfl
@[simp] theorem exec_shareAck n (s : State) : exec (.shareAck n) s = execShareAck n s := rfl
@[simp] theorem exec_missRequest core line excl (s : State) : exec (.missRequest core line excl) s = execMissRequest core line excl s := rfl
@[simp] theorem exec_invalidation n (s : State) : exec (.invalidation n) s = execInvalidation n s := rfl
@[simp] theorem exec_invalidationAck n (s : State) : exec (.invalidationAck n) s = execInvalidationAck n s := rfl
@[simp] theorem exec_writeBack core line (s : State) : exec (.writeBack core line) s = execWriteBack core line s := rfl
@[simp] theorem exec_hazeShareRequest n (s : State) : exec (.hazeShareRequest n) s = execHazeShareRequest n s := rfl
@[simp] theorem exec_recall n (s : State) : exec (.recall n) s = execRecall n s := rfl
@[simp] theorem exec_recallAck n (s : State) : exec (.recallAck n) s = execRecallAck n s := rfl
@[simp] theorem exec_grant n (s : State) : exec (.grant n) s = execGrant n s := rfl
@[simp] theorem exec_hazeReturn core line (s : State) : exec (.hazeReturn core line) s = execHazeReturn core line s := rfl
@[simp] theorem exec_forcedDrain n (s : State) : exec (.forcedDrain n) s = execForcedDrain n s := rfl
@[simp] theorem exec_drain n (s : State) : exec (.drain n) s = execDrain n s := rfl
@[simp] theorem exec_farAdd n (s : State) : exec (.farAdd n) s = execFarAdd n s := rfl
@[simp] theorem exec_lockRequest n (s : State) : exec (.lockRequest n) s = execLockRequest n s := rfl
@[simp] theorem exec_link n (s : State) : exec (.link n) s = execLink n s := rfl
@[simp] theorem exec_lockHandover n (s : State) : exec (.lockHandover n) s = execLockHandover n s := rfl
@[simp] theorem exec_releaseRequest n (s : State) : exec (.releaseRequest n) s = execReleaseRequest n s := rfl
@[simp] theorem exec_lockTimeout grp (s : State) : exec (.lockTimeout grp) s = execLockTimeout grp s := rfl
@[simp] theorem exec_commandAccept engine (s : State) : exec (.commandAccept engine) s = execCommandAccept engine s := rfl
@[simp] theorem exec_arrival engine (s : State) : exec (.arrival engine) s = execArrival engine s := rfl
@[simp] theorem exec_matrixComplete core (s : State) : exec (.matrixComplete core) s = execMatrixComplete core s := rfl
@[simp] theorem exec_termJobStart core quarter (s : State) : exec (.termJobStart core quarter) s = execTermJobStart core quarter s := rfl
@[simp] theorem exec_termJobEnd core quarter n (s : State) : exec (.termJobEnd core quarter n) s = execTermJobEnd core quarter n s := rfl
@[simp] theorem exec_packetDecode queue (s : State) : exec (.packetDecode queue) s = execPacketDecode queue s := rfl
@[simp] theorem exec_workgroupStart (s : State) : exec (.workgroupStart) s = execWorkgroupStart s := rfl
@[simp] theorem exec_cloudStart (s : State) : exec (.cloudStart) s = execCloudStart s := rfl
@[simp] theorem exec_gridComplete grid (s : State) : exec (.gridComplete grid) s = execGridComplete grid s := rfl
@[simp] theorem exec_childGroupStart cluster entry (s : State) : exec (.childGroupStart cluster entry) s = execChildGroupStart cluster entry s := rfl
@[simp] theorem exec_idleRelease cluster entry (s : State) : exec (.idleRelease cluster entry) s = execIdleRelease cluster entry s := rfl
@[simp] theorem exec_pqcomp v (s : State) : exec (.pqcomp v) s = execPqcomp v s := rfl
@[simp] theorem exec_pqsize v (s : State) : exec (.pqsize v) s = execPqsize v s := rfl
@[simp] theorem exec_pqhead v (s : State) : exec (.pqhead v) s = execPqhead v s := rfl
@[simp] theorem exec_dlsize v (s : State) : exec (.dlsize v) s = execDlsize v s := rfl
@[simp] theorem exec_lqtail q v (s : State) : exec (.lqtail q v) s = execLqtail q v s := rfl
@[simp] theorem exec_lqsize q v (s : State) : exec (.lqsize q v) s = execLqsize q v s := rfl
@[simp] theorem exec_eqsize v (s : State) : exec (.eqsize v) s = execEqsize v s := rfl
@[simp] theorem exec_eqhead v (s : State) : exec (.eqhead v) s = execEqhead v s := rfl
@[simp] theorem exec_preempt ctx (s : State) : exec (.preempt ctx) s = execPreempt ctx s := rfl
@[simp] theorem exec_workgroupSave wg (s : State) : exec (.workgroupSave wg) s = execWorkgroupSave wg s := rfl
@[simp] theorem exec_resume ctx (s : State) : exec (.resume ctx) s = execResume ctx s := rfl
@[simp] theorem exec_gnum ctx v (s : State) : exec (.gnum ctx v) s = execGnum ctx v s := rfl
@[simp] theorem exec_selfTest bank pass (s : State) : exec (.selfTest bank pass) s = execSelfTest bank pass s := rfl
@[simp] theorem exec_coreRetire core (s : State) : exec (.coreRetire core) s = execCoreRetire core s := rfl
@[simp] theorem exec_logClear bank (s : State) : exec (.logClear bank) s = execLogClear bank s := rfl
@[simp] theorem exec_arm bank v (s : State) : exec (.arm bank v) s = execArm bank v s := rfl
@[simp] theorem exec_hostAccess pa n data (s : State) : exec (.hostAccess pa n data) s = execHostAccess pa n data s := rfl
@[simp] theorem exec_hostSnoop line (s : State) : exec (.hostSnoop line) s = execHostSnoop line s := rfl
@[simp] theorem exec_backInvalidate line (s : State) : exec (.backInvalidate line) s = execBackInvalidate line s := rfl
@[simp] theorem exec_atomicopCompletion grp err (s : State) : exec (.atomicopCompletion grp err) s = execAtomicopCompletion grp err s := rfl
@[simp] theorem exec_atomicopTimeout grp (s : State) : exec (.atomicopTimeout grp) s = execAtomicopTimeout grp s := rfl
@[simp] theorem exec_zeroLengthRead grp (s : State) : exec (.zeroLengthRead grp) s = execZeroLengthRead grp s := rfl
@[simp] theorem exec_inboundRequest pa n data (s : State) : exec (.inboundRequest pa n data) s = execInboundRequest pa n data s := rfl
@[simp] theorem exec_response ans (s : State) : exec (.response ans) s = execResponse ans s := rfl
@[simp] theorem exec_requestTimeout grp (s : State) : exec (.requestTimeout grp) s = execRequestTimeout grp s := rfl
@[simp] theorem exec_peerWindow w v (s : State) : exec (.peerWindow w v) s = execPeerWindow w v s := rfl
@[simp] theorem exec_linkDown port (s : State) : exec (.linkDown port) s = execLinkDown port s := rfl
@[simp] theorem exec_linkUp port (s : State) : exec (.linkUp port) s = execLinkUp port s := rfl
@[simp] theorem exec_reset (s : State) : exec (.reset) s = execReset s := rfl
@[simp] theorem exec_bootWatchdog (s : State) : exec (.bootWatchdog) s = execBootWatchdog s := rfl
@[simp] theorem exec_bootOk (s : State) : exec (.bootOk) s = execBootOk s := rfl
@[simp] theorem exec_clr (s : State) : exec (.clr) s = execClr s := rfl
@[simp] theorem exec_powerLoss (s : State) : exec (.powerLoss) s = execPowerLoss s := rfl
@[simp] theorem exec_attcmd (s : State) : exec (.attcmd) s = execAttcmd s := rfl
@[simp] theorem exec_pwrcap v (s : State) : exec (.pwrcap v) s = execPwrcap v s := rfl
@[simp] theorem exec_clockStep (s : State) : exec (.clockStep) s = execClockStep s := rfl
@[simp] theorem exec_thermalTrip die temp (s : State) : exec (.thermalTrip die temp) s = execThermalTrip die temp s := rfl
@[simp] theorem exec_registerWrite off size v (s : State) : exec (.registerWrite off size v) s = execRegisterWrite off size v s := rfl
@[simp] theorem exec_illegalInstruction step (s : State) : exec (.illegalInstruction step) s = execIllegalInstruction step s := rfl
@[simp] theorem exec_tunifySwap grp (s : State) : exec (.tunifySwap grp) s = execTunifySwap grp s := rfl
@[simp] theorem exec_tlbinvCompletion grp (s : State) : exec (.tlbinvCompletion grp) s = execTlbinvCompletion grp s := rfl
@[simp] theorem exec_harvestCompletion grp (s : State) : exec (.harvestCompletion grp) s = execHarvestCompletion grp s := rfl
@[simp] theorem exec_attestationReport (s : State) : exec (.attestationReport) s = execAttestationReport s := rfl
@[simp] theorem exec_firmwareStartFailure reason (s : State) : exec (.firmwareStartFailure reason) s = execFirmwareStartFailure reason s := rfl
@[simp] theorem exec_scrubber bank addr bad (s : State) :
    exec (.scrubber bank addr bad) s = execScrubber bank addr bad s := rfl
@[simp] theorem exec_flitCrcFailure bank grp tries (s : State) : exec (.flitCrcFailure bank grp tries) s = execFlitCrcFailure bank grp tries s := rfl
@[simp] theorem exec_freeBufferSignal port (s : State) : exec (.freeBufferSignal port) s = execFreeBufferSignal port s := rfl
@[simp] theorem exec_hopForwarding port n (s : State) : exec (.hopForwarding port n) s = execHopForwarding port n s := rfl

end Sys2Proof.Machine
end

