-- ==== Sys2Proof/Laws/State.lean ====
section
/-! SUPPORT. What each update of the state and of a group leaves of every field: true by rfl, and used by simp, so that
no later proof unfolds an update of a record. -/

namespace Sys2Proof.Machine

variable (s : State) (g : Group)

/-! A change of the issuing group. -/
@[simp] theorem State.mg_g (f : Group → Group) : (s.mg f).g = f s.g := rfl
@[simp] theorem State.mg_others (f : Group → Group) : (s.mg f).others = s.others := rfl
@[simp] theorem State.mg_mem (f : Group → Group) : (s.mg f).mem = s.mem := rfl
@[simp] theorem State.mg_memPoison (f : Group → Group) : (s.mg f).memPoison = s.memPoison := rfl
@[simp] theorem State.mg_wgs (f : Group → Group) : (s.mg f).wgs = s.wgs := rfl
@[simp] theorem State.mg_grids (f : Group → Group) : (s.mg f).grids = s.grids := rfl
@[simp] theorem State.mg_launchQ (f : Group → Group) : (s.mg f).launchQ = s.launchQ := rfl
@[simp] theorem State.mg_rr (f : Group → Group) : (s.mg f).rr = s.rr := rfl
@[simp] theorem State.mg_heldRecs (f : Group → Group) : (s.mg f).heldRecs = s.heldRecs := rfl
@[simp] theorem State.mg_scratchOf (f : Group → Group) : (s.mg f).scratchOf = s.scratchOf := rfl
@[simp] theorem State.mg_ctxs (f : Group → Group) : (s.mg f).ctxs = s.ctxs := rfl
@[simp] theorem State.mg_tlb (f : Group → Group) : (s.mg f).tlb = s.tlb := rfl
@[simp] theorem State.mg_walkCache (f : Group → Group) : (s.mg f).walkCache = s.walkCache := rfl
@[simp] theorem State.mg_misses (f : Group → Group) : (s.mg f).misses = s.misses := rfl
@[simp] theorem State.mg_pageReqs (f : Group → Group) : (s.mg f).pageReqs = s.pageReqs := rfl
@[simp] theorem State.mg_locks (f : Group → Group) : (s.mg f).locks = s.locks := rfl
@[simp] theorem State.mg_lockNet (f : Group → Group) : (s.mg f).lockNet = s.lockNet := rfl
@[simp] theorem State.mg_savedGroups (f : Group → Group) : (s.mg f).savedGroups = s.savedGroups := rfl
@[simp] theorem State.mg_hazeRegions (f : Group → Group) : (s.mg f).hazeRegions = s.hazeRegions := rfl
@[simp] theorem State.mg_hazeLines (f : Group → Group) : (s.mg f).hazeLines = s.hazeLines := rfl
@[simp] theorem State.mg_hazeHomes (f : Group → Group) : (s.mg f).hazeHomes = s.hazeHomes := rfl
@[simp] theorem State.mg_hazeNet (f : Group → Group) : (s.mg f).hazeNet = s.hazeNet := rfl
@[simp] theorem State.mg_engQ (f : Group → Group) : (s.mg f).engQ = s.engQ := rfl
@[simp] theorem State.mg_mxQ (f : Group → Group) : (s.mg f).mxQ = s.mxQ := rfl
@[simp] theorem State.mg_mxOwns (f : Group → Group) : (s.mg f).mxOwns = s.mxOwns := rfl
@[simp] theorem State.mg_termQ (f : Group → Group) : (s.mg f).termQ = s.termQ := rfl
@[simp] theorem State.mg_dir (f : Group → Group) : (s.mg f).dir = s.dir := rfl
@[simp] theorem State.mg_proxies (f : Group → Group) : (s.mg f).proxies = s.proxies := rfl
@[simp] theorem State.mg_invals (f : Group → Group) : (s.mg f).invals = s.invals := rfl
@[simp] theorem State.mg_invAcks (f : Group → Group) : (s.mg f).invAcks = s.invAcks := rfl
@[simp] theorem State.mg_shares (f : Group → Group) : (s.mg f).shares = s.shares := rfl
@[simp] theorem State.mg_l1 (f : Group → Group) : (s.mg f).l1 = s.l1 := rfl
@[simp] theorem State.mg_slices (f : Group → Group) : (s.mg f).slices = s.slices := rfl
@[simp] theorem State.mg_ways (f : Group → Group) : (s.mg f).ways = s.ways := rfl
@[simp] theorem State.mg_msc (f : Group → Group) : (s.mg f).msc = s.msc := rfl
@[simp] theorem State.mg_filter (f : Group → Group) : (s.mg f).filter = s.filter := rfl
@[simp] theorem State.mg_agent (f : Group → Group) : (s.mg f).agent = s.agent := rfl
@[simp] theorem State.mg_wrec (f : Group → Group) : (s.mg f).wrec = s.wrec := rfl
@[simp] theorem State.mg_cores (f : Group → Group) : (s.mg f).cores = s.cores := rfl
@[simp] theorem State.mg_spawn (f : Group → Group) : (s.mg f).spawn = s.spawn := rfl
@[simp] theorem State.mg_lqs (f : Group → Group) : (s.mg f).lqs = s.lqs := rfl
@[simp] theorem State.mg_banks (f : Group → Group) : (s.mg f).banks = s.banks := rfl
@[simp] theorem State.mg_mgmt (f : Group → Group) : (s.mg f).mgmt = s.mgmt := rfl
@[simp] theorem State.mg_flash (f : Group → Group) : (s.mg f).flash = s.flash := rfl
@[simp] theorem State.mg_fuses (f : Group → Group) : (s.mg f).fuses = s.fuses := rfl
@[simp] theorem State.mg_heldEvents (f : Group → Group) : (s.mg f).heldEvents = s.heldEvents := rfl
@[simp] theorem State.mg_msix (f : Group → Group) : (s.mg f).msix = s.msix := rfl
@[simp] theorem State.mg_mmioOut (f : Group → Group) : (s.mg f).mmioOut = s.mmioOut := rfl
@[simp] theorem State.mg_down (f : Group → Group) : (s.mg f).down = s.down := rfl
@[simp] theorem State.mg_hops (f : Group → Group) : (s.mg f).hops = s.hops := rfl
@[simp] theorem State.mg_rykelOut (f : Group → Group) : (s.mg f).rykelOut = s.rykelOut := rfl
@[simp] theorem State.mg_bufs (f : Group → Group) : (s.mg f).bufs = s.bufs := rfl
@[simp] theorem State.mg_zlr (f : Group → Group) : (s.mg f).zlr = s.zlr := rfl
@[simp] theorem State.mg_tripped (f : Group → Group) : (s.mg f).tripped = s.tripped := rfl
@[simp] theorem State.mg_clock (f : Group → Group) : (s.mg f).clock = s.clock := rfl
@[simp] theorem State.mg_pipes (f : Group → Group) : (s.mg f).pipes = s.pipes := rfl
@[simp] theorem State.mg_swaps (f : Group → Group) : (s.mg f).swaps = s.swaps := rfl
@[simp] theorem State.mg_blocks (f : Group → Group) : (s.mg f).blocks = s.blocks := rfl
@[simp] theorem State.mg_nextId (f : Group → Group) : (s.mg f).nextId = s.nextId := rfl
@[simp] theorem State.mg_free (f : Group → Group) : (s.mg f).free = s.free := rfl
@[simp] theorem State.mg_agenda (f : Group → Group) : (s.mg f).agenda = s.agenda := rfl
@[simp] theorem State.mg_turns (f : Group → Group) : (s.mg f).turns = s.turns := rfl

/-! The next free value. -/
@[simp] theorem State.fresh_g : (s.fresh).g = s.g := rfl
@[simp] theorem State.fresh_others : (s.fresh).others = s.others := rfl
@[simp] theorem State.fresh_mem : (s.fresh).mem = s.mem := rfl
@[simp] theorem State.fresh_memPoison : (s.fresh).memPoison = s.memPoison := rfl
@[simp] theorem State.fresh_wgs : (s.fresh).wgs = s.wgs := rfl
@[simp] theorem State.fresh_grids : (s.fresh).grids = s.grids := rfl
@[simp] theorem State.fresh_launchQ : (s.fresh).launchQ = s.launchQ := rfl
@[simp] theorem State.fresh_rr : (s.fresh).rr = s.rr := rfl
@[simp] theorem State.fresh_heldRecs : (s.fresh).heldRecs = s.heldRecs := rfl
@[simp] theorem State.fresh_scratchOf : (s.fresh).scratchOf = s.scratchOf := rfl
@[simp] theorem State.fresh_ctxs : (s.fresh).ctxs = s.ctxs := rfl
@[simp] theorem State.fresh_tlb : (s.fresh).tlb = s.tlb := rfl
@[simp] theorem State.fresh_walkCache : (s.fresh).walkCache = s.walkCache := rfl
@[simp] theorem State.fresh_misses : (s.fresh).misses = s.misses := rfl
@[simp] theorem State.fresh_pageReqs : (s.fresh).pageReqs = s.pageReqs := rfl
@[simp] theorem State.fresh_locks : (s.fresh).locks = s.locks := rfl
@[simp] theorem State.fresh_lockNet : (s.fresh).lockNet = s.lockNet := rfl
@[simp] theorem State.fresh_savedGroups : (s.fresh).savedGroups = s.savedGroups := rfl
@[simp] theorem State.fresh_hazeRegions : (s.fresh).hazeRegions = s.hazeRegions := rfl
@[simp] theorem State.fresh_hazeLines : (s.fresh).hazeLines = s.hazeLines := rfl
@[simp] theorem State.fresh_hazeHomes : (s.fresh).hazeHomes = s.hazeHomes := rfl
@[simp] theorem State.fresh_hazeNet : (s.fresh).hazeNet = s.hazeNet := rfl
@[simp] theorem State.fresh_engQ : (s.fresh).engQ = s.engQ := rfl
@[simp] theorem State.fresh_mxQ : (s.fresh).mxQ = s.mxQ := rfl
@[simp] theorem State.fresh_mxOwns : (s.fresh).mxOwns = s.mxOwns := rfl
@[simp] theorem State.fresh_termQ : (s.fresh).termQ = s.termQ := rfl
@[simp] theorem State.fresh_dir : (s.fresh).dir = s.dir := rfl
@[simp] theorem State.fresh_proxies : (s.fresh).proxies = s.proxies := rfl
@[simp] theorem State.fresh_invals : (s.fresh).invals = s.invals := rfl
@[simp] theorem State.fresh_invAcks : (s.fresh).invAcks = s.invAcks := rfl
@[simp] theorem State.fresh_shares : (s.fresh).shares = s.shares := rfl
@[simp] theorem State.fresh_l1 : (s.fresh).l1 = s.l1 := rfl
@[simp] theorem State.fresh_slices : (s.fresh).slices = s.slices := rfl
@[simp] theorem State.fresh_ways : (s.fresh).ways = s.ways := rfl
@[simp] theorem State.fresh_msc : (s.fresh).msc = s.msc := rfl
@[simp] theorem State.fresh_filter : (s.fresh).filter = s.filter := rfl
@[simp] theorem State.fresh_agent : (s.fresh).agent = s.agent := rfl
@[simp] theorem State.fresh_wrec : (s.fresh).wrec = s.wrec := rfl
@[simp] theorem State.fresh_cores : (s.fresh).cores = s.cores := rfl
@[simp] theorem State.fresh_spawn : (s.fresh).spawn = s.spawn := rfl
@[simp] theorem State.fresh_lqs : (s.fresh).lqs = s.lqs := rfl
@[simp] theorem State.fresh_banks : (s.fresh).banks = s.banks := rfl
@[simp] theorem State.fresh_mgmt : (s.fresh).mgmt = s.mgmt := rfl
@[simp] theorem State.fresh_flash : (s.fresh).flash = s.flash := rfl
@[simp] theorem State.fresh_fuses : (s.fresh).fuses = s.fuses := rfl
@[simp] theorem State.fresh_heldEvents : (s.fresh).heldEvents = s.heldEvents := rfl
@[simp] theorem State.fresh_msix : (s.fresh).msix = s.msix := rfl
@[simp] theorem State.fresh_mmioOut : (s.fresh).mmioOut = s.mmioOut := rfl
@[simp] theorem State.fresh_down : (s.fresh).down = s.down := rfl
@[simp] theorem State.fresh_hops : (s.fresh).hops = s.hops := rfl
@[simp] theorem State.fresh_rykelOut : (s.fresh).rykelOut = s.rykelOut := rfl
@[simp] theorem State.fresh_bufs : (s.fresh).bufs = s.bufs := rfl
@[simp] theorem State.fresh_zlr : (s.fresh).zlr = s.zlr := rfl
@[simp] theorem State.fresh_tripped : (s.fresh).tripped = s.tripped := rfl
@[simp] theorem State.fresh_clock : (s.fresh).clock = s.clock := rfl
@[simp] theorem State.fresh_pipes : (s.fresh).pipes = s.pipes := rfl
@[simp] theorem State.fresh_swaps : (s.fresh).swaps = s.swaps := rfl
@[simp] theorem State.fresh_blocks : (s.fresh).blocks = s.blocks := rfl
@[simp] theorem State.fresh_nextId : (s.fresh).nextId = s.nextId := rfl
@[simp] theorem State.fresh_free : (s.fresh).free = s.free + 1 := rfl
@[simp] theorem State.fresh_agenda : (s.fresh).agenda = s.agenda := rfl
@[simp] theorem State.fresh_turns : (s.fresh).turns = s.turns := rfl

/-! A store of bytes. -/
@[simp] theorem State.memStore_g (a : Nat) (bs : List Byte) : (s.memStore a bs).g = s.g := rfl
@[simp] theorem State.memStore_others (a : Nat) (bs : List Byte) : (s.memStore a bs).others = s.others := rfl
@[simp] theorem State.memStore_mem (a : Nat) (bs : List Byte) : (s.memStore a bs).mem = Memory.write s.mem (s.place a) bs := rfl
@[simp] theorem State.memStore_memPoison (a : Nat) (bs : List Byte) : (s.memStore a bs).memPoison = clearPoison s.memPoison (s.place a) bs.length := rfl
@[simp] theorem State.memStore_wgs (a : Nat) (bs : List Byte) : (s.memStore a bs).wgs = s.wgs := rfl
@[simp] theorem State.memStore_grids (a : Nat) (bs : List Byte) : (s.memStore a bs).grids = s.grids := rfl
@[simp] theorem State.memStore_launchQ (a : Nat) (bs : List Byte) : (s.memStore a bs).launchQ = s.launchQ := rfl
@[simp] theorem State.memStore_rr (a : Nat) (bs : List Byte) : (s.memStore a bs).rr = s.rr := rfl
@[simp] theorem State.memStore_heldRecs (a : Nat) (bs : List Byte) : (s.memStore a bs).heldRecs = s.heldRecs := rfl
@[simp] theorem State.memStore_scratchOf (a : Nat) (bs : List Byte) : (s.memStore a bs).scratchOf = s.scratchOf := rfl
@[simp] theorem State.memStore_ctxs (a : Nat) (bs : List Byte) : (s.memStore a bs).ctxs = s.ctxs := rfl
@[simp] theorem State.memStore_tlb (a : Nat) (bs : List Byte) : (s.memStore a bs).tlb = s.tlb := rfl
@[simp] theorem State.memStore_walkCache (a : Nat) (bs : List Byte) : (s.memStore a bs).walkCache = s.walkCache := rfl
@[simp] theorem State.memStore_misses (a : Nat) (bs : List Byte) : (s.memStore a bs).misses = s.misses := rfl
@[simp] theorem State.memStore_pageReqs (a : Nat) (bs : List Byte) : (s.memStore a bs).pageReqs = s.pageReqs := rfl
@[simp] theorem State.memStore_locks (a : Nat) (bs : List Byte) : (s.memStore a bs).locks = s.locks := rfl
@[simp] theorem State.memStore_lockNet (a : Nat) (bs : List Byte) : (s.memStore a bs).lockNet = s.lockNet := rfl
@[simp] theorem State.memStore_savedGroups (a : Nat) (bs : List Byte) : (s.memStore a bs).savedGroups = s.savedGroups := rfl
@[simp] theorem State.memStore_hazeRegions (a : Nat) (bs : List Byte) : (s.memStore a bs).hazeRegions = s.hazeRegions := rfl
@[simp] theorem State.memStore_hazeLines (a : Nat) (bs : List Byte) : (s.memStore a bs).hazeLines = s.hazeLines := rfl
@[simp] theorem State.memStore_hazeHomes (a : Nat) (bs : List Byte) : (s.memStore a bs).hazeHomes = s.hazeHomes := rfl
@[simp] theorem State.memStore_hazeNet (a : Nat) (bs : List Byte) : (s.memStore a bs).hazeNet = s.hazeNet := rfl
@[simp] theorem State.memStore_engQ (a : Nat) (bs : List Byte) : (s.memStore a bs).engQ = s.engQ := rfl
@[simp] theorem State.memStore_mxQ (a : Nat) (bs : List Byte) : (s.memStore a bs).mxQ = s.mxQ := rfl
@[simp] theorem State.memStore_mxOwns (a : Nat) (bs : List Byte) : (s.memStore a bs).mxOwns = s.mxOwns := rfl
@[simp] theorem State.memStore_termQ (a : Nat) (bs : List Byte) : (s.memStore a bs).termQ = s.termQ := rfl
@[simp] theorem State.memStore_dir (a : Nat) (bs : List Byte) : (s.memStore a bs).dir = s.dir := rfl
@[simp] theorem State.memStore_proxies (a : Nat) (bs : List Byte) : (s.memStore a bs).proxies = s.proxies := rfl
@[simp] theorem State.memStore_invals (a : Nat) (bs : List Byte) : (s.memStore a bs).invals = s.invals := rfl
@[simp] theorem State.memStore_invAcks (a : Nat) (bs : List Byte) : (s.memStore a bs).invAcks = s.invAcks := rfl
@[simp] theorem State.memStore_shares (a : Nat) (bs : List Byte) : (s.memStore a bs).shares = s.shares := rfl
@[simp] theorem State.memStore_l1 (a : Nat) (bs : List Byte) : (s.memStore a bs).l1 = s.l1 := rfl
@[simp] theorem State.memStore_slices (a : Nat) (bs : List Byte) : (s.memStore a bs).slices = s.slices := rfl
@[simp] theorem State.memStore_ways (a : Nat) (bs : List Byte) : (s.memStore a bs).ways = s.ways := rfl
@[simp] theorem State.memStore_msc (a : Nat) (bs : List Byte) : (s.memStore a bs).msc = s.msc := rfl
@[simp] theorem State.memStore_filter (a : Nat) (bs : List Byte) : (s.memStore a bs).filter = s.filter := rfl
@[simp] theorem State.memStore_agent (a : Nat) (bs : List Byte) : (s.memStore a bs).agent = s.agent := rfl
@[simp] theorem State.memStore_wrec (a : Nat) (bs : List Byte) : (s.memStore a bs).wrec = s.wrec := rfl
@[simp] theorem State.memStore_cores (a : Nat) (bs : List Byte) : (s.memStore a bs).cores = s.cores := rfl
@[simp] theorem State.memStore_spawn (a : Nat) (bs : List Byte) : (s.memStore a bs).spawn = s.spawn := rfl
@[simp] theorem State.memStore_lqs (a : Nat) (bs : List Byte) : (s.memStore a bs).lqs = s.lqs := rfl
@[simp] theorem State.memStore_banks (a : Nat) (bs : List Byte) : (s.memStore a bs).banks = s.banks.map (LogBank.stored a bs.length) := rfl
@[simp] theorem State.memStore_mgmt (a : Nat) (bs : List Byte) : (s.memStore a bs).mgmt = s.mgmt := rfl
@[simp] theorem State.memStore_flash (a : Nat) (bs : List Byte) : (s.memStore a bs).flash = s.flash := rfl
@[simp] theorem State.memStore_fuses (a : Nat) (bs : List Byte) : (s.memStore a bs).fuses = s.fuses := rfl
@[simp] theorem State.memStore_heldEvents (a : Nat) (bs : List Byte) : (s.memStore a bs).heldEvents = s.heldEvents := rfl
@[simp] theorem State.memStore_msix (a : Nat) (bs : List Byte) : (s.memStore a bs).msix = s.msix := rfl
@[simp] theorem State.memStore_mmioOut (a : Nat) (bs : List Byte) : (s.memStore a bs).mmioOut = s.mmioOut := rfl
@[simp] theorem State.memStore_down (a : Nat) (bs : List Byte) : (s.memStore a bs).down = s.down := rfl
@[simp] theorem State.memStore_hops (a : Nat) (bs : List Byte) : (s.memStore a bs).hops = s.hops := rfl
@[simp] theorem State.memStore_rykelOut (a : Nat) (bs : List Byte) : (s.memStore a bs).rykelOut = s.rykelOut := rfl
@[simp] theorem State.memStore_bufs (a : Nat) (bs : List Byte) : (s.memStore a bs).bufs = s.bufs := rfl
@[simp] theorem State.memStore_zlr (a : Nat) (bs : List Byte) : (s.memStore a bs).zlr = s.zlr := rfl
@[simp] theorem State.memStore_tripped (a : Nat) (bs : List Byte) : (s.memStore a bs).tripped = s.tripped := rfl
@[simp] theorem State.memStore_clock (a : Nat) (bs : List Byte) : (s.memStore a bs).clock = s.clock := rfl
@[simp] theorem State.memStore_pipes (a : Nat) (bs : List Byte) : (s.memStore a bs).pipes = s.pipes := rfl
@[simp] theorem State.memStore_swaps (a : Nat) (bs : List Byte) : (s.memStore a bs).swaps = s.swaps := rfl
@[simp] theorem State.memStore_blocks (a : Nat) (bs : List Byte) : (s.memStore a bs).blocks = s.blocks := rfl
@[simp] theorem State.memStore_nextId (a : Nat) (bs : List Byte) : (s.memStore a bs).nextId = s.nextId := rfl
@[simp] theorem State.memStore_free (a : Nat) (bs : List Byte) : (s.memStore a bs).free = s.free := rfl
@[simp] theorem State.memStore_agenda (a : Nat) (bs : List Byte) : (s.memStore a bs).agenda = s.agenda := rfl
@[simp] theorem State.memStore_turns (a : Nat) (bs : List Byte) : (s.memStore a bs).turns = s.turns := rfl

/-! The pc's advance. -/
@[simp] theorem State.advance_g (n k : Nat) : (s.advance n k).g = { s.g with pc := s.g.pc + BitVec.ofNat 64 n, notBefore := s.clock + 1 + k } := rfl
@[simp] theorem State.advance_others (n k : Nat) : (s.advance n k).others = s.others := rfl
@[simp] theorem State.advance_mem (n k : Nat) : (s.advance n k).mem = s.mem := rfl
@[simp] theorem State.advance_memPoison (n k : Nat) : (s.advance n k).memPoison = s.memPoison := rfl
@[simp] theorem State.advance_wgs (n k : Nat) : (s.advance n k).wgs = s.wgs := rfl
@[simp] theorem State.advance_grids (n k : Nat) : (s.advance n k).grids = s.grids := rfl
@[simp] theorem State.advance_launchQ (n k : Nat) : (s.advance n k).launchQ = s.launchQ := rfl
@[simp] theorem State.advance_rr (n k : Nat) : (s.advance n k).rr = s.rr := rfl
@[simp] theorem State.advance_heldRecs (n k : Nat) : (s.advance n k).heldRecs = s.heldRecs := rfl
@[simp] theorem State.advance_scratchOf (n k : Nat) : (s.advance n k).scratchOf = s.scratchOf := rfl
@[simp] theorem State.advance_ctxs (n k : Nat) : (s.advance n k).ctxs = s.ctxs := rfl
@[simp] theorem State.advance_tlb (n k : Nat) : (s.advance n k).tlb = s.tlb := rfl
@[simp] theorem State.advance_walkCache (n k : Nat) : (s.advance n k).walkCache = s.walkCache := rfl
@[simp] theorem State.advance_misses (n k : Nat) : (s.advance n k).misses = s.misses := rfl
@[simp] theorem State.advance_pageReqs (n k : Nat) : (s.advance n k).pageReqs = s.pageReqs := rfl
@[simp] theorem State.advance_locks (n k : Nat) : (s.advance n k).locks = s.locks := rfl
@[simp] theorem State.advance_lockNet (n k : Nat) : (s.advance n k).lockNet = s.lockNet := rfl
@[simp] theorem State.advance_savedGroups (n k : Nat) : (s.advance n k).savedGroups = s.savedGroups := rfl
@[simp] theorem State.advance_hazeRegions (n k : Nat) : (s.advance n k).hazeRegions = s.hazeRegions := rfl
@[simp] theorem State.advance_hazeLines (n k : Nat) : (s.advance n k).hazeLines = s.hazeLines := rfl
@[simp] theorem State.advance_hazeHomes (n k : Nat) : (s.advance n k).hazeHomes = s.hazeHomes := rfl
@[simp] theorem State.advance_hazeNet (n k : Nat) : (s.advance n k).hazeNet = s.hazeNet := rfl
@[simp] theorem State.advance_engQ (n k : Nat) : (s.advance n k).engQ = s.engQ := rfl
@[simp] theorem State.advance_mxQ (n k : Nat) : (s.advance n k).mxQ = s.mxQ := rfl
@[simp] theorem State.advance_mxOwns (n k : Nat) : (s.advance n k).mxOwns = s.mxOwns := rfl
@[simp] theorem State.advance_termQ (n k : Nat) : (s.advance n k).termQ = s.termQ := rfl
@[simp] theorem State.advance_dir (n k : Nat) : (s.advance n k).dir = s.dir := rfl
@[simp] theorem State.advance_proxies (n k : Nat) : (s.advance n k).proxies = s.proxies := rfl
@[simp] theorem State.advance_invals (n k : Nat) : (s.advance n k).invals = s.invals := rfl
@[simp] theorem State.advance_invAcks (n k : Nat) : (s.advance n k).invAcks = s.invAcks := rfl
@[simp] theorem State.advance_shares (n k : Nat) : (s.advance n k).shares = s.shares := rfl
@[simp] theorem State.advance_l1 (n k : Nat) : (s.advance n k).l1 = s.l1 := rfl
@[simp] theorem State.advance_slices (n k : Nat) : (s.advance n k).slices = s.slices := rfl
@[simp] theorem State.advance_ways (n k : Nat) : (s.advance n k).ways = s.ways := rfl
@[simp] theorem State.advance_msc (n k : Nat) : (s.advance n k).msc = s.msc := rfl
@[simp] theorem State.advance_filter (n k : Nat) : (s.advance n k).filter = s.filter := rfl
@[simp] theorem State.advance_agent (n k : Nat) : (s.advance n k).agent = s.agent := rfl
@[simp] theorem State.advance_wrec (n k : Nat) : (s.advance n k).wrec = s.wrec := rfl
@[simp] theorem State.advance_cores (n k : Nat) : (s.advance n k).cores = s.cores := rfl
@[simp] theorem State.advance_spawn (n k : Nat) : (s.advance n k).spawn = s.spawn := rfl
@[simp] theorem State.advance_lqs (n k : Nat) : (s.advance n k).lqs = s.lqs := rfl
@[simp] theorem State.advance_banks (n k : Nat) : (s.advance n k).banks = s.banks := rfl
@[simp] theorem State.advance_mgmt (n k : Nat) : (s.advance n k).mgmt = s.mgmt := rfl
@[simp] theorem State.advance_flash (n k : Nat) : (s.advance n k).flash = s.flash := rfl
@[simp] theorem State.advance_fuses (n k : Nat) : (s.advance n k).fuses = s.fuses := rfl
@[simp] theorem State.advance_heldEvents (n k : Nat) : (s.advance n k).heldEvents = s.heldEvents := rfl
@[simp] theorem State.advance_msix (n k : Nat) : (s.advance n k).msix = s.msix := rfl
@[simp] theorem State.advance_mmioOut (n k : Nat) : (s.advance n k).mmioOut = s.mmioOut := rfl
@[simp] theorem State.advance_down (n k : Nat) : (s.advance n k).down = s.down := rfl
@[simp] theorem State.advance_hops (n k : Nat) : (s.advance n k).hops = s.hops := rfl
@[simp] theorem State.advance_rykelOut (n k : Nat) : (s.advance n k).rykelOut = s.rykelOut := rfl
@[simp] theorem State.advance_bufs (n k : Nat) : (s.advance n k).bufs = s.bufs := rfl
@[simp] theorem State.advance_zlr (n k : Nat) : (s.advance n k).zlr = s.zlr := rfl
@[simp] theorem State.advance_tripped (n k : Nat) : (s.advance n k).tripped = s.tripped := rfl
@[simp] theorem State.advance_clock (n k : Nat) : (s.advance n k).clock = s.clock := rfl
@[simp] theorem State.advance_pipes (n k : Nat) : (s.advance n k).pipes = s.pipes := rfl
@[simp] theorem State.advance_swaps (n k : Nat) : (s.advance n k).swaps = s.swaps := rfl
@[simp] theorem State.advance_blocks (n k : Nat) : (s.advance n k).blocks = s.blocks := rfl
@[simp] theorem State.advance_nextId (n k : Nat) : (s.advance n k).nextId = s.nextId := rfl
@[simp] theorem State.advance_free (n k : Nat) : (s.advance n k).free = s.free := rfl
@[simp] theorem State.advance_agenda (n k : Nat) : (s.advance n k).agenda = s.agenda := rfl
@[simp] theorem State.advance_turns (n k : Nat) : (s.advance n k).turns = s.turns := rfl

/-! A pipe is taken. -/
@[simp] theorem State.occupy_g (p c : Nat) : (s.occupy p c).g = s.g := rfl
@[simp] theorem State.occupy_others (p c : Nat) : (s.occupy p c).others = s.others := rfl
@[simp] theorem State.occupy_mem (p c : Nat) : (s.occupy p c).mem = s.mem := rfl
@[simp] theorem State.occupy_memPoison (p c : Nat) : (s.occupy p c).memPoison = s.memPoison := rfl
@[simp] theorem State.occupy_wgs (p c : Nat) : (s.occupy p c).wgs = s.wgs := rfl
@[simp] theorem State.occupy_grids (p c : Nat) : (s.occupy p c).grids = s.grids := rfl
@[simp] theorem State.occupy_launchQ (p c : Nat) : (s.occupy p c).launchQ = s.launchQ := rfl
@[simp] theorem State.occupy_rr (p c : Nat) : (s.occupy p c).rr = s.rr := rfl
@[simp] theorem State.occupy_heldRecs (p c : Nat) : (s.occupy p c).heldRecs = s.heldRecs := rfl
@[simp] theorem State.occupy_scratchOf (p c : Nat) : (s.occupy p c).scratchOf = s.scratchOf := rfl
@[simp] theorem State.occupy_ctxs (p c : Nat) : (s.occupy p c).ctxs = s.ctxs := rfl
@[simp] theorem State.occupy_tlb (p c : Nat) : (s.occupy p c).tlb = s.tlb := rfl
@[simp] theorem State.occupy_walkCache (p c : Nat) : (s.occupy p c).walkCache = s.walkCache := rfl
@[simp] theorem State.occupy_misses (p c : Nat) : (s.occupy p c).misses = s.misses := rfl
@[simp] theorem State.occupy_pageReqs (p c : Nat) : (s.occupy p c).pageReqs = s.pageReqs := rfl
@[simp] theorem State.occupy_locks (p c : Nat) : (s.occupy p c).locks = s.locks := rfl
@[simp] theorem State.occupy_lockNet (p c : Nat) : (s.occupy p c).lockNet = s.lockNet := rfl
@[simp] theorem State.occupy_savedGroups (p c : Nat) : (s.occupy p c).savedGroups = s.savedGroups := rfl
@[simp] theorem State.occupy_hazeRegions (p c : Nat) : (s.occupy p c).hazeRegions = s.hazeRegions := rfl
@[simp] theorem State.occupy_hazeLines (p c : Nat) : (s.occupy p c).hazeLines = s.hazeLines := rfl
@[simp] theorem State.occupy_hazeHomes (p c : Nat) : (s.occupy p c).hazeHomes = s.hazeHomes := rfl
@[simp] theorem State.occupy_hazeNet (p c : Nat) : (s.occupy p c).hazeNet = s.hazeNet := rfl
@[simp] theorem State.occupy_engQ (p c : Nat) : (s.occupy p c).engQ = s.engQ := rfl
@[simp] theorem State.occupy_mxQ (p c : Nat) : (s.occupy p c).mxQ = s.mxQ := rfl
@[simp] theorem State.occupy_mxOwns (p c : Nat) : (s.occupy p c).mxOwns = s.mxOwns := rfl
@[simp] theorem State.occupy_termQ (p c : Nat) : (s.occupy p c).termQ = s.termQ := rfl
@[simp] theorem State.occupy_dir (p c : Nat) : (s.occupy p c).dir = s.dir := rfl
@[simp] theorem State.occupy_proxies (p c : Nat) : (s.occupy p c).proxies = s.proxies := rfl
@[simp] theorem State.occupy_invals (p c : Nat) : (s.occupy p c).invals = s.invals := rfl
@[simp] theorem State.occupy_invAcks (p c : Nat) : (s.occupy p c).invAcks = s.invAcks := rfl
@[simp] theorem State.occupy_shares (p c : Nat) : (s.occupy p c).shares = s.shares := rfl
@[simp] theorem State.occupy_l1 (p c : Nat) : (s.occupy p c).l1 = s.l1 := rfl
@[simp] theorem State.occupy_slices (p c : Nat) : (s.occupy p c).slices = s.slices := rfl
@[simp] theorem State.occupy_ways (p c : Nat) : (s.occupy p c).ways = s.ways := rfl
@[simp] theorem State.occupy_msc (p c : Nat) : (s.occupy p c).msc = s.msc := rfl
@[simp] theorem State.occupy_filter (p c : Nat) : (s.occupy p c).filter = s.filter := rfl
@[simp] theorem State.occupy_agent (p c : Nat) : (s.occupy p c).agent = s.agent := rfl
@[simp] theorem State.occupy_wrec (p c : Nat) : (s.occupy p c).wrec = s.wrec := rfl
@[simp] theorem State.occupy_cores (p c : Nat) : (s.occupy p c).cores = s.cores := rfl
@[simp] theorem State.occupy_spawn (p c : Nat) : (s.occupy p c).spawn = s.spawn := rfl
@[simp] theorem State.occupy_lqs (p c : Nat) : (s.occupy p c).lqs = s.lqs := rfl
@[simp] theorem State.occupy_banks (p c : Nat) : (s.occupy p c).banks = s.banks := rfl
@[simp] theorem State.occupy_mgmt (p c : Nat) : (s.occupy p c).mgmt = s.mgmt := rfl
@[simp] theorem State.occupy_flash (p c : Nat) : (s.occupy p c).flash = s.flash := rfl
@[simp] theorem State.occupy_fuses (p c : Nat) : (s.occupy p c).fuses = s.fuses := rfl
@[simp] theorem State.occupy_heldEvents (p c : Nat) : (s.occupy p c).heldEvents = s.heldEvents := rfl
@[simp] theorem State.occupy_msix (p c : Nat) : (s.occupy p c).msix = s.msix := rfl
@[simp] theorem State.occupy_mmioOut (p c : Nat) : (s.occupy p c).mmioOut = s.mmioOut := rfl
@[simp] theorem State.occupy_down (p c : Nat) : (s.occupy p c).down = s.down := rfl
@[simp] theorem State.occupy_hops (p c : Nat) : (s.occupy p c).hops = s.hops := rfl
@[simp] theorem State.occupy_rykelOut (p c : Nat) : (s.occupy p c).rykelOut = s.rykelOut := rfl
@[simp] theorem State.occupy_bufs (p c : Nat) : (s.occupy p c).bufs = s.bufs := rfl
@[simp] theorem State.occupy_zlr (p c : Nat) : (s.occupy p c).zlr = s.zlr := rfl
@[simp] theorem State.occupy_tripped (p c : Nat) : (s.occupy p c).tripped = s.tripped := rfl
@[simp] theorem State.occupy_clock (p c : Nat) : (s.occupy p c).clock = s.clock := rfl
@[simp] theorem State.occupy_pipes (p c : Nat) : (s.occupy p c).pipes = (s.g.core, s.g.quarter, p, c, s.g.id) :: s.pipes.filter fun e => !(e.1 == s.g.core && e.2.1 == s.g.quarter && e.2.2.1 == p) := rfl
@[simp] theorem State.occupy_swaps (p c : Nat) : (s.occupy p c).swaps = s.swaps := rfl
@[simp] theorem State.occupy_blocks (p c : Nat) : (s.occupy p c).blocks = s.blocks := rfl
@[simp] theorem State.occupy_nextId (p c : Nat) : (s.occupy p c).nextId = s.nextId := rfl
@[simp] theorem State.occupy_free (p c : Nat) : (s.occupy p c).free = s.free := rfl
@[simp] theorem State.occupy_agenda (p c : Nat) : (s.occupy p c).agenda = s.agenda := rfl
@[simp] theorem State.occupy_turns (p c : Nat) : (s.occupy p c).turns = s.turns := rfl

/-! A producer's entry. -/
@[simp] theorem Group.produceIn_id (r : Ref) (c : Nat) (m : Mask) : (g.produceIn r c m).id = g.id := rfl
@[simp] theorem Group.produceIn_age (r : Ref) (c : Nat) (m : Mask) : (g.produceIn r c m).age = g.age := rfl
@[simp] theorem Group.produceIn_core (r : Ref) (c : Nat) (m : Mask) : (g.produceIn r c m).core = g.core := rfl
@[simp] theorem Group.produceIn_quarter (r : Ref) (c : Nat) (m : Mask) : (g.produceIn r c m).quarter = g.quarter := rfl
@[simp] theorem Group.produceIn_place (r : Ref) (c : Nat) (m : Mask) : (g.produceIn r c m).place = g.place := rfl
@[simp] theorem Group.produceIn_ctx (r : Ref) (c : Nat) (m : Mask) : (g.produceIn r c m).ctx = g.ctx := rfl
@[simp] theorem Group.produceIn_root (r : Ref) (c : Nat) (m : Mask) : (g.produceIn r c m).root = g.root := rfl
@[simp] theorem Group.produceIn_grid (r : Ref) (c : Nat) (m : Mask) : (g.produceIn r c m).grid = g.grid := rfl
@[simp] theorem Group.produceIn_wg (r : Ref) (c : Nat) (m : Mask) : (g.produceIn r c m).wg = g.wg := rfl
@[simp] theorem Group.produceIn_wgidX (r : Ref) (c : Nat) (m : Mask) : (g.produceIn r c m).wgidX = g.wgidX := rfl
@[simp] theorem Group.produceIn_wgidY (r : Ref) (c : Nat) (m : Mask) : (g.produceIn r c m).wgidY = g.wgidY := rfl
@[simp] theorem Group.produceIn_wgidZ (r : Ref) (c : Nat) (m : Mask) : (g.produceIn r c m).wgidZ = g.wgidZ := rfl
@[simp] theorem Group.produceIn_gidx (r : Ref) (c : Nat) (m : Mask) : (g.produceIn r c m).gidx = g.gidx := rfl
@[simp] theorem Group.produceIn_member (r : Ref) (c : Nat) (m : Mask) : (g.produceIn r c m).member = g.member := rfl
@[simp] theorem Group.produceIn_num (r : Ref) (c : Nat) (m : Mask) : (g.produceIn r c m).num = g.num := rfl
@[simp] theorem Group.produceIn_real (r : Ref) (c : Nat) (m : Mask) : (g.produceIn r c m).real = g.real := rfl
@[simp] theorem Group.produceIn_present (r : Ref) (c : Nat) (m : Mask) : (g.produceIn r c m).present = g.present := rfl
@[simp] theorem Group.produceIn_exited (r : Ref) (c : Nat) (m : Mask) : (g.produceIn r c m).exited = g.exited := rfl
@[simp] theorem Group.produceIn_mask (r : Ref) (c : Nat) (m : Mask) : (g.produceIn r c m).mask = g.mask := rfl
@[simp] theorem Group.produceIn_gslots (r : Ref) (c : Nat) (m : Mask) : (g.produceIn r c m).gslots = g.gslots := rfl
@[simp] theorem Group.produceIn_pc (r : Ref) (c : Nat) (m : Mask) : (g.produceIn r c m).pc = g.pc := rfl
@[simp] theorem Group.produceIn_v (r : Ref) (c : Nat) (m : Mask) : (g.produceIn r c m).v = g.v := rfl
@[simp] theorem Group.produceIn_s (r : Ref) (c : Nat) (m : Mask) : (g.produceIn r c m).s = g.s := rfl
@[simp] theorem Group.produceIn_sPoison (r : Ref) (c : Nat) (m : Mask) : (g.produceIn r c m).sPoison = g.sPoison := rfl
@[simp] theorem Group.produceIn_bad (r : Ref) (c : Nat) (m : Mask) : (g.produceIn r c m).bad = g.bad := rfl
@[simp] theorem Group.produceIn_p (r : Ref) (c : Nat) (m : Mask) : (g.produceIn r c m).p = g.p := rfl
@[simp] theorem Group.produceIn_gsr (r : Ref) (c : Nat) (m : Mask) : (g.produceIn r c m).gsr = g.gsr := rfl
@[simp] theorem Group.produceIn_fmt (r : Ref) (c : Nat) (m : Mask) : (g.produceIn r c m).fmt = g.fmt := rfl
@[simp] theorem Group.produceIn_sig (r : Ref) (c : Nat) (m : Mask) : (g.produceIn r c m).sig = g.sig := rfl
@[simp] theorem Group.produceIn_sigLatch (r : Ref) (c : Nat) (m : Mask) : (g.produceIn r c m).sigLatch = g.sigLatch := rfl
@[simp] theorem Group.produceIn_sw (r : Ref) (c : Nat) (m : Mask) : (g.produceIn r c m).sw = g.sw := rfl
@[simp] theorem Group.produceIn_mshape (r : Ref) (c : Nat) (m : Mask) : (g.produceIn r c m).mshape = g.mshape := rfl
@[simp] theorem Group.produceIn_mcloud (r : Ref) (c : Nat) (m : Mask) : (g.produceIn r c m).mcloud = g.mcloud := rfl
@[simp] theorem Group.produceIn_ckint (r : Ref) (c : Nat) (m : Mask) : (g.produceIn r c m).ckint = g.ckint := rfl
@[simp] theorem Group.produceIn_rpc (r : Ref) (c : Nat) (m : Mask) : (g.produceIn r c m).rpc = g.rpc := rfl
@[simp] theorem Group.produceIn_seed (r : Ref) (c : Nat) (m : Mask) : (g.produceIn r c m).seed = g.seed := rfl
@[simp] theorem Group.produceIn_cych (r : Ref) (c : Nat) (m : Mask) : (g.produceIn r c m).cych = g.cych := rfl
@[simp] theorem Group.produceIn_rnd (r : Ref) (c : Nat) (m : Mask) : (g.produceIn r c m).rnd = g.rnd := rfl
@[simp] theorem Group.produceIn_ret (r : Ref) (c : Nat) (m : Mask) : (g.produceIn r c m).ret = g.ret := rfl
@[simp] theorem Group.produceIn_retArea (r : Ref) (c : Nat) (m : Mask) : (g.produceIn r c m).retArea = g.retArea := rfl
@[simp] theorem Group.produceIn_recon (r : Ref) (c : Nat) (m : Mask) : (g.produceIn r c m).recon = g.recon := rfl
@[simp] theorem Group.produceIn_reconArea (r : Ref) (c : Nat) (m : Mask) : (g.produceIn r c m).reconArea = g.reconArea := rfl
@[simp] theorem Group.produceIn_retLost (r : Ref) (c : Nat) (m : Mask) : (g.produceIn r c m).retLost = g.retLost := rfl
@[simp] theorem Group.produceIn_reconLost (r : Ref) (c : Nat) (m : Mask) : (g.produceIn r c m).reconLost = g.reconLost := rfl
@[simp] theorem Group.produceIn_recTouched (r : Ref) (c : Nat) (m : Mask) : (g.produceIn r c m).recTouched = g.recTouched := rfl
@[simp] theorem Group.produceIn_handler (r : Ref) (c : Nat) (m : Mask) : (g.produceIn r c m).handler = g.handler := rfl
@[simp] theorem Group.produceIn_region (r : Ref) (c : Nat) (m : Mask) : (g.produceIn r c m).region = g.region := rfl
@[simp] theorem Group.produceIn_wait (r : Ref) (c : Nat) (m : Mask) : (g.produceIn r c m).wait = g.wait := rfl
@[simp] theorem Group.produceIn_pend (r : Ref) (c : Nat) (m : Mask) : (g.produceIn r c m).pend = g.pend := rfl
@[simp] theorem Group.produceIn_mxRuns (r : Ref) (c : Nat) (m : Mask) : (g.produceIn r c m).mxRuns = g.mxRuns := rfl
@[simp] theorem Group.produceIn_nBar (r : Ref) (c : Nat) (m : Mask) : (g.produceIn r c m).nBar = g.nBar := rfl
@[simp] theorem Group.produceIn_nCbar (r : Ref) (c : Nat) (m : Mask) : (g.produceIn r c m).nCbar = g.nCbar := rfl
@[simp] theorem Group.produceIn_nElectw (r : Ref) (c : Nat) (m : Mask) : (g.produceIn r c m).nElectw = g.nElectw := rfl
@[simp] theorem Group.produceIn_nJoin (r : Ref) (c : Nat) (m : Mask) : (g.produceIn r c m).nJoin = g.nJoin := rfl
@[simp] theorem Group.produceIn_arrived (r : Ref) (c : Nat) (m : Mask) : (g.produceIn r c m).arrived = g.arrived := rfl
@[simp] theorem Group.produceIn_triggered (r : Ref) (c : Nat) (m : Mask) : (g.produceIn r c m).triggered = g.triggered := rfl
@[simp] theorem Group.produceIn_active (r : Ref) (c : Nat) (m : Mask) : (g.produceIn r c m).active = g.active := rfl
@[simp] theorem Group.produceIn_readySince (r : Ref) (c : Nat) (m : Mask) : (g.produceIn r c m).readySince = g.readySince := rfl
@[simp] theorem Group.produceIn_notBefore (r : Ref) (c : Nat) (m : Mask) : (g.produceIn r c m).notBefore = g.notBefore := rfl
@[simp] theorem Group.produceIn_inflight (r : Ref) (c : Nat) (m : Mask) : (g.produceIn r c m).inflight = g.inflight.map (Inflight.under r c m) ++ [⟨r, c, m, g.refVal r⟩] := rfl
@[simp] theorem Group.produceIn_replay (r : Ref) (c : Nat) (m : Mask) : (g.produceIn r c m).replay = g.replay := rfl
@[simp] theorem Group.produceIn_termRefused (r : Ref) (c : Nat) (m : Mask) : (g.produceIn r c m).termRefused = g.termRefused := rfl
@[simp] theorem Group.produceIn_block (r : Ref) (c : Nat) (m : Mask) : (g.produceIn r c m).block = g.block := rfl
@[simp] theorem Group.produceIn_stopped (r : Ref) (c : Nat) (m : Mask) : (g.produceIn r c m).stopped = g.stopped := rfl
@[simp] theorem Group.produceIn_saved (r : Ref) (c : Nat) (m : Mask) : (g.produceIn r c m).saved = g.saved := rfl
@[simp] theorem Group.produceIn_refused (r : Ref) (c : Nat) (m : Mask) : (g.produceIn r c m).refused = g.refused := rfl

/-! The same for a register without lanes. -/
@[simp] theorem Group.produce_id (r : Ref) (c : Nat) : (g.produce r c).id = g.id := rfl
@[simp] theorem Group.produce_age (r : Ref) (c : Nat) : (g.produce r c).age = g.age := rfl
@[simp] theorem Group.produce_core (r : Ref) (c : Nat) : (g.produce r c).core = g.core := rfl
@[simp] theorem Group.produce_quarter (r : Ref) (c : Nat) : (g.produce r c).quarter = g.quarter := rfl
@[simp] theorem Group.produce_place (r : Ref) (c : Nat) : (g.produce r c).place = g.place := rfl
@[simp] theorem Group.produce_ctx (r : Ref) (c : Nat) : (g.produce r c).ctx = g.ctx := rfl
@[simp] theorem Group.produce_root (r : Ref) (c : Nat) : (g.produce r c).root = g.root := rfl
@[simp] theorem Group.produce_grid (r : Ref) (c : Nat) : (g.produce r c).grid = g.grid := rfl
@[simp] theorem Group.produce_wg (r : Ref) (c : Nat) : (g.produce r c).wg = g.wg := rfl
@[simp] theorem Group.produce_wgidX (r : Ref) (c : Nat) : (g.produce r c).wgidX = g.wgidX := rfl
@[simp] theorem Group.produce_wgidY (r : Ref) (c : Nat) : (g.produce r c).wgidY = g.wgidY := rfl
@[simp] theorem Group.produce_wgidZ (r : Ref) (c : Nat) : (g.produce r c).wgidZ = g.wgidZ := rfl
@[simp] theorem Group.produce_gidx (r : Ref) (c : Nat) : (g.produce r c).gidx = g.gidx := rfl
@[simp] theorem Group.produce_member (r : Ref) (c : Nat) : (g.produce r c).member = g.member := rfl
@[simp] theorem Group.produce_num (r : Ref) (c : Nat) : (g.produce r c).num = g.num := rfl
@[simp] theorem Group.produce_real (r : Ref) (c : Nat) : (g.produce r c).real = g.real := rfl
@[simp] theorem Group.produce_present (r : Ref) (c : Nat) : (g.produce r c).present = g.present := rfl
@[simp] theorem Group.produce_exited (r : Ref) (c : Nat) : (g.produce r c).exited = g.exited := rfl
@[simp] theorem Group.produce_mask (r : Ref) (c : Nat) : (g.produce r c).mask = g.mask := rfl
@[simp] theorem Group.produce_gslots (r : Ref) (c : Nat) : (g.produce r c).gslots = g.gslots := rfl
@[simp] theorem Group.produce_pc (r : Ref) (c : Nat) : (g.produce r c).pc = g.pc := rfl
@[simp] theorem Group.produce_v (r : Ref) (c : Nat) : (g.produce r c).v = g.v := rfl
@[simp] theorem Group.produce_s (r : Ref) (c : Nat) : (g.produce r c).s = g.s := rfl
@[simp] theorem Group.produce_sPoison (r : Ref) (c : Nat) : (g.produce r c).sPoison = g.sPoison := rfl
@[simp] theorem Group.produce_bad (r : Ref) (c : Nat) : (g.produce r c).bad = g.bad := rfl
@[simp] theorem Group.produce_p (r : Ref) (c : Nat) : (g.produce r c).p = g.p := rfl
@[simp] theorem Group.produce_gsr (r : Ref) (c : Nat) : (g.produce r c).gsr = g.gsr := rfl
@[simp] theorem Group.produce_fmt (r : Ref) (c : Nat) : (g.produce r c).fmt = g.fmt := rfl
@[simp] theorem Group.produce_sig (r : Ref) (c : Nat) : (g.produce r c).sig = g.sig := rfl
@[simp] theorem Group.produce_sigLatch (r : Ref) (c : Nat) : (g.produce r c).sigLatch = g.sigLatch := rfl
@[simp] theorem Group.produce_sw (r : Ref) (c : Nat) : (g.produce r c).sw = g.sw := rfl
@[simp] theorem Group.produce_mshape (r : Ref) (c : Nat) : (g.produce r c).mshape = g.mshape := rfl
@[simp] theorem Group.produce_mcloud (r : Ref) (c : Nat) : (g.produce r c).mcloud = g.mcloud := rfl
@[simp] theorem Group.produce_ckint (r : Ref) (c : Nat) : (g.produce r c).ckint = g.ckint := rfl
@[simp] theorem Group.produce_rpc (r : Ref) (c : Nat) : (g.produce r c).rpc = g.rpc := rfl
@[simp] theorem Group.produce_seed (r : Ref) (c : Nat) : (g.produce r c).seed = g.seed := rfl
@[simp] theorem Group.produce_cych (r : Ref) (c : Nat) : (g.produce r c).cych = g.cych := rfl
@[simp] theorem Group.produce_rnd (r : Ref) (c : Nat) : (g.produce r c).rnd = g.rnd := rfl
@[simp] theorem Group.produce_ret (r : Ref) (c : Nat) : (g.produce r c).ret = g.ret := rfl
@[simp] theorem Group.produce_retArea (r : Ref) (c : Nat) : (g.produce r c).retArea = g.retArea := rfl
@[simp] theorem Group.produce_recon (r : Ref) (c : Nat) : (g.produce r c).recon = g.recon := rfl
@[simp] theorem Group.produce_reconArea (r : Ref) (c : Nat) : (g.produce r c).reconArea = g.reconArea := rfl
@[simp] theorem Group.produce_retLost (r : Ref) (c : Nat) : (g.produce r c).retLost = g.retLost := rfl
@[simp] theorem Group.produce_reconLost (r : Ref) (c : Nat) : (g.produce r c).reconLost = g.reconLost := rfl
@[simp] theorem Group.produce_recTouched (r : Ref) (c : Nat) : (g.produce r c).recTouched = g.recTouched := rfl
@[simp] theorem Group.produce_handler (r : Ref) (c : Nat) : (g.produce r c).handler = g.handler := rfl
@[simp] theorem Group.produce_region (r : Ref) (c : Nat) : (g.produce r c).region = g.region := rfl
@[simp] theorem Group.produce_wait (r : Ref) (c : Nat) : (g.produce r c).wait = g.wait := rfl
@[simp] theorem Group.produce_pend (r : Ref) (c : Nat) : (g.produce r c).pend = g.pend := rfl
@[simp] theorem Group.produce_mxRuns (r : Ref) (c : Nat) : (g.produce r c).mxRuns = g.mxRuns := rfl
@[simp] theorem Group.produce_nBar (r : Ref) (c : Nat) : (g.produce r c).nBar = g.nBar := rfl
@[simp] theorem Group.produce_nCbar (r : Ref) (c : Nat) : (g.produce r c).nCbar = g.nCbar := rfl
@[simp] theorem Group.produce_nElectw (r : Ref) (c : Nat) : (g.produce r c).nElectw = g.nElectw := rfl
@[simp] theorem Group.produce_nJoin (r : Ref) (c : Nat) : (g.produce r c).nJoin = g.nJoin := rfl
@[simp] theorem Group.produce_arrived (r : Ref) (c : Nat) : (g.produce r c).arrived = g.arrived := rfl
@[simp] theorem Group.produce_triggered (r : Ref) (c : Nat) : (g.produce r c).triggered = g.triggered := rfl
@[simp] theorem Group.produce_active (r : Ref) (c : Nat) : (g.produce r c).active = g.active := rfl
@[simp] theorem Group.produce_readySince (r : Ref) (c : Nat) : (g.produce r c).readySince = g.readySince := rfl
@[simp] theorem Group.produce_notBefore (r : Ref) (c : Nat) : (g.produce r c).notBefore = g.notBefore := rfl
@[simp] theorem Group.produce_inflight (r : Ref) (c : Nat) : (g.produce r c).inflight = g.inflight.map (Inflight.under r c (BitVec.allOnes 96)) ++ [⟨r, c, BitVec.allOnes 96, g.refVal r⟩] := rfl
@[simp] theorem Group.produce_replay (r : Ref) (c : Nat) : (g.produce r c).replay = g.replay := rfl
@[simp] theorem Group.produce_termRefused (r : Ref) (c : Nat) : (g.produce r c).termRefused = g.termRefused := rfl
@[simp] theorem Group.produce_block (r : Ref) (c : Nat) : (g.produce r c).block = g.block := rfl
@[simp] theorem Group.produce_stopped (r : Ref) (c : Nat) : (g.produce r c).stopped = g.stopped := rfl
@[simp] theorem Group.produce_saved (r : Ref) (c : Nat) : (g.produce r c).saved = g.saved := rfl
@[simp] theorem Group.produce_refused (r : Ref) (c : Nat) : (g.produce r c).refused = g.refused := rfl

/-! A bit of %ckint. -/
@[simp] theorem Group.ck_id (b : Nat) : (g.ck b).id = g.id := rfl
@[simp] theorem Group.ck_age (b : Nat) : (g.ck b).age = g.age := rfl
@[simp] theorem Group.ck_core (b : Nat) : (g.ck b).core = g.core := rfl
@[simp] theorem Group.ck_quarter (b : Nat) : (g.ck b).quarter = g.quarter := rfl
@[simp] theorem Group.ck_place (b : Nat) : (g.ck b).place = g.place := rfl
@[simp] theorem Group.ck_ctx (b : Nat) : (g.ck b).ctx = g.ctx := rfl
@[simp] theorem Group.ck_root (b : Nat) : (g.ck b).root = g.root := rfl
@[simp] theorem Group.ck_grid (b : Nat) : (g.ck b).grid = g.grid := rfl
@[simp] theorem Group.ck_wg (b : Nat) : (g.ck b).wg = g.wg := rfl
@[simp] theorem Group.ck_wgidX (b : Nat) : (g.ck b).wgidX = g.wgidX := rfl
@[simp] theorem Group.ck_wgidY (b : Nat) : (g.ck b).wgidY = g.wgidY := rfl
@[simp] theorem Group.ck_wgidZ (b : Nat) : (g.ck b).wgidZ = g.wgidZ := rfl
@[simp] theorem Group.ck_gidx (b : Nat) : (g.ck b).gidx = g.gidx := rfl
@[simp] theorem Group.ck_member (b : Nat) : (g.ck b).member = g.member := rfl
@[simp] theorem Group.ck_num (b : Nat) : (g.ck b).num = g.num := rfl
@[simp] theorem Group.ck_real (b : Nat) : (g.ck b).real = g.real := rfl
@[simp] theorem Group.ck_present (b : Nat) : (g.ck b).present = g.present := rfl
@[simp] theorem Group.ck_exited (b : Nat) : (g.ck b).exited = g.exited := rfl
@[simp] theorem Group.ck_mask (b : Nat) : (g.ck b).mask = g.mask := rfl
@[simp] theorem Group.ck_gslots (b : Nat) : (g.ck b).gslots = g.gslots := rfl
@[simp] theorem Group.ck_pc (b : Nat) : (g.ck b).pc = g.pc := rfl
@[simp] theorem Group.ck_v (b : Nat) : (g.ck b).v = g.v := rfl
@[simp] theorem Group.ck_s (b : Nat) : (g.ck b).s = g.s := rfl
@[simp] theorem Group.ck_sPoison (b : Nat) : (g.ck b).sPoison = g.sPoison := rfl
@[simp] theorem Group.ck_bad (b : Nat) : (g.ck b).bad = g.bad := rfl
@[simp] theorem Group.ck_p (b : Nat) : (g.ck b).p = g.p := rfl
@[simp] theorem Group.ck_gsr (b : Nat) : (g.ck b).gsr = g.gsr := rfl
@[simp] theorem Group.ck_fmt (b : Nat) : (g.ck b).fmt = g.fmt := rfl
@[simp] theorem Group.ck_sig (b : Nat) : (g.ck b).sig = g.sig := rfl
@[simp] theorem Group.ck_sigLatch (b : Nat) : (g.ck b).sigLatch = g.sigLatch := rfl
@[simp] theorem Group.ck_sw (b : Nat) : (g.ck b).sw = g.sw := rfl
@[simp] theorem Group.ck_mshape (b : Nat) : (g.ck b).mshape = g.mshape := rfl
@[simp] theorem Group.ck_mcloud (b : Nat) : (g.ck b).mcloud = g.mcloud := rfl
@[simp] theorem Group.ck_ckint (b : Nat) : (g.ck b).ckint = setBit g.ckint b true := rfl
@[simp] theorem Group.ck_rpc (b : Nat) : (g.ck b).rpc = g.rpc := rfl
@[simp] theorem Group.ck_seed (b : Nat) : (g.ck b).seed = g.seed := rfl
@[simp] theorem Group.ck_cych (b : Nat) : (g.ck b).cych = g.cych := rfl
@[simp] theorem Group.ck_rnd (b : Nat) : (g.ck b).rnd = g.rnd := rfl
@[simp] theorem Group.ck_ret (b : Nat) : (g.ck b).ret = g.ret := rfl
@[simp] theorem Group.ck_retArea (b : Nat) : (g.ck b).retArea = g.retArea := rfl
@[simp] theorem Group.ck_recon (b : Nat) : (g.ck b).recon = g.recon := rfl
@[simp] theorem Group.ck_reconArea (b : Nat) : (g.ck b).reconArea = g.reconArea := rfl
@[simp] theorem Group.ck_retLost (b : Nat) : (g.ck b).retLost = g.retLost := rfl
@[simp] theorem Group.ck_reconLost (b : Nat) : (g.ck b).reconLost = g.reconLost := rfl
@[simp] theorem Group.ck_recTouched (b : Nat) : (g.ck b).recTouched = g.recTouched := rfl
@[simp] theorem Group.ck_handler (b : Nat) : (g.ck b).handler = g.handler := rfl
@[simp] theorem Group.ck_region (b : Nat) : (g.ck b).region = g.region := rfl
@[simp] theorem Group.ck_wait (b : Nat) : (g.ck b).wait = g.wait := rfl
@[simp] theorem Group.ck_pend (b : Nat) : (g.ck b).pend = g.pend := rfl
@[simp] theorem Group.ck_mxRuns (b : Nat) : (g.ck b).mxRuns = g.mxRuns := rfl
@[simp] theorem Group.ck_nBar (b : Nat) : (g.ck b).nBar = g.nBar := rfl
@[simp] theorem Group.ck_nCbar (b : Nat) : (g.ck b).nCbar = g.nCbar := rfl
@[simp] theorem Group.ck_nElectw (b : Nat) : (g.ck b).nElectw = g.nElectw := rfl
@[simp] theorem Group.ck_nJoin (b : Nat) : (g.ck b).nJoin = g.nJoin := rfl
@[simp] theorem Group.ck_arrived (b : Nat) : (g.ck b).arrived = g.arrived := rfl
@[simp] theorem Group.ck_triggered (b : Nat) : (g.ck b).triggered = g.triggered := rfl
@[simp] theorem Group.ck_active (b : Nat) : (g.ck b).active = g.active := rfl
@[simp] theorem Group.ck_readySince (b : Nat) : (g.ck b).readySince = g.readySince := rfl
@[simp] theorem Group.ck_notBefore (b : Nat) : (g.ck b).notBefore = g.notBefore := rfl
@[simp] theorem Group.ck_inflight (b : Nat) : (g.ck b).inflight = g.inflight := rfl
@[simp] theorem Group.ck_replay (b : Nat) : (g.ck b).replay = g.replay := rfl
@[simp] theorem Group.ck_termRefused (b : Nat) : (g.ck b).termRefused = g.termRefused := rfl
@[simp] theorem Group.ck_block (b : Nat) : (g.ck b).block = g.block := rfl
@[simp] theorem Group.ck_stopped (b : Nat) : (g.ck b).stopped = g.stopped := rfl
@[simp] theorem Group.ck_saved (b : Nat) : (g.ck b).saved = g.saved := rfl
@[simp] theorem Group.ck_refused (b : Nat) : (g.ck b).refused = g.refused := rfl

/-! SCC. -/
@[simp] theorem Group.writeScc_id (b : Bool) : (g.writeScc b).id = g.id := rfl
@[simp] theorem Group.writeScc_age (b : Bool) : (g.writeScc b).age = g.age := rfl
@[simp] theorem Group.writeScc_core (b : Bool) : (g.writeScc b).core = g.core := rfl
@[simp] theorem Group.writeScc_quarter (b : Bool) : (g.writeScc b).quarter = g.quarter := rfl
@[simp] theorem Group.writeScc_place (b : Bool) : (g.writeScc b).place = g.place := rfl
@[simp] theorem Group.writeScc_ctx (b : Bool) : (g.writeScc b).ctx = g.ctx := rfl
@[simp] theorem Group.writeScc_root (b : Bool) : (g.writeScc b).root = g.root := rfl
@[simp] theorem Group.writeScc_grid (b : Bool) : (g.writeScc b).grid = g.grid := rfl
@[simp] theorem Group.writeScc_wg (b : Bool) : (g.writeScc b).wg = g.wg := rfl
@[simp] theorem Group.writeScc_wgidX (b : Bool) : (g.writeScc b).wgidX = g.wgidX := rfl
@[simp] theorem Group.writeScc_wgidY (b : Bool) : (g.writeScc b).wgidY = g.wgidY := rfl
@[simp] theorem Group.writeScc_wgidZ (b : Bool) : (g.writeScc b).wgidZ = g.wgidZ := rfl
@[simp] theorem Group.writeScc_gidx (b : Bool) : (g.writeScc b).gidx = g.gidx := rfl
@[simp] theorem Group.writeScc_member (b : Bool) : (g.writeScc b).member = g.member := rfl
@[simp] theorem Group.writeScc_num (b : Bool) : (g.writeScc b).num = g.num := rfl
@[simp] theorem Group.writeScc_real (b : Bool) : (g.writeScc b).real = g.real := rfl
@[simp] theorem Group.writeScc_present (b : Bool) : (g.writeScc b).present = g.present := rfl
@[simp] theorem Group.writeScc_exited (b : Bool) : (g.writeScc b).exited = g.exited := rfl
@[simp] theorem Group.writeScc_mask (b : Bool) : (g.writeScc b).mask = g.mask := rfl
@[simp] theorem Group.writeScc_gslots (b : Bool) : (g.writeScc b).gslots = g.gslots := rfl
@[simp] theorem Group.writeScc_pc (b : Bool) : (g.writeScc b).pc = g.pc := rfl
@[simp] theorem Group.writeScc_v (b : Bool) : (g.writeScc b).v = g.v := rfl
@[simp] theorem Group.writeScc_s (b : Bool) : (g.writeScc b).s = g.s := rfl
@[simp] theorem Group.writeScc_sPoison (b : Bool) : (g.writeScc b).sPoison = g.sPoison := rfl
@[simp] theorem Group.writeScc_bad (b : Bool) : (g.writeScc b).bad = g.bad := rfl
@[simp] theorem Group.writeScc_p (b : Bool) : (g.writeScc b).p = g.p := rfl
@[simp] theorem Group.writeScc_gsr (b : Bool) : (g.writeScc b).gsr = setBit g.gsr 0 b := rfl
@[simp] theorem Group.writeScc_fmt (b : Bool) : (g.writeScc b).fmt = g.fmt := rfl
@[simp] theorem Group.writeScc_sig (b : Bool) : (g.writeScc b).sig = g.sig := rfl
@[simp] theorem Group.writeScc_sigLatch (b : Bool) : (g.writeScc b).sigLatch = g.sigLatch := rfl
@[simp] theorem Group.writeScc_sw (b : Bool) : (g.writeScc b).sw = g.sw := rfl
@[simp] theorem Group.writeScc_mshape (b : Bool) : (g.writeScc b).mshape = g.mshape := rfl
@[simp] theorem Group.writeScc_mcloud (b : Bool) : (g.writeScc b).mcloud = g.mcloud := rfl
@[simp] theorem Group.writeScc_ckint (b : Bool) : (g.writeScc b).ckint = g.ckint := rfl
@[simp] theorem Group.writeScc_rpc (b : Bool) : (g.writeScc b).rpc = g.rpc := rfl
@[simp] theorem Group.writeScc_seed (b : Bool) : (g.writeScc b).seed = g.seed := rfl
@[simp] theorem Group.writeScc_cych (b : Bool) : (g.writeScc b).cych = g.cych := rfl
@[simp] theorem Group.writeScc_rnd (b : Bool) : (g.writeScc b).rnd = g.rnd := rfl
@[simp] theorem Group.writeScc_ret (b : Bool) : (g.writeScc b).ret = g.ret := rfl
@[simp] theorem Group.writeScc_retArea (b : Bool) : (g.writeScc b).retArea = g.retArea := rfl
@[simp] theorem Group.writeScc_recon (b : Bool) : (g.writeScc b).recon = g.recon := rfl
@[simp] theorem Group.writeScc_reconArea (b : Bool) : (g.writeScc b).reconArea = g.reconArea := rfl
@[simp] theorem Group.writeScc_retLost (b : Bool) : (g.writeScc b).retLost = g.retLost := rfl
@[simp] theorem Group.writeScc_reconLost (b : Bool) : (g.writeScc b).reconLost = g.reconLost := rfl
@[simp] theorem Group.writeScc_recTouched (b : Bool) : (g.writeScc b).recTouched = g.recTouched := rfl
@[simp] theorem Group.writeScc_handler (b : Bool) : (g.writeScc b).handler = g.handler := rfl
@[simp] theorem Group.writeScc_region (b : Bool) : (g.writeScc b).region = g.region := rfl
@[simp] theorem Group.writeScc_wait (b : Bool) : (g.writeScc b).wait = g.wait := rfl
@[simp] theorem Group.writeScc_pend (b : Bool) : (g.writeScc b).pend = g.pend := rfl
@[simp] theorem Group.writeScc_mxRuns (b : Bool) : (g.writeScc b).mxRuns = g.mxRuns := rfl
@[simp] theorem Group.writeScc_nBar (b : Bool) : (g.writeScc b).nBar = g.nBar := rfl
@[simp] theorem Group.writeScc_nCbar (b : Bool) : (g.writeScc b).nCbar = g.nCbar := rfl
@[simp] theorem Group.writeScc_nElectw (b : Bool) : (g.writeScc b).nElectw = g.nElectw := rfl
@[simp] theorem Group.writeScc_nJoin (b : Bool) : (g.writeScc b).nJoin = g.nJoin := rfl
@[simp] theorem Group.writeScc_arrived (b : Bool) : (g.writeScc b).arrived = g.arrived := rfl
@[simp] theorem Group.writeScc_triggered (b : Bool) : (g.writeScc b).triggered = g.triggered := rfl
@[simp] theorem Group.writeScc_active (b : Bool) : (g.writeScc b).active = g.active := rfl
@[simp] theorem Group.writeScc_readySince (b : Bool) : (g.writeScc b).readySince = g.readySince := rfl
@[simp] theorem Group.writeScc_notBefore (b : Bool) : (g.writeScc b).notBefore = g.notBefore := rfl
@[simp] theorem Group.writeScc_inflight (b : Bool) : (g.writeScc b).inflight = g.inflight := rfl
@[simp] theorem Group.writeScc_replay (b : Bool) : (g.writeScc b).replay = g.replay := rfl
@[simp] theorem Group.writeScc_termRefused (b : Bool) : (g.writeScc b).termRefused = g.termRefused := rfl
@[simp] theorem Group.writeScc_block (b : Bool) : (g.writeScc b).block = g.block := rfl
@[simp] theorem Group.writeScc_stopped (b : Bool) : (g.writeScc b).stopped = g.stopped := rfl
@[simp] theorem Group.writeScc_saved (b : Bool) : (g.writeScc b).saved = g.saved := rfl
@[simp] theorem Group.writeScc_refused (b : Bool) : (g.writeScc b).refused = g.refused := rfl

/-! Races of counted results. -/
@[simp] theorem Group.race_id (f : RegWrite → RegWrite) : (g.race f).id = g.id := rfl
@[simp] theorem Group.race_age (f : RegWrite → RegWrite) : (g.race f).age = g.age := rfl
@[simp] theorem Group.race_core (f : RegWrite → RegWrite) : (g.race f).core = g.core := rfl
@[simp] theorem Group.race_quarter (f : RegWrite → RegWrite) : (g.race f).quarter = g.quarter := rfl
@[simp] theorem Group.race_place (f : RegWrite → RegWrite) : (g.race f).place = g.place := rfl
@[simp] theorem Group.race_ctx (f : RegWrite → RegWrite) : (g.race f).ctx = g.ctx := rfl
@[simp] theorem Group.race_root (f : RegWrite → RegWrite) : (g.race f).root = g.root := rfl
@[simp] theorem Group.race_grid (f : RegWrite → RegWrite) : (g.race f).grid = g.grid := rfl
@[simp] theorem Group.race_wg (f : RegWrite → RegWrite) : (g.race f).wg = g.wg := rfl
@[simp] theorem Group.race_wgidX (f : RegWrite → RegWrite) : (g.race f).wgidX = g.wgidX := rfl
@[simp] theorem Group.race_wgidY (f : RegWrite → RegWrite) : (g.race f).wgidY = g.wgidY := rfl
@[simp] theorem Group.race_wgidZ (f : RegWrite → RegWrite) : (g.race f).wgidZ = g.wgidZ := rfl
@[simp] theorem Group.race_gidx (f : RegWrite → RegWrite) : (g.race f).gidx = g.gidx := rfl
@[simp] theorem Group.race_member (f : RegWrite → RegWrite) : (g.race f).member = g.member := rfl
@[simp] theorem Group.race_num (f : RegWrite → RegWrite) : (g.race f).num = g.num := rfl
@[simp] theorem Group.race_real (f : RegWrite → RegWrite) : (g.race f).real = g.real := rfl
@[simp] theorem Group.race_present (f : RegWrite → RegWrite) : (g.race f).present = g.present := rfl
@[simp] theorem Group.race_exited (f : RegWrite → RegWrite) : (g.race f).exited = g.exited := rfl
@[simp] theorem Group.race_mask (f : RegWrite → RegWrite) : (g.race f).mask = g.mask := rfl
@[simp] theorem Group.race_gslots (f : RegWrite → RegWrite) : (g.race f).gslots = g.gslots := rfl
@[simp] theorem Group.race_pc (f : RegWrite → RegWrite) : (g.race f).pc = g.pc := rfl
@[simp] theorem Group.race_v (f : RegWrite → RegWrite) : (g.race f).v = g.v := rfl
@[simp] theorem Group.race_s (f : RegWrite → RegWrite) : (g.race f).s = g.s := rfl
@[simp] theorem Group.race_sPoison (f : RegWrite → RegWrite) : (g.race f).sPoison = g.sPoison := rfl
@[simp] theorem Group.race_bad (f : RegWrite → RegWrite) : (g.race f).bad = g.bad := rfl
@[simp] theorem Group.race_p (f : RegWrite → RegWrite) : (g.race f).p = g.p := rfl
@[simp] theorem Group.race_gsr (f : RegWrite → RegWrite) : (g.race f).gsr = g.gsr := rfl
@[simp] theorem Group.race_fmt (f : RegWrite → RegWrite) : (g.race f).fmt = g.fmt := rfl
@[simp] theorem Group.race_sig (f : RegWrite → RegWrite) : (g.race f).sig = g.sig := rfl
@[simp] theorem Group.race_sigLatch (f : RegWrite → RegWrite) : (g.race f).sigLatch = g.sigLatch := rfl
@[simp] theorem Group.race_sw (f : RegWrite → RegWrite) : (g.race f).sw = g.sw := rfl
@[simp] theorem Group.race_mshape (f : RegWrite → RegWrite) : (g.race f).mshape = g.mshape := rfl
@[simp] theorem Group.race_mcloud (f : RegWrite → RegWrite) : (g.race f).mcloud = g.mcloud := rfl
@[simp] theorem Group.race_ckint (f : RegWrite → RegWrite) : (g.race f).ckint = g.ckint := rfl
@[simp] theorem Group.race_rpc (f : RegWrite → RegWrite) : (g.race f).rpc = g.rpc := rfl
@[simp] theorem Group.race_seed (f : RegWrite → RegWrite) : (g.race f).seed = g.seed := rfl
@[simp] theorem Group.race_cych (f : RegWrite → RegWrite) : (g.race f).cych = g.cych := rfl
@[simp] theorem Group.race_rnd (f : RegWrite → RegWrite) : (g.race f).rnd = g.rnd := rfl
@[simp] theorem Group.race_ret (f : RegWrite → RegWrite) : (g.race f).ret = g.ret := rfl
@[simp] theorem Group.race_retArea (f : RegWrite → RegWrite) : (g.race f).retArea = g.retArea := rfl
@[simp] theorem Group.race_recon (f : RegWrite → RegWrite) : (g.race f).recon = g.recon := rfl
@[simp] theorem Group.race_reconArea (f : RegWrite → RegWrite) : (g.race f).reconArea = g.reconArea := rfl
@[simp] theorem Group.race_retLost (f : RegWrite → RegWrite) : (g.race f).retLost = g.retLost := rfl
@[simp] theorem Group.race_reconLost (f : RegWrite → RegWrite) : (g.race f).reconLost = g.reconLost := rfl
@[simp] theorem Group.race_recTouched (f : RegWrite → RegWrite) : (g.race f).recTouched = g.recTouched := rfl
@[simp] theorem Group.race_handler (f : RegWrite → RegWrite) : (g.race f).handler = g.handler := rfl
@[simp] theorem Group.race_region (f : RegWrite → RegWrite) : (g.race f).region = g.region := rfl
@[simp] theorem Group.race_wait (f : RegWrite → RegWrite) : (g.race f).wait = g.wait := rfl
@[simp] theorem Group.race_pend (f : RegWrite → RegWrite) : (g.race f).pend = g.pend.map fun p => { p with writes := p.writes.map f } := rfl
@[simp] theorem Group.race_mxRuns (f : RegWrite → RegWrite) : (g.race f).mxRuns = g.mxRuns := rfl
@[simp] theorem Group.race_nBar (f : RegWrite → RegWrite) : (g.race f).nBar = g.nBar := rfl
@[simp] theorem Group.race_nCbar (f : RegWrite → RegWrite) : (g.race f).nCbar = g.nCbar := rfl
@[simp] theorem Group.race_nElectw (f : RegWrite → RegWrite) : (g.race f).nElectw = g.nElectw := rfl
@[simp] theorem Group.race_nJoin (f : RegWrite → RegWrite) : (g.race f).nJoin = g.nJoin := rfl
@[simp] theorem Group.race_arrived (f : RegWrite → RegWrite) : (g.race f).arrived = g.arrived := rfl
@[simp] theorem Group.race_triggered (f : RegWrite → RegWrite) : (g.race f).triggered = g.triggered := rfl
@[simp] theorem Group.race_active (f : RegWrite → RegWrite) : (g.race f).active = g.active := rfl
@[simp] theorem Group.race_readySince (f : RegWrite → RegWrite) : (g.race f).readySince = g.readySince := rfl
@[simp] theorem Group.race_notBefore (f : RegWrite → RegWrite) : (g.race f).notBefore = g.notBefore := rfl
@[simp] theorem Group.race_inflight (f : RegWrite → RegWrite) : (g.race f).inflight = g.inflight := rfl
@[simp] theorem Group.race_replay (f : RegWrite → RegWrite) : (g.race f).replay = g.replay := rfl
@[simp] theorem Group.race_termRefused (f : RegWrite → RegWrite) : (g.race f).termRefused = g.termRefused := rfl
@[simp] theorem Group.race_block (f : RegWrite → RegWrite) : (g.race f).block = g.block := rfl
@[simp] theorem Group.race_stopped (f : RegWrite → RegWrite) : (g.race f).stopped = g.stopped := rfl
@[simp] theorem Group.race_saved (f : RegWrite → RegWrite) : (g.race f).saved = g.saved := rfl
@[simp] theorem Group.race_refused (f : RegWrite → RegWrite) : (g.race f).refused = g.refused := rfl

/-! A counted operation. -/
@[simp] theorem Group.addPend_id (p : Pending) : (g.addPend p).id = g.id := rfl
@[simp] theorem Group.addPend_age (p : Pending) : (g.addPend p).age = g.age := rfl
@[simp] theorem Group.addPend_core (p : Pending) : (g.addPend p).core = g.core := rfl
@[simp] theorem Group.addPend_quarter (p : Pending) : (g.addPend p).quarter = g.quarter := rfl
@[simp] theorem Group.addPend_place (p : Pending) : (g.addPend p).place = g.place := rfl
@[simp] theorem Group.addPend_ctx (p : Pending) : (g.addPend p).ctx = g.ctx := rfl
@[simp] theorem Group.addPend_root (p : Pending) : (g.addPend p).root = g.root := rfl
@[simp] theorem Group.addPend_grid (p : Pending) : (g.addPend p).grid = g.grid := rfl
@[simp] theorem Group.addPend_wg (p : Pending) : (g.addPend p).wg = g.wg := rfl
@[simp] theorem Group.addPend_wgidX (p : Pending) : (g.addPend p).wgidX = g.wgidX := rfl
@[simp] theorem Group.addPend_wgidY (p : Pending) : (g.addPend p).wgidY = g.wgidY := rfl
@[simp] theorem Group.addPend_wgidZ (p : Pending) : (g.addPend p).wgidZ = g.wgidZ := rfl
@[simp] theorem Group.addPend_gidx (p : Pending) : (g.addPend p).gidx = g.gidx := rfl
@[simp] theorem Group.addPend_member (p : Pending) : (g.addPend p).member = g.member := rfl
@[simp] theorem Group.addPend_num (p : Pending) : (g.addPend p).num = g.num := rfl
@[simp] theorem Group.addPend_real (p : Pending) : (g.addPend p).real = g.real := rfl
@[simp] theorem Group.addPend_present (p : Pending) : (g.addPend p).present = g.present := rfl
@[simp] theorem Group.addPend_exited (p : Pending) : (g.addPend p).exited = g.exited := rfl
@[simp] theorem Group.addPend_mask (p : Pending) : (g.addPend p).mask = g.mask := rfl
@[simp] theorem Group.addPend_gslots (p : Pending) : (g.addPend p).gslots = g.gslots := rfl
@[simp] theorem Group.addPend_pc (p : Pending) : (g.addPend p).pc = g.pc := rfl
@[simp] theorem Group.addPend_v (p : Pending) : (g.addPend p).v = g.v := rfl
@[simp] theorem Group.addPend_s (p : Pending) : (g.addPend p).s = g.s := rfl
@[simp] theorem Group.addPend_sPoison (p : Pending) : (g.addPend p).sPoison = g.sPoison := rfl
@[simp] theorem Group.addPend_bad (p : Pending) : (g.addPend p).bad = g.bad := rfl
@[simp] theorem Group.addPend_p (p : Pending) : (g.addPend p).p = g.p := rfl
@[simp] theorem Group.addPend_gsr (p : Pending) : (g.addPend p).gsr = g.gsr := rfl
@[simp] theorem Group.addPend_fmt (p : Pending) : (g.addPend p).fmt = g.fmt := rfl
@[simp] theorem Group.addPend_sig (p : Pending) : (g.addPend p).sig = g.sig := rfl
@[simp] theorem Group.addPend_sigLatch (p : Pending) : (g.addPend p).sigLatch = g.sigLatch := rfl
@[simp] theorem Group.addPend_sw (p : Pending) : (g.addPend p).sw = g.sw := rfl
@[simp] theorem Group.addPend_mshape (p : Pending) : (g.addPend p).mshape = g.mshape := rfl
@[simp] theorem Group.addPend_mcloud (p : Pending) : (g.addPend p).mcloud = g.mcloud := rfl
@[simp] theorem Group.addPend_ckint (p : Pending) : (g.addPend p).ckint = g.ckint := rfl
@[simp] theorem Group.addPend_rpc (p : Pending) : (g.addPend p).rpc = g.rpc := rfl
@[simp] theorem Group.addPend_seed (p : Pending) : (g.addPend p).seed = g.seed := rfl
@[simp] theorem Group.addPend_cych (p : Pending) : (g.addPend p).cych = g.cych := rfl
@[simp] theorem Group.addPend_rnd (p : Pending) : (g.addPend p).rnd = g.rnd := rfl
@[simp] theorem Group.addPend_ret (p : Pending) : (g.addPend p).ret = g.ret := rfl
@[simp] theorem Group.addPend_retArea (p : Pending) : (g.addPend p).retArea = g.retArea := rfl
@[simp] theorem Group.addPend_recon (p : Pending) : (g.addPend p).recon = g.recon := rfl
@[simp] theorem Group.addPend_reconArea (p : Pending) : (g.addPend p).reconArea = g.reconArea := rfl
@[simp] theorem Group.addPend_retLost (p : Pending) : (g.addPend p).retLost = g.retLost := rfl
@[simp] theorem Group.addPend_reconLost (p : Pending) : (g.addPend p).reconLost = g.reconLost := rfl
@[simp] theorem Group.addPend_recTouched (p : Pending) : (g.addPend p).recTouched = g.recTouched := rfl
@[simp] theorem Group.addPend_handler (p : Pending) : (g.addPend p).handler = g.handler := rfl
@[simp] theorem Group.addPend_region (p : Pending) : (g.addPend p).region = g.region := rfl
@[simp] theorem Group.addPend_wait (p : Pending) : (g.addPend p).wait = g.wait := rfl
@[simp] theorem Group.addPend_pend (p : Pending) : (g.addPend p).pend = g.pend ++ [p] := rfl
@[simp] theorem Group.addPend_mxRuns (p : Pending) : (g.addPend p).mxRuns = g.mxRuns := rfl
@[simp] theorem Group.addPend_nBar (p : Pending) : (g.addPend p).nBar = g.nBar := rfl
@[simp] theorem Group.addPend_nCbar (p : Pending) : (g.addPend p).nCbar = g.nCbar := rfl
@[simp] theorem Group.addPend_nElectw (p : Pending) : (g.addPend p).nElectw = g.nElectw := rfl
@[simp] theorem Group.addPend_nJoin (p : Pending) : (g.addPend p).nJoin = g.nJoin := rfl
@[simp] theorem Group.addPend_arrived (p : Pending) : (g.addPend p).arrived = g.arrived := rfl
@[simp] theorem Group.addPend_triggered (p : Pending) : (g.addPend p).triggered = g.triggered := rfl
@[simp] theorem Group.addPend_active (p : Pending) : (g.addPend p).active = g.active := rfl
@[simp] theorem Group.addPend_readySince (p : Pending) : (g.addPend p).readySince = g.readySince := rfl
@[simp] theorem Group.addPend_notBefore (p : Pending) : (g.addPend p).notBefore = g.notBefore := rfl
@[simp] theorem Group.addPend_inflight (p : Pending) : (g.addPend p).inflight = g.inflight := rfl
@[simp] theorem Group.addPend_replay (p : Pending) : (g.addPend p).replay = g.replay := rfl
@[simp] theorem Group.addPend_termRefused (p : Pending) : (g.addPend p).termRefused = g.termRefused := rfl
@[simp] theorem Group.addPend_block (p : Pending) : (g.addPend p).block = g.block := rfl
@[simp] theorem Group.addPend_stopped (p : Pending) : (g.addPend p).stopped = g.stopped := rfl
@[simp] theorem Group.addPend_saved (p : Pending) : (g.addPend p).saved = g.saved := rfl
@[simp] theorem Group.addPend_refused (p : Pending) : (g.addPend p).refused = g.refused := rfl

/-! A predicate's bits. -/
@[simp] theorem Group.putP_id (r : Nat) (m x : Mask) : (g.putP r m x).id = g.id := rfl
@[simp] theorem Group.putP_age (r : Nat) (m x : Mask) : (g.putP r m x).age = g.age := rfl
@[simp] theorem Group.putP_core (r : Nat) (m x : Mask) : (g.putP r m x).core = g.core := rfl
@[simp] theorem Group.putP_quarter (r : Nat) (m x : Mask) : (g.putP r m x).quarter = g.quarter := rfl
@[simp] theorem Group.putP_place (r : Nat) (m x : Mask) : (g.putP r m x).place = g.place := rfl
@[simp] theorem Group.putP_ctx (r : Nat) (m x : Mask) : (g.putP r m x).ctx = g.ctx := rfl
@[simp] theorem Group.putP_root (r : Nat) (m x : Mask) : (g.putP r m x).root = g.root := rfl
@[simp] theorem Group.putP_grid (r : Nat) (m x : Mask) : (g.putP r m x).grid = g.grid := rfl
@[simp] theorem Group.putP_wg (r : Nat) (m x : Mask) : (g.putP r m x).wg = g.wg := rfl
@[simp] theorem Group.putP_wgidX (r : Nat) (m x : Mask) : (g.putP r m x).wgidX = g.wgidX := rfl
@[simp] theorem Group.putP_wgidY (r : Nat) (m x : Mask) : (g.putP r m x).wgidY = g.wgidY := rfl
@[simp] theorem Group.putP_wgidZ (r : Nat) (m x : Mask) : (g.putP r m x).wgidZ = g.wgidZ := rfl
@[simp] theorem Group.putP_gidx (r : Nat) (m x : Mask) : (g.putP r m x).gidx = g.gidx := rfl
@[simp] theorem Group.putP_member (r : Nat) (m x : Mask) : (g.putP r m x).member = g.member := rfl
@[simp] theorem Group.putP_num (r : Nat) (m x : Mask) : (g.putP r m x).num = g.num := rfl
@[simp] theorem Group.putP_real (r : Nat) (m x : Mask) : (g.putP r m x).real = g.real := rfl
@[simp] theorem Group.putP_present (r : Nat) (m x : Mask) : (g.putP r m x).present = g.present := rfl
@[simp] theorem Group.putP_exited (r : Nat) (m x : Mask) : (g.putP r m x).exited = g.exited := rfl
@[simp] theorem Group.putP_mask (r : Nat) (m x : Mask) : (g.putP r m x).mask = g.mask := rfl
@[simp] theorem Group.putP_gslots (r : Nat) (m x : Mask) : (g.putP r m x).gslots = g.gslots := rfl
@[simp] theorem Group.putP_pc (r : Nat) (m x : Mask) : (g.putP r m x).pc = g.pc := rfl
@[simp] theorem Group.putP_v (r : Nat) (m x : Mask) : (g.putP r m x).v = g.v := rfl
@[simp] theorem Group.putP_s (r : Nat) (m x : Mask) : (g.putP r m x).s = g.s := rfl
@[simp] theorem Group.putP_sPoison (r : Nat) (m x : Mask) : (g.putP r m x).sPoison = g.sPoison := rfl
@[simp] theorem Group.putP_bad (r : Nat) (m x : Mask) : (g.putP r m x).bad = (if g.present &&& ~~~m = 0 then g.bad &&& ~~~(BitVec.twoPow 16 r) else g.bad) := rfl
@[simp] theorem Group.putP_p (r : Nat) (m x : Mask) : (g.putP r m x).p = g.p.set r ((g.p.getD r 0 &&& ~~~m) ||| (x &&& m)) := rfl
@[simp] theorem Group.putP_gsr (r : Nat) (m x : Mask) : (g.putP r m x).gsr = g.gsr := rfl
@[simp] theorem Group.putP_fmt (r : Nat) (m x : Mask) : (g.putP r m x).fmt = g.fmt := rfl
@[simp] theorem Group.putP_sig (r : Nat) (m x : Mask) : (g.putP r m x).sig = g.sig := rfl
@[simp] theorem Group.putP_sigLatch (r : Nat) (m x : Mask) : (g.putP r m x).sigLatch = g.sigLatch := rfl
@[simp] theorem Group.putP_sw (r : Nat) (m x : Mask) : (g.putP r m x).sw = g.sw := rfl
@[simp] theorem Group.putP_mshape (r : Nat) (m x : Mask) : (g.putP r m x).mshape = g.mshape := rfl
@[simp] theorem Group.putP_mcloud (r : Nat) (m x : Mask) : (g.putP r m x).mcloud = g.mcloud := rfl
@[simp] theorem Group.putP_ckint (r : Nat) (m x : Mask) : (g.putP r m x).ckint = g.ckint := rfl
@[simp] theorem Group.putP_rpc (r : Nat) (m x : Mask) : (g.putP r m x).rpc = g.rpc := rfl
@[simp] theorem Group.putP_seed (r : Nat) (m x : Mask) : (g.putP r m x).seed = g.seed := rfl
@[simp] theorem Group.putP_cych (r : Nat) (m x : Mask) : (g.putP r m x).cych = g.cych := rfl
@[simp] theorem Group.putP_rnd (r : Nat) (m x : Mask) : (g.putP r m x).rnd = g.rnd := rfl
@[simp] theorem Group.putP_ret (r : Nat) (m x : Mask) : (g.putP r m x).ret = g.ret := rfl
@[simp] theorem Group.putP_retArea (r : Nat) (m x : Mask) : (g.putP r m x).retArea = g.retArea := rfl
@[simp] theorem Group.putP_recon (r : Nat) (m x : Mask) : (g.putP r m x).recon = g.recon := rfl
@[simp] theorem Group.putP_reconArea (r : Nat) (m x : Mask) : (g.putP r m x).reconArea = g.reconArea := rfl
@[simp] theorem Group.putP_retLost (r : Nat) (m x : Mask) : (g.putP r m x).retLost = g.retLost := rfl
@[simp] theorem Group.putP_reconLost (r : Nat) (m x : Mask) : (g.putP r m x).reconLost = g.reconLost := rfl
@[simp] theorem Group.putP_recTouched (r : Nat) (m x : Mask) : (g.putP r m x).recTouched = g.recTouched := rfl
@[simp] theorem Group.putP_handler (r : Nat) (m x : Mask) : (g.putP r m x).handler = g.handler := rfl
@[simp] theorem Group.putP_region (r : Nat) (m x : Mask) : (g.putP r m x).region = g.region := rfl
@[simp] theorem Group.putP_wait (r : Nat) (m x : Mask) : (g.putP r m x).wait = g.wait := rfl
@[simp] theorem Group.putP_pend (r : Nat) (m x : Mask) : (g.putP r m x).pend = g.pend := rfl
@[simp] theorem Group.putP_mxRuns (r : Nat) (m x : Mask) : (g.putP r m x).mxRuns = g.mxRuns := rfl
@[simp] theorem Group.putP_nBar (r : Nat) (m x : Mask) : (g.putP r m x).nBar = g.nBar := rfl
@[simp] theorem Group.putP_nCbar (r : Nat) (m x : Mask) : (g.putP r m x).nCbar = g.nCbar := rfl
@[simp] theorem Group.putP_nElectw (r : Nat) (m x : Mask) : (g.putP r m x).nElectw = g.nElectw := rfl
@[simp] theorem Group.putP_nJoin (r : Nat) (m x : Mask) : (g.putP r m x).nJoin = g.nJoin := rfl
@[simp] theorem Group.putP_arrived (r : Nat) (m x : Mask) : (g.putP r m x).arrived = g.arrived := rfl
@[simp] theorem Group.putP_triggered (r : Nat) (m x : Mask) : (g.putP r m x).triggered = g.triggered := rfl
@[simp] theorem Group.putP_active (r : Nat) (m x : Mask) : (g.putP r m x).active = g.active := rfl
@[simp] theorem Group.putP_readySince (r : Nat) (m x : Mask) : (g.putP r m x).readySince = g.readySince := rfl
@[simp] theorem Group.putP_notBefore (r : Nat) (m x : Mask) : (g.putP r m x).notBefore = g.notBefore := rfl
@[simp] theorem Group.putP_inflight (r : Nat) (m x : Mask) : (g.putP r m x).inflight = g.inflight := rfl
@[simp] theorem Group.putP_replay (r : Nat) (m x : Mask) : (g.putP r m x).replay = g.replay := rfl
@[simp] theorem Group.putP_termRefused (r : Nat) (m x : Mask) : (g.putP r m x).termRefused = g.termRefused := rfl
@[simp] theorem Group.putP_block (r : Nat) (m x : Mask) : (g.putP r m x).block = g.block := rfl
@[simp] theorem Group.putP_stopped (r : Nat) (m x : Mask) : (g.putP r m x).stopped = g.stopped := rfl
@[simp] theorem Group.putP_saved (r : Nat) (m x : Mask) : (g.putP r m x).saved = g.saved := rfl
@[simp] theorem Group.putP_refused (r : Nat) (m x : Mask) : (g.putP r m x).refused = g.refused := rfl

/-! A register of a matrix unit is written. -/
@[simp] theorem Group.touchRun_id (r : Nat) : (g.touchRun r).id = g.id := rfl
@[simp] theorem Group.touchRun_age (r : Nat) : (g.touchRun r).age = g.age := rfl
@[simp] theorem Group.touchRun_core (r : Nat) : (g.touchRun r).core = g.core := rfl
@[simp] theorem Group.touchRun_quarter (r : Nat) : (g.touchRun r).quarter = g.quarter := rfl
@[simp] theorem Group.touchRun_place (r : Nat) : (g.touchRun r).place = g.place := rfl
@[simp] theorem Group.touchRun_ctx (r : Nat) : (g.touchRun r).ctx = g.ctx := rfl
@[simp] theorem Group.touchRun_root (r : Nat) : (g.touchRun r).root = g.root := rfl
@[simp] theorem Group.touchRun_grid (r : Nat) : (g.touchRun r).grid = g.grid := rfl
@[simp] theorem Group.touchRun_wg (r : Nat) : (g.touchRun r).wg = g.wg := rfl
@[simp] theorem Group.touchRun_wgidX (r : Nat) : (g.touchRun r).wgidX = g.wgidX := rfl
@[simp] theorem Group.touchRun_wgidY (r : Nat) : (g.touchRun r).wgidY = g.wgidY := rfl
@[simp] theorem Group.touchRun_wgidZ (r : Nat) : (g.touchRun r).wgidZ = g.wgidZ := rfl
@[simp] theorem Group.touchRun_gidx (r : Nat) : (g.touchRun r).gidx = g.gidx := rfl
@[simp] theorem Group.touchRun_member (r : Nat) : (g.touchRun r).member = g.member := rfl
@[simp] theorem Group.touchRun_num (r : Nat) : (g.touchRun r).num = g.num := rfl
@[simp] theorem Group.touchRun_real (r : Nat) : (g.touchRun r).real = g.real := rfl
@[simp] theorem Group.touchRun_present (r : Nat) : (g.touchRun r).present = g.present := rfl
@[simp] theorem Group.touchRun_exited (r : Nat) : (g.touchRun r).exited = g.exited := rfl
@[simp] theorem Group.touchRun_mask (r : Nat) : (g.touchRun r).mask = g.mask := rfl
@[simp] theorem Group.touchRun_gslots (r : Nat) : (g.touchRun r).gslots = g.gslots := rfl
@[simp] theorem Group.touchRun_pc (r : Nat) : (g.touchRun r).pc = g.pc := rfl
@[simp] theorem Group.touchRun_v (r : Nat) : (g.touchRun r).v = g.v := rfl
@[simp] theorem Group.touchRun_s (r : Nat) : (g.touchRun r).s = g.s := rfl
@[simp] theorem Group.touchRun_sPoison (r : Nat) : (g.touchRun r).sPoison = g.sPoison := rfl
@[simp] theorem Group.touchRun_bad (r : Nat) : (g.touchRun r).bad = g.bad := rfl
@[simp] theorem Group.touchRun_p (r : Nat) : (g.touchRun r).p = g.p := rfl
@[simp] theorem Group.touchRun_gsr (r : Nat) : (g.touchRun r).gsr = g.gsr := rfl
@[simp] theorem Group.touchRun_fmt (r : Nat) : (g.touchRun r).fmt = g.fmt := rfl
@[simp] theorem Group.touchRun_sig (r : Nat) : (g.touchRun r).sig = g.sig := rfl
@[simp] theorem Group.touchRun_sigLatch (r : Nat) : (g.touchRun r).sigLatch = g.sigLatch := rfl
@[simp] theorem Group.touchRun_sw (r : Nat) : (g.touchRun r).sw = g.sw := rfl
@[simp] theorem Group.touchRun_mshape (r : Nat) : (g.touchRun r).mshape = g.mshape := rfl
@[simp] theorem Group.touchRun_mcloud (r : Nat) : (g.touchRun r).mcloud = g.mcloud := rfl
@[simp] theorem Group.touchRun_ckint (r : Nat) : (g.touchRun r).ckint = g.ckint := rfl
@[simp] theorem Group.touchRun_rpc (r : Nat) : (g.touchRun r).rpc = g.rpc := rfl
@[simp] theorem Group.touchRun_seed (r : Nat) : (g.touchRun r).seed = g.seed := rfl
@[simp] theorem Group.touchRun_cych (r : Nat) : (g.touchRun r).cych = g.cych := rfl
@[simp] theorem Group.touchRun_rnd (r : Nat) : (g.touchRun r).rnd = g.rnd := rfl
@[simp] theorem Group.touchRun_ret (r : Nat) : (g.touchRun r).ret = g.ret := rfl
@[simp] theorem Group.touchRun_retArea (r : Nat) : (g.touchRun r).retArea = g.retArea := rfl
@[simp] theorem Group.touchRun_recon (r : Nat) : (g.touchRun r).recon = g.recon := rfl
@[simp] theorem Group.touchRun_reconArea (r : Nat) : (g.touchRun r).reconArea = g.reconArea := rfl
@[simp] theorem Group.touchRun_retLost (r : Nat) : (g.touchRun r).retLost = g.retLost := rfl
@[simp] theorem Group.touchRun_reconLost (r : Nat) : (g.touchRun r).reconLost = g.reconLost := rfl
@[simp] theorem Group.touchRun_recTouched (r : Nat) : (g.touchRun r).recTouched = g.recTouched := rfl
@[simp] theorem Group.touchRun_handler (r : Nat) : (g.touchRun r).handler = g.handler := rfl
@[simp] theorem Group.touchRun_region (r : Nat) : (g.touchRun r).region = g.region := rfl
@[simp] theorem Group.touchRun_wait (r : Nat) : (g.touchRun r).wait = g.wait := rfl
@[simp] theorem Group.touchRun_pend (r : Nat) : (g.touchRun r).pend = g.pend := rfl
@[simp] theorem Group.touchRun_mxRuns (r : Nat) : (g.touchRun r).mxRuns = g.mxRuns.map fun (x : MxRun) => if x.reg = r then { x with touched := true } else x := rfl
@[simp] theorem Group.touchRun_nBar (r : Nat) : (g.touchRun r).nBar = g.nBar := rfl
@[simp] theorem Group.touchRun_nCbar (r : Nat) : (g.touchRun r).nCbar = g.nCbar := rfl
@[simp] theorem Group.touchRun_nElectw (r : Nat) : (g.touchRun r).nElectw = g.nElectw := rfl
@[simp] theorem Group.touchRun_nJoin (r : Nat) : (g.touchRun r).nJoin = g.nJoin := rfl
@[simp] theorem Group.touchRun_arrived (r : Nat) : (g.touchRun r).arrived = g.arrived := rfl
@[simp] theorem Group.touchRun_triggered (r : Nat) : (g.touchRun r).triggered = g.triggered := rfl
@[simp] theorem Group.touchRun_active (r : Nat) : (g.touchRun r).active = g.active := rfl
@[simp] theorem Group.touchRun_readySince (r : Nat) : (g.touchRun r).readySince = g.readySince := rfl
@[simp] theorem Group.touchRun_notBefore (r : Nat) : (g.touchRun r).notBefore = g.notBefore := rfl
@[simp] theorem Group.touchRun_inflight (r : Nat) : (g.touchRun r).inflight = g.inflight := rfl
@[simp] theorem Group.touchRun_replay (r : Nat) : (g.touchRun r).replay = g.replay := rfl
@[simp] theorem Group.touchRun_termRefused (r : Nat) : (g.touchRun r).termRefused = g.termRefused := rfl
@[simp] theorem Group.touchRun_block (r : Nat) : (g.touchRun r).block = g.block := rfl
@[simp] theorem Group.touchRun_stopped (r : Nat) : (g.touchRun r).stopped = g.stopped := rfl
@[simp] theorem Group.touchRun_saved (r : Nat) : (g.touchRun r).saved = g.saved := rfl
@[simp] theorem Group.touchRun_refused (r : Nat) : (g.touchRun r).refused = g.refused := rfl

end Sys2Proof.Machine
end

