-- ==== Sys2Proof/Laws/Issue.lean ====
section
/-! SUPPORT. What issuing a unit does: held while its class is, trapped by the checking scoreboard, and otherwise its body's
effect, the pc's advance and the pipe. -/

namespace Sys2Proof.Machine

/-- Without an error that is armed or lies there, the register file stands as the unit left it, and reading it finds nothing. -/
theorem State.wroteRows_unarmed {s : State} (h : s.unarmed) (g : Group) (ws : List (Ref × Mask)) : s.wroteRows g ws = s := by
  unfold State.unarmed at h
  simp [State.wroteRows, h]
theorem State.findRows_unarmed {s : State} (h : s.unarmed) (rows : List Nat) : s.findRows rows = s := by
  unfold State.unarmed at h
  simp [State.findRows, h]

/-- Where no error marks what every unit uses, nothing is consumed that the unit does not consume itself. -/
theorem State.consumes_unspoilt {s : State} (h : s.unspoilt) (refs : List Ref) (r : EStateM.Result Stop State Unit) :
    s.consumes refs r = r := by
  have none_ : refs.any (s.g.spoilt s.clock) = false := by
    simp only [List.any_eq_false]
    intro x _
    cases x <;> simp [Group.spoilt, h.1, h.2]
  simp [State.consumes, none_]

/-- A body that succeeds and leaves the error banks and the group's place alone. -/
structure Performs (body : M Unit) (s t : State) : Prop where
  run : body s = .ok () t
  banks : t.banks = s.banks
  core : t.g.core = s.g.core
  quarter : t.g.quarter = s.g.quarter

theorem Performs.unarmed {body : M Unit} {s t : State} (p : Performs body s t) (h : s.unarmed) : t.unarmed := by
  unfold State.unarmed State.bank at *
  rw [p.banks, p.core, p.quarter]; exact h

theorem State.Issues.ready_any {s : State} {cls : Cls} {refs : List Ref} (h : s.Issues cls refs) :
    (s.g.chk && refs.any (s.g.notReady s.clock)) = false := by
  rcases h.ready with h | h
  · simp [h]
  · simp only [Bool.and_eq_false_imp, List.any_eq_false]
    intro _ r hr; simp [h r hr]

/-- A unit that issues has its body's effect, and the next unit follows. -/
theorem issue_performs {cls : Cls} {st : Nat} {refs : List Ref} {body : M Unit} {s t : State}
    (h : s.Issues cls refs) (p : Performs body s t) :
    issue cls st refs body s = t.occupy cls.pipe (s.clock + cls.occupies (s.g.rdMask s.clock)) := by
  simp only [issue, h.free, h.ready_any, State.findRows_unarmed h.unarmed, State.consumes_unspoilt h.unspoilt, p.run, State.wroteRows_unarmed (p.unarmed h.unarmed)]
  rfl

theorem unit_performs {cls : Cls} {st len : Nat} {refs : List Ref} {body : M Unit} {s t : State}
    (h : s.Issues cls refs) (p : Performs body s t) :
    unit cls st len refs body s
      = (t.advance len st).occupy cls.pipe (s.clock + cls.occupies (s.g.rdMask s.clock)) := by
  refine issue_performs h ⟨?_, p.banks, p.core, p.quarter⟩
  simp only [p.run]

/-- A unit whose body ends otherwise: what becomes of it. -/
theorem unit_stopped {cls : Cls} {st len : Nat} {refs : List Ref} {body : M Unit} {s t : State} {e : Stop}
    (h : s.Issues cls refs) (hb : body s = .error e t) :
    unit cls st len refs body s = t.stopped cls (cls.occupies (s.g.rdMask s.clock)) st e := by
  simp only [unit, issue, h.free, h.ready_any, State.findRows_unarmed h.unarmed, State.consumes_unspoilt h.unspoilt, hb]
  rfl

/-- A unit whose class is held waits, its pc unmoved. -/
theorem unit_held {cls : Cls} {st len c : Nat} {refs : List Ref} {body : M Unit} {s : State}
    (h : s.classHeld cls = some c) : unit cls st len refs body s = s.hold c := by
  simp only [unit, issue, h]

/-- R70: the checking scoreboard traps a unit that reads a register whose result is not ready, unless the unit waits before it issues or an
error reaches its group (R71, R385). -/
theorem unit_unready {cls : Cls} {st len : Nat} {refs : List Ref} {body : M Unit} {s : State}
    (h : s.classHeld cls = none) (un : s.unarmed) (cl : s.unspoilt) (c : s.g.chk = true) {r : Ref} (hr : r ∈ refs) (n : s.g.notReady s.clock r = true)
    (f : ∀ e t, body s = .error e t → e.first = false) :
    unit cls st len refs body s = s.stopped cls (cls.occupies (s.g.rdMask s.clock)) st (.trap 5 0 127 0) := by
  have : refs.any (s.g.notReady s.clock) = true := List.any_eq_true.2 ⟨r, hr, n⟩
  simp only [unit, issue, h, c, this, State.findRows_unarmed un, State.consumes_unspoilt cl]
  cases e : body s with
  | ok a t => rfl
  | error e' t => simp [f e' t e]

/-- R55: with an all-zero mask a vector unit only takes its slot. -/
theorem vunit_zero {cls : Cls} {st len : Nat} {refs : List Ref} {body : M Unit} {s : State}
    (z : s.g.rdMask s.clock = 0) (h : s.Issues cls maskRefs) :
    vunit cls st len refs body s = (s.advance len st).occupy cls.pipe (s.clock + cls.occupies 0) := by
  rw [vunit, if_pos z, unit_performs (body := pure ()) (t := s) h ⟨rfl, rfl, rfl, rfl⟩, z]

theorem vunit_performs {cls : Cls} {st len : Nat} {refs : List Ref} {body : M Unit} {s t : State}
    (z : s.g.rdMask s.clock ≠ 0) (h : s.Issues cls (maskRefs ++ refs)) (p : Performs body s t) :
    vunit cls st len refs body s
      = (t.advance len st).occupy cls.pipe (s.clock + cls.occupies (s.g.rdMask s.clock)) := by
  rw [vunit, if_neg z, unit_performs h p]

theorem vunit_stopped {cls : Cls} {st len : Nat} {refs : List Ref} {body : M Unit} {s t : State} {e : Stop}
    (z : s.g.rdMask s.clock ≠ 0) (h : s.Issues cls (maskRefs ++ refs)) (hb : body s = .error e t) :
    vunit cls st len refs body s = t.stopped cls (cls.occupies (s.g.rdMask s.clock)) st e := by
  rw [vunit, if_neg z, unit_stopped h hb]

end Sys2Proof.Machine
end

