-- ==== Sys2Proof/Laws/Registers.lean ====
section
/-! SUPPORT. What writing a register does: scalar registers and the execution mask, SCC, predicates, vector registers. -/

namespace Sys2Proof.Machine

theorem isMaskReg_iff {r : Nat} : isMaskReg r = true ↔ r = 56 ∨ r = 57 ∨ r = 58 := by
  simp only [isMaskReg, decide_eq_true_eq]; omega

theorem getLsbD_maskWord (m : Mask) (k i : Nat) : (maskWord m k).getLsbD i = (decide (i < 32) && m.getLsbD (32 * k + i)) := by
  simp [maskWord, BitVec.getLsbD_setWidth, BitVec.getLsbD_ushiftRight]

/-- Bit i of a mask whose word k has been replaced. -/
theorem getLsbD_setMaskWord (m : Mask) (k : Nat) (x : Word) (i : Nat) :
    (setMaskWord m k x).getLsbD i
      = if 32 * k ≤ i ∧ i < 32 * k + 32 then decide (i < 96) && x.getLsbD (i - 32 * k) else m.getLsbD i := by
  have ones (j : Nat) : (0xFFFFFFFF : Mask).getLsbD j = decide (j < 32) := by
    by_cases h : j < 96
    · exact (show ∀ j < 96, (0xFFFFFFFF : Mask).getLsbD j = decide (j < 32) by decide) j h
    · rw [BitVec.getLsbD_of_ge _ _ (by omega)]; simp; omega
  unfold setMaskWord
  generalize (0xFFFFFFFF : Mask) = c at ones
  simp only [BitVec.getLsbD_or, BitVec.getLsbD_and, BitVec.getLsbD_not, BitVec.getLsbD_shiftLeft, BitVec.getLsbD_setWidth, ones]
  by_cases h : i < 96
  · by_cases a : i < 32 * k
    · rw [if_neg (show ¬(32 * k ≤ i ∧ i < 32 * k + 32) by omega)]
      simp only [h, a, decide_true, Bool.not_true, Bool.false_and, Bool.and_false, Bool.not_false, Bool.and_true,
        Bool.or_false]
    · by_cases b : i - 32 * k < 32
      · rw [if_pos (show 32 * k ≤ i ∧ i < 32 * k + 32 by omega)]
        simp only [h, a, b, show i - 32 * k < 96 by omega, decide_true, decide_false, Bool.true_and, Bool.not_true, Bool.not_false,
          Bool.and_false, Bool.false_or]
      · rw [if_neg (show ¬(32 * k ≤ i ∧ i < 32 * k + 32) by omega)]
        simp only [h, a, b, BitVec.getLsbD_of_ge x _ (show 32 ≤ i - 32 * k by omega), decide_true, decide_false,
          Bool.and_false, Bool.not_false, Bool.and_true, Bool.or_false]
  · have hm : m.getLsbD i = false := BitVec.getLsbD_of_ge _ _ (by omega)
    simp only [h, hm, decide_false, Bool.false_and, Bool.or_false, ite_self]

/-- Word j of a mask whose word k has been replaced. -/
theorem maskWord_setMaskWord (m : Mask) {k j : Nat} (hk : k < 3) (x : Word) :
    maskWord (setMaskWord m k x) j = if j = k then x else maskWord m j := by
  apply BitVec.eq_of_getLsbD_eq
  intro i hi
  rw [getLsbD_maskWord, getLsbD_setMaskWord]
  by_cases e : j = k
  · subst e
    rw [if_pos (show 32 * j ≤ 32 * j + i ∧ 32 * j + i < 32 * j + 32 by omega), if_pos rfl]
    simp only [hi, show 32 * j + i < 96 by omega, decide_true, Bool.true_and, Nat.add_sub_cancel_left]
  · rw [if_neg (show ¬(32 * k ≤ 32 * j + i ∧ 32 * j + i < 32 * k + 32) by omega), if_neg e, getLsbD_maskWord]

theorem maskWord_and (a b : Mask) (k : Nat) : maskWord (a &&& b) k = maskWord a k &&& maskWord b k := by
  apply BitVec.eq_of_getLsbD_eq
  intro i hi
  rw [BitVec.getLsbD_and, getLsbD_maskWord, getLsbD_maskWord, getLsbD_maskWord, BitVec.getLsbD_and]
  simp only [hi, decide_true, Bool.true_and]

/-! ### Scalar registers -/

theorem Group.putS_value (g : Group) (h : g.s.length = 64) {r : Nat} (hr : r < 64) (x : Word) (pz : Bool) :
    (g.putS r x pz).rawS r = g.heldS r x := by
  unfold Group.putS Group.heldS Group.rawS
  by_cases e : isMaskReg r = true
  · simp only [e, if_true, maskWord_and]
    have := isMaskReg_iff.1 e
    rw [maskWord_setMaskWord _ (by omega)]
    simp [Group.live]
  · simp only [e, Bool.false_eq_true, if_false]
    rw [List.getD_eq_getElem?_getD, List.getElem?_set_self (by omega)]
    rfl

theorem Group.putS_other (g : Group) {r q : Nat} (ne : q ≠ r) (x : Word) (pz : Bool) :
    (g.putS r x pz).rawS q = (if isMaskReg r && isMaskReg q then g.heldS q (g.rawS q) else g.rawS q) := by
  unfold Group.putS Group.heldS Group.rawS
  by_cases e : isMaskReg r = true
  · by_cases f : isMaskReg q = true
    · simp only [e, f, if_true, Bool.and_self, maskWord_and]
      have := isMaskReg_iff.1 e
      have := isMaskReg_iff.1 f
      rw [maskWord_setMaskWord _ (by omega), if_neg (by omega)]
    · simp [e, f]
  · simp only [e, Bool.false_eq_true, if_false, Bool.false_and]
    split
    · rfl
    · rw [List.getD_eq_getElem?_getD, List.getElem?_set_ne (Ne.symm ne), ← List.getD_eq_getElem?_getD]

theorem Group.putS_mark (g : Group) {r : Nat} (hr : r < 64) (x : Word) (pz : Bool) :
    (g.putS r x pz).rawSP r = pz := by
  cases pz <;> simp [Group.putS, Group.rawSP, hr]

theorem Group.putS_mark_other (g : Group) {r q : Nat} (ne : q ≠ r) (x : Word) (pz : Bool) :
    (g.putS r x pz).rawSP q = g.rawSP q := by
  unfold Group.putS Group.rawSP
  cases pz <;> simp [BitVec.getLsbD_twoPow, Ne.symm ne]
  intro h
  by_cases hq : q < 64
  · exact hq
  · rw [BitVec.getLsbD_of_ge _ _ (by omega)] at h; simp at h

/-- The group a scalar write leaves differs in the scalar registers, their marks and the mask alone. -/
theorem Group.putS_rest (g : Group) (r : Nat) (x : Word) (pz : Bool) :
    g.putS r x pz = { g with s := (g.putS r x pz).s, sPoison := (g.putS r x pz).sPoison, mask := (g.putS r x pz).mask } := by
  unfold Group.putS
  split <;> rfl

theorem Group.race_samePend (g : Group) (f : RegWrite → RegWrite) : g.SamePend (g.race f) := by
  simp [Group.SamePend, Group.race, Function.comp_def]

/-! ### Bits of %gsr -/

theorem getLsbD_setBit (w : Word) {b : Nat} (hb : b < 32) (x : Bool) (i : Nat) :
    (setBit w b x).getLsbD i = if i = b then x else w.getLsbD i := by
  unfold setBit
  by_cases e : i = b
  · subst e
    cases x <;> simp [hb]
  · have : (BitVec.twoPow 32 b).getLsbD i = false := by simp [BitVec.getLsbD_twoPow, Ne.symm e]
    rw [if_neg e]
    by_cases h : i < 32
    · cases x <;> simp only [Bool.false_eq_true, if_true, if_false, BitVec.getLsbD_or, BitVec.getLsbD_and, BitVec.getLsbD_not,
        this, h, decide_true, Bool.or_false, Bool.not_false, Bool.and_true]
    · rw [BitVec.getLsbD_of_ge _ _ (by omega), BitVec.getLsbD_of_ge _ _ (by omega)]

end Sys2Proof.Machine
end

