-- ==== Sys2Proof/Laws/Units.lean ====
section
/-! SUPPORT. What a unit with one result does to the device and its group: a scalar result, SCC, a predicate. -/

namespace Sys2Proof.Machine

/-- The state after a unit of the class whose body left t. -/
def State.after (s t : State) (cls : Cls) (len st : Nat) : State :=
  (t.advance len st).occupy cls.pipe (s.clock + cls.occupies (s.g.rdMask s.clock))

theorem State.issued_after {s t : State} (cls : Cls) (len st : Nat) (hc : t.clock = s.clock) (hp : t.pipes = s.pipes)
    (hg : t.g.core = s.g.core ∧ t.g.quarter = s.g.quarter ∧ t.g.id = s.g.id) (pc : t.g.pc = s.g.pc) :
    s.Issued (s.after t cls len st) cls (s.g.pc + BitVec.ofNat 64 len) st := by
  refine ⟨?_, ?_, ?_⟩
  · simp [State.after, pc]
  · simp [State.after, hc]
  · simp [State.after, hp, hg]

theorem State.OnlyGroup.after {s t : State} (h : s.OnlyGroup t) (cls : Cls) (len st : Nat) :
    s.OnlyGroup (s.after t cls len st) := by
  unfold State.OnlyGroup at h ⊢
  rw [State.after, h]; rfl

theorem State.onlyGroup_mg (s : State) (f : Group → Group) : s.OnlyGroup (s.mg f) := rfl

/-- The parts of a group that the pc's advance leaves. -/
theorem State.after_g (s t : State) (cls : Cls) (len st : Nat) :
    (s.after t cls len st).g = { t.g with pc := t.g.pc + BitVec.ofNat 64 len, notBefore := t.clock + 1 + st } := rfl

/-- A scalar result and its marks. -/
theorem putScalar_performs {s : State} {lat d : Nat} {x : Word} {pz : Bool} (h : pz = true → isMaskReg d = false) :
    Performs (putScalar lat d x pz) s (s.mg fun g => (if pz then g.ck 0 else g).setS s.clock lat d x pz) := by
  have e : (pz && isMaskReg d) = false := by cases pz <;> simp_all
  refine ⟨?_, rfl, ?_, ?_⟩
  · simp only [putScalar, e, Bool.false_eq_true, if_false]
  all_goals (cases pz <;> simp [Group.setS, Group.writeS, Group.putS] <;> split <;> rfl)

theorem State.wroteScalar {s : State} (f : s.g.Formed) {lat d : Nat} (hd : d < 64) (x : Word) (pz : Bool)
    (cls : Cls) (len st : Nat) :
    s.WroteScalar (s.after (s.mg fun g => (if pz then g.ck 0 else g).setS s.clock lat d x pz) cls len st) lat d x pz := by
  have hl : (((if pz then s.g.ck 0 else s.g).produce (.s d) (s.clock + lat)).race (RegWrite.raceS d)).s.length = 64 := by
    cases pz <;> simpa using f.s
  have e (q : Nat) : (((if pz then s.g.ck 0 else s.g).produce (.s d) (s.clock + lat)).race (RegWrite.raceS d)).rawS q = s.g.rawS q := by
    cases pz <;> simp [Group.rawS]
  have eh (q : Nat) (y : Word) :
      (((if pz then s.g.ck 0 else s.g).produce (.s d) (s.clock + lat)).race (RegWrite.raceS d)).heldS q y = s.g.heldS q y := by
    cases pz <;> simp [Group.heldS, Group.live]
  have ep (q : Nat) : (((if pz then s.g.ck 0 else s.g).produce (.s d) (s.clock + lat)).race (RegWrite.raceS d)).rawSP q = s.g.rawSP q := by
    cases pz <;> simp [Group.rawSP]
  constructor
  · exact State.OnlyGroup.after (s.onlyGroup_mg _) cls len st
  · exact (Group.putS_value _ hl hd x pz).trans (eh d x)
  · intro _; exact Group.putS_mark _ hd x pz
  · intro r ne
    refine (Group.putS_other _ ne x pz).trans ?_
    simp only [e, eh]
  · intro r ne
    exact (Group.putS_mark_other _ ne x pz).trans (ep r)
  · rw [State.after_g]
    simp only [State.mg_g, Group.setS, Group.writeS]
    rw [Group.putS_rest]
    cases pz <;> simp [Group.refVal, Group.rawS, Group.rawSP]
  · rw [State.after_g]
    simp only [State.mg_g, Group.setS, Group.writeS]
    rw [Group.putS_rest]
    cases pz <;> simp [Group.SamePend]
  · rw [State.after_g]
    simp only [State.mg_g, Group.setS, Group.writeS]
    rw [Group.putS_rest]
    cases pz <;> rfl

/-- A unit with one scalar result: it issues, and nothing but that register is written. -/
theorem unit_scalar {s : State} {cls : Cls} {st len lat d : Nat} {refs : List Ref} {x : Word} {pz : Bool} {body : M Unit}
    (f : s.g.Formed) (hd : d < 64) (hp : pz = true → isMaskReg d = false) (h : s.Issues cls refs)
    (hb : body s = putScalar lat d x pz s) :
    ∃ t, unit cls st len refs body s = t ∧ s.Issued t cls (s.g.pc + BitVec.ofNat 64 len) st ∧ s.WroteScalar t lat d x pz := by
  have p := putScalar_performs (s := s) (lat := lat) (d := d) (x := x) hp
  refine ⟨_, unit_performs h ⟨hb.trans p.run, p.banks, p.core, p.quarter⟩, ?_, State.wroteScalar f hd x pz cls len st⟩
  refine State.issued_after cls len st rfl rfl ⟨p.core, p.quarter, ?_⟩ ?_
  all_goals (cases pz <;> simp [Group.setS, Group.writeS, Group.putS] <;> split <;> rfl)

/-- SCC. -/
theorem State.wroteScc (s : State) (lat : Nat) (b : Bool) (cls : Cls) (len st : Nat) :
    s.WroteScc (s.after (s.mg fun g => g.setScc s.clock lat b) cls len st) lat b := by
  refine ⟨State.OnlyGroup.after (s.onlyGroup_mg _) cls len st, ?_, ?_, rfl, rfl⟩
  · exact (getLsbD_setBit s.g.gsr (by omega) b 0).trans (if_pos rfl)
  · intro i hi
    exact (getLsbD_setBit s.g.gsr (by omega) b i).trans (if_neg hi)

theorem unit_scc {s : State} {cls : Cls} {st len lat : Nat} {refs : List Ref} {b : Bool} {body : M Unit}
    (h : s.Issues cls refs) (hb : body s = putScc lat b s) :
    ∃ t, unit cls st len refs body s = t ∧ s.Issued t cls (s.g.pc + BitVec.ofNat 64 len) st ∧ s.WroteScc t lat b :=
  ⟨_, unit_performs (t := s.mg fun g => g.setScc s.clock lat b) h ⟨hb, rfl, rfl, rfl⟩,
    State.issued_after cls len st rfl rfl ⟨rfl, rfl, rfl⟩ rfl, State.wroteScc s lat b cls len st⟩

/-- A predicate. -/
theorem State.wrotePred {s : State} (f : s.g.Formed) (lat : Nat) {d : Nat} (hd : d < 8) (m x : Mask) (cls : Cls) (len st : Nat) :
    s.WrotePred (s.after (s.mg fun g => g.setP s.clock lat d m x) cls len st) lat d m x := by
  have e : (s.after (s.mg fun g => g.setP s.clock lat d m x) cls len st).g.p
      = s.g.p.set d ((s.g.p.getD d 0 &&& ~~~m) ||| (x &&& m)) := rfl
  constructor
  · exact State.OnlyGroup.after (s.onlyGroup_mg _) cls len st
  · rw [e, List.getD_eq_getElem?_getD, List.getElem?_set_self (by rw [f.p]; exact hd)]; rfl
  · intro r ne
    rw [e, List.getD_eq_getElem?_getD, List.getElem?_set_ne (Ne.symm ne), ← List.getD_eq_getElem?_getD]
  · rfl
  · simp [Group.SamePend, State.after_g, Group.setP, Group.writeP]
  · intro z
    have : (s.after (s.mg fun g => g.setP s.clock lat d m x) cls len st).g.bad
        = if s.g.present &&& ~~~m = 0 then s.g.bad &&& ~~~(BitVec.twoPow 16 d) else s.g.bad := rfl
    rw [this, z]
    simp
  · rfl

end Sys2Proof.Machine
end

