-- ==== Sys2Proof/Laws/Lanes.lean ====
section
/-! SUPPORT. What writing lanes of a vector register does (R59, R60), and what a unit with one vector result does. -/

namespace Sys2Proof.Machine

theorem getD_lanes_map {α : Type} (f : Nat → α) (z : α) {l : Nat} (h : l < 96) : (lanes.map f).getD l z = f l := by
  simp [lanes, List.getD_eq_getElem?_getD, h]

theorem lt_of_getLsbD {n : Nat} {m : BitVec n} {l : Nat} (h : m.getLsbD l = true) : l < n := by
  by_cases c : l < n
  · exact c
  · rw [BitVec.getLsbD_of_ge _ _ (by omega)] at h; cases h

/-- R59: of a full write no present lane is left out. -/
theorem Group.full_present {g : Group} {m : Mask} (h : g.full m = true) {l : Nat} (p : g.present.getLsbD l = true) :
    m.getLsbD l = true := by
  have e : (g.present &&& ~~~m).getLsbD l = false := by
    rw [of_decide_eq_true h]; exact BitVec.getLsbD_zero
  have hl := lt_of_getLsbD p
  rw [BitVec.getLsbD_and, BitVec.getLsbD_not, p] at e
  simpa [hl] using e

/-- What lanes m of a register hold after a write of x, the idle lanes as before. -/
structure LanesSet (old new : VReg) (present m : Mask) (x : Nat → Word) (pz : Mask) : Prop where
  value : ∀ l, m.getLsbD l = true → new.lane l = x l
  idle : ∀ l, l < 96 → present.getLsbD l = true → m.getLsbD l = false → new.lane l = old.lane l
  marks : new.poison = (old.poison &&& ~~~m) ||| (pz &&& m)

/-- R59, R60: a write with room for it. -/
theorem Group.putV_room {g : Group} (f : g.v.length = 64) {d : Nat} (hd : d < 64) (m : Mask) (x : VOp) (pz : Mask)
    (room : g.Room d) :
    ∃ r : VReg, g.putV d m x pz = some { g with v := g.v.set d r }
      ∧ LanesSet (g.v.getD d VReg.zero) r g.present m x.lane pz := by
  have gen (k : Nat) : LanesSet (g.v.getD d VReg.zero)
      ⟨.general k (lanes.map fun l => if m.getLsbD l then x.lane l else (g.v.getD d VReg.zero).lane l),
        ((g.v.getD d VReg.zero).poison &&& ~~~m) ||| (pz &&& m)⟩ g.present m x.lane pz := by
    refine ⟨?_, ?_, rfl⟩
    · intro l hl
      exact (getD_lanes_map _ _ (lt_of_getLsbD hl)).trans (if_pos hl)
    · intro l h96 _ hl
      exact (getD_lanes_map _ _ h96).trans (if_neg (by simp [hl]))
  have general : ∃ r : VReg, (match (match (g.v.getD d VReg.zero).val.slot? with | some k => some k | none => g.freeSlot) with
      | some k => some { g with v := g.v.set d ⟨.general k (lanes.map fun l => if m.getLsbD l then x.lane l else (g.v.getD d VReg.zero).lane l),
          ((g.v.getD d VReg.zero).poison &&& ~~~m) ||| (pz &&& m)⟩ }
      | none => none) = some { g with v := g.v.set d r } ∧ LanesSet (g.v.getD d VReg.zero) r g.present m x.lane pz := by
    rcases room with h | h
    · cases e : (g.v.getD d VReg.zero).val with
      | general k ls => exact ⟨_, rfl, gen k⟩
      | uniform w => rw [e] at h; cases h
      | affine b s => rw [e] at h; cases h
      | mixed ls => rw [e] at h; cases h
    · obtain ⟨k, hk⟩ := Option.isSome_iff_exists.1 h
      cases (g.v.getD d VReg.zero).val.slot? with
      | some j => exact ⟨_, rfl, gen j⟩
      | none => exact ⟨_, by rw [hk], gen k⟩
  unfold Group.putV
  dsimp only
  by_cases c : (g.full m && !(g.owed d && (g.v.getD d VReg.zero).val.slot?.isSome)) = true
  · have full : g.full m = true := by simp_all
    rw [if_pos c]
    cases x with
    | uniform w =>
      refine ⟨⟨.uniform w, _⟩, rfl, fun _ _ => rfl, ?_, rfl⟩
      intro l _ p n; rw [g.full_present full p] at n; cases n
    | affine b e =>
      refine ⟨⟨.affine b e, _⟩, rfl, fun _ _ => rfl, ?_, rfl⟩
      intro l _ p n; rw [g.full_present full p] at n; cases n
    | general ls => exact general
  · rw [if_neg c]
    exact general

/-- A unit's group with its result on the way and its vector register written. -/
def Group.written (g : Group) (d c : Nat) (m : Mask) (r : VReg) : Group :=
  { ((g.produceIn (.v d) c m).race (RegWrite.raceV d m)).touchRun d with v := g.v.set d r }

/-- A unit's write of one register, with room for it. -/
theorem Group.commitV_room {g : Group} (f : g.Formed) {d : Nat} (hd : d < 64) (ready : Nat) (m : Mask) (x : VOp) (pz : Mask)
    (room : g.Room d) :
    ∃ r : VReg, g.commitV ready m [⟨d, x, pz⟩]
        = .ok (g.written d ready m r) ∧ LanesSet (g.v.getD d VReg.zero) r g.present m x.lane pz := by
  obtain ⟨r, hr, hs⟩ := Group.putV_room (g := ((g.produceIn (.v d) ready m).race (RegWrite.raceV d m)).touchRun d) f.v hd m x pz room
  refine ⟨r, ?_, hs⟩
  simp only [Group.commitV, Group.writeV, hr]
  rfl

theorem Group.raiseFlags_gsrBit (g : Group) (a b : Bool) (i : Nat) :
    (g.raiseFlags a b).gsrBit i = (g.gsrBit i || (i == 3 && a) || (i == 4 && b)) := by
  unfold Group.raiseFlags Group.gsrBit
  cases a <;> cases b <;> simp only [Bool.false_eq_true, if_false, if_true, getLsbD_setBit _ (show 3 < 32 by omega),
    getLsbD_setBit _ (show 4 < 32 by omega)]
  · simp
  · by_cases h : i = 4 <;> simp [h]
  · by_cases h : i = 3 <;> simp [h]
  · by_cases h : i = 4
    · simp [h]
    · by_cases k : i = 3
      · simp [k]
      · simp [h, k, beq_eq_false_iff_ne.2 h, beq_eq_false_iff_ne.2 k]

theorem Group.raiseFlags_rest (g : Group) (a b : Bool) : g.raiseFlags a b = { g with gsr := (g.raiseFlags a b).gsr } := by
  cases a <;> cases b <;> rfl

/-- The group a unit leaves: its result, poison noted or not, the sticky flags. -/
def Group.left (g : Group) (d c : Nat) (m : Mask) (r : VReg) (ck ovf sat : Bool) : Group :=
  (if ck then g.written d c m r else (g.written d c m r).ck 0).raiseFlags ovf sat

variable (g : Group) (d c : Nat) (m : Mask) (r : VReg) (ck ovf sat : Bool)

/-- What it leaves of the rest: all but %gsr and %ckint by name. -/
theorem Group.left_form : ∃ k q, g.left d c m r ck ovf sat = { g with
    inflight := (g.produceIn (.v d) c m).inflight, pend := (g.race (RegWrite.raceV d m)).pend, v := g.v.set d r,
    mxRuns := (g.touchRun d).mxRuns, ckint := k, gsr := q } := by
  unfold Group.left
  rw [Group.raiseFlags_rest]
  generalize (Group.raiseFlags _ ovf sat).gsr = q
  cases ck
  · refine ⟨setBit g.ckint 0 true, q, ?_⟩
    simp only [Group.written, Group.produceIn, Group.race, Group.touchRun, Group.ck, Bool.false_eq_true, if_false]
  · refine ⟨g.ckint, q, ?_⟩
    simp only [Group.written, Group.produceIn, Group.race, Group.touchRun, if_true]
@[simp] theorem Group.left_v : (g.left d c m r ck ovf sat).v = g.v.set d r := by
  obtain ⟨_, _, e⟩ := g.left_form d c m r ck ovf sat; rw [e]
@[simp] theorem Group.left_inflight : (g.left d c m r ck ovf sat).inflight = (g.produceIn (.v d) c m).inflight := by
  obtain ⟨_, _, e⟩ := g.left_form d c m r ck ovf sat; rw [e]
@[simp] theorem Group.left_mxRuns : (g.left d c m r ck ovf sat).mxRuns = (g.touchRun d).mxRuns := by
  obtain ⟨_, _, e⟩ := g.left_form d c m r ck ovf sat; rw [e]
@[simp] theorem Group.left_pend : (g.left d c m r ck ovf sat).pend = (g.race (RegWrite.raceV d m)).pend := by
  obtain ⟨_, _, e⟩ := g.left_form d c m r ck ovf sat; rw [e]
theorem Group.left_gsrBit (i : Nat) : (g.left d c m r ck ovf sat).gsrBit i = (g.gsrBit i || (i == 3 && ovf) || (i == 4 && sat)) := by
  refine (Group.raiseFlags_gsrBit _ ovf sat i).trans ?_
  have e : (if ck then g.written d c m r else (g.written d c m r).ck 0).gsrBit i = g.gsrBit i := by
    cases ck <;> simp only [Group.gsrBit, Group.ck, Group.written, Group.touchRun, Group.race, Group.produceIn,
      Bool.false_eq_true, if_false, if_true]
  rw [e]
/-- What it leaves of the rest. -/
theorem Group.left_rest (p : Addr) (n : Nat) :
    ({ g.left d c m r ck ovf sat with pc := p, notBefore := n } : Group)
      = { g.kept { g.left d c m r ck ovf sat with pc := p, notBefore := n } with
          v := (g.left d c m r ck ovf sat).v, gsr := (g.left d c m r ck ovf sat).gsr, ckint := (g.left d c m r ck ovf sat).ckint,
          mxRuns := (g.left d c m r ck ovf sat).mxRuns } := by
  obtain ⟨_, _, e⟩ := g.left_form d c m r ck ovf sat
  generalize g.left d c m r ck ovf sat = u at e ⊢
  subst e
  rfl

/-- A unit that wrote lanes m of register d. -/
theorem State.wroteLanes {s : State} (f : s.g.Formed) {lat d : Nat} (hd : d < 64) (m : Mask) (x : Nat → Word)
    (r : VReg) (pz : Mask) (ck ovf sat : Bool) (hr : LanesSet (s.g.v.getD d VReg.zero) r s.g.present m x pz)
    (cls : Cls) (len st : Nat) :
    s.WroteLanes (s.after { s with g := s.g.left d (s.clock + lat) m r ck ovf sat } cls len st) lat d m x pz ovf sat := by
  have e : (s.after { s with g := s.g.left d (s.clock + lat) m r ck ovf sat } cls len st).g.v = s.g.v.set d r :=
    Group.left_v _ _ _ _ _ _ _ _
  have self : (s.g.v.set d r).getD d VReg.zero = r := by
    rw [List.getD_eq_getElem?_getD, List.getElem?_set_self (by rw [f.v]; exact hd)]; rfl
  constructor
  · exact State.OnlyGroup.after (s.onlyGroup_mg fun _ => s.g.left d (s.clock + lat) m r ck ovf sat) cls len st
  · rw [e, self]; exact hr.value
  · rw [e, self]; exact hr.idle
  · rw [e, self]; exact hr.marks
  · intro q ne
    rw [e, List.getD_eq_getElem?_getD, List.getElem?_set_ne (Ne.symm ne), ← List.getD_eq_getElem?_getD]
  · exact Group.left_inflight _ _ _ _ _ _ _ _
  · exact Group.left_mxRuns _ _ _ _ _ _ _ _
  · rw [State.after_g]
    show List.map _ (Group.left _ _ _ _ _ _ _ _).pend = _
    rw [Group.left_pend]
    exact Group.race_samePend s.g (RegWrite.raceV d m)
  · exact Group.left_gsrBit _ _ _ _ _ _ _ _
  · exact Group.left_rest _ _ _ _ _ _ _ _ _ _

end Sys2Proof.Machine
end

