-- ==== Sys2Proof/Laws/LaneOps.lean ====
section
/-! SUPPORT. What a lane operation does (R119 to R122): the result of every active lane, its shape's rows of R122 giving the same
words as lane by lane, and the flags. -/

namespace Sys2Proof.Machine

theorem mem_lanesOf {m : Mask} {l : Nat} : l ∈ lanesOf m ↔ m.getLsbD l = true := by
  simp only [lanesOf, List.mem_filter, List.mem_range]
  exact ⟨fun h => h.2, fun h => ⟨lt_of_getLsbD h, h⟩⟩

theorem exists_lane {m : Mask} (h : m ≠ 0) : ∃ l, m.getLsbD l = true := by
  by_contra c
  simp only [not_exists, Bool.not_eq_true] at c
  exact h (BitVec.eq_of_getLsbD_eq fun i _ => by rw [c i]; simp)

/-- The lowest lane of a mask that is not zero is active. -/
theorem lowestLane_active {m : Mask} (h : m ≠ 0) : m.getLsbD (lowestLane m) = true := by
  obtain ⟨l, hl⟩ := exists_lane h
  unfold lowestLane
  cases e : (List.range 96).find? fun l => m.getLsbD l with
  | some k => exact List.find?_some e
  | none =>
    have := List.find?_eq_none.1 e l (List.mem_range.2 (lt_of_getLsbD hl))
    exact absurd hl this

theorem VOp.isUniform_lane {x : VOp} (h : x.isUniform = true) (i j : Nat) : x.lane i = x.lane j := by
  cases x with
  | uniform w => rfl
  | affine b d => cases h
  | general ls => cases h

/-- The words of a list of operands in a lane. -/
def lanesAt (xs : List Opd) (l : Nat) : List Word := xs.map fun o => o.val.lane l

theorem lanesAt_uniform {xs : List Opd} (h : (xs.all fun o => o.val.isUniform) = true) (i j : Nat) :
    lanesAt xs i = lanesAt xs j := by
  unfold lanesAt
  apply List.map_congr_left
  intro o ho
  exact VOp.isUniform_lane (List.all_eq_true.1 h o ho) i j

/-- R122: the affine row of an operation gives in every lane what the operation gives there, and no flag. -/
def LaneOp.RowOk (op : LaneOp) : Prop :=
  ∀ (xs : List Opd) (v : VOp), op.aff (xs.map (·.val)) = some v →
    ∀ l, v.lane l = BitVec.ofNat 32 (op.f (lanesAt xs l)).bits ∧ (op.f (lanesAt xs l)).ovf = false ∧ (op.f (lanesAt xs l)).sat = false

theorem LaneOp.rowOk_none (op : LaneOp) (h : op.aff = affNone) : op.RowOk := by
  intro xs v e; rw [h] at e; cases e

theorem eachLane_spec {m : Mask} (hm : m ≠ 0) {uni : Bool} {f : Nat → FRes} (hu : uni = true → ∀ i j, f i = f j) :
    (∀ l, m.getLsbD l = true → (eachLane m uni f).1.lane l = BitVec.ofNat 32 (f l).bits)
      ∧ (eachLane m uni f).2.1 = (lanesOf m).any (fun l => (f l).ovf)
      ∧ (eachLane m uni f).2.2 = (lanesOf m).any (fun l => (f l).sat) := by
  cases uni with
  | true =>
    have c := hu rfl
    refine ⟨fun l _ => ?_, ?_, ?_⟩
    · show BitVec.ofNat 32 (f (lowestLane m)).bits = _
      rw [c (lowestLane m) l]
    · show (f (lowestLane m)).ovf = _
      have h := lowestLane_active hm
      rw [Bool.eq_iff_iff, List.any_eq_true]
      exact ⟨fun q => ⟨_, mem_lanesOf.2 h, q⟩, fun ⟨l, _, q⟩ => by rw [c (lowestLane m) l]; exact q⟩
    · show (f (lowestLane m)).sat = _
      have h := lowestLane_active hm
      rw [Bool.eq_iff_iff, List.any_eq_true]
      exact ⟨fun q => ⟨_, mem_lanesOf.2 h, q⟩, fun ⟨l, _, q⟩ => by rw [c (lowestLane m) l]; exact q⟩
  | false =>
    have any (p : FRes → Bool) (z : p (.ok 0) = false) :
        (lanes.map fun l => if m.getLsbD l then f l else FRes.ok 0).any p = (lanesOf m).any fun l => p (f l) := by
      rw [Bool.eq_iff_iff, List.any_map, List.any_eq_true, List.any_eq_true]
      constructor
      · rintro ⟨l, hl, q⟩
        by_cases a : m.getLsbD l = true
        · exact ⟨l, mem_lanesOf.2 a, by simpa [a] using q⟩
        · simp [a, z] at q
      · rintro ⟨l, hl, q⟩
        have a := mem_lanesOf.1 hl
        exact ⟨l, List.mem_range.2 (lt_of_getLsbD a), by simpa [a] using q⟩
    refine ⟨fun l hl => ?_, any _ rfl, any _ rfl⟩
    show ((lanes.map fun l => if m.getLsbD l then f l else FRes.ok 0).map fun r => BitVec.ofNat 32 r.bits).getD l 0 = _
    rw [List.map_map, getD_lanes_map _ _ (lt_of_getLsbD hl)]
    simp [hl]

/-- R119, R122: the result of a lane operation none of whose active operand words is poisoned. -/
theorem LaneOp.result_spec (op : LaneOp) (row : op.RowOk) {m : Mask} (hm : m ≠ 0) (xs : List Opd)
    (clean : (xs.foldl (fun p o => p ||| o.pz) 0) &&& m = 0) :
    (∀ l, m.getLsbD l = true → (op.result m xs).1.lane l = BitVec.ofNat 32 (op.f (lanesAt xs l)).bits)
      ∧ (op.result m xs).2.1 = 0
      ∧ (op.result m xs).2.2.1 = (lanesOf m).any (fun l => (op.f (lanesAt xs l)).ovf)
      ∧ (op.result m xs).2.2.2 = (lanesOf m).any (fun l => (op.f (lanesAt xs l)).sat) := by
  unfold LaneOp.result
  simp only [clean]
  cases e : op.aff (xs.map (·.val)) with
  | some v =>
    have r := row xs v e
    refine ⟨fun l _ => (r l).1, rfl, ?_, ?_⟩
    · simp [(r _).2.1]
    · simp [(r _).2.2]
  | none =>
    have uni := eachLane_spec (f := fun l => op.f (lanesAt xs l)) hm (uni := xs.all fun o => o.val.isUniform)
      (fun h i j => congrArg op.f (lanesAt_uniform h i j))
    cases op.nan with
    | none => exact ⟨uni.1, rfl, uni.2⟩
    | some n =>
      have z : (fun l => if (0 : Mask).getLsbD l = true then FRes.ok n else op.f (xs.map fun o => o.val.lane l))
          = fun l => op.f (lanesAt xs l) := by
        funext l
        rw [show (0 : Mask).getLsbD l = false from BitVec.getLsbD_zero]; rfl
      simp only [z, decide_true, Bool.true_or, Bool.and_true]
      exact ⟨uni.1, trivial, uni.2⟩

/-- A lane operation as a unit: it issues, and the active lanes of d hold the operation's results. -/
theorem LaneOp.run_next (op : LaneOp) (row : op.RowOk) {s : State} (f : s.g.Formed) {st len d : Nat} (hd : d < 64)
    {refs : Group → Nat → List Ref} {os : Group → Nat → List Opd}
    (hm : s.g.rdMask s.clock ≠ 0) (h : s.Issues op.cls (maskRefs ++ refs s.g s.clock))
    (clean : ((os s.g s.clock).foldl (fun p o => p ||| o.pz) 0) &&& s.g.rdMask s.clock = 0) (room : s.g.Room d) :
    ∃ t, op.run st len d refs os s = .next t ∧ s.Issued t op.cls (s.g.pc + BitVec.ofNat 64 len) st
      ∧ s.WroteLanes t (op.lat + ((os s.g s.clock).map (·.lat)).sum) d (s.g.rdMask s.clock)
          (fun l => BitVec.ofNat 32 (op.f (lanesAt (os s.g s.clock) l)).bits) 0
          ((lanesOf (s.g.rdMask s.clock)).any fun l => (op.f (lanesAt (os s.g s.clock) l)).ovf)
          ((lanesOf (s.g.rdMask s.clock)).any fun l => (op.f (lanesAt (os s.g s.clock) l)).sat) := by
  obtain ⟨rv, rp, ro, rs⟩ := op.result_spec row hm (os s.g s.clock) clean
  obtain ⟨r, hc, hl⟩ := Group.commitV_room f hd (s.clock + op.lat + ((os s.g s.clock).map (·.lat)).sum) (s.g.rdMask s.clock)
    (op.result (s.g.rdMask s.clock) (os s.g s.clock)).1 (op.result (s.g.rdMask s.clock) (os s.g s.clock)).2.1 room
  let fl := (op.result (s.g.rdMask s.clock) (os s.g s.clock)).2.2
  let k : Group := s.g.left d (s.clock + (op.lat + ((os s.g s.clock).map (·.lat)).sum)) (s.g.rdMask s.clock) r true fl.1 fl.2
  have ku : k.core = s.g.core ∧ k.quarter = s.g.quarter ∧ k.id = s.g.id ∧ k.pc = s.g.pc := by
    obtain ⟨_, _, e⟩ := s.g.left_form d (s.clock + (op.lat + ((os s.g s.clock).map (·.lat)).sum)) (s.g.rdMask s.clock) r true fl.1 fl.2
    simp only [k, e, and_self]
  have p : Performs (op.body d os) s { s with g := k } := by
    refine ⟨?_, rfl, ku.1, ku.2.1⟩
    simp only [LaneOp.body, hc, clean, if_true]
    simp only [k, fl, Group.left, if_true, Nat.add_assoc]
  refine ⟨_, congrArg Host.Outcome.next (vunit_performs hm h p), ?_, ?_⟩
  · exact State.issued_after op.cls len st rfl rfl ⟨ku.1, ku.2.1, ku.2.2.1⟩ ku.2.2.2
  · have hl' : LanesSet (s.g.v.getD d VReg.zero) r s.g.present (s.g.rdMask s.clock)
        (fun l => BitVec.ofNat 32 (op.f (lanesAt (os s.g s.clock) l)).bits) 0 := by
      refine ⟨fun l hlm => (hl.value l hlm).trans (rv l hlm), hl.idle, ?_⟩
      rw [hl.marks, rp]
    have w := State.wroteLanes (s := s) f (lat := op.lat + ((os s.g s.clock).map (·.lat)).sum) hd (s.g.rdMask s.clock) _ r 0
      true fl.1 fl.2 hl' op.cls len st
    rw [← ro, ← rs]
    exact w

end Sys2Proof.Machine
end

