-- ==== Sys2Proof/Laws/Memory.lean ====
section
/-! SUPPORT. Laws of memory: every write keeps the canonical form, a read after a write gives the value written, and a
write leaves every other byte alone. -/

namespace Sys2Proof.Machine

theorem Memory.wfFrom_mono {lo hi : Nat} {m : List Host.Cell} (h : Memory.wfFrom hi m = true) (le : lo ≤ hi) :
    Memory.wfFrom lo m = true := by
  cases m with
  | nil => rfl
  | cons c r =>
    simp only [Memory.wfFrom, Bool.and_eq_true, decide_eq_true_eq] at h ⊢
    exact ⟨⟨by omega, h.1.2⟩, h.2⟩

theorem Memory.cons_wf {lo a : Nat} {x : Byte} {r : List Host.Cell} (ha : lo ≤ a) (hr : Memory.wfFrom (a + 1) r = true) :
    Memory.wfFrom lo (Memory.cons a x r) = true := by
  unfold Memory.cons
  split
  · exact Memory.wfFrom_mono hr (by omega)
  · simp [Memory.wfFrom, ha, hr, bne_iff_ne]; assumption

theorem Memory.put_wfFrom {lo a : Nat} {x : Byte} {m : List Host.Cell} (h : Memory.wfFrom lo m = true) (ha : lo ≤ a) :
    Memory.wfFrom lo (Memory.put m a x) = true := by
  induction m generalizing lo with
  | nil => exact Memory.cons_wf ha rfl
  | cons c r ih =>
    have h' := h
    simp only [Memory.wfFrom, Bool.and_eq_true, decide_eq_true_eq] at h
    unfold Memory.put
    split
    · rename_i lt
      refine Memory.cons_wf ha ?_
      simp only [Memory.wfFrom, Bool.and_eq_true, decide_eq_true_eq]
      exact ⟨⟨by omega, h.1.2⟩, h.2⟩
    · split
      · rename_i e; subst e
        exact Memory.cons_wf ha h.2
      · simp only [Memory.wfFrom, Bool.and_eq_true, decide_eq_true_eq]
        exact ⟨h.1, ih h.2 (by omega)⟩

/-- A write of one byte keeps the canonical form. -/
theorem Memory.put_wf {m : List Host.Cell} (h : Memory.wf m = true) (a : Nat) (x : Byte) : Memory.wf (Memory.put m a x) = true :=
  Memory.put_wfFrom h (Nat.zero_le a)

/-- A write of bytes keeps the canonical form. -/
theorem Memory.write_wf {m : List Host.Cell} (h : Memory.wf m = true) (a : Nat) (bs : List Byte) :
    Memory.wf (Memory.write m a bs) = true := by
  induction bs generalizing m a with
  | nil => exact h
  | cons x r ih => exact ih (Memory.put_wf h a x) (a + 1)

theorem Memory.get_below {lo a : Nat} {m : List Host.Cell} (h : Memory.wfFrom lo m = true) (ha : a < lo) :
    Memory.get m a = Memory.background := by
  cases m with
  | nil => rfl
  | cons c r =>
    simp only [Memory.wfFrom, Bool.and_eq_true, decide_eq_true_eq] at h
    simp [Memory.get, show c.1 ≠ a by omega, show a < c.1 by omega]

theorem Memory.get_cons {lo a b : Nat} {x : Byte} {r : List Host.Cell} (hr : Memory.wfFrom (a + 1) r = true) (hb : lo ≤ b) :
    Memory.get (Memory.cons a x r) b = if b = a then x else if b < a then Memory.background else Memory.get r b := by
  unfold Memory.cons
  split
  · rename_i e
    split
    · rename_i eb; subst eb
      rw [Memory.get_below hr (by omega), e]
    · split
      · exact Memory.get_below hr (by omega)
      · rfl
  · simp only [Memory.get, eq_comm]

/-- Reading a byte after a write of one byte. -/
theorem Memory.get_put {lo a b : Nat} {x : Byte} {m : List Host.Cell} (h : Memory.wfFrom lo m = true) :
    Memory.get (Memory.put m a x) b = if b = a then x else Memory.get m b := by
  induction m generalizing lo with
  | nil =>
    show Memory.get (Memory.cons a x []) b = _
    rw [Memory.get_cons (lo := 0) rfl (Nat.zero_le b)]
    simp only [Memory.get]
    split <;> simp
  | cons c r ih =>
    have hc := h
    simp only [Memory.wfFrom, Bool.and_eq_true, decide_eq_true_eq] at h
    unfold Memory.put
    split
    · rename_i lt
      have hr : Memory.wfFrom (a + 1) (c :: r) = true := by
        simp only [Memory.wfFrom, Bool.and_eq_true, decide_eq_true_eq]; exact ⟨⟨by omega, h.1.2⟩, h.2⟩
      rw [Memory.get_cons (lo := 0) hr (Nat.zero_le b)]
      by_cases e : b = a
      · simp [e]
      · simp only [e, if_false]
        split
        · rw [Memory.get_below hr (by omega)]
        · rfl
    · split
      · rename_i e; subst e
        rw [Memory.get_cons (lo := 0) h.2 (Nat.zero_le b)]
        by_cases e : b = c.1
        · simp [e]
        · simp only [e, if_false, Memory.get]
          by_cases lt : b < c.1
          · rw [if_pos lt, if_neg (Ne.symm e)]
          · rw [if_neg lt, if_neg (Ne.symm e)]
      · rename_i nlt ne
        have hg (q : List Host.Cell) : Memory.get (c :: q) b = if c.1 = b then c.2 else if b < c.1 then Memory.background else Memory.get q b := rfl
        rw [hg, hg, ih h.2]
        by_cases e : b = a
        · subst e; simp [ne, nlt]
        · simp only [e, if_false]

/-- Reading a byte after a write of bytes: the byte written there, or what was there before. -/
theorem Memory.get_write {m : List Host.Cell} (h : Memory.wf m = true) (a b : Nat) (bs : List Byte) :
    Memory.get (Memory.write m a bs) b = if a ≤ b ∧ b < a + bs.length then bs.getD (b - a) 0 else Memory.get m b := by
  induction bs generalizing m a with
  | nil => rw [if_neg (by simp)]; rfl
  | cons x r ih =>
    unfold Memory.write
    rw [ih (Memory.put_wf h a x), Memory.get_put h]
    by_cases e : b = a
    · subst e; simp
    · by_cases c : a + 1 ≤ b ∧ b < a + 1 + r.length
      · have : b - a = (b - (a + 1)) + 1 := by omega
        simp only [c, and_self, if_true, List.length_cons, this, List.getD_cons_succ]
        rw [if_pos (by omega)]
      · simp only [c, if_false, e, List.length_cons]
        rw [if_neg (by omega)]

/-- A write leaves every byte outside it alone. -/
theorem Memory.get_write_other {m : List Host.Cell} (h : Memory.wf m = true) {a b : Nat} {bs : List Byte}
    (out : b < a ∨ a + bs.length ≤ b) : Memory.get (Memory.write m a bs) b = Memory.get m b := by
  rw [Memory.get_write h, if_neg (by omega)]

@[simp] theorem Memory.read_length (m : List Host.Cell) (a n : Nat) : (Memory.read m a n).length = n := by
  induction n generalizing a with
  | zero => rfl
  | succ n ih => simp [Memory.read, ih]

@[simp] theorem leBytes_length (n x : Nat) : (leBytes n x).length = n := by
  induction n generalizing x with
  | zero => rfl
  | succ n ih => simp [leBytes, ih]

/-- R1: the number n little-endian bytes hold. -/
theorem leNat_leBytes (n x : Nat) : leNat (leBytes n x) = x % 256 ^ n := by
  induction n generalizing x with
  | zero => simp [leBytes, leNat, Nat.mod_one]
  | succ n ih =>
    have e : x % 256 ^ (n + 1) = x % 256 + 256 * (x / 256 % 256 ^ n) := by
      rw [Nat.pow_succ', Nat.mod_mul]
    rw [e, leBytes, leNat, ih, BitVec.toNat_ofNat]

theorem Memory.read_write_other {m : List Host.Cell} (h : Memory.wf m = true) {a b n : Nat} {bs : List Byte}
    (out : b + n ≤ a ∨ a + bs.length ≤ b) : Memory.read (Memory.write m a bs) b n = Memory.read m b n := by
  induction n generalizing b with
  | zero => rfl
  | succ n ih =>
    simp only [Memory.read]
    rw [Memory.get_write_other h (by omega), ih (by omega)]

/-- A read after a write of the same bytes gives them. -/
theorem Memory.read_write {m : List Host.Cell} (h : Memory.wf m = true) (a : Nat) (bs : List Byte) :
    Memory.read (Memory.write m a bs) a bs.length = bs := by
  induction bs generalizing m a with
  | nil => rfl
  | cons x r ih =>
    have hp := Memory.put_wf h a x
    simp only [Memory.write, List.length_cons, Memory.read]
    rw [ih hp, Memory.get_write_other hp (by omega), Memory.get_put h]
    simp

/-- R1: a number read back after it was written. -/
theorem State.memRead_memWrite {s : State} (h : s.memOk) (a n x : Nat) : (s.memWrite a n x).memRead a n = x % 256 ^ n := by
  have := Memory.read_write h (s.place a) (leBytes n x)
  rw [leBytes_length] at this
  show leNat (Memory.read (Memory.write s.mem (s.place a) (leBytes n x)) (s.place a) n) = _
  rw [this, leNat_leBytes]

/-- Every operation on memory keeps the canonical form. -/
theorem State.memStore_memOk {s : State} (h : s.memOk) (a : Nat) (bs : List Byte) : (s.memStore a bs).memOk :=
  Memory.write_wf h (s.place a) bs
theorem State.memWrite_memOk {s : State} (h : s.memOk) (a n x : Nat) : (s.memWrite a n x).memOk :=
  State.memStore_memOk h a _
theorem State.memWriteP_memOk {s : State} (h : s.memOk) (a n x : Nat) (pz : Bool) : (s.memWriteP a n x pz).memOk := by
  unfold State.memWriteP
  split
  · exact State.memWrite_memOk h a n x
  · exact State.memWrite_memOk h a n x
theorem State.reset_memOk : State.reset.memOk := rfl

end Sys2Proof.Machine
end

