-- ==== Sys2Proof/Laws/PerInstr.lean ====
section
/-! SUPPORT. A law of every instruction: its own word ends its unit, with the prefixes before it (R28). -/

namespace Sys2Proof.Laws.Units

/-- R28: of an encoded instruction, the unit is the prefixes it has, then its own word. -/
def Statement (i : Instr) : Prop := i.isEncoded = true → ∃ ps, encode i = ps ++ [wordOf i] ∨ encode i = ps ++ halves (wordOf i)

theorem vmov16 (o : H16) : Statement (.vmov16 o) := fun _ => ⟨[], .inl rfl⟩
theorem vaddI3216 (o : H16) : Statement (.vaddI3216 o) := fun _ => ⟨[], .inl rfl⟩
theorem vsubI3216 (o : H16) : Statement (.vsubI3216 o) := fun _ => ⟨[], .inl rfl⟩
theorem vand16 (o : H16) : Statement (.vand16 o) := fun _ => ⟨[], .inl rfl⟩
theorem vor16 (o : H16) : Statement (.vor16 o) := fun _ => ⟨[], .inl rfl⟩
theorem vxor16 (o : H16) : Statement (.vxor16 o) := fun _ => ⟨[], .inl rfl⟩
theorem vshl16 (o : H16) : Statement (.vshl16 o) := fun _ => ⟨[], .inl rfl⟩
theorem vshrN16 (o : H16) : Statement (.vshrN16 o) := fun _ => ⟨[], .inl rfl⟩
theorem vshrI16 (o : H16) : Statement (.vshrI16 o) := fun _ => ⟨[], .inl rfl⟩
theorem vmulLo16 (o : H16) : Statement (.vmulLo16 o) := fun _ => ⟨[], .inl rfl⟩
theorem vaddF3216 (o : H16) : Statement (.vaddF3216 o) := fun _ => ⟨[], .inl rfl⟩
theorem vsubF3216 (o : H16) : Statement (.vsubF3216 o) := fun _ => ⟨[], .inl rfl⟩
theorem vmulF3216 (o : H16) : Statement (.vmulF3216 o) := fun _ => ⟨[], .inl rfl⟩
theorem vmaxF3216 (o : H16) : Statement (.vmaxF3216 o) := fun _ => ⟨[], .inl rfl⟩
theorem vminF3216 (o : H16) : Statement (.vminF3216 o) := fun _ => ⟨[], .inl rfl⟩
theorem vmovs16 (o : H16) : Statement (.vmovs16 o) := fun _ => ⟨[], .inl rfl⟩
theorem sadd (o : DAB) : Statement (.sadd o) := fun _ => ⟨[], .inr rfl⟩
theorem ssub (o : DAB) : Statement (.ssub o) := fun _ => ⟨[], .inr rfl⟩
theorem smul (o : DAB) : Statement (.smul o) := fun _ => ⟨[], .inr rfl⟩
theorem smulhI (o : DAB) : Statement (.smulhI o) := fun _ => ⟨[], .inr rfl⟩
theorem smulhN (o : DAB) : Statement (.smulhN o) := fun _ => ⟨[], .inr rfl⟩
theorem saddc (o : DAB) : Statement (.saddc o) := fun _ => ⟨[], .inr rfl⟩
theorem ssubb (o : DAB) : Statement (.ssubb o) := fun _ => ⟨[], .inr rfl⟩
theorem sneg (o : DA) : Statement (.sneg o) := fun _ => ⟨[], .inr rfl⟩
theorem sand (o : DAB) : Statement (.sand o) := fun _ => ⟨[], .inr rfl⟩
theorem sor (o : DAB) : Statement (.sor o) := fun _ => ⟨[], .inr rfl⟩
theorem sxor (o : DAB) : Statement (.sxor o) := fun _ => ⟨[], .inr rfl⟩
theorem sandn (o : DAB) : Statement (.sandn o) := fun _ => ⟨[], .inr rfl⟩
theorem sshl (o : DAB) : Statement (.sshl o) := fun _ => ⟨[], .inr rfl⟩
theorem sshrN (o : DAB) : Statement (.sshrN o) := fun _ => ⟨[], .inr rfl⟩
theorem sshrI (o : DAB) : Statement (.sshrI o) := fun _ => ⟨[], .inr rfl⟩
theorem srotl (o : DAB) : Statement (.srotl o) := fun _ => ⟨[], .inr rfl⟩
theorem sminI (o : DAB) : Statement (.sminI o) := fun _ => ⟨[], .inr rfl⟩
theorem smaxI (o : DAB) : Statement (.smaxI o) := fun _ => ⟨[], .inr rfl⟩
theorem sminN (o : DAB) : Statement (.sminN o) := fun _ => ⟨[], .inr rfl⟩
theorem smaxN (o : DAB) : Statement (.smaxN o) := fun _ => ⟨[], .inr rfl⟩
theorem ssel (o : DAB) : Statement (.ssel o) := fun _ => ⟨[], .inr rfl⟩
theorem spopc (o : DA) : Statement (.spopc o) := fun _ => ⟨[], .inr rfl⟩
theorem sclz (o : DA) : Statement (.sclz o) := fun _ => ⟨[], .inr rfl⟩
theorem sbrev (o : DA) : Statement (.sbrev o) := fun _ => ⟨[], .inr rfl⟩
theorem seq (o : AB) : Statement (.seq o) := fun _ => ⟨[], .inr rfl⟩
theorem sne (o : AB) : Statement (.sne o) := fun _ => ⟨[], .inr rfl⟩
theorem sltI (o : AB) : Statement (.sltI o) := fun _ => ⟨[], .inr rfl⟩
theorem sleI (o : AB) : Statement (.sleI o) := fun _ => ⟨[], .inr rfl⟩
theorem sltN (o : AB) : Statement (.sltN o) := fun _ => ⟨[], .inr rfl⟩
theorem sleN (o : AB) : Statement (.sleN o) := fun _ => ⟨[], .inr rfl⟩
theorem stst (o : AB) : Statement (.stst o) := fun _ => ⟨[], .inr rfl⟩
theorem saddi (o : SDAI) : Statement (.saddi o) := fun _ => ⟨_, .inr rfl⟩
theorem sandi (o : SDAI) : Statement (.sandi o) := fun _ => ⟨_, .inr rfl⟩
theorem sori (o : SDAI) : Statement (.sori o) := fun _ => ⟨_, .inr rfl⟩
theorem sxori (o : SDAI) : Statement (.sxori o) := fun _ => ⟨_, .inr rfl⟩
theorem sshli (o : SDAI) : Statement (.sshli o) := fun _ => ⟨_, .inr rfl⟩
theorem sshriN (o : SDAI) : Statement (.sshriN o) := fun _ => ⟨_, .inr rfl⟩
theorem sshriI (o : SDAI) : Statement (.sshriI o) := fun _ => ⟨_, .inr rfl⟩
theorem sli (o : SDI) : Statement (.sli o) := fun _ => ⟨_, .inr rfl⟩
theorem scmpi (o : SCAI) : Statement (.scmpi o) := fun _ => ⟨_, .inr rfl⟩
theorem sbfeN (o : DAB) : Statement (.sbfeN o) := fun _ => ⟨[], .inr rfl⟩
theorem sbfeI (o : DAB) : Statement (.sbfeI o) := fun _ => ⟨[], .inr rfl⟩
theorem sbfi (o : DAB) : Statement (.sbfi o) := fun _ => ⟨[], .inr rfl⟩
theorem sgetr (o : GR) : Statement (.sgetr o) := fun _ => ⟨[], .inr rfl⟩
theorem ssetr (o : SR) : Statement (.ssetr o) := fun _ => ⟨[], .inr rfl⟩
theorem srdlane (o : DAB) : Statement (.srdlane o) := fun _ => ⟨[], .inr rfl⟩
theorem swrlane (o : DAB) : Statement (.swrlane o) := fun _ => ⟨[], .inr rfl⟩
theorem sfirst (o : DA) : Statement (.sfirst o) := fun _ => ⟨[], .inr rfl⟩
theorem bra (o : B21) : Statement (.bra o) := fun _ => ⟨[], .inr rfl⟩
theorem bscc (o : B20) : Statement (.bscc o) := fun _ => ⟨[], .inr rfl⟩
theorem bnscc (o : B20) : Statement (.bnscc o) := fun _ => ⟨[], .inr rfl⟩
theorem bz (o : BC) : Statement (.bz o) := fun _ => ⟨[], .inr rfl⟩
theorem bnz (o : BC) : Statement (.bnz o) := fun _ => ⟨[], .inr rfl⟩
theorem call (o : B21) : Statement (.call o) := fun _ => ⟨[], .inr rfl⟩
theorem nop (o : Z0) : Statement (.nop o) := fun _ => ⟨[], .inr rfl⟩
theorem ret (o : Z0) : Statement (.ret o) := fun _ => ⟨[], .inr rfl⟩
theorem exit (o : Z0) : Statement (.exit o) := fun _ => ⟨[], .inr rfl⟩
theorem yield (o : Z0) : Statement (.yield o) := fun _ => ⟨[], .inr rfl⟩
theorem sleep (o : A1) : Statement (.sleep o) := fun _ => ⟨[], .inr rfl⟩
theorem elect (o : PP) : Statement (.elect o) := fun _ => ⟨[], .inr rfl⟩
theorem electw (o : PP) : Statement (.electw o) := fun _ => ⟨[], .inr rfl⟩
theorem jtab (o : BC) : Statement (.jtab o) := fun _ => ⟨[], .inr rfl⟩
theorem lpad (o : LP) : Statement (.lpad o) := fun _ => ⟨[], .inr rfl⟩
theorem sigchk (o : SG) : Statement (.sigchk o) := fun _ => ⟨[], .inr rfl⟩
theorem vif (o : DF) : Statement (.vif o) := fun _ => ⟨[], .inr rfl⟩
theorem velse (o : DO) : Statement (.velse o) := fun _ => ⟨[], .inr rfl⟩
theorem vend (o : Z0) : Statement (.vend o) := fun _ => ⟨[], .inr rfl⟩
theorem vloop (o : DO) : Statement (.vloop o) := fun _ => ⟨[], .inr rfl⟩
theorem vbrk (o : DP) : Statement (.vbrk o) := fun _ => ⟨[], .inr rfl⟩
theorem vcont (o : DP) : Statement (.vcont o) := fun _ => ⟨[], .inr rfl⟩
theorem vendl (o : DF) : Statement (.vendl o) := fun _ => ⟨[], .inr rfl⟩
theorem wait (o : WT) : Statement (.wait o) := fun _ => ⟨[], .inr rfl⟩
theorem vaddI32 (o : RDAB) : Statement (.vaddI32 o) := fun _ => ⟨_, .inr rfl⟩
theorem vsubI32 (o : RDAB) : Statement (.vsubI32 o) := fun _ => ⟨_, .inr rfl⟩
theorem vmulLo (o : RDAB) : Statement (.vmulLo o) := fun _ => ⟨_, .inr rfl⟩
theorem vmulhI (o : RDAB) : Statement (.vmulhI o) := fun _ => ⟨_, .inr rfl⟩
theorem vmulhN (o : RDAB) : Statement (.vmulhN o) := fun _ => ⟨_, .inr rfl⟩
theorem vaddsI (o : RDAB) : Statement (.vaddsI o) := fun _ => ⟨_, .inr rfl⟩
theorem vsubsI (o : RDAB) : Statement (.vsubsI o) := fun _ => ⟨_, .inr rfl⟩
theorem vabsdI (o : RDAB) : Statement (.vabsdI o) := fun _ => ⟨_, .inr rfl⟩
theorem vand (o : RDAB) : Statement (.vand o) := fun _ => ⟨_, .inr rfl⟩
theorem vor (o : RDAB) : Statement (.vor o) := fun _ => ⟨_, .inr rfl⟩
theorem vxor (o : RDAB) : Statement (.vxor o) := fun _ => ⟨_, .inr rfl⟩
theorem vandn (o : RDAB) : Statement (.vandn o) := fun _ => ⟨_, .inr rfl⟩
theorem vshl (o : RDAB) : Statement (.vshl o) := fun _ => ⟨_, .inr rfl⟩
theorem vshrN (o : RDAB) : Statement (.vshrN o) := fun _ => ⟨_, .inr rfl⟩
theorem vshrI (o : RDAB) : Statement (.vshrI o) := fun _ => ⟨_, .inr rfl⟩
theorem vrotl (o : RDAB) : Statement (.vrotl o) := fun _ => ⟨_, .inr rfl⟩
theorem vminI (o : RDAB) : Statement (.vminI o) := fun _ => ⟨_, .inr rfl⟩
theorem vmaxI (o : RDAB) : Statement (.vmaxI o) := fun _ => ⟨_, .inr rfl⟩
theorem vminN (o : RDAB) : Statement (.vminN o) := fun _ => ⟨_, .inr rfl⟩
theorem vmaxN (o : RDAB) : Statement (.vmaxN o) := fun _ => ⟨_, .inr rfl⟩
theorem vpopc (o : RDA) : Statement (.vpopc o) := fun _ => ⟨_, .inr rfl⟩
theorem vclz (o : RDA) : Statement (.vclz o) := fun _ => ⟨_, .inr rfl⟩
theorem vbrev (o : RDA) : Statement (.vbrev o) := fun _ => ⟨_, .inr rfl⟩
theorem vmov (o : RDB) : Statement (.vmov o) := fun _ => ⟨_, .inr rfl⟩
theorem vcmp (o : VCAB) : Statement (.vcmp o) := fun _ => ⟨_, .inr rfl⟩
theorem vsel (o : VSELO) : Statement (.vsel o) := fun _ => ⟨_, .inr rfl⟩
theorem vbfeN (o : RDAB) : Statement (.vbfeN o) := fun _ => ⟨_, .inr rfl⟩
theorem vbfeI (o : RDAB) : Statement (.vbfeI o) := fun _ => ⟨_, .inr rfl⟩
theorem vbfi (o : RDAB) : Statement (.vbfi o) := fun _ => ⟨_, .inr rfl⟩
theorem vpermb (o : RDAB) : Statement (.vpermb o) := fun _ => ⟨_, .inr rfl⟩
theorem vaddi (o : VDAI) : Statement (.vaddi o) := fun _ => ⟨_, .inr rfl⟩
theorem vandi (o : VDAI) : Statement (.vandi o) := fun _ => ⟨_, .inr rfl⟩
theorem vori (o : VDAI) : Statement (.vori o) := fun _ => ⟨_, .inr rfl⟩
theorem vxori (o : VDAI) : Statement (.vxori o) := fun _ => ⟨_, .inr rfl⟩
theorem vshli (o : VDAI) : Statement (.vshli o) := fun _ => ⟨_, .inr rfl⟩
theorem vshriN (o : VDAI) : Statement (.vshriN o) := fun _ => ⟨_, .inr rfl⟩
theorem vshriI (o : VDAI) : Statement (.vshriI o) := fun _ => ⟨_, .inr rfl⟩
theorem vli (o : VDI) : Statement (.vli o) := fun _ => ⟨_, .inr rfl⟩
theorem vcmpi (o : VCAI) : Statement (.vcmpi o) := fun _ => ⟨_, .inr rfl⟩
theorem vaddS (o : RDAB) : Statement (.vaddS o) := fun _ => ⟨_, .inr rfl⟩
theorem vmulS (o : RDAB) : Statement (.vmulS o) := fun _ => ⟨_, .inr rfl⟩
theorem vandS (o : RDAB) : Statement (.vandS o) := fun _ => ⟨_, .inr rfl⟩
theorem vshlS (o : RDAB) : Statement (.vshlS o) := fun _ => ⟨_, .inr rfl⟩
theorem vshrSN (o : RDAB) : Statement (.vshrSN o) := fun _ => ⟨_, .inr rfl⟩
theorem vmovs (o : RDB) : Statement (.vmovs o) := fun _ => ⟨_, .inr rfl⟩
theorem vmadS (o : RDAB) : Statement (.vmadS o) := fun _ => ⟨_, .inr rfl⟩
theorem vlaneid (o : RD) : Statement (.vlaneid o) := fun _ => ⟨_, .inr rfl⟩
theorem vaddI64 (o : RDAB) : Statement (.vaddI64 o) := fun _ => ⟨_, .inr rfl⟩
theorem vsubI64 (o : RDAB) : Statement (.vsubI64 o) := fun _ => ⟨_, .inr rfl⟩
theorem vshlI64 (o : RDAB) : Statement (.vshlI64 o) := fun _ => ⟨_, .inr rfl⟩
theorem vshrN64 (o : RDAB) : Statement (.vshrN64 o) := fun _ => ⟨_, .inr rfl⟩
theorem vshrI64 (o : RDAB) : Statement (.vshrI64 o) := fun _ => ⟨_, .inr rfl⟩
theorem vmulwI (o : RDAB) : Statement (.vmulwI o) := fun _ => ⟨_, .inr rfl⟩
theorem vmulwN (o : RDAB) : Statement (.vmulwN o) := fun _ => ⟨_, .inr rfl⟩
theorem vaddF32 (o : RDAB) : Statement (.vaddF32 o) := fun _ => ⟨_, .inr rfl⟩
theorem vsubF32 (o : RDAB) : Statement (.vsubF32 o) := fun _ => ⟨_, .inr rfl⟩
theorem vmulF32 (o : RDAB) : Statement (.vmulF32 o) := fun _ => ⟨_, .inr rfl⟩
theorem vfmaF32 (o : RDAB) : Statement (.vfmaF32 o) := fun _ => ⟨_, .inr rfl⟩
theorem vfmsF32 (o : RDAB) : Statement (.vfmsF32 o) := fun _ => ⟨_, .inr rfl⟩
theorem vfnmaF32 (o : RDAB) : Statement (.vfnmaF32 o) := fun _ => ⟨_, .inr rfl⟩
theorem vminF32 (o : RDAB) : Statement (.vminF32 o) := fun _ => ⟨_, .inr rfl⟩
theorem vmaxF32 (o : RDAB) : Statement (.vmaxF32 o) := fun _ => ⟨_, .inr rfl⟩
theorem vabsF32 (o : RDA) : Statement (.vabsF32 o) := fun _ => ⟨_, .inr rfl⟩
theorem vnegF32 (o : RDA) : Statement (.vnegF32 o) := fun _ => ⟨_, .inr rfl⟩
theorem vcopysign (o : RDAB) : Statement (.vcopysign o) := fun _ => ⟨_, .inr rfl⟩
theorem vclass (o : RDA) : Statement (.vclass o) := fun _ => ⟨_, .inr rfl⟩
theorem vrint (o : RDA) : Statement (.vrint o) := fun _ => ⟨_, .inr rfl⟩
theorem vfract (o : RDA) : Statement (.vfract o) := fun _ => ⟨_, .inr rfl⟩
theorem vscalb (o : RDAB) : Statement (.vscalb o) := fun _ => ⟨_, .inr rfl⟩
theorem vgetexp (o : RDA) : Statement (.vgetexp o) := fun _ => ⟨_, .inr rfl⟩
theorem vcmpf (o : VCAB) : Statement (.vcmpf o) := fun _ => ⟨_, .inr rfl⟩
theorem vaddBf2 (o : RDAB) : Statement (.vaddBf2 o) := fun _ => ⟨_, .inr rfl⟩
theorem vsubBf2 (o : RDAB) : Statement (.vsubBf2 o) := fun _ => ⟨_, .inr rfl⟩
theorem vmulBf2 (o : RDAB) : Statement (.vmulBf2 o) := fun _ => ⟨_, .inr rfl⟩
theorem vfmaBf2 (o : RDAB) : Statement (.vfmaBf2 o) := fun _ => ⟨_, .inr rfl⟩
theorem vminBf2 (o : RDAB) : Statement (.vminBf2 o) := fun _ => ⟨_, .inr rfl⟩
theorem vmaxBf2 (o : RDAB) : Statement (.vmaxBf2 o) := fun _ => ⟨_, .inr rfl⟩
theorem vdot2Bf (o : RDAB) : Statement (.vdot2Bf o) := fun _ => ⟨_, .inr rfl⟩
theorem vaddF32S (o : RDAB) : Statement (.vaddF32S o) := fun _ => ⟨_, .inr rfl⟩
theorem vmulF32S (o : RDAB) : Statement (.vmulF32S o) := fun _ => ⟨_, .inr rfl⟩
theorem vfmaF32S (o : RDAB) : Statement (.vfmaF32S o) := fun _ => ⟨_, .inr rfl⟩
theorem vminF32S (o : RDAB) : Statement (.vminF32S o) := fun _ => ⟨_, .inr rfl⟩
theorem vmaxF32S (o : RDAB) : Statement (.vmaxF32S o) := fun _ => ⟨_, .inr rfl⟩
theorem vrcpA (o : RDA) : Statement (.vrcpA o) := fun _ => ⟨_, .inr rfl⟩
theorem vrsqA (o : RDA) : Statement (.vrsqA o) := fun _ => ⟨_, .inr rfl⟩
theorem vex2A (o : RDA) : Statement (.vex2A o) := fun _ => ⟨_, .inr rfl⟩
theorem vlg2A (o : RDA) : Statement (.vlg2A o) := fun _ => ⟨_, .inr rfl⟩
theorem vsinA (o : RDA) : Statement (.vsinA o) := fun _ => ⟨_, .inr rfl⟩
theorem vcosA (o : RDA) : Statement (.vcosA o) := fun _ => ⟨_, .inr rfl⟩
theorem vtanhA (o : RDA) : Statement (.vtanhA o) := fun _ => ⟨_, .inr rfl⟩
theorem vsqrt (o : RDA) : Statement (.vsqrt o) := fun _ => ⟨_, .inr rfl⟩
theorem vdivF32 (o : RDAB) : Statement (.vdivF32 o) := fun _ => ⟨_, .inr rfl⟩
theorem vrand (o : RD) : Statement (.vrand o) := fun _ => ⟨_, .inr rfl⟩
theorem vseed (o : RA) : Statement (.vseed o) := fun _ => ⟨_, .inr rfl⟩
theorem vunpk (o : UFM) : Statement (.vunpk o) := fun _ => ⟨_, .inr rfl⟩
theorem vunpk2 (o : UFM) : Statement (.vunpk2 o) := fun _ => ⟨_, .inr rfl⟩
theorem vpack (o : UFM) : Statement (.vpack o) := fun _ => ⟨_, .inr rfl⟩
theorem vpack2 (o : UFM) : Statement (.vpack2 o) := fun _ => ⟨_, .inr rfl⟩
theorem vmxscale (o : UMX) : Statement (.vmxscale o) := fun _ => ⟨_, .inr rfl⟩
theorem vscaleE8 (o : RDAB) : Statement (.vscaleE8 o) := fun _ => ⟨_, .inr rfl⟩
theorem vscaleE8Inv (o : RDAB) : Statement (.vscaleE8Inv o) := fun _ => ⟨_, .inr rfl⟩
theorem vcvt (o : CVT) : Statement (.vcvt o) := fun _ => ⟨_, .inr rfl⟩
theorem pand (o : PDAB) : Statement (.pand o) := fun _ => ⟨[], .inr rfl⟩
theorem por (o : PDAB) : Statement (.por o) := fun _ => ⟨[], .inr rfl⟩
theorem pxor (o : PDAB) : Statement (.pxor o) := fun _ => ⟨[], .inr rfl⟩
theorem pandn (o : PDAB) : Statement (.pandn o) := fun _ => ⟨[], .inr rfl⟩
theorem pnot (o : PDA) : Statement (.pnot o) := fun _ => ⟨[], .inr rfl⟩
theorem pmov (o : PDA) : Statement (.pmov o) := fun _ => ⟨[], .inr rfl⟩
theorem pset (o : PD) : Statement (.pset o) := fun _ => ⟨[], .inr rfl⟩
theorem pclr (o : PD) : Statement (.pclr o) := fun _ => ⟨[], .inr rfl⟩
theorem ptos (o : SDPA) : Statement (.ptos o) := fun _ => ⟨[], .inr rfl⟩
theorem pfroms (o : PDSA) : Statement (.pfroms o) := fun _ => ⟨[], .inr rfl⟩
theorem pcnt (o : SDPA) : Statement (.pcnt o) := fun _ => ⟨[], .inr rfl⟩
theorem pany (o : PA) : Statement (.pany o) := fun _ => ⟨[], .inr rfl⟩
theorem pall (o : PA) : Statement (.pall o) := fun _ => ⟨[], .inr rfl⟩
theorem pfirst (o : SDPA) : Statement (.pfirst o) := fun _ => ⟨[], .inr rfl⟩
theorem vld (o : MV) : Statement (.vld o) := fun _ => ⟨_, .inr rfl⟩
theorem vldLine (o : MRL) : Statement (.vldLine o) := fun _ => ⟨_, .inr rfl⟩
theorem vst (o : MV) : Statement (.vst o) := fun _ => ⟨_, .inr rfl⟩
theorem vldNr (o : MV) : Statement (.vldNr o) := fun _ => ⟨_, .inr rfl⟩
theorem vldi (o : MI) : Statement (.vldi o) := fun _ => ⟨_, .inr rfl⟩
theorem vsti (o : MI) : Statement (.vsti o) := fun _ => ⟨_, .inr rfl⟩
theorem sld (o : MS) : Statement (.sld o) := fun _ => ⟨_, .inr rfl⟩
theorem sst (o : MS) : Statement (.sst o) := fun _ => ⟨_, .inr rfl⟩
theorem fence (o : FN) : Statement (.fence o) := fun _ => ⟨[], .inr rfl⟩
theorem fenceOpr (o : Z0) : Statement (.fenceOpr o) := fun _ => ⟨[], .inr rfl⟩
theorem fenceH (o : FNH) : Statement (.fenceH o) := fun _ => ⟨[], .inr rfl⟩
theorem cinv (o : AB) : Statement (.cinv o) := fun _ => ⟨[], .inr rfl⟩
theorem cwb (o : AB) : Statement (.cwb o) := fun _ => ⟨[], .inr rfl⟩
theorem cflush (o : AB) : Statement (.cflush o) := fun _ => ⟨[], .inr rfl⟩
theorem vpref (o : AB) : Statement (.vpref o) := fun _ => ⟨[], .inr rfl⟩
theorem pagereq (o : AB) : Statement (.pagereq o) := fun _ => ⟨[], .inr rfl⟩
theorem llock (o : DAB) : Statement (.llock o) := fun _ => ⟨[], .inr rfl⟩
theorem ltry (o : DA) : Statement (.ltry o) := fun _ => ⟨[], .inr rfl⟩
theorem lunlock (o : DA) : Statement (.lunlock o) := fun _ => ⟨[], .inr rfl⟩
theorem lquery (o : DA) : Statement (.lquery o) := fun _ => ⟨[], .inr rfl⟩
theorem lbreak (o : DA) : Statement (.lbreak o) := fun _ => ⟨[], .inr rfl⟩
theorem hdecl (o : DA) : Statement (.hdecl o) := fun _ => ⟨[], .inr rfl⟩
theorem hend (o : A1) : Statement (.hend o) := fun _ => ⟨[], .inr rfl⟩
theorem hdrain (o : A1) : Statement (.hdrain o) := fun _ => ⟨[], .inr rfl⟩
theorem hquery (o : DA) : Statement (.hquery o) := fun _ => ⟨[], .inr rfl⟩
theorem haddF32 (o : MF) : Statement (.haddF32 o) := fun _ => ⟨_, .inr rfl⟩
theorem haddI32 (o : MF) : Statement (.haddI32 o) := fun _ => ⟨_, .inr rfl⟩
theorem hldF32 (o : MF) : Statement (.hldF32 o) := fun _ => ⟨_, .inr rfl⟩
theorem hldI32 (o : MF) : Statement (.hldI32 o) := fun _ => ⟨_, .inr rfl⟩
theorem vatomAddI32 (o : MF) : Statement (.vatomAddI32 o) := fun _ => ⟨_, .inr rfl⟩
theorem vatomAddF32 (o : MF) : Statement (.vatomAddF32 o) := fun _ => ⟨_, .inr rfl⟩
theorem vatomAddBf2 (o : MF) : Statement (.vatomAddBf2 o) := fun _ => ⟨_, .inr rfl⟩
theorem vatomMinI (o : MF) : Statement (.vatomMinI o) := fun _ => ⟨_, .inr rfl⟩
theorem vatomMaxI (o : MF) : Statement (.vatomMaxI o) := fun _ => ⟨_, .inr rfl⟩
theorem vatomAnd (o : MF) : Statement (.vatomAnd o) := fun _ => ⟨_, .inr rfl⟩
theorem vatomOr (o : MF) : Statement (.vatomOr o) := fun _ => ⟨_, .inr rfl⟩
theorem vatomXchg (o : MF) : Statement (.vatomXchg o) := fun _ => ⟨_, .inr rfl⟩
theorem vatom2MinN (o : MF) : Statement (.vatom2MinN o) := fun _ => ⟨_, .inr rfl⟩
theorem vatom2MaxN (o : MF) : Statement (.vatom2MaxN o) := fun _ => ⟨_, .inr rfl⟩
theorem vatom2Xor (o : MF) : Statement (.vatom2Xor o) := fun _ => ⟨_, .inr rfl⟩
theorem vatom2AddI64 (o : MF) : Statement (.vatom2AddI64 o) := fun _ => ⟨_, .inr rfl⟩
theorem vatom2Xchg64 (o : MF) : Statement (.vatom2Xchg64 o) := fun _ => ⟨_, .inr rfl⟩
theorem vatom2MinF32 (o : MF) : Statement (.vatom2MinF32 o) := fun _ => ⟨_, .inr rfl⟩
theorem vatom2MaxF32 (o : MF) : Statement (.vatom2MaxF32 o) := fun _ => ⟨_, .inr rfl⟩
theorem vcas32 (o : MF) : Statement (.vcas32 o) := fun _ => ⟨_, .inr rfl⟩
theorem vcas64 (o : MF) : Statement (.vcas64 o) := fun _ => ⟨_, .inr rfl⟩
theorem vcas128 (o : MF) : Statement (.vcas128 o) := fun _ => ⟨_, .inr rfl⟩
theorem satomAddI32 (o : ML) : Statement (.satomAddI32 o) := fun _ => ⟨_, .inr rfl⟩
theorem satomXchg (o : ML) : Statement (.satomXchg o) := fun _ => ⟨_, .inr rfl⟩
theorem satomCas32 (o : ML) : Statement (.satomCas32 o) := fun _ => ⟨_, .inr rfl⟩
theorem satomCas64 (o : ML) : Statement (.satomCas64 o) := fun _ => ⟨_, .inr rfl⟩
theorem satomCas128 (o : ML) : Statement (.satomCas128 o) := fun _ => ⟨_, .inr rfl⟩
theorem satomAddI64 (o : ML) : Statement (.satomAddI64 o) := fun _ => ⟨_, .inr rfl⟩
theorem satomOr (o : ML) : Statement (.satomOr o) := fun _ => ⟨_, .inr rfl⟩
theorem satomAnd (o : ML) : Statement (.satomAnd o) := fun _ => ⟨_, .inr rfl⟩
theorem cpy (o : DAB) : Statement (.cpy o) := fun _ => ⟨[], .inr rfl⟩
theorem cpy2 (o : DAB) : Statement (.cpy2 o) := fun _ => ⟨[], .inr rfl⟩
theorem cpyg (o : DAB) : Statement (.cpyg o) := fun _ => ⟨[], .inr rfl⟩
theorem cpyz (o : DAB) : Statement (.cpyz o) := fun _ => ⟨[], .inr rfl⟩
theorem cpyw (o : DAB) : Statement (.cpyw o) := fun _ => ⟨[], .inr rfl⟩
theorem decJpeg (o : DAB) : Statement (.decJpeg o) := fun _ => ⟨[], .inr rfl⟩
theorem decG4 (o : DAB) : Statement (.decG4 o) := fun _ => ⟨[], .inr rfl⟩
theorem decPng (o : DAB) : Statement (.decPng o) := fun _ => ⟨[], .inr rfl⟩
theorem decQuery (o : DAB) : Statement (.decQuery o) := fun _ => ⟨[], .inr rfl⟩
theorem swset (o : AB) : Statement (.swset o) := fun _ => ⟨[], .inr rfl⟩
theorem swarr (o : AB) : Statement (.swarr o) := fun _ => ⟨[], .inr rfl⟩
theorem swwait (o : AB) : Statement (.swwait o) := fun _ => ⟨[], .inr rfl⟩
theorem swread (o : DA) : Statement (.swread o) := fun _ => ⟨[], .inr rfl⟩
theorem mmarJ (o : DAB) : Statement (.mmarJ o) := fun _ => ⟨[], .inr rfl⟩
theorem mmarS (o : DAB) : Statement (.mmarS o) := fun _ => ⟨[], .inr rfl⟩
theorem mmatT (o : DAB) : Statement (.mmatT o) := fun _ => ⟨[], .inr rfl⟩
theorem mmatC (o : DAB) : Statement (.mmatC o) := fun _ => ⟨[], .inr rfl⟩
theorem mmatTz (o : DAB) : Statement (.mmatTz o) := fun _ => ⟨[], .inr rfl⟩
theorem mmatCz (o : DAB) : Statement (.mmatCz o) := fun _ => ⟨[], .inr rfl⟩
theorem mzero (o : DA) : Statement (.mzero o) := fun _ => ⟨[], .inr rfl⟩
theorem mquant (o : DAB) : Statement (.mquant o) := fun _ => ⟨[], .inr rfl⟩
theorem mstat (o : D1) : Statement (.mstat o) := fun _ => ⟨[], .inr rfl⟩
theorem tderef (o : DA) : Statement (.tderef o) := fun _ => ⟨[], .inr rfl⟩
theorem ttag (o : DA) : Statement (.ttag o) := fun _ => ⟨[], .inr rfl⟩
theorem tunifyN (o : AB) : Statement (.tunifyN o) := fun _ => ⟨[], .inr rfl⟩
theorem tunifyOc (o : AB) : Statement (.tunifyOc o) := fun _ => ⟨[], .inr rfl⟩
theorem tbind (o : AB) : Statement (.tbind o) := fun _ => ⟨[], .inr rfl⟩
theorem tmatch (o : AB) : Statement (.tmatch o) := fun _ => ⟨[], .inr rfl⟩
theorem tchoice (o : TC) : Statement (.tchoice o) := fun _ => ⟨[], .inr rfl⟩
theorem tfail (o : Z0) : Statement (.tfail o) := fun _ => ⟨[], .inr rfl⟩
theorem tcut (o : Z0) : Statement (.tcut o) := fun _ => ⟨[], .inr rfl⟩
theorem tpopcp (o : Z0) : Statement (.tpopcp o) := fun _ => ⟨[], .inr rfl⟩
theorem ttrailtop (o : D1) : Statement (.ttrailtop o) := fun _ => ⟨[], .inr rfl⟩
theorem tfork (o : TF) : Statement (.tfork o) := fun _ => ⟨[], .inr rfl⟩
theorem tcommit (o : D1) : Statement (.tcommit o) := fun _ => ⟨[], .inr rfl⟩
theorem tjoin (o : Z0) : Statement (.tjoin o) := fun _ => ⟨[], .inr rfl⟩
theorem launch (o : DA) : Statement (.launch o) := fun _ => ⟨[], .inr rfl⟩
theorem spawn (o : DA) : Statement (.spawn o) := fun _ => ⟨[], .inr rfl⟩
theorem trigger (o : Z0) : Statement (.trigger o) := fun _ => ⟨[], .inr rfl⟩
theorem bar (o : Z0) : Statement (.bar o) := fun _ => ⟨[], .inr rfl⟩
theorem cbar (o : Z0) : Statement (.cbar o) := fun _ => ⟨[], .inr rfl⟩
theorem trap (o : K6) : Statement (.trap o) := fun _ => ⟨[], .inr rfl⟩
theorem eret (o : Z0) : Statement (.eret o) := fun _ => ⟨[], .inr rfl⟩
theorem chkerr (o : DAB) : Statement (.chkerr o) := fun _ => ⟨[], .inr rfl⟩
theorem irgnGrp (o : Z0) : Statement (.irgnGrp o) := fun _ => ⟨[], .inr rfl⟩
theorem irgnWg (o : Z0) : Statement (.irgnWg o) := fun _ => ⟨[], .inr rfl⟩
theorem irge (o : Z0) : Statement (.irge o) := fun _ => ⟨[], .inr rfl⟩
theorem bkpt (o : Z0) : Statement (.bkpt o) := fun _ => ⟨[], .inr rfl⟩
theorem tlbinv (o : DAB) : Statement (.tlbinv o) := fun _ => ⟨[], .inr rfl⟩
theorem harvest (o : DAB) : Statement (.harvest o) := fun _ => ⟨[], .inr rfl⟩
theorem pendingReplace (core : Nat) (quarter : Nat) : Statement (.pendingReplace core quarter) := by intro h; cases h
theorem sleepExpiry (grp : Nat) : Statement (.sleepExpiry grp) := by intro h; cases h
theorem squallWindow (core : Nat) : Statement (.squallWindow core) := by intro h; cases h
theorem loadReturn (grp : Nat) : Statement (.loadReturn grp) := by intro h; cases h
theorem storePerformed (grp : Nat) : Statement (.storePerformed grp) := by intro h; cases h
theorem atomicResult (grp : Nat) : Statement (.atomicResult grp) := by intro h; cases h
theorem farAtomic (grp : Nat) : Statement (.farAtomic grp) := by intro h; cases h
theorem pageWalk (core : Nat) (ctx : Nat) (va : BitVec 64) : Statement (.pageWalk core ctx va) := by intro h; cases h
theorem shareRequest (n : Nat) : Statement (.shareRequest n) := by intro h; cases h
theorem shareAck (n : Nat) : Statement (.shareAck n) := by intro h; cases h
theorem missRequest (core : Nat) (line : Nat) (excl : Bool) : Statement (.missRequest core line excl) := by intro h; cases h
theorem invalidation (n : Nat) : Statement (.invalidation n) := by intro h; cases h
theorem invalidationAck (n : Nat) : Statement (.invalidationAck n) := by intro h; cases h
theorem writeBack (core : Nat) (line : Nat) : Statement (.writeBack core line) := by intro h; cases h
theorem hazeShareRequest (n : Nat) : Statement (.hazeShareRequest n) := by intro h; cases h
end Sys2Proof.Laws.Units

theorem Sys2Proof.Laws.Units.recall (n : Nat) : Sys2Proof.Laws.Units.Statement (.recall n) := by intro h; cases h

namespace Sys2Proof.Laws.Units

theorem recallAck (n : Nat) : Statement (.recallAck n) := by intro h; cases h
theorem grant (n : Nat) : Statement (.grant n) := by intro h; cases h
theorem hazeReturn (core : Nat) (line : Nat) : Statement (.hazeReturn core line) := by intro h; cases h
theorem forcedDrain (n : Nat) : Statement (.forcedDrain n) := by intro h; cases h
theorem drain (n : Nat) : Statement (.drain n) := by intro h; cases h
theorem farAdd (n : Nat) : Statement (.farAdd n) := by intro h; cases h
theorem lockRequest (n : Nat) : Statement (.lockRequest n) := by intro h; cases h
theorem link (n : Nat) : Statement (.link n) := by intro h; cases h
theorem lockHandover (n : Nat) : Statement (.lockHandover n) := by intro h; cases h
theorem releaseRequest (n : Nat) : Statement (.releaseRequest n) := by intro h; cases h
theorem lockTimeout (grp : Nat) : Statement (.lockTimeout grp) := by intro h; cases h
theorem commandAccept (engine : Nat) : Statement (.commandAccept engine) := by intro h; cases h
theorem arrival (engine : Nat) : Statement (.arrival engine) := by intro h; cases h
theorem matrixComplete (core : Nat) : Statement (.matrixComplete core) := by intro h; cases h
theorem termJobStart (core : Nat) (quarter : Nat) : Statement (.termJobStart core quarter) := by intro h; cases h
theorem termJobEnd (core : Nat) (quarter : Nat) (n : Nat) : Statement (.termJobEnd core quarter n) := by intro h; cases h
theorem packetDecode (queue : Nat) : Statement (.packetDecode queue) := by intro h; cases h
theorem workgroupStart : Statement .workgroupStart := by intro h; cases h
theorem cloudStart : Statement .cloudStart := by intro h; cases h
theorem gridComplete (grid : Nat) : Statement (.gridComplete grid) := by intro h; cases h
theorem childGroupStart (cluster : Nat) (entry : Nat) : Statement (.childGroupStart cluster entry) := by intro h; cases h
theorem idleRelease (cluster : Nat) (entry : Nat) : Statement (.idleRelease cluster entry) := by intro h; cases h
theorem pqcomp (v : BitVec 64) : Statement (.pqcomp v) := by intro h; cases h
theorem pqsize (v : BitVec 32) : Statement (.pqsize v) := by intro h; cases h
theorem pqhead (v : BitVec 32) : Statement (.pqhead v) := by intro h; cases h
theorem dlsize (v : BitVec 32) : Statement (.dlsize v) := by intro h; cases h
theorem lqtail (q : Nat) (v : BitVec 32) : Statement (.lqtail q v) := by intro h; cases h
theorem lqsize (q : Nat) (v : BitVec 32) : Statement (.lqsize q v) := by intro h; cases h
theorem eqsize (v : BitVec 32) : Statement (.eqsize v) := by intro h; cases h
theorem eqhead (v : BitVec 32) : Statement (.eqhead v) := by intro h; cases h
theorem preempt (ctx : Nat) : Statement (.preempt ctx) := by intro h; cases h
theorem workgroupSave (wg : Nat) : Statement (.workgroupSave wg) := by intro h; cases h
theorem resume (ctx : Nat) : Statement (.resume ctx) := by intro h; cases h
theorem gnum (ctx : Nat) (v : BitVec 32) : Statement (.gnum ctx v) := by intro h; cases h
theorem selfTest (bank : Nat) (pass : Bool) : Statement (.selfTest bank pass) := by intro h; cases h
theorem coreRetire (core : Nat) : Statement (.coreRetire core) := by intro h; cases h
theorem logClear (bank : Nat) : Statement (.logClear bank) := by intro h; cases h
theorem arm (bank : Nat) (v : BitVec 32) : Statement (.arm bank v) := by intro h; cases h
theorem hostAccess (pa : Nat) (n : Nat) (act : OutsideAct) : Statement (.hostAccess pa n act) := by intro h; cases h
theorem hostSnoop (line : Nat) : Statement (.hostSnoop line) := by intro h; cases h
theorem backInvalidate (line : Nat) : Statement (.backInvalidate line) := by intro h; cases h
theorem atomicopCompletion (grp : Nat) (err : Bool) : Statement (.atomicopCompletion grp err) := by intro h; cases h
theorem atomicopTimeout (grp : Nat) : Statement (.atomicopTimeout grp) := by intro h; cases h
theorem zeroLengthRead (grp : Nat) : Statement (.zeroLengthRead grp) := by intro h; cases h
theorem inboundRequest (pa : Nat) (n : Nat) (act : OutsideAct) : Statement (.inboundRequest pa n act) := by intro h; cases h
theorem response (ans : PeerAnswer) : Statement (.response ans) := by intro h; cases h
theorem requestTimeout (grp : Nat) : Statement (.requestTimeout grp) := by intro h; cases h
theorem peerWindow (w : Nat) (v : BitVec 64) : Statement (.peerWindow w v) := by intro h; cases h
theorem linkDown (port : Nat) : Statement (.linkDown port) := by intro h; cases h
theorem linkUp (port : Nat) : Statement (.linkUp port) := by intro h; cases h
theorem reset : Statement .reset := by intro h; cases h
theorem bootWatchdog : Statement .bootWatchdog := by intro h; cases h
theorem bootOk : Statement .bootOk := by intro h; cases h
theorem clr : Statement .clr := by intro h; cases h
theorem powerLoss : Statement .powerLoss := by intro h; cases h
theorem attcmd : Statement .attcmd := by intro h; cases h
theorem pwrcap (v : BitVec 32) : Statement (.pwrcap v) := by intro h; cases h
theorem clockStep : Statement .clockStep := by intro h; cases h
theorem thermalTrip (die : Nat) (temp : Nat) : Statement (.thermalTrip die temp) := by intro h; cases h
theorem registerWrite (off : Nat) (size : Nat) (v : BitVec 64) : Statement (.registerWrite off size v) := by intro h; cases h
theorem illegalInstruction (step : Nat) : Statement (.illegalInstruction step) := by intro h; cases h
theorem tunifySwap (grp : Nat) : Statement (.tunifySwap grp) := by intro h; cases h
theorem tlbinvCompletion (grp : Nat) : Statement (.tlbinvCompletion grp) := by intro h; cases h
theorem harvestCompletion (grp : Nat) : Statement (.harvestCompletion grp) := by intro h; cases h
theorem attestationReport : Statement .attestationReport := by intro h; cases h
theorem firmwareStartFailure (reason : Nat) : Statement (.firmwareStartFailure reason) := by intro h; cases h
theorem scrubber (bank : Nat) (addr : Nat) (bad : Bool) : Statement (.scrubber bank addr bad) := by intro h; cases h
theorem flitCrcFailure (bank : Nat) (grp : Option Nat) (tries : Nat) : Statement (.flitCrcFailure bank grp tries) := by intro h; cases h
theorem freeBufferSignal (port : Nat) : Statement (.freeBufferSignal port) := by intro h; cases h
theorem hopForwarding (port : Nat) (n : Nat) : Statement (.hopForwarding port n) := by intro h; cases h

end Sys2Proof.Laws.Units
end

