-- ==== Sys2Proof/Tests/Slice0.lean ====
section
/-! SUPPORT. Tests: ill-formed terms, words of every encoded instruction, single units on a small state, and states that meet the
hypotheses of the statements. -/

namespace Sys2Proof.Tests

noncomputable section

open Sys2Proof Sys2Proof.Machine

/-! ### A small state -/

/-- One group of 96 lanes on core 0, in context 0, its grid with stacks of 4096 bytes a lane, at clock 100. -/
def demo : State :=
  { State.reset with g := loadedGroup 1, grids := [loadedGrid 1], wgs := [loadedWg 1], nextId := 3, clock := 100 }

/-- demo with its group changed. -/
def demoG (f : Group → Group) : State := { demo with g := f demo.g }

/-- Words in scalar registers. -/
def regs (l : List (Nat × Word)) (g : Group) : Group := l.foldl (fun h x => h.putS x.1 x.2 false) g
/-- A uniform value in a vector register. -/
def uni (r : Nat) (x : Word) (g : Group) : Group := { g with v := g.v.set r ⟨.uniform x, 0⟩ }
/-- The values f l in the lanes of a vector register, in slot k. -/
def lanesIn (r k : Nat) (f : Nat → Word) (g : Group) : Group := { g with v := g.v.set r ⟨.general k (lanes.map f), 0⟩ }
/-- A page of device memory from address a on, mapped to key k, in the TLB of core 0: readable, writable, executable, private to core 0. -/
def page (a k : Nat) (s : State) : State :=
  { s with tlb := s.tlb ++ [(⟨false, 0, s.g.ctx, a, 65536, BitVec.ofNat 64 (k + 0x283F), 0⟩ : Tlb)] }

/-- The state after a unit, whatever it answers. -/
def after (i : Instr) (s : State) : State := match exec i s with
  | .next t => t
  | _ => s

/-- Tests of registers after one unit. -/
def scal (i : Instr) (s : State) (r : Nat) : Word := (after i s).g.rawS r
def lane (i : Instr) (s : State) (r l : Nat) : Word := ((after i s).g.v.getD r VReg.zero).lane l

/-! ### Hypotheses that tests can decide -/

theorem formed_of {g : Group} (h : decide (g.v.length = 64 ∧ g.s.length = 64 ∧ g.p.length = 8 ∧ g.rnd.length = 96) = true) : g.Formed := by
  have := of_decide_eq_true h
  exact ⟨this.1, this.2.1, this.2.2.1, this.2.2.2⟩

theorem sound_of {s : State} (h : (Memory.wf s.mem && s.groups.all (fun g => decide (g.v.length = 64 ∧ g.s.length = 64 ∧ g.p.length = 8 ∧ g.rnd.length = 96
    ∧ g.id < s.nextId)) && decide (s.groups.map (·.id)).Nodup) = true) : s.Sound := by
  simp only [Bool.and_eq_true, List.all_eq_true, decide_eq_true_eq] at h
  exact ⟨h.1.1, fun g hg => ⟨(h.1.2 g hg).1, (h.1.2 g hg).2.1, (h.1.2 g hg).2.2.1, (h.1.2 g hg).2.2.2.1⟩, h.2, fun g hg => (h.1.2 g hg).2.2.2.2⟩

theorem issues_of {s : State} {c : Cls} {rs : List Ref} (h : (s.classHeld c == none && !s.g.chk
    && (!(s.bank (bankIdx 0 (4 * s.g.core + s.g.quarter))).arm && (s.bank (bankIdx 0 (4 * s.g.core + s.g.quarter))).latent.isEmpty)
    && (s.g.bad == 0 && !s.g.maskSpoilt s.clock)) = true) :
    s.Issues c rs := by
  simp only [Bool.and_eq_true, beq_iff_eq, Bool.not_eq_true', List.isEmpty_iff] at h
  exact ⟨h.1.1.1, .inl h.1.1.2, h.1.2, h.2⟩

theorem clear_of {l : List VReg} (h : l.all (fun x => x.poison == 0) = true) (r : Nat) : (l.getD r VReg.zero).poison = 0 := by
  simp only [List.all_eq_true, beq_iff_eq] at h
  by_cases hr : r < l.length
  · simpa [List.getD, hr] using h _ (List.getElem_mem hr)
  · simp [List.getD, Nat.le_of_not_lt hr, VReg.zero]

/-- The state is calm. -/
def calmB (s : State) : Bool :=
  (s.banks.isEmpty && s.mxQ.isEmpty && s.mxOwns.isEmpty && s.g.mxRuns.isEmpty && s.l1.all (fun k => k.data.isEmpty && !k.haze)
    && s.g.mask &&& ~~~s.g.live == 0) &&
  (s.g.pend.isEmpty && s.g.inflight.isEmpty && s.g.sPoison == 0 && s.g.v.all (fun x => x.poison == 0) && s.memPoison.isEmpty
    && s.hazeNet.isEmpty && s.hazeHomes.isEmpty)

theorem calm_of {s : State} (h : calmB s = true) : s.Calm := by
  simp only [calmB, Bool.and_eq_true, List.isEmpty_iff, List.all_eq_true, beq_iff_eq, Bool.not_eq_true'] at h
  obtain ⟨⟨⟨⟨⟨⟨a1, a2⟩, a3⟩, a4⟩, a5⟩, a6⟩, ⟨⟨⟨⟨⟨⟨b1, b2⟩, b3⟩, b4⟩, b5⟩, b6⟩, b7⟩⟩ := h
  exact ⟨⟨a1, a2, a3, a4, fun k hk => (a5 k hk).1, a6, b1, b2, b3, clear_of (by simpa using b4), b5⟩, b6, b7, fun k hk => (a5 k hk).2⟩

theorem settled_of {s : State} (h : (s.memPoison.isEmpty && s.banks.isEmpty && s.mxQ.isEmpty && s.hazeNet.isEmpty && s.hazeHomes.isEmpty
    && s.invals.isEmpty && s.invAcks.isEmpty && s.l1.all (fun k => k.dirty == 0)) = true) : s.Settled := by
  simp only [Bool.and_eq_true, List.isEmpty_iff, List.all_eq_true, beq_iff_eq] at h
  obtain ⟨⟨⟨⟨⟨⟨⟨h1, h2⟩, h3⟩, h4⟩, h5⟩, h6⟩, h7⟩, h8⟩ := h
  exact ⟨h1, h2, h3, h4, h5, h6, h7, h8⟩

/-- The state meets the hypotheses of the statements about units. -/
structure Good (s : State) (c : Cls) (rs : List Ref) : Prop where
  sound : s.Sound
  calm : s.Calm
  issues : s.Issues c rs
  formed : s.g.Formed

/-- Its test. -/
def goodB (s : State) (c : Cls) : Bool :=
  (Memory.wf s.mem && s.groups.all (fun g => decide (g.v.length = 64 ∧ g.s.length = 64 ∧ g.p.length = 8 ∧ g.rnd.length = 96
    ∧ g.id < s.nextId)) && decide (s.groups.map (·.id)).Nodup)
  && calmB s
  && (s.classHeld c == none && !s.g.chk
    && (!(s.bank (bankIdx 0 (4 * s.g.core + s.g.quarter))).arm && (s.bank (bankIdx 0 (4 * s.g.core + s.g.quarter))).latent.isEmpty)
    && (s.g.bad == 0 && !s.g.maskSpoilt s.clock))

theorem good_of {s : State} {c : Cls} {rs : List Ref} (h : goodB s c = true) : Good s c rs := by
  simp only [goodB, Bool.and_eq_true] at h
  have h1 : s.Sound := sound_of (by simp only [Bool.and_eq_true]; exact h.1.1)
  exact ⟨h1, calm_of h.1.2, issues_of (by simp only [Bool.and_eq_true]; exact h.2),
    h1.formed _ (by simp [State.groups])⟩

/-- Scalar and vector memory units issue. -/
def MemIssues (s : State) : Prop := ∀ c rs, c = .mem ∨ c = .memv → s.Issues c rs
theorem mem_issues {s : State} (h : (s.classHeld .mem == none && s.classHeld .memv == none && !s.g.chk
    && (!(s.bank (bankIdx 0 (4 * s.g.core + s.g.quarter))).arm && (s.bank (bankIdx 0 (4 * s.g.core + s.g.quarter))).latent.isEmpty)
    && (s.g.bad == 0 && !s.g.maskSpoilt s.clock)) = true) :
    MemIssues s := by
  simp only [Bool.and_eq_true] at h
  rintro c rs (rfl | rfl) <;> refine issues_of ?_ <;> simp only [Bool.and_eq_true]
  · exact ⟨⟨⟨h.1.1.1.1, h.1.1.2⟩, h.1.2⟩, h.2⟩
  · exact ⟨⟨⟨h.1.1.1.2, h.1.1.2⟩, h.1.2⟩, h.2⟩

theorem flat_low {s : State} {a n : Nat} (h : a + n ≤ 2 ^ 50) : s.Flat a n := by
  intro i hi
  simp only [State.place]
  rw [if_pos (by omega), if_pos (by omega)]
theorem flat_high {s : State} {a n : Nat} (h : 2 ^ 52 ≤ a) : s.Flat a n := by
  intro i hi
  simp only [State.place]
  rw [if_neg (by omega), if_neg (by omega), if_neg (by omega), if_neg (by omega), if_neg (by omega), if_neg (by omega)]

theorem demo_good (c : Cls) (rs : List Ref) : Good demo c rs := good_of (by cases c <;> decide)

/-! ### Words of every encoded instruction

Each word is written out field by field from the encoding tables of R18 to R24 and R44 to R54: its major opcode, its function code, and
operands whose bits differ from field to field. -/

/-- VMOV_16 to VMOVS_16. -/
theorem test_words_vmov_16 : ∀ e ∈ ([
    (16, 0xB6C0, .vmov16 ⟨22, 13, 1⟩),
    (16, 0xB6C2, .vaddI3216 ⟨22, 13, 1⟩),
    (16, 0xB6C4, .vsubI3216 ⟨22, 13, 1⟩),
    (16, 0xB6C6, .vand16 ⟨22, 13, 1⟩),
    (16, 0xB6C8, .vor16 ⟨22, 13, 1⟩),
    (16, 0xB6CA, .vxor16 ⟨22, 13, 1⟩),
    (16, 0xB6CC, .vshl16 ⟨22, 13, 1⟩),
    (16, 0xB6CE, .vshrN16 ⟨22, 13, 1⟩),
    (16, 0xB6D0, .vshrI16 ⟨22, 13, 1⟩),
    (16, 0xB6D2, .vmulLo16 ⟨22, 13, 1⟩),
    (16, 0xB6D4, .vaddF3216 ⟨22, 13, 1⟩),
    (16, 0xB6D6, .vsubF3216 ⟨22, 13, 1⟩),
    (16, 0xB6D8, .vmulF3216 ⟨22, 13, 1⟩),
    (16, 0xB6DA, .vmaxF3216 ⟨22, 13, 1⟩),
    (16, 0xB6DC, .vminF3216 ⟨22, 13, 1⟩),
    (16, 0xB6DE, .vmovs16 ⟨22, 13, 1⟩)] : List (Nat × Nat × Instr)), decodeTableWord e.1 e.2.1 = some e.2.2 := by decide

/-- SADD to SROTL. -/
theorem test_words_sadd : ∀ e ∈ ([
    (32, 0x1AB7680B, .sadd ⟨45, 27, 53, 5⟩),
    (32, 0x3AB7680B, .ssub ⟨45, 27, 53, 5⟩),
    (32, 0x5AB7680B, .smul ⟨45, 27, 53, 5⟩),
    (32, 0x7AB7680B, .smulhI ⟨45, 27, 53, 5⟩),
    (32, 0x9AB7680B, .smulhN ⟨45, 27, 53, 5⟩),
    (32, 0xBAB7680B, .saddc ⟨45, 27, 53, 5⟩),
    (32, 0xDAB7680B, .ssubb ⟨45, 27, 53, 5⟩),
    (32, 0xE037680B, .sneg ⟨45, 27, 5⟩),
    (32, 0x1AB7681B, .sand ⟨45, 27, 53, 5⟩),
    (32, 0x3AB7681B, .sor ⟨45, 27, 53, 5⟩),
    (32, 0x5AB7681B, .sxor ⟨45, 27, 53, 5⟩),
    (32, 0x7AB7681B, .sandn ⟨45, 27, 53, 5⟩),
    (32, 0x9AB7681B, .sshl ⟨45, 27, 53, 5⟩),
    (32, 0xBAB7681B, .sshrN ⟨45, 27, 53, 5⟩),
    (32, 0xDAB7681B, .sshrI ⟨45, 27, 53, 5⟩),
    (32, 0xFAB7681B, .srotl ⟨45, 27, 53, 5⟩)] : List (Nat × Nat × Instr)), decodeTableWord e.1 e.2.1 = some e.2.2 := by decide

/-- SMIN_I to SADDI. -/
theorem test_words_smin_i : ∀ e ∈ ([
    (32, 0x1AB7682B, .sminI ⟨45, 27, 53, 5⟩),
    (32, 0x3AB7682B, .smaxI ⟨45, 27, 53, 5⟩),
    (32, 0x5AB7682B, .sminN ⟨45, 27, 53, 5⟩),
    (32, 0x7AB7682B, .smaxN ⟨45, 27, 53, 5⟩),
    (32, 0x9AB7682B, .ssel ⟨45, 27, 53, 5⟩),
    (32, 0xA037682B, .spopc ⟨45, 27, 5⟩),
    (32, 0xC037682B, .sclz ⟨45, 27, 5⟩),
    (32, 0xE037682B, .sbrev ⟨45, 27, 5⟩),
    (32, 0x1AB6003B, .seq ⟨27, 53, 5⟩),
    (32, 0x3AB6003B, .sne ⟨27, 53, 5⟩),
    (32, 0x5AB6003B, .sltI ⟨27, 53, 5⟩),
    (32, 0x7AB6003B, .sleI ⟨27, 53, 5⟩),
    (32, 0x9AB6003B, .sltN ⟨27, 53, 5⟩),
    (32, 0xBAB6003B, .sleN ⟨27, 53, 5⟩),
    (32, 0xDAB6003B, .stst ⟨27, 53, 5⟩),
    (32, 0xA337684B, .saddi ⟨45, 27, 326, none, 5⟩)] : List (Nat × Nat × Instr)), decodeTableWord e.1 e.2.1 = some e.2.2 := by decide

/-- SANDI to SFIRST. -/
theorem test_words_sandi : ∀ e ∈ ([
    (32, 0xA337685B, .sandi ⟨45, 27, 326, none, 5⟩),
    (32, 0xA337686B, .sori ⟨45, 27, 326, none, 5⟩),
    (32, 0xA337687B, .sxori ⟨45, 27, 326, none, 5⟩),
    (32, 0x0B37688B, .sshli ⟨45, 27, 22, none, 5⟩),
    (32, 0x0B37689B, .sshriN ⟨45, 27, 22, none, 5⟩),
    (32, 0x0B3768AB, .sshriI ⟨45, 27, 22, none, 5⟩),
    (32, 0xA30168BB, .sli ⟨45, 326, none, 5⟩),
    (32, 0xA33610CB, .scmpi ⟨2, 27, 326, none, 5⟩),
    (32, 0x1AB768DB, .sbfeN ⟨45, 27, 53, 5⟩),
    (32, 0x3AB768DB, .sbfeI ⟨45, 27, 53, 5⟩),
    (32, 0x5AB768DB, .sbfi ⟨45, 27, 53, 5⟩),
    (32, 0x018168EB, .sgetr ⟨3, 45, 5⟩),
    (32, 0x21B600EB, .ssetr ⟨3, 27, 5⟩),
    (32, 0x1AB768FB, .srdlane ⟨45, 27, 53, 5⟩),
    (32, 0x3AB768FB, .swrlane ⟨45, 27, 53, 5⟩),
    (32, 0x403768FB, .sfirst ⟨45, 27, 5⟩)] : List (Nat × Nat × Instr)), decodeTableWord e.1 e.2.1 = some e.2.2 := by decide

/-- BRA to SIGCHK. -/
theorem test_words_bra : ∀ e ∈ ([
    (32, 0x0167690B, .bra ⟨11501, 5⟩),
    (32, 0x02CED11B, .bscc ⟨11501, 5⟩),
    (32, 0x02CED91B, .bnscc ⟨11501, 5⟩),
    (32, 0xB3B5692B, .bz ⟨11501, 45, 5⟩),
    (32, 0xB3B7692B, .bnz ⟨11501, 45, 5⟩),
    (32, 0x0167693B, .call ⟨11501, 5⟩),
    (32, 0x0000014B, .nop ⟨5⟩),
    (32, 0x2000014B, .ret ⟨5⟩),
    (32, 0x4000014B, .exit ⟨5⟩),
    (32, 0x6000014B, .yield ⟨5⟩),
    (32, 0x8036014B, .sleep ⟨27, 5⟩),
    (32, 0xA000294B, .elect ⟨5, 5⟩),
    (32, 0xC000294B, .electw ⟨5, 5⟩),
    (32, 0xB3B5695B, .jtab ⟨11501, 45, 5⟩),
    (32, 0x002D196B, .lpad ⟨1443, 5⟩),
    (32, 0xB5F7797B, .sigchk ⟨22, 48879, 5⟩)] : List (Nat × Nat × Instr)), decodeTableWord e.1 e.2.1 = some e.2.2 := by decide

/-- VIF to VABSD_I. -/
theorem test_words_vif : ∀ e ∈ ([
    (32, 0x59DA698B, .vif ⟨11501, 1, 5, 5⟩),
    (32, 0x59DA019B, .velse ⟨11501, 5⟩),
    (32, 0x0000099B, .vend ⟨5⟩),
    (32, 0x59DA01AB, .vloop ⟨11501, 5⟩),
    (32, 0x0000E9AB, .vbrk ⟨1, 5, 5⟩),
    (32, 0x000169AB, .vcont ⟨1, 5, 5⟩),
    (32, 0x59DBE9AB, .vendl ⟨11501, 1, 5, 5⟩),
    (32, 0xAF56D1B5, .wait ⟨5, 3, 6, 43, 26, 2⟩),
    (32, 0x1AB76A0B, .vaddI32 ⟨45, 27, 53, none, 5⟩),
    (32, 0x3AB76A0B, .vsubI32 ⟨45, 27, 53, none, 5⟩),
    (32, 0x5AB76A0B, .vmulLo ⟨45, 27, 53, none, 5⟩),
    (32, 0x7AB76A0B, .vmulhI ⟨45, 27, 53, none, 5⟩),
    (32, 0x9AB76A0B, .vmulhN ⟨45, 27, 53, none, 5⟩),
    (32, 0xBAB76A0B, .vaddsI ⟨45, 27, 53, none, 5⟩),
    (32, 0xDAB76A0B, .vsubsI ⟨45, 27, 53, none, 5⟩),
    (32, 0xFAB76A0B, .vabsdI ⟨45, 27, 53, none, 5⟩)] : List (Nat × Nat × Instr)), decodeTableWord e.1 e.2.1 = some e.2.2 := by decide

/-- VAND to VMOV. -/
theorem test_words_vand : ∀ e ∈ ([
    (32, 0x1AB76A1B, .vand ⟨45, 27, 53, none, 5⟩),
    (32, 0x3AB76A1B, .vor ⟨45, 27, 53, none, 5⟩),
    (32, 0x5AB76A1B, .vxor ⟨45, 27, 53, none, 5⟩),
    (32, 0x7AB76A1B, .vandn ⟨45, 27, 53, none, 5⟩),
    (32, 0x9AB76A1B, .vshl ⟨45, 27, 53, none, 5⟩),
    (32, 0xBAB76A1B, .vshrN ⟨45, 27, 53, none, 5⟩),
    (32, 0xDAB76A1B, .vshrI ⟨45, 27, 53, none, 5⟩),
    (32, 0xFAB76A1B, .vrotl ⟨45, 27, 53, none, 5⟩),
    (32, 0x1AB76A2B, .vminI ⟨45, 27, 53, none, 5⟩),
    (32, 0x3AB76A2B, .vmaxI ⟨45, 27, 53, none, 5⟩),
    (32, 0x5AB76A2B, .vminN ⟨45, 27, 53, none, 5⟩),
    (32, 0x7AB76A2B, .vmaxN ⟨45, 27, 53, none, 5⟩),
    (32, 0x80376A2B, .vpopc ⟨45, 27, none, 5⟩),
    (32, 0xA0376A2B, .vclz ⟨45, 27, none, 5⟩),
    (32, 0xC0376A2B, .vbrev ⟨45, 27, none, 5⟩),
    (32, 0xFA816A2B, .vmov ⟨45, 53, none, 5⟩)] : List (Nat × Nat × Instr)), decodeTableWord e.1 e.2.1 = some e.2.2 := by decide

/-- VCMP to VADD_S. -/
theorem test_words_vcmp : ∀ e ∈ ([
    (32, 0x5AB62A3B, .vcmp ⟨5, 2, 27, 53, none, 5⟩),
    (32, 0x3AB76A4B, .vsel ⟨45, 1, 27, 53, none, 5⟩),
    (32, 0x1AB76A5B, .vbfeN ⟨45, 27, 53, none, 5⟩),
    (32, 0x3AB76A5B, .vbfeI ⟨45, 27, 53, none, 5⟩),
    (32, 0x5AB76A5B, .vbfi ⟨45, 27, 53, none, 5⟩),
    (32, 0x7AB76A5B, .vpermb ⟨45, 27, 53, none, 5⟩),
    (32, 0xA3376A6B, .vaddi ⟨45, 27, 326, none, none, 5⟩),
    (32, 0xA3376A7B, .vandi ⟨45, 27, 326, none, none, 5⟩),
    (32, 0xA3376A8B, .vori ⟨45, 27, 326, none, none, 5⟩),
    (32, 0xA3376A9B, .vxori ⟨45, 27, 326, none, none, 5⟩),
    (32, 0x0B376AAB, .vshli ⟨45, 27, 22, none, none, 5⟩),
    (32, 0x0B376ABB, .vshriN ⟨45, 27, 22, none, none, 5⟩),
    (32, 0x0B376ACB, .vshriI ⟨45, 27, 22, none, none, 5⟩),
    (32, 0xA3016ADB, .vli ⟨45, 326, none, none, 5⟩),
    (32, 0xA336AAEB, .vcmpi ⟨5, 2, 27, 326, none, none, 5⟩),
    (32, 0x1AB76AFB, .vaddS ⟨45, 27, 53, none, 5⟩)] : List (Nat × Nat × Instr)), decodeTableWord e.1 e.2.1 = some e.2.2 := by decide

/-- VMUL_S to VSUB_F32. -/
theorem test_words_vmul_s : ∀ e ∈ ([
    (32, 0x3AB76AFB, .vmulS ⟨45, 27, 53, none, 5⟩),
    (32, 0x5AB76AFB, .vandS ⟨45, 27, 53, none, 5⟩),
    (32, 0x7AB76AFB, .vshlS ⟨45, 27, 53, none, 5⟩),
    (32, 0x9AB76AFB, .vshrSN ⟨45, 27, 53, none, 5⟩),
    (32, 0xBA816AFB, .vmovs ⟨45, 53, none, 5⟩),
    (32, 0xDAB76AFB, .vmadS ⟨45, 27, 53, none, 5⟩),
    (32, 0xE0016AFB, .vlaneid ⟨45, none, 5⟩),
    (32, 0x1A35630B, .vaddI64 ⟨44, 26, 52, none, 5⟩),
    (32, 0x3A35630B, .vsubI64 ⟨44, 26, 52, none, 5⟩),
    (32, 0x5A35630B, .vshlI64 ⟨44, 26, 52, none, 5⟩),
    (32, 0x7A35630B, .vshrN64 ⟨44, 26, 52, none, 5⟩),
    (32, 0x9A35630B, .vshrI64 ⟨44, 26, 52, none, 5⟩),
    (32, 0xBAB7630B, .vmulwI ⟨44, 27, 53, none, 5⟩),
    (32, 0xDAB7630B, .vmulwN ⟨44, 27, 53, none, 5⟩),
    (32, 0x1AB76B8B, .vaddF32 ⟨45, 27, 53, none, 5⟩),
    (32, 0x3AB76B8B, .vsubF32 ⟨45, 27, 53, none, 5⟩)] : List (Nat × Nat × Instr)), decodeTableWord e.1 e.2.1 = some e.2.2 := by decide

/-- VMUL_F32 to VADD_BF2. -/
theorem test_words_vmul_f32 : ∀ e ∈ ([
    (32, 0x5AB76B8B, .vmulF32 ⟨45, 27, 53, none, 5⟩),
    (32, 0x7AB76B8B, .vfmaF32 ⟨45, 27, 53, none, 5⟩),
    (32, 0x9AB76B8B, .vfmsF32 ⟨45, 27, 53, none, 5⟩),
    (32, 0xBAB76B8B, .vfnmaF32 ⟨45, 27, 53, none, 5⟩),
    (32, 0xDAB76B8B, .vminF32 ⟨45, 27, 53, none, 5⟩),
    (32, 0xFAB76B8B, .vmaxF32 ⟨45, 27, 53, none, 5⟩),
    (32, 0x00376B9B, .vabsF32 ⟨45, 27, none, 5⟩),
    (32, 0x20376B9B, .vnegF32 ⟨45, 27, none, 5⟩),
    (32, 0x5AB76B9B, .vcopysign ⟨45, 27, 53, none, 5⟩),
    (32, 0x60376B9B, .vclass ⟨45, 27, none, 5⟩),
    (32, 0x80376B9B, .vrint ⟨45, 27, none, 5⟩),
    (32, 0xA0376B9B, .vfract ⟨45, 27, none, 5⟩),
    (32, 0xDAB76B9B, .vscalb ⟨45, 27, 53, none, 5⟩),
    (32, 0xE0376B9B, .vgetexp ⟨45, 27, none, 5⟩),
    (32, 0x5AB62BAB, .vcmpf ⟨5, 2, 27, 53, none, 5⟩),
    (32, 0x1AB76BBB, .vaddBf2 ⟨45, 27, 53, none, 5⟩)] : List (Nat × Nat × Instr)), decodeTableWord e.1 e.2.1 = some e.2.2 := by decide

/-- VSUB_BF2 to VSIN_A. -/
theorem test_words_vsub_bf2 : ∀ e ∈ ([
    (32, 0x3AB76BBB, .vsubBf2 ⟨45, 27, 53, none, 5⟩),
    (32, 0x5AB76BBB, .vmulBf2 ⟨45, 27, 53, none, 5⟩),
    (32, 0x7AB76BBB, .vfmaBf2 ⟨45, 27, 53, none, 5⟩),
    (32, 0x9AB76BBB, .vminBf2 ⟨45, 27, 53, none, 5⟩),
    (32, 0xBAB76BBB, .vmaxBf2 ⟨45, 27, 53, none, 5⟩),
    (32, 0xDAB76BBB, .vdot2Bf ⟨45, 27, 53, none, 5⟩),
    (32, 0x1AB76BCB, .vaddF32S ⟨45, 27, 53, none, 5⟩),
    (32, 0x3AB76BCB, .vmulF32S ⟨45, 27, 53, none, 5⟩),
    (32, 0x5AB76BCB, .vfmaF32S ⟨45, 27, 53, none, 5⟩),
    (32, 0x7AB76BCB, .vminF32S ⟨45, 27, 53, none, 5⟩),
    (32, 0x9AB76BCB, .vmaxF32S ⟨45, 27, 53, none, 5⟩),
    (32, 0x00376BDB, .vrcpA ⟨45, 27, none, 5⟩),
    (32, 0x20376BDB, .vrsqA ⟨45, 27, none, 5⟩),
    (32, 0x40376BDB, .vex2A ⟨45, 27, none, 5⟩),
    (32, 0x60376BDB, .vlg2A ⟨45, 27, none, 5⟩),
    (32, 0x80376BDB, .vsinA ⟨45, 27, none, 5⟩)] : List (Nat × Nat × Instr)), decodeTableWord e.1 e.2.1 = some e.2.2 := by decide

/-- VCOS_A to POR. -/
theorem test_words_vcos_a : ∀ e ∈ ([
    (32, 0xA0376BDB, .vcosA ⟨45, 27, none, 5⟩),
    (32, 0xC0376BDB, .vtanhA ⟨45, 27, none, 5⟩),
    (32, 0xE0376BDB, .vsqrt ⟨45, 27, none, 5⟩),
    (32, 0x1AB76BEB, .vdivF32 ⟨45, 27, 53, none, 5⟩),
    (32, 0x20016BEB, .vrand ⟨45, none, 5⟩),
    (32, 0x403603EB, .vseed ⟨27, none, 5⟩),
    (32, 0x09376D0B, .vunpk ⟨45, 27, 2, 2, none, 5⟩),
    (32, 0x29376D0B, .vunpk2 ⟨45, 27, 2, 2, none, 5⟩),
    (32, 0x09376D1B, .vpack ⟨45, 27, 2, 2, none, 5⟩),
    (32, 0x29376D1B, .vpack2 ⟨45, 27, 2, 2, none, 5⟩),
    (32, 0x08376D2B, .vmxscale ⟨45, 27, 2, none, 5⟩),
    (32, 0x1AB76D3B, .vscaleE8 ⟨45, 27, 53, none, 5⟩),
    (32, 0x3AB76D3B, .vscaleE8Inv ⟨45, 27, 53, none, 5⟩),
    (32, 0x29B76D4B, .vcvt ⟨45, 27, 1, 2, 3, none, 5⟩),
    (32, 0x03062D8B, .pand ⟨5, 3, 6, 5⟩),
    (32, 0x23062D8B, .por ⟨5, 3, 6, 5⟩)] : List (Nat × Nat × Instr)), decodeTableWord e.1 e.2.1 = some e.2.2 := by decide

/-- PXOR to VLD_NR. -/
theorem test_words_pxor : ∀ e ∈ ([
    (32, 0x43062D8B, .pxor ⟨5, 3, 6, 5⟩),
    (32, 0x63062D8B, .pandn ⟨5, 3, 6, 5⟩),
    (32, 0x80062D8B, .pnot ⟨5, 3, 5⟩),
    (32, 0xA0062D8B, .pmov ⟨5, 3, 5⟩),
    (32, 0xC0002D8B, .pset ⟨5, 5⟩),
    (32, 0xE0002D8B, .pclr ⟨5, 5⟩),
    (32, 0x00076D9B, .ptos ⟨45, 3, 5⟩),
    (32, 0x20362D9B, .pfroms ⟨5, 27, 5⟩),
    (32, 0x40076D9B, .pcnt ⟨45, 3, 5⟩),
    (32, 0x6006059B, .pany ⟨3, 5⟩),
    (32, 0x8006059B, .pall ⟨3, 5⟩),
    (32, 0xA0076D9B, .pfirst ⟨45, 3, 5⟩),
    (32, 0xBAB565CB, .vld ⟨5, 44, 26, 53, none, none, 5⟩),
    (32, 0xE0356DCB, .vldLine ⟨45, 26, none, none, 5⟩),
    (32, 0x7AB565DB, .vst ⟨3, 44, 26, 53, none, none, 5⟩),
    (32, 0xBAB565EB, .vldNr ⟨5, 44, 26, 53, none, none, 5⟩)] : List (Nat × Nat × Instr)), decodeTableWord e.1 e.2.1 = some e.2.2 := by decide

/-- VLDI to LQUERY. -/
theorem test_words_vldi : ∀ e ∈ ([
    (32, 0x633565FB, .vldi ⟨3, 44, 26, 6, none, 5⟩),
    (32, 0x6335660B, .vsti ⟨3, 44, 26, 6, none, 5⟩),
    (32, 0x7AB5661B, .sld ⟨3, 44, 26, 53, none, 5⟩),
    (32, 0x7AB5662B, .sst ⟨3, 44, 26, 53, none, 5⟩),
    (32, 0x2000163B, .fence ⟨1, 2, 5⟩),
    (32, 0x8000063B, .fenceOpr ⟨5⟩),
    (32, 0xA036163B, .fenceH ⟨27, 2, 5⟩),
    (32, 0x1AB4064B, .cinv ⟨26, 53, 5⟩),
    (32, 0x3AB4064B, .cwb ⟨26, 53, 5⟩),
    (32, 0x5AB4064B, .cflush ⟨26, 53, 5⟩),
    (32, 0x7AB4064B, .vpref ⟨26, 53, 5⟩),
    (32, 0x9AB4064B, .pagereq ⟨26, 53, 5⟩),
    (32, 0x1AB56E5B, .llock ⟨45, 26, 53, 5⟩),
    (32, 0x20356E5B, .ltry ⟨45, 26, 5⟩),
    (32, 0x40356E5B, .lunlock ⟨45, 26, 5⟩),
    (32, 0x6035665B, .lquery ⟨44, 26, 5⟩)] : List (Nat × Nat × Instr)), decodeTableWord e.1 e.2.1 = some e.2.2 := by decide

/-- LBREAK to VATOM_OR. -/
theorem test_words_lbreak : ∀ e ∈ ([
    (32, 0x80356E5B, .lbreak ⟨45, 26, 5⟩),
    (32, 0x00356E6B, .hdecl ⟨45, 26, 5⟩),
    (32, 0x2036066B, .hend ⟨27, 5⟩),
    (32, 0x4036066B, .hdrain ⟨27, 5⟩),
    (32, 0x6037666B, .hquery ⟨44, 27, 5⟩),
    (32, 0x1AB56E7B, .haddF32 ⟨45, 26, 53, none, none, 5⟩),
    (32, 0x3AB56E7B, .haddI32 ⟨45, 26, 53, none, none, 5⟩),
    (32, 0x5AB56E7B, .hldF32 ⟨45, 26, 53, none, none, 5⟩),
    (32, 0x7AB56E7B, .hldI32 ⟨45, 26, 53, none, none, 5⟩),
    (32, 0x1AB56E8B, .vatomAddI32 ⟨45, 26, 53, none, none, 5⟩),
    (32, 0x3AB56E8B, .vatomAddF32 ⟨45, 26, 53, none, none, 5⟩),
    (32, 0x5AB56E8B, .vatomAddBf2 ⟨45, 26, 53, none, none, 5⟩),
    (32, 0x7AB56E8B, .vatomMinI ⟨45, 26, 53, none, none, 5⟩),
    (32, 0x9AB56E8B, .vatomMaxI ⟨45, 26, 53, none, none, 5⟩),
    (32, 0xBAB56E8B, .vatomAnd ⟨45, 26, 53, none, none, 5⟩),
    (32, 0xDAB56E8B, .vatomOr ⟨45, 26, 53, none, none, 5⟩)] : List (Nat × Nat × Instr)), decodeTableWord e.1 e.2.1 = some e.2.2 := by decide

/-- VATOM_XCHG to SATOM_CAS_128. -/
theorem test_words_vatom_xchg : ∀ e ∈ ([
    (32, 0xFAB56E8B, .vatomXchg ⟨45, 26, 53, none, none, 5⟩),
    (32, 0x1AB56E9B, .vatom2MinN ⟨45, 26, 53, none, none, 5⟩),
    (32, 0x3AB56E9B, .vatom2MaxN ⟨45, 26, 53, none, none, 5⟩),
    (32, 0x5AB56E9B, .vatom2Xor ⟨45, 26, 53, none, none, 5⟩),
    (32, 0x7AB5669B, .vatom2AddI64 ⟨44, 26, 53, none, none, 5⟩),
    (32, 0x9AB5669B, .vatom2Xchg64 ⟨44, 26, 53, none, none, 5⟩),
    (32, 0xBAB56E9B, .vatom2MinF32 ⟨45, 26, 53, none, none, 5⟩),
    (32, 0xDAB56E9B, .vatom2MaxF32 ⟨45, 26, 53, none, none, 5⟩),
    (32, 0x1AB566AB, .vcas32 ⟨44, 26, 53, none, none, 5⟩),
    (32, 0x3AB566AB, .vcas64 ⟨44, 26, 53, none, none, 5⟩),
    (32, 0x5AB546AB, .vcas128 ⟨40, 26, 53, none, none, 5⟩),
    (32, 0x00356EBB, .satomAddI32 ⟨45, 26, none, 5⟩),
    (32, 0x20356EBB, .satomXchg ⟨45, 26, none, 5⟩),
    (32, 0x403566BB, .satomCas32 ⟨44, 26, none, 5⟩),
    (32, 0x603566BB, .satomCas64 ⟨44, 26, none, 5⟩),
    (32, 0x803546BB, .satomCas128 ⟨40, 26, none, 5⟩)] : List (Nat × Nat × Instr)), decodeTableWord e.1 e.2.1 = some e.2.2 := by decide

/-- SATOM_ADD_I64 to SWREAD. -/
theorem test_words_satom_add_i64 : ∀ e ∈ ([
    (32, 0xA03566BB, .satomAddI64 ⟨44, 26, none, 5⟩),
    (32, 0xC0356EBB, .satomOr ⟨45, 26, none, 5⟩),
    (32, 0xE0356EBB, .satomAnd ⟨45, 26, none, 5⟩),
    (32, 0x1AB566CB, .cpy ⟨44, 26, 53, 5⟩),
    (32, 0x3A3566CB, .cpy2 ⟨44, 26, 52, 5⟩),
    (32, 0x5A3566CB, .cpyg ⟨44, 26, 52, 5⟩),
    (32, 0x7AB566CB, .cpyz ⟨44, 26, 53, 5⟩),
    (32, 0x9A3566CB, .cpyw ⟨44, 26, 52, 5⟩),
    (32, 0x1A356EDB, .decJpeg ⟨45, 26, 52, 5⟩),
    (32, 0x3A356EDB, .decG4 ⟨45, 26, 52, 5⟩),
    (32, 0x5A356EDB, .decPng ⟨45, 26, 52, 5⟩),
    (32, 0x7A356EDB, .decQuery ⟨45, 26, 52, 5⟩),
    (32, 0x1AB406EB, .swset ⟨26, 53, 5⟩),
    (32, 0x3AB406EB, .swarr ⟨26, 53, 5⟩),
    (32, 0x5AB406EB, .swwait ⟨26, 53, 5⟩),
    (32, 0x603566EB, .swread ⟨44, 26, 5⟩)] : List (Nat × Nat × Instr)), decodeTableWord e.1 e.2.1 = some e.2.2 := by decide

/-- MMAR_J to TCHOICE. -/
theorem test_words_mmar_j : ∀ e ∈ ([
    (32, 0x1AB76F2B, .mmarJ ⟨45, 27, 53, 5⟩),
    (32, 0x32B76F2B, .mmarS ⟨45, 27, 37, 5⟩),
    (32, 0x1AB76F3B, .mmatT ⟨45, 27, 53, 5⟩),
    (32, 0x3AB76F3B, .mmatC ⟨45, 27, 53, 5⟩),
    (32, 0x5AB76F3B, .mmatTz ⟨45, 27, 53, 5⟩),
    (32, 0x7AB76F3B, .mmatCz ⟨45, 27, 53, 5⟩),
    (32, 0x00376F4B, .mzero ⟨45, 27, 5⟩),
    (32, 0x3AB76F4B, .mquant ⟨45, 27, 53, 5⟩),
    (32, 0x4001674B, .mstat ⟨44, 5⟩),
    (32, 0x0035676B, .tderef ⟨44, 26, 5⟩),
    (32, 0x2035676B, .ttag ⟨44, 26, 5⟩),
    (32, 0x1A34077B, .tunifyN ⟨26, 52, 5⟩),
    (32, 0x3A34077B, .tunifyOc ⟨26, 52, 5⟩),
    (32, 0x5A34077B, .tbind ⟨26, 52, 5⟩),
    (32, 0x7A34077B, .tmatch ⟨26, 52, 5⟩),
    (32, 0x676D2F8B, .tchoice ⟨3309, 165, 5⟩)] : List (Nat × Nat × Instr)), decodeTableWord e.1 e.2.1 = some e.2.2 := by decide

/-- TFAIL to IRGN_GRP. -/
theorem test_words_tfail : ∀ e ∈ ([
    (32, 0x0000079B, .tfail ⟨5⟩),
    (32, 0x2000079B, .tcut ⟨5⟩),
    (32, 0x4000079B, .tpopcp ⟨5⟩),
    (32, 0x6001679B, .ttrailtop ⟨44, 5⟩),
    (32, 0x1A876FAB, .tfork ⟨45, 3, 53, 5⟩),
    (32, 0x200167AB, .tcommit ⟨44, 5⟩),
    (32, 0x400007AB, .tjoin ⟨5⟩),
    (32, 0x00356FCB, .launch ⟨45, 26, 5⟩),
    (32, 0x203767CB, .spawn ⟨44, 27, 5⟩),
    (32, 0x400007CB, .trigger ⟨5⟩),
    (32, 0x600007CB, .bar ⟨5⟩),
    (32, 0x800007CB, .cbar ⟨5⟩),
    (32, 0x00016FEB, .trap ⟨45, 5⟩),
    (32, 0x200007EB, .eret ⟨5⟩),
    (32, 0x5AB76FEB, .chkerr ⟨45, 27, 53, 5⟩),
    (32, 0x600007EB, .irgnGrp ⟨5⟩)] : List (Nat × Nat × Instr)), decodeTableWord e.1 e.2.1 = some e.2.2 := by decide

/-- IRGN_WG to HARVEST. -/
theorem test_words_irgn_wg : ∀ e ∈ ([
    (32, 0x60000FEB, .irgnWg ⟨5⟩),
    (32, 0x800007EB, .irge ⟨5⟩),
    (32, 0xA00007EB, .bkpt ⟨5⟩),
    (32, 0xDAB56FEB, .tlbinv ⟨45, 26, 53, 5⟩),
    (32, 0xFAB56FEB, .harvest ⟨45, 26, 53, 5⟩)] : List (Nat × Nat × Instr)), decodeTableWord e.1 e.2.1 = some e.2.2 := by decide

/-- The instruction a list of halfwords begins with, and its length; or the step at which it is refused. -/
def decoded (hs : List Nat) : Option (Instr × Nat) := (decodeUnit hs).toOption
def refusedAt (hs : List Nat) : Option DecErr := match decodeUnit hs with
  | .ok _ => none
  | .error e => some e

/-- R32: vadd.f32 v4, v1.rot(3), v2.bc(17), as the spec writes its words out. -/
theorem test_route : decoded [0x19C1, 0x1114, 0x2381, 0x0102] = some (.vaddF32 ⟨4, 1, 2, some ⟨0x083, 0x111⟩, 0⟩, 4) := by decide
/-- R34: vli v8, 0x1234_5678 and vli v8, 120, as the spec writes their words out. -/
theorem test_limm : decoded [0x29D7, 0x091A, 0x42D1, 0x3C00] = some (.vli ⟨8, 120, some 0x091A2B, none, 0⟩, 4)
    ∧ decoded [0x42D1, 0x3C00] = some (.vli ⟨8, 120, none, none, 0⟩, 2) := by decide
/-- R54: a ROUTE whose fields are 0 before an instruction without a routed source, and one whose fields are not. -/
theorem test_route_zero : decoded [0x01C1, 0x0000, 0x42D1, 0x3C00] = some (.vli ⟨8, 120, none, some ⟨0, 0⟩, 0⟩, 4)
    ∧ refusedAt [0x09C1, 0x0000, 0x42D1, 0x3C00] = some (DecErr.illegal 5) := by decide
/-- R37: vld.w32.acq.dev v3, [s4:s5 + v7], as the spec writes its words out. -/
theorem test_mq : decoded [0x81E1, 0x07F5, 0x1DC1, 0x8388] = some (.vld ⟨4, 3, 4, 7, none, some ⟨0, 127, 1, 3, 0, 0⟩, 0⟩, 4) := by decide

/-- R29, R43, R51: what is refused, and at which step: a second LIMM, a prefix before a 16-bit word and before an instruction that does not take it (2), a
reserved major (3), a function code without an instruction (4), a field that must be 0 and an odd pair (5). -/
theorem test_refused :
    refusedAt [0x29D7, 0x091A, 0x29D7, 0x091A, 0x42D1, 0x3C00] = some (DecErr.illegal 2)
    ∧ refusedAt [0x19C1, 0x1114, 0x0000] = some (DecErr.illegal 2)
    ∧ refusedAt [0x29D7, 0x091A, 0x1801, 0x0102] = some (DecErr.illegal 2)
    ∧ refusedAt [0x01F1, 0x0000] = some (DecErr.illegal 3)
    ∧ refusedAt [0x07F1, 0x0000] = some (DecErr.illegal 3)
    ∧ refusedAt [0x0031, 0xE000] = some (DecErr.illegal 4)
    ∧ refusedAt [0x1B91, 0x0082] = some (DecErr.illegal 5)
    ∧ refusedAt [0x1DC1, 0xA388] = some (DecErr.illegal 5)
    ∧ refusedAt [0x0001] = some DecErr.truncated := by decide

/-! ### Ill-formed terms: one for each check of WellFormed, which the check refuses -/

theorem test_wf_pair : Instr.wf (.vaddI64 ⟨2, 4, 6, none, 0⟩) = true ∧ Instr.wf (.vaddI64 ⟨3, 4, 6, none, 0⟩) = false ∧ Instr.wf (.vaddI64 ⟨2, 5, 6, none, 0⟩) = false
    ∧ Instr.wf (.vaddI64 ⟨2, 4, 7, none, 0⟩) = false := by decide
theorem test_wf_quad : Instr.wf (.vcas64 ⟨4, 2, 3, none, none, 0⟩) = true ∧ Instr.wf (.vcas64 ⟨6, 2, 3, none, none, 0⟩) = false := by decide
theorem test_wf_octet : Instr.wf (.vcas128 ⟨8, 2, 3, none, none, 0⟩) = true ∧ Instr.wf (.vcas128 ⟨12, 2, 3, none, none, 0⟩) = false := by decide
theorem test_wf_run : Instr.wf (.spawn ⟨60, 1, 0⟩) = true ∧ Instr.wf (.spawn ⟨61, 1, 0⟩) = false := by decide
theorem test_wf_route : Instr.wf (.vaddI32 ⟨1, 2, 3, some ⟨0x083, 0x15F⟩, 0⟩) = true ∧ Instr.wf (.vaddI32 ⟨1, 2, 3, some ⟨0x001, 0⟩, 0⟩) = false
    ∧ Instr.wf (.vaddI32 ⟨1, 2, 3, some ⟨0x080, 0⟩, 0⟩) = false ∧ Instr.wf (.vaddI32 ⟨1, 2, 3, some ⟨0, 0x160⟩, 0⟩) = false
    ∧ Instr.wf (.vaddI32 ⟨1, 2, 3, some ⟨0, 0x180⟩, 0⟩) = false := by decide
theorem test_wf_route_sources : Instr.wf (.vaddS ⟨1, 2, 3, some ⟨0x083, 0x083⟩, 0⟩) = false ∧ Instr.wf (.vmov ⟨1, 2, some ⟨0x083, 0⟩, 0⟩) = false
    ∧ Instr.wf (.vmov ⟨1, 2, some ⟨0, 0x083⟩, 0⟩) = true := by decide
theorem test_wf_mq : Instr.wf (.vld ⟨4, 3, 4, 7, none, some ⟨0, 127, 1, 3, 0, 0⟩, 0⟩) = true
    ∧ Instr.wf (.vld ⟨4, 3, 4, 7, none, some ⟨0, 127, 0, 5, 0, 0⟩, 0⟩) = false
    ∧ Instr.wf (.vld ⟨4, 3, 4, 7, none, some ⟨1, 127, 0, 3, 0, 0⟩, 0⟩) = false
    ∧ Instr.wf (.vld ⟨4, 3, 4, 7, none, some ⟨0, 127, 2, 3, 0, 0⟩, 0⟩) = false
    ∧ Instr.wf (.vld ⟨4, 3, 4, 7, none, some ⟨0, 126, 0, 3, 0, 0⟩, 0⟩) = false
    ∧ Instr.wf (.vst ⟨2, 3, 4, 7, none, some ⟨0, 127, 1, 3, 0, 0⟩, 0⟩) = false
    ∧ Instr.wf (.haddF32 ⟨3, 4, 7, none, some ⟨0, 127, 1, 3, 0, 0⟩, 0⟩) = false
    ∧ Instr.wf (.hldF32 ⟨3, 4, 7, none, some ⟨0, 60, 2, 3, 0, 0⟩, 0⟩) = false
    ∧ Instr.wf (.hldF32 ⟨3, 4, 7, none, some ⟨0, 60, 1, 3, 0, 0⟩, 0⟩) = true
    ∧ Instr.wf (.vatomAddI32 ⟨3, 4, 7, none, some ⟨3, 127, 0, 3, 0, 0⟩, 0⟩) = false := by decide
theorem test_wf_shift : Instr.wf (.sshli ⟨1, 2, 31, none, 0⟩) = true ∧ Instr.wf (.sshli ⟨1, 2, 32, none, 0⟩) = false
    ∧ Instr.wf (.vshriI ⟨1, 2, 1, some 1, none, 0⟩) = false := by decide
theorem test_wf_sizes : Instr.wf (.vld ⟨5, 3, 4, 7, none, none, 0⟩) = false ∧ Instr.wf (.vld ⟨6, 6, 4, 7, none, none, 0⟩) = false
    ∧ Instr.wf (.vst ⟨5, 4, 4, 7, none, none, 0⟩) = false ∧ Instr.wf (.vst ⟨3, 3, 4, 7, none, none, 0⟩) = false
    ∧ Instr.wf (.vldNr ⟨2, 4, 4, 7, none, none, 0⟩) = false ∧ Instr.wf (.sld ⟨1, 4, 4, 7, none, 0⟩) = false
    ∧ Instr.wf (.sst ⟨4, 6, 4, 7, none, 0⟩) = false := by decide
theorem test_wf_elements : Instr.wf (.vunpk ⟨1, 2, 0, 3, none, 0⟩) = true ∧ Instr.wf (.vunpk ⟨1, 2, 0, 4, none, 0⟩) = false
    ∧ Instr.wf (.vunpk ⟨1, 2, 4, 7, none, 0⟩) = true ∧ Instr.wf (.vunpk2 ⟨2, 2, 0, 1, none, 0⟩) = false := by decide
theorem test_wf_conversion : Instr.wf (.vcvt ⟨1, 2, 6, 4, 3, none, 0⟩) = true ∧ Instr.wf (.vcvt ⟨1, 2, 7, 4, 3, none, 0⟩) = false
    ∧ Instr.wf (.vcvt ⟨1, 2, 0, 3, 3, none, 0⟩) = false ∧ Instr.wf (.vcvt ⟨1, 2, 0, 5, 3, none, 0⟩) = false := by decide
theorem test_wf_special_registers : Instr.wf (.sgetr ⟨18, 1, 0⟩) = true ∧ Instr.wf (.sgetr ⟨19, 1, 0⟩) = false ∧ Instr.wf (.sgetr ⟨15, 1, 0⟩) = false
    ∧ Instr.wf (.ssetr ⟨5, 1, 0⟩) = true ∧ Instr.wf (.ssetr ⟨6, 1, 0⟩) = false ∧ Instr.wf (.ssetr ⟨13, 1, 0⟩) = false := by decide
theorem test_wf_codes : Instr.wf (.scmpi ⟨6, 1, 0, none, 0⟩) = true ∧ Instr.wf (.scmpi ⟨7, 1, 0, none, 0⟩) = false
    ∧ Instr.wf (.vcmp ⟨1, 7, 2, 3, none, 0⟩) = false ∧ Instr.wf (.vcmpi ⟨1, 7, 2, 3, none, none, 0⟩) = false
    ∧ Instr.wf (.vld ⟨7, 4, 4, 7, none, none, 0⟩) = false ∧ Instr.wf (.fence ⟨1, 5, 0⟩) = false ∧ Instr.wf (.fenceH ⟨1, 5, 0⟩) = false := by decide

/-! ### States that meet the hypotheses of the statements: scalar and control instructions -/

/-- demo with scalar register 1 marked poisoned. -/
def poisonedS : State := demoG fun g => g.putS 1 5 true

theorem wit_scalar_registers : (demo.g.Formed ∧ demo.Issues .scal [.s 1, .s 2] ∧ ((demo.useS 1 || demo.useS 2) = true → isMaskReg 3 = false))
    ∧ (poisonedS.g.Formed ∧ poisonedS.Issues .scal [.s 1, .s 2] ∧ (poisonedS.useS 1 || poisonedS.useS 2) = true ∧ isMaskReg 3 = false) :=
  ⟨⟨(demo_good .scal []).formed, (demo_good .scal _).issues, by decide⟩, formed_of (by decide), issues_of (by decide), by decide, by decide⟩
theorem wit_scalar_mask : demo.g.Formed ∧ demo.Issues .scal [.s 1, .s 2] ∧ (demo.useS 1 || demo.useS 2) = false ∧ isMaskReg 57 = true :=
  ⟨(demo_good .scal []).formed, (demo_good .scal _).issues, by decide, by decide⟩
theorem wit_scalar_carry : demo.g.Formed ∧ demo.Issues .scal [.s 1, .s 2, .scc] ∧ demo.useS 1 = false ∧ demo.useS 2 = false ∧ demo.useS 3 = false
    ∧ demo.g.rdScc demo.clock = false ∧ (demoG (·.writeScc true)).g.rdScc demo.clock = true :=
  ⟨(demo_good .scal []).formed, (demo_good .scal _).issues, by decide, by decide, by decide, by decide, by decide⟩
theorem wit_scalar_compare : poisonedS.Issues .scal [.s 1, .s 2] ∧ (poisonedS.useS 1 || poisonedS.useS 2) = true := ⟨issues_of (by decide), by decide⟩
/-- SRDLANE and SWRLANE: a live lane (95, the last), and a number that is none (96). -/
theorem wit_lane_crossings : demo.g.Formed ∧ demo.Issues .scal [.v 1, .s 2] ∧ demo.useS 2 = false ∧ demo.g.readPz demo.clock 1 95 = false ∧ demo.g.Room 3
    ∧ ((demoG (regs [(2, 95)])).g.rdS 100 2).toNat = 95 ∧ (demoG (regs [(2, 95)])).g.live.getLsbD 95 = true
    ∧ ((demoG (regs [(2, 96)])).g.rdS 100 2).toNat = 96 :=
  ⟨(demo_good .scal []).formed, (demo_good .scal _).issues, by decide, by decide, by unfold Group.Room; decide, by decide, by decide, by decide⟩
theorem wit_first : demo.g.Formed ∧ demo.Issues .scal (maskRefs ++ [.v 1]) ∧ (∀ r, (demo.g.rdV demo.clock r).poison = 0) :=
  ⟨(demo_good .scal []).formed, (demo_good .scal _).issues, fun r => clear_of (l := demo.g.v) (by decide) r⟩

/-- demo with PRIV set. -/
def privileged : State := demoG fun g => { g with gsr := 4 }
theorem wit_special_registers : demo.g.Formed ∧ demo.g.inflight = [] ∧ demo.Issues .scal [] ∧ demo.useS 1 = false ∧ demo.g.priv = false
    ∧ privileged.g.priv = true ∧ privileged.Issues .scal [.s 1] :=
  ⟨(demo_good .scal []).formed, rfl, (demo_good .scal _).issues, by decide, by decide, by decide, issues_of (by decide)⟩

theorem wit_branches : demo.Issues .scal [.scc] ∧ demo.useS 1 = false ∧ demo.g.rdScc demo.clock = false
    ∧ (demoG (·.writeScc true)).Issues .scal [.scc] ∧ (demoG (·.writeScc true)).g.rdScc demo.clock = true ∧ demo.g.rdS demo.clock 1 = 0
    ∧ (demoG (regs [(1, 9)])).g.rdS demo.clock 1 = 9 ∧ (demoG (regs [(1, 9)])).Issues .scal [.s 1] :=
  ⟨(demo_good .scal _).issues, by decide, by decide, issues_of (by decide), by decide, by decide, by decide, issues_of (by decide)⟩
/-- CALL at 15, 16 and 64 entries. -/
def calls (n area : Nat) : State := demoG fun g => { g with ret := List.replicate n ⟨0x20000, 0⟩, retArea := area }
theorem wit_calls : ((calls 15 0).memOk ∧ (calls 15 0).Issues .scal [] ∧ (calls 15 0).g.retDepth < 64 ∧ (calls 15 0).g.ret.length < 16)
    ∧ ((calls 16 47).memOk ∧ (calls 16 47).Issues .scal [] ∧ (calls 16 47).g.retDepth < 64 ∧ (calls 16 47).g.ret = ⟨0x20000, 0⟩ :: List.replicate 15 ⟨0x20000, 0⟩
      ∧ (calls 16 47).g.ret.length = 16 ∧ (calls 16 47).Flat ((calls 16 47).stackKey (calls 16 47).g 0 0) 0x480)
    ∧ ((calls 16 48).memOk ∧ (calls 16 48).Issues .scal [] ∧ 64 ≤ (calls 16 48).g.retDepth) := by
  refine ⟨⟨by unfold State.memOk; decide, issues_of (by decide), by decide, by decide⟩, ⟨by unfold State.memOk; decide, issues_of (by decide), by decide, by decide, by decide, flat_low (by decide)⟩,
    by unfold State.memOk; decide, issues_of (by decide), by decide⟩
theorem wit_returns : ((calls 1 0).g.ret = [] ++ [⟨0x20000, 0⟩] ∧ (calls 1 0).Issues .scal [] ∧ (calls 1 0).g.region = none ∧ (calls 1 0).g.retLost < (calls 1 0).g.retDepth ∧ 0 = (calls 1 0).g.reconDepth
      ∧ (calls 1 0).g.retArea = 0)
    ∧ ((calls 1 3).g.ret = [] ++ [⟨0x20000, 0⟩] ∧ (calls 1 3).Issues .scal [] ∧ (calls 1 3).g.retArea ≠ 0 ∧ (calls 1 3).g.retLost < (calls 1 3).g.retArea
      ∧ (calls 1 3).banks = [] ∧ (calls 1 3).memPoisoned ((calls 1 3).stackKey (calls 1 3).g 0 (8 * ((calls 1 3).g.retArea - 1))) 8 = false)
    ∧ (demoG fun g => { g with ret := [⟨0x20000, 2⟩] }).Issues .scal [] ∧ 2 ≠ (demoG fun g => { g with ret := [⟨0x20000, 2⟩] }).g.reconDepth
    ∧ demo.g.ret = [] ∧ demo.g.retArea = 0 :=
  ⟨⟨rfl, issues_of (by decide), rfl, by decide, by decide, rfl⟩, ⟨rfl, issues_of (by decide), by decide, by decide, rfl, by decide⟩, issues_of (by decide), by decide, rfl, rfl⟩
/-- EXIT of the lanes 0 to 3, of all lanes, of none. -/
theorem wit_exits : ((demoG fun g => { g with mask := 15 }).Issues .scal maskRefs ∧ (demoG fun g => { g with mask := 15 }).g.reconArea = 0
      ∧ (demoG fun g => { g with mask := 15 }).g.rdMask 100 &&& demo.g.live ≠ 0 ∧ demo.g.live &&& ~~~(15 : Mask) ≠ 0)
    ∧ (demoG fun g => { g with mask := 0 }).g.rdMask 100 &&& demo.g.live = 0 ∧ (demoG fun g => { g with mask := 0 }).Issues .scal maskRefs ∧ demo.g.live ≠ 0
    ∧ (demo.g.live &&& ~~~(demo.g.rdMask 100 &&& demo.g.live) = 0 ∧ (demo.g.pend.all fun p => p.kind != .term) = true ∧ demo.Sound) :=
  ⟨⟨issues_of (by decide), rfl, by decide, by decide⟩, by decide, issues_of (by decide), by decide, by decide, by decide, (demo_good .scal []).sound⟩

/-- A jump table of two entries with label 5 behind JTAB at 0x10000, and LPAD 5 at its first target. -/
def tabled : State :=
  { page 0x10000 0x10000 demo with mem := Memory.write [] 0x10010 (leBytes 4 0x00020005 ++ leBytes 4 0x40 ++ leBytes 4 0x20 ++ leBytes 4 0x30 ++ List.replicate 48 0
      ++ leBytes 4 (wordOf (.lpad ⟨5, 0⟩))) }
theorem wit_jump_tables : tabled.Issues .scal [.s 1] ∧ tabled.useS 1 = false ∧ 0x10010 % 4 = 0 ∧ fetchWord 0x10010 tabled = .ok 0x20005 tabled
    ∧ fetchWord 0x10018 tabled = .ok 0x20 tabled ∧ isLpad (wordOf (.lpad ⟨5, 0⟩)) 5 = true ∧ fetchWord 0x10050 tabled = .ok (wordOf (.lpad ⟨5, 0⟩)) tabled
    ∧ fetchWord 0x10014 tabled = .ok 0x40 tabled ∧ isLpad (wordOf (.lpad ⟨6, 0⟩)) 5 = false
    -- a malformed header at another place, a poisoned index
    ∧ (∃ s : State, fetchWord 0x10010 s = .ok 0x25005 s ∧ 0x25005 / 4096 % 16 ≠ 0 ∧ s.Issues .scal [.s 1]) ∧ poisonedS.useS 1 = true ∧ (0x10012 : Nat) % 4 ≠ 0 :=
  ⟨issues_of (by decide), by decide, by decide, by rfl, by rfl, by decide, by rfl, by rfl, by decide,
    ⟨{ tabled with mem := Memory.write [] 0x10010 (leBytes 4 0x25005) }, by rfl, by decide, issues_of (by decide)⟩, by decide, by decide⟩

/-! ### Divergence, waits, rendezvous -/

/-- demo with a reconvergence stack. -/
def stacked (es : List ReconEntry) (area : Nat) : State := demoG fun g => { g with recon := es, reconArea := area }
def ifEntry : ReconEntry := ⟨false, false, BitVec.allOnes 96, 0xF0, 0⟩
def loopEntry : ReconEntry := ⟨true, false, BitVec.allOnes 96, 0, 0⟩
theorem wit_divergence : ((stacked (List.replicate 7 ifEntry) 0).memOk ∧ (stacked (List.replicate 7 ifEntry) 0).Issues .scal (maskRefs ++ [.p 1, .spr 1])
      ∧ (stacked (List.replicate 7 ifEntry) 0).g.reconDepth < 31 ∧ (stacked (List.replicate 7 ifEntry) 0).g.recon.length < 8)
    ∧ ((stacked (List.replicate 8 ifEntry) 22).memOk ∧ (stacked (List.replicate 8 ifEntry) 22).Issues .scal (maskRefs ++ [.p 1, .spr 1])
      ∧ (stacked (List.replicate 8 ifEntry) 22).g.reconDepth < 31 ∧ (stacked (List.replicate 8 ifEntry) 22).g.recon = ifEntry :: List.replicate 7 ifEntry
      ∧ (stacked (List.replicate 8 ifEntry) 22).Flat ((stacked (List.replicate 8 ifEntry) 22).stackKey (stacked (List.replicate 8 ifEntry) 22).g 0 0) 0x480)
    ∧ 31 ≤ (stacked (List.replicate 8 ifEntry) 23).g.reconDepth ∧ (stacked (List.replicate 8 ifEntry) 23).Issues .scal (maskRefs ++ [.p 1, .spr 1]) :=
  ⟨⟨by unfold State.memOk; decide, issues_of (by decide), by decide, by decide⟩, ⟨by unfold State.memOk; decide, issues_of (by decide), by decide, rfl, flat_low (by decide)⟩, by decide, issues_of (by decide)⟩
theorem wit_else_end : ((stacked [ifEntry] 0).Issues .scal [] ∧ (stacked [ifEntry] 0).g.recon = [] ++ [ifEntry] ∧ ifEntry.loop = false ∧ ifEntry.els = false)
    ∧ ((stacked [loopEntry] 0).Issues .scal maskRefs ∧ loopEntry.loop = true ∧ (stacked [loopEntry] 0).g.recon = [] ++ [loopEntry])
    ∧ ((stacked [ifEntry] 0).g.region = none ∧ (stacked [ifEntry] 0).g.rdMask 100 &&& ~~~ifEntry.m = 0 ∧ (stacked [ifEntry] 0).g.reconArea = 0)
    ∧ (stacked [{ ifEntry with m := 1 }] 0).g.rdMask 100 &&& ~~~(1 : Mask) ≠ 0
    ∧ ((stacked [ifEntry] 23).Issues .scal maskRefs ∧ (stacked [ifEntry] 23).g.recon = [] ++ [ifEntry] ∧ (stacked [ifEntry] 23).g.reconArea ≠ 0
      ∧ (stacked [ifEntry] 23).g.reconLost < (stacked [ifEntry] 23).g.reconArea ∧ (stacked [ifEntry] 23).banks = []
      ∧ (stacked [ifEntry] 23).memPoisoned ((stacked [ifEntry] 23).stackKey (stacked [ifEntry] 23).g 0 (0x180 + 32 * ((stacked [ifEntry] 23).g.reconArea - 1))) 32 = false) :=
  ⟨⟨issues_of (by decide), rfl, rfl, rfl⟩, ⟨issues_of (by decide), rfl, rfl⟩, ⟨rfl, by decide, rfl⟩, by decide,
    issues_of (by decide), rfl, by decide, by decide, rfl, by decide⟩
theorem wit_loops : ((stacked [loopEntry] 0).Issues .scal (maskRefs ++ [.spr 1]) ∧ (stacked [loopEntry] 0).g.reconDepth < 31 ∧ (stacked [loopEntry] 0).g.recon.length < 8)
    ∧ ((stacked [loopEntry, ifEntry] 0).Issues .scal (maskRefs ++ [.p 1]) ∧ (stacked [loopEntry, ifEntry] 0).g.recon = [] ++ [loopEntry] ++ [ifEntry] ∧ ∀ k ∈ [ifEntry], k.loop = false)
    ∧ ((stacked [loopEntry] 0).Issues .scal (maskRefs ++ [.p 1]) ∧ (stacked [loopEntry] 0).g.rdMask 100 &&& ~~~loopEntry.m = 0
      -- an unset predicate lets no lane go on; its complement lets every one
      ∧ (∀ l, l < 96 → (0 : Mask).getLsbD l = ((((stacked [loopEntry] 0).g.rdMask 100).getLsbD l || loopEntry.x.getLsbD l)
          && (stacked [loopEntry] 0).g.side 100 1 0 l && (stacked [loopEntry] 0).g.live.getLsbD l))
      ∧ (∀ l, l < 96 → (BitVec.allOnes 96 : Mask).getLsbD l = ((((stacked [loopEntry] 0).g.rdMask 100).getLsbD l || loopEntry.x.getLsbD l)
          && (stacked [loopEntry] 0).g.side 100 1 1 l && (stacked [loopEntry] 0).g.live.getLsbD l))) :=
  ⟨⟨issues_of (by decide), by decide, by decide⟩, ⟨issues_of (by decide), rfl, by decide⟩, issues_of (by decide), by decide, by decide, by decide⟩
theorem wit_unmatched : demo.Issues .scal maskRefs ∧ demo.g.recon = [] ∧ demo.g.reconArea = 0 ∧ demo.g.reconLost = 0 ∧ (∀ e ∈ (stacked [ifEntry] 0).g.recon, e.loop = false)
    ∧ (∀ e, demo.g.recon.getLast? = some e → e.loop = false) :=
  ⟨(demo_good .scal _).issues, rfl, rfl, rfl, by decide, by intro e h; simp [show demo.g.recon = [] from rfl] at h⟩

/-- A second group of demo's workgroup. -/
def second (f : Group → Group) : State := { demo with others := [f { loadedGroup 2 with gidx := 1, wg := 1, grid := 1, quarter := 1 }] }
theorem wit_waits : demo.Issues .scal [] ∧ demo.useS 1 = false ∧ demo.g.rdS demo.clock 1 = 0 ∧ (demoG (regs [(1, 9)])).g.rdS 100 1 = 9
    ∧ demo.pendingReady 0 0 = [] ∧ demo.g.count .ld ≤ 0
    ∧ ¬(demoG fun g => { g with pend := [⟨.ld, .load, 1, [], [], [], [], [], false⟩] }).g.count .ld ≤ 0
    ∧ ∃ h r, (second fun g => { g with quarter := 0, active := false }).pendingReady 0 0 = h :: r ∧ h.id ≠ 1
      ∧ (second fun g => { g with quarter := 0, active := false }).swapped 0 0 = false
      ∧ ({ second (fun g => { g with quarter := 0, active := false }) with swaps := [(0, 0)] } : State).swapped 0 0 = true :=
  ⟨(demo_good .scal _).issues, by decide, by decide, by decide, by decide, by decide, by decide, _, _, rfl, by decide, by decide, by decide⟩
theorem wit_wait_owns : demo.mxOwns = [] := rfl
theorem wit_elect : demo.g.Formed ∧ demo.Issues .scal maskRefs := ⟨(demo_good .scal []).formed, (demo_good .scal _).issues⟩
theorem wit_signatures : demo.Issues .scal [.spr 2] ∧ demo.g.inflight = [] ∧ demo.g.sig = (0xFFFF : BitVec 16).setWidth 32 ∧ demo.g.reconDepth = 0
    ∧ demo.g.sig ≠ (0x1234 : BitVec 16).setWidth 32 ∧ demo.g.reconDepth ≠ 3 :=
  ⟨(demo_good .scal _).issues, rfl, by decide, by decide, by decide, by decide⟩
theorem wit_rendezvous_waits : (second id).Sound ∧ (second id).Issues .scal maskRefs ∧ ((second id).g.pend.all fun q => q.kind != .term && q.todo.isEmpty) = true
    ∧ (second id).g.wait = .ready ∧ ∃ h ∈ (second id).others, h.wg = (second id).g.wg ∧ h.wait ≠ .ended ∧ h.wait.isBar = false ∧ h.wait ≠ .cbar ∧ h.wait.isElectw = false
      ∧ h.nBar ≤ (second id).g.nBar ∧ h.nElectw ≤ (second id).g.nElectw ∧ h.nCbar ≤ (second id).g.nCbar :=
  ⟨sound_of (by decide), issues_of (by decide), by decide, rfl, _, List.mem_singleton.mpr rfl, by decide, by decide, by decide, by decide, by decide, by decide, by decide, by decide⟩
theorem wit_rendezvous_passes : ((second fun g => { g with wait := .bar 0, nBar := 1 }).Sound
      ∧ ∀ k ∈ (second fun g => { g with wait := .bar 0, nBar := 1 }).others, k.wg = 1 → k.wait ≠ .ended → k.wait = .bar 0 ∧ k.nBar = 0 + 1)
    ∧ (∀ k ∈ (second fun g => { g with wait := .electw 1 (some 3), nElectw := 1 }).others, k.wg = 1 → k.wait ≠ .ended → k.wait.isElectw = true ∧ k.nElectw = 0 + 1)
    ∧ (∃ k ∈ (second fun g => { g with wait := .electw 1 (some 3), nElectw := 1, gidx := 0 }).others, k.wg = 1 ∧ k.gidx < 4 ∧ ∃ q l, k.wait = .electw q (some l))
    ∧ (∀ k ∈ demo.others, k.wg = demo.g.wg → k.wait = .ended) ∧ (∀ w, demo.wg? demo.g.wg = some w → w.inCloud = false) :=
  ⟨⟨sound_of (by decide), by decide⟩, by decide, ⟨_, List.mem_singleton.mpr rfl, rfl, by decide, 1, 3, rfl⟩, by decide, by
    intro w h
    have : demo.wg? demo.g.wg = some (loadedWg 1) := rfl
    rw [this] at h; cases h; rfl⟩

/-! ### Lanes -/

/-- Vector registers 1 and 2 hold the lane numbers and 7, register 3 is empty. -/
def laned : State := demoG fun g => uni 2 7 { g with v := g.v.set 1 ⟨.affine 0 1, 0⟩ }
/-- Only lanes 0 to 3 run. -/
def four (s : State) : State := { s with g := { s.g with mask := 15 } }
def marked : State := demoG fun g => { g with v := g.v.set 1 ⟨.uniform 5, 2⟩ }
def full0 : State := demoG fun g => { g with gslots := 0 }

/-- Two sources, a routed source (a broadcast of lane 95), a float form with %fmt, a form with its destination as a source. -/
theorem wit_lane_forms : laned.g.Formed ∧ (∀ c rs, c = .vec ∨ c = .sfu → laned.Issues c rs) ∧ laned.g.rdMask laned.clock ≠ 0
    ∧ (∀ x ∈ laned.srcs ⟨3, 1, 2, none, 0⟩, x.pz &&& laned.g.rdMask laned.clock = 0)
    ∧ (∀ x ∈ laned.srcs ⟨3, 1, 2, some ⟨0x15F, 0⟩, 0⟩ ++ [laned.g.opd laned.clock 3 0], x.pz &&& laned.g.rdMask laned.clock = 0)
    ∧ (∀ x ∈ laned.srcsS ⟨3, 1, 2, none, 0⟩, x.pz &&& laned.g.rdMask laned.clock = 0) ∧ laned.g.Room 3 := by
  refine ⟨formed_of (by decide), ?_, by decide, by decide, by decide, by decide, by unfold Group.Room; decide⟩
  rintro c rs (rfl | rfl) <;> exact issues_of (by decide)
theorem wit_moves : (3 : BitVec 6) ≠ 1 ∧ (∃ o : RDB, o.d = o.b ∧ rtB o.rt = 0) ∧ (∃ o : RDB, o.d = o.b ∧ rtB o.rt ≠ 0)
    ∧ laned.Issues .vec (maskRefs ++ [.v 1]) := ⟨by decide, ⟨⟨3, 3, none, 0⟩, by decide⟩, ⟨⟨3, 3, some ⟨0, 0x101⟩, 0⟩, by decide⟩, issues_of (by decide)⟩
theorem wit_zero_mask : (demoG fun g => { g with mask := 0 }).g.rdMask 100 = 0 ∧ (∀ c ∈ [Cls.vec, .sfu, .memv], (demoG fun g => { g with mask := 0 }).Issues c maskRefs) :=
  ⟨by decide, by intro c hc; simp only [List.mem_cons, List.not_mem_nil, or_false] at hc; rcases hc with rfl | rfl | rfl <;> exact issues_of (by decide)⟩
/-- Lanes 0 and 95 of every route mode: none, rotate by 127, broadcast of 127, exchange by 63, permute by register 63. -/
theorem wit_routes : laned.g.present.getLsbD 0 = true ∧ laned.g.present.getLsbD 95 = true
    ∧ (0x0FF : BitVec 9).toNat / 128 = 1 ∧ (0x17F : BitVec 9).toNat / 128 = 2 ∧ (0x1BF : BitVec 9).toNat / 128 = 3 ∧ (0x1BF : BitVec 9).toNat % 128 < 64
    ∧ (0x1FF : BitVec 9).toNat / 128 = 3 ∧ 64 ≤ (0x1FF : BitVec 9).toNat % 128 ∧ (laned.g.rdV 100 1).val.op.isUniform = false ∧ (laned.g.rdV 100 2).val.op.isUniform = true := by decide
theorem wit_shapes : laned.FullWrite 3 ∧ (laned.srcs ⟨3, 2, 2, none, 0⟩).map (·.val) = [.uniform 7, .uniform 7]
    ∧ (laned.srcs ⟨3, 1, 2, none, 0⟩).map (·.val) = [.affine 0 1, .uniform 7] ∧ (VOp.affine 0 1).affine? = some (0, 1) ∧ (VOp.uniform 7).affine? = some (7, 0)
    ∧ (laned.g.opd 100 1 0).val.isGeneral = false := ⟨by unfold State.FullWrite; decide, by decide, by decide, by decide, by decide, by decide⟩
/-- A general operand in register 4; register 5 shifts by 3; scalar 2 holds 7. -/
def general4 : State := { laned with g := regs [(2, 7)] (lanesIn 4 0 (fun l => BitVec.ofNat 32 (l * l)) laned.g) }
theorem wit_affine_shapes : (general4.g.opd general4.clock 1 0).val = .affine 0 1 ∧ (general4.g.opd general4.clock 2 0).val = .uniform 7
    ∧ (general4.srcsS ⟨3, 1, 2, none, 0⟩).map (·.val) = [.affine 0 1, .uniform 7] ∧ (general4.srcsS ⟨3, 2, 2, none, 0⟩).map (·.val) = [.uniform 7, .uniform 7]
    ∧ (general4.srcs ⟨3, 2, 1, none, 0⟩).map (·.val) = [.uniform 7, .affine 0 1]
    ∧ (general4.srcsS ⟨3, 1, 2, none, 0⟩ ++ [general4.g.opd general4.clock 3 0]).map (·.val) = [.affine 0 1, .uniform 7, .uniform 0]
    ∧ (7 : Word).toNat % 64 < 32 ∧ (immWord 5 none).toNat % 64 < 32 ∧ ((VOp.affine 0 1).isUniform && (VOp.uniform 0).isUniform) = false := by decide
theorem wit_general_shapes : general4.g.Formed ∧ (∀ rs, general4.Issues .vec rs) ∧ general4.g.rdMask general4.clock ≠ 0 ∧ general4.g.Room 3 ∧ general4.g.Room 4
    ∧ (∃ x ∈ general4.srcs ⟨3, 4, 2, none, 0⟩, x.val.isGeneral = true) ∧ (∃ x ∈ general4.srcs ⟨3, 1, 2, none, 0⟩, x.val.isUniform = false)
    ∧ (∀ x ∈ general4.srcs ⟨3, 4, 2, none, 0⟩, x.pz &&& general4.g.rdMask general4.clock = 0)
    ∧ (∀ y, (general4.g.opd general4.clock 2 0).val = .uniform y → (general4.g.opd general4.clock 3 0).val ≠ .uniform y) := by
  refine ⟨formed_of (by decide), fun _ => issues_of (by decide), by decide, by unfold Group.Room; decide, by unfold Group.Room; decide, ⟨general4.g.opd 100 4 0, by decide⟩,
    ⟨general4.g.opd 100 1 0, by decide⟩, by decide, ?_⟩
  intro y h
  have h2 : (general4.g.opd general4.clock 2 0).val = .uniform 7 := by decide
  have h3 : (general4.g.opd general4.clock 3 0).val = .uniform 0 := by decide
  rw [h2] at h; cases h; rw [h3]; decide
/-- R114: an exchange by 31 keeps a uniform source uniform, one by 63 does not. -/
theorem wit_route_shapes : (laned.g.rdV laned.clock 2).val.op = .uniform 7
    ∧ (∀ l, l < 96 → laned.g.present.getLsbD l = true → l ^^^ 31 < 96 ∧ laned.g.present.getLsbD (l ^^^ 31) = true)
    ∧ (∃ l, l < 96 ∧ laned.g.present.getLsbD l = true ∧ (96 ≤ l ^^^ 63 ∨ laned.g.present.getLsbD (l ^^^ 63) = false)) :=
  ⟨by decide, by decide, 64, by decide⟩
/-- No slot at all: a general operand cannot stand, so the shape of an affine one overflows only under a partial mask. -/
def lastSlot : State := { general4 with g := { general4.g with gslots := 1 } }
theorem wit_general_overflow : lastSlot.g.Formed ∧ (∀ rs, lastSlot.Issues .vec rs) ∧ lastSlot.g.rdMask 100 ≠ 0 ∧ (∃ x ∈ lastSlot.srcs ⟨3, 4, 2, none, 0⟩, x.val.isGeneral = true)
    ∧ ¬ lastSlot.g.Room 3 :=
  ⟨formed_of (by decide), fun _ => issues_of (by decide), by decide, ⟨lastSlot.g.opd 100 4 0, by decide⟩, by unfold Group.Room; decide⟩
theorem wit_shape_overflow : (four full0).g.Formed ∧ (four full0).Issues .vec [] ∧ (four full0).g.rdMask 100 ≠ 0
    ∧ (four full0).g.present &&& ~~~((four full0).g.rdMask 100) ≠ 0 ∧ ¬ (four full0).g.Room 3 :=
  ⟨formed_of (by decide), issues_of (by decide), by decide, by decide, by unfold Group.Room; decide⟩
theorem wit_poison : marked.g.Formed ∧ (∀ rs, marked.Issues .vec rs) ∧ marked.g.rdMask marked.clock ≠ 0 ∧ marked.g.Room 3
    ∧ (marked.g.rdMask marked.clock).getLsbD 1 = true ∧ (∃ x ∈ marked.srcs ⟨3, 2, 1, none, 0⟩, x.pz.getLsbD 1 = true)
    ∧ ((marked.g.opd 100 1 0).pz ||| (marked.g.opd 100 2 0).pz) &&& marked.g.rdMask 100 ≠ 0 :=
  ⟨formed_of (by decide), fun _ => issues_of (by decide), by decide, by unfold Group.Room; decide, by decide, ⟨marked.g.opd 100 1 0, by decide⟩, by decide⟩
theorem wit_compares : laned.g.Formed ∧ laned.g.rdMask laned.clock ≠ 0 ∧ ((laned.g.opd laned.clock 1 0).pz ||| (laned.g.opd laned.clock 2 0).pz) &&& laned.g.rdMask laned.clock = 0
    ∧ (∀ rs, laned.Issues .vec rs) ∧ laned.g.Room 3 := ⟨formed_of (by decide), by decide, by decide, fun _ => issues_of (by decide), by unfold Group.Room; decide⟩
/-- Pairs at 0 and at 62, the last. -/
theorem wit_pairs : laned.g.RoomPair 0 ∧ laned.g.RoomPair 62 ∧ (62 : BitVec 6).toNat < 63 := by
  refine ⟨⟨?_, ?_, .inr (.inr ⟨0, 1, ?_⟩)⟩, ⟨?_, ?_, .inr (.inr ⟨0, 1, ?_⟩)⟩, ?_⟩ <;> first | decide | (unfold Group.Room; decide)
theorem wit_random : demo.g.inflight = [] ∧ demo.Issues .vec (maskRefs ++ demo.g.opdRefs 100 1 0 ++ [.rnd]) ∧ demo.g.Room 3 :=
  ⟨rfl, (demo_good .vec _).issues, by unfold Group.Room; decide⟩
theorem wit_conversions : srOf (laned.g.rdFmt laned.clock) = false ∧ (0 : BitVec 3) ≠ 5 := by decide
/-- %fmt with the SR bit, by which VPACK and VCVT without a mode draw. -/
def drawing : State := { laned with g := { laned.g with fmt := 8 } }
theorem wit_draws : srOf (drawing.g.rdFmt drawing.clock) = true ∧ drawing.g.Formed ∧ (∀ rs, drawing.Issues .vec rs) ∧ drawing.g.rdMask drawing.clock ≠ 0 ∧ drawing.g.Room 3
    ∧ drawing.g.inflight = [] ∧ (∀ x ∈ [drawing.g.opd drawing.clock 1 0, drawing.g.opd drawing.clock 3 0], x.pz &&& drawing.g.rdMask drawing.clock = 0)
    ∧ (3 * 2 ^ 32 + 5 * 2 ^ 1) / 2 ^ (1 + 32) < 2 ^ 32 :=
  ⟨by decide, formed_of (by decide), fun _ => issues_of (by decide), by decide, by unfold Group.Room; decide, rfl, by decide, by decide⟩
/-- R153: 1.5 with half a unit drawn rounds up to 2; with less it is 1. -/
theorem test_draw : convert .n32 (.sr (2 ^ 31)) false false (.fin ⟨false, 3, -1⟩) = .ok 2 ∧ convert .n32 (.sr (2 ^ 31 - 1)) false false (.fin ⟨false, 3, -1⟩) = .ok 1 := by decide
theorem wit_predicates_idle : (demoG fun g => { g with mask := 0 }).g.rdMask 100 = 0 ∧ (demoG fun g => { g with mask := 0 }).Issues .vec maskRefs := ⟨by decide, issues_of (by decide)⟩
theorem wit_predicates : laned.g.Formed ∧ laned.g.rdMask laned.clock ≠ 0 ∧ (∀ c ∈ [Cls.vec, .scal], ∀ rs, laned.Issues c rs) ∧ (61 : BitVec 6).toNat < 62
    ∧ (∀ k, k < 3 → laned.g.rdSP laned.clock (61 + k) = false) ∧ laned.g.rdP 100 1 &&& laned.g.rdMask 100 = 0
    ∧ (∀ t : State, t = (demoG fun g => { g with p := g.p.set 1 (BitVec.ofNat 96 (2 ^ 95)) }) → (t.g.rdP 100 1 &&& t.g.rdMask 100).getLsbD 95 = true
      ∧ ∀ k, k < 95 → (t.g.rdP 100 1 &&& t.g.rdMask 100).getLsbD k = false) := by
  refine ⟨formed_of (by decide), by decide, ?_, by decide, by decide, by decide, ?_⟩
  · intro c hc rs; simp only [List.mem_cons, List.not_mem_nil, or_false] at hc; rcases hc with rfl | rfl <;> exact issues_of (by decide)
  · rintro t rfl; decide

/-! Steps: R123 (a wrapped sum), R108 (a rotate: lane 95 reads lane 0), R121 (idle lanes keep their words). -/
theorem test_vadd : lane (.vaddI32 ⟨3, 1, 2, none, 0⟩) laned 3 95 = 102 := by decide
theorem test_vrotate : lane (.vaddI32 ⟨3, 1, 2, some ⟨0x081, 0⟩, 0⟩) laned 3 95 = 7 := by decide
theorem test_vidle : lane (.vaddI32 ⟨1, 1, 2, none, 0⟩) (four laned) 1 3 = 10 ∧ lane (.vaddI32 ⟨1, 1, 2, none, 0⟩) (four laned) 1 4 = 4 := by decide
theorem test_vmulh : lane (.vmulhI ⟨3, 1, 2, none, 0⟩) (demoG fun g => uni 1 0xFFFFFFFF (uni 2 7 g)) 3 0 = 0xFFFFFFFF := by decide
theorem test_sadd : scal (.sadd ⟨3, 1, 2, 0⟩) (demoG (regs [(1, 0xFFFFFFFF), (2, 2)])) 3 = 1 := by decide
theorem test_fadd : lane (.vaddF32 ⟨3, 1, 2, none, 0⟩) (demoG fun g => uni 1 0x3F800000 (uni 2 0x40000000 g)) 3 0 = 0x40400000 := by decide

/-! ### Memory units -/

/-- One lane runs. -/
def one (l : Nat) (s : State) : State := { s with g := { s.g with mask := BitVec.twoPow 96 l } }
theorem one_lane {l : Nat} {m : Mask} {p : Nat → Prop} (h : m = BitVec.twoPow 96 l) (hp : p l) : ∀ k, m.getLsbD k = true → p k := by
  intro k hk
  rw [h, BitVec.getLsbD_twoPow] at hk
  simp only [Bool.and_eq_true, decide_eq_true_eq] at hk
  exact hk.2 ▸ hp

/-- A page at 0x20000, its address in scalars 2 and 3, an offset of 16 in vector register 2, general registers 4 to 11. -/
def paged : State := page 0x20000 0x20000 (demoG fun g => regs [(2, 0x20000)] (uni 2 16
  ((List.range 8).foldl (fun h k => lanesIn (4 + k) k (fun l => BitVec.ofNat 32 (1000 * k + l)) h) g)))
def hit (k : Nat) : Loc := ⟨k, 0, 0, false⟩

/-- Loads and stores by lane 95 alone: a page that answers, with the last size code and the last destinations. -/
theorem wit_loads : (one 95 paged).Sound ∧ (one 95 paged).Calm ∧ MemIssues (one 95 paged) ∧ (one 95 paged).g.rdMask 100 ≠ 0
    ∧ (∀ j, j < sizeRegs 6 → ((one 95 paged).g.v.getD (4 + j) VReg.zero).val.slot?.isSome = true)
    ∧ (∀ l, ((one 95 paged).g.rdMask 100).getLsbD l = true → (one 95 paged).Reaches l ((one 95 paged).laneAddr 2 2 none l) (sizeBytes 6) .rd (hit 0x20010))
    ∧ (∀ l, ((one 95 paged).g.rdMask 100).getLsbD l = true → (one 95 paged).Reaches l (0x20000 + 4 * l) 4 .rd (hit (0x20000 + 380)))
    ∧ (one 95 paged).g.rdPair 100 2 % 64 = 0 ∧ apertureOf ((one 95 paged).g.rdPair 100 2) ≠ none
    ∧ (∀ l, ((one 95 paged).g.rdMask 100).getLsbD l = true → apertureOf ((0x20000 + 4 * l) % 2 ^ 64) = apertureOf 0x20000) :=
  ⟨(good_of (c := .mem) (rs := []) (by decide)).sound, (good_of (c := .mem) (rs := []) (by decide)).calm, mem_issues (by decide), by decide, by decide,
    one_lane (l := 95) (by decide) ⟨by rfl, .inl rfl, flat_low (by decide)⟩, one_lane (l := 95) (by decide) ⟨by rfl, .inl rfl, flat_low (by decide)⟩, by decide, by decide,
    one_lane (l := 95) (by decide) (by decide)⟩
/-- The page's entry says that it is not resident. -/
def away : State := { paged with tlb := paged.tlb.map fun e => { e with pte := e.pte &&& ~~~4 } }
theorem wit_load_away : (one 95 away).Sound ∧ (one 95 away).Calm ∧ MemIssues (one 95 away) ∧ (one 95 away).g.helpers = 0 ∧ (one 95 away).g.rdMask 100 ≠ 0
    ∧ (∀ l, ((one 95 away).g.rdMask 100).getLsbD l = true → (one 95 away).g.helpers.getLsbD l = false → (BitVec.twoPow 96 95).getLsbD l = true ∧
        (one 95 away).checkAccess (one 95 away).g l ((one 95 away).laneAddr 2 2 none l) 4 4 .rd = (.nonres 0x20000, one 95 away)) :=
  ⟨(good_of (c := .mem) (rs := []) (by decide)).sound, (good_of (c := .mem) (rs := []) (by decide)).calm, mem_issues (by decide), by decide, by decide,
    one_lane (l := 95) (by decide) fun _ => ⟨by decide, by rfl⟩⟩
theorem wit_stores : (one 95 paged).g.storing 100 = [95] ∧ (4 : BitVec 3).toNat < 5 ∧ (∀ q, (none : Option MQ) = some q → q.scope.toNat ≠ 4)
    ∧ (∀ l ∈ (one 95 paged).g.storing 100, (one 95 paged).Reaches l ((one 95 paged).laneAddr 2 2 none l) (2 ^ 4) .w (hit 0x20010))
    ∧ (∀ l ∈ (one 95 paged).g.storing 100, (one 95 paged).Reaches l (((one 95 paged).g.rdPair 100 2 + 1 * 2 ^ 4) % 2 ^ 64) (2 ^ 4) .w (hit 0x20010)) := by
  have h : (one 95 paged).g.storing 100 = [95] := by decide
  have ha : ((one 95 paged).g.rdPair 100 2 + 1 * 2 ^ 4) % 2 ^ 64 = 0x20010 := by decide
  refine ⟨h, by decide, (by intro q h; cases h), ?_, ?_⟩
  · rw [h]; intro l hl; cases List.mem_singleton.mp hl; exact ⟨by rfl, .inl rfl, flat_low (by decide)⟩
  · rw [h, ha]; intro l hl; cases List.mem_singleton.mp hl; exact ⟨by rfl, .inl rfl, flat_low (by decide)⟩
theorem wit_scalar_access : paged.Sound ∧ paged.Calm ∧ MemIssues paged ∧ 52 + 4 ≤ 56 ∧ paged.g.rdS 100 5 = 0
    ∧ paged.Reaches 0 (BitVec.ofNat 64 (paged.g.rdPair 100 2) + (paged.g.rdS 100 5).signExtend 64).toNat 16 .rd (hit 0x20000)
    ∧ paged.Reaches 0 (BitVec.ofNat 64 (paged.g.rdPair 100 2) + (paged.g.rdS 100 5).signExtend 64).toNat 16 .w (hit 0x20000) :=
  ⟨(good_of (c := .mem) (rs := []) (by decide)).sound, (good_of (c := .mem) (rs := []) (by decide)).calm, mem_issues (by decide), by decide, by decide,
    ⟨by rfl, .inl rfl, flat_low (by decide)⟩, ⟨by rfl, .inl rfl, flat_low (by decide)⟩⟩
/-- An offset of 17: lane 0 is the lowest, or lane 95 is. -/
def odd (s : State) : State := { s with g := uni 2 17 (regs [(5, 17)] s.g) }
theorem wit_misaligned : (odd paged).Calm ∧ MemIssues (odd paged) ∧ ((odd paged).g.rdMask 100).getLsbD 0 = true
    ∧ (odd paged).g.helpers = 0 ∧ (odd paged).laneAddr 2 2 none 0 % sizeBytes 2 ≠ 0 ∧ (odd paged).laneAddr 2 2 none 0 % 2 ^ 1 ≠ 0 ∧ (odd paged).laneAddr 2 2 none 0 % 4 ≠ 0
    ∧ (odd (one 95 paged)).Calm ∧ ((odd (one 95 paged)).g.rdMask 100).getLsbD 95 = true ∧ (∀ k, k < 95 → ((odd (one 95 paged)).g.rdMask 100).getLsbD k = false)
    ∧ (BitVec.ofNat 64 ((odd paged).g.rdPair 100 2) + ((odd paged).g.rdS 100 5).signExtend 64).toNat % 2 ^ 4 ≠ 0 :=
  ⟨(good_of (c := .mem) (rs := []) (by decide)).calm, mem_issues (by decide), by decide, by decide, by decide, by decide, by decide,
    (good_of (c := .mem) (rs := []) (by decide)).calm, by decide, by decide, by decide⟩
def loading (n : Nat) (k : PendKind) (c : Ctr) : State := demoG fun g => { g with pend := List.replicate n ⟨c, k, 1, [], [], [], [], [], false⟩ }
theorem wit_counters : MemIssues (loading 63 .load .ld) ∧ (loading 63 .load .ld).g.inflight = [] ∧ (loading 63 .load .ld).g.rdMask 100 ≠ 0
    ∧ (loading 63 .load .ld).g.count .ld = 63 ∧ MemIssues (loading 63 .store .st) ∧ (loading 63 .store .st).g.count .st = 63 :=
  ⟨mem_issues (by decide), rfl, by decide, by decide, mem_issues (by decide), by decide⟩
/-- A page-request queue of 16 records; a privileged group. -/
def queued (s : State) : State := { s with mgmt := { s.mgmt with pqSize := 16, pqBase := 0x40000 } }
def priv (s : State) : State := { s with g := { s.g with gsr := 4 } }
theorem wit_pages : (∀ l, ((one 95 paged).g.rdMask 100).getLsbD l = true → (one 95 paged).Reaches l ((one 95 paged).laneAddr 2 2 none l) 1 .rd (hit 0x20010))
    ∧ (queued (one 95 away)).Sound ∧ (queued (one 95 away)).Calm ∧ MemIssues (queued (one 95 away)) ∧ (queued (one 95 away)).g.rdMask 100 = BitVec.twoPow 96 95
    ∧ (queued (one 95 away)).g.helpers = 0 ∧ (queued (one 95 away)).mgmt.pqSize ≠ 0
    ∧ ((queued (one 95 away)).pageReqs.all fun r => !(r.ctx == (queued (one 95 away)).g.ctx && r.va == 0x20000)) = true
    ∧ (queued (one 95 away)).checkAccess (queued (one 95 away)).g 95 ((queued (one 95 away)).laneAddr 2 2 none 95) 1 1 .rd = (.nonres 0x20000, queued (one 95 away))
    ∧ (priv paged).Sound ∧ (priv paged).Calm ∧ MemIssues (priv paged) ∧ (priv paged).g.priv = true ∧ (∀ g ∈ (priv paged).groups, g.pend = [])
    ∧ (priv paged).wrec = [] ∧ isMaskReg 9 = false ∧ paged.g.priv = false ∧ (priv paged).launchPending 0 0x20000 0 = false
    ∧ ({ priv paged with launchQ := [⟨1, 5, 0x20000, hit 0x20000, hit 0x20040⟩] } : State).launchPending 0 0x20000 0 = true :=
  ⟨one_lane (l := 95) (by decide) ⟨by rfl, .inl rfl, flat_low (by decide)⟩, (good_of (c := .mem) (rs := []) (by decide)).sound, (good_of (c := .mem) (rs := []) (by decide)).calm,
    mem_issues (by decide), by decide, by decide, by decide, by decide, by rfl, (good_of (c := .mem) (rs := []) (by decide)).sound,
    (good_of (c := .mem) (rs := []) (by decide)).calm, mem_issues (by decide), by decide, by decide, rfl, by decide, by decide, by decide, by decide⟩
/-- VPREF: the TLB holds the page. A privileged HARVEST of 64 bytes of a 1 GiB leaf with a written page of 64 KiB. -/
def harvesting : State :=
  { demoG (fun g => regs [(2, 0x20000), (5, 64)] { g with root := 0x5000, gsr := 4 }) with
    wrec := [2, 70000], mem := Memory.write (Memory.write (Memory.write [] 0x5000 (leBytes 8 0x6001)) 0x6000 (leBytes 8 0x7001)) 0x7000 (leBytes 8 0x283F) }
theorem wit_harvest : harvesting.Sound ∧ harvesting.Calm ∧ harvesting.Issues .mem [] ∧ harvesting.g.priv = true ∧ harvesting.walk 0x20000 0x5000 walkLevels = some (0x7000, 0x283F, 2 ^ 30)
    ∧ harvesting.g.root = 0x5000 ∧ harvesting.g.rdPair 100 2 = 0x20000 ∧ (harvesting.g.rdS 100 5).toNat = 64 ∧ 0x20000 + 64 ≤ (0x20000 / 2 ^ 30 + 1) * 2 ^ 30 ∧ 2 ∈ harvesting.wrec
    ∧ ptePa 0x283F / 65536 ≤ 2 ∧ 2 < ptePa 0x283F / 65536 + 2 ^ 30 / 65536 :=
  ⟨sound_of (by decide), calm_of (by decide), issues_of (by decide), by decide, by rfl, rfl, by decide, by decide, by decide, by decide, by decide, by decide⟩
theorem wit_prefetch : ∀ l, ((one 95 paged).g.rdMask 100).getLsbD l = true → apertureOf ((one 95 paged).laneAddr 2 2 none l) = some .global →
    ∃ e ∈ (one 95 paged).tlb, e.l2 = false ∧ e.unit = (one 95 paged).g.core ∧ e.hits (one 95 paged).g.ctx ((one 95 paged).laneAddr 2 2 none l) = true :=
  one_lane (l := 95) (by decide) fun _ => ⟨_, List.mem_singleton.mpr rfl, by decide, by decide, by decide⟩
def hostLine : L1Line := ⟨0, 0x20000, 0, 0, false, 7 :: List.replicate 63 0, 1, 0⟩
/-- A page of host non-coherent memory, whose line 0x20000 the core holds with its first byte written. -/
def hostPage : State :=
  { demoG (regs [(2, 0x20000), (5, 64)]) with
    tlb := [⟨false, 0, demo.g.ctx, 0x20000, 65536, BitVec.ofNat 64 (0x20000 + 0x283F + 3 * 128), 0⟩],
    l1 := [hostLine] }
theorem wit_caches : rangeLocs (rangeLines (paged.g.rdPair 100 2) (paged.g.rdS 100 6).toNat) paged = .ok [] paged
    ∧ rangeLocs (rangeLines 0x20000 64) paged = .ok [hit 0x20000] paged
    ∧ rangeLocs (rangeLines 0x20000 64) hostPage = .ok [⟨0x20000, 3, 0, false⟩] hostPage ∧ hostPage.hostDown = false ∧ MemIssues hostPage
    ∧ hostPage.memOk ∧ hostPage.l1Find 0 0x20000 = some hostLine ∧ hostPage.banks = [] ∧ hostPage.hazeNet = [] ∧ hostPage.hazeHomes = []
    ∧ hostPage.g.pend = [] ∧ hostPage.g.sPoison = 0 ∧ hostPage.g.inflight = [] ∧ (7 :: List.replicate 63 0 : List Byte).length = 64
    ∧ hostPage.Flat 0x20000 64 :=
  ⟨by rfl, by rfl, by rfl, by decide, mem_issues (by decide), by unfold State.memOk; decide, by decide, rfl, rfl, rfl, by decide, by decide, by decide, by decide, flat_low (by decide)⟩
theorem wit_fences : MemIssues demo ∧ (demo.g.pend.all fun p => p.todo.isEmpty) = true ∧ demo.zlr = [] ∧ (∀ ks, ¬demo.g.Outstanding ks) ∧ ¬demo.g.VectorsOwed 100
    ∧ (∀ k c, MemIssues (loading 1 k c) ∧ ((loading 1 k c).g.pend.all fun p => p.todo.isEmpty) = true)
    ∧ (loading 1 .load .ld).g.Outstanding loadKinds ∧ ¬(loading 1 .store .st).g.Outstanding loadKinds ∧ (loading 1 .store .st).g.Outstanding storeKinds
    ∧ (∃ s : State, MemIssues s ∧ (s.g.pend.all fun p => p.todo.isEmpty) = true ∧ s.g.VectorsOwed s.clock) ∧ (1 : BitVec 2) ≠ 0 ∧ (4 : BitVec 3) ≠ 0 := by
  have e : demo.g.pend = [] := by decide
  have f : demo.g.inflight = [] := by decide
  refine ⟨mem_issues (by decide), by decide, rfl, ?_, ?_, ?_, ⟨_, List.mem_singleton.mpr rfl, by decide⟩, ?_, ⟨_, List.mem_singleton.mpr rfl, by decide⟩,
    ⟨demoG fun g => { g with pend := [⟨.ld, .load, 1, [.vec 3 1 [7] 0 false 0], [], [], [], [], false⟩] }, mem_issues (by decide), by decide,
      .inl ⟨_, List.mem_singleton.mpr rfl, 3, 1, [7], 0, false, 0, List.mem_singleton.mpr rfl⟩⟩, by decide, by decide⟩
  · rintro ks ⟨p, hp, _⟩; rw [e] at hp; cases hp
  · rintro (⟨p, hp, _⟩ | ⟨x, hx, _⟩)
    · rw [e] at hp; cases hp
    · rw [f] at hx; cases hx
  · intro k c; exact ⟨mem_issues (by cases k <;> cases c <;> decide), by cases k <;> cases c <;> decide⟩
  · rintro ⟨p, hp, hk⟩
    cases List.mem_singleton.mp hp
    exact absurd hk (by decide)
/-- A live region of the context, integers, handle 0x10000. -/
def region0 : HazeRegion := ⟨0, 0x20000, 4096, true, false, 0, 0, 1, true, false, false⟩
def hazed (s : State) : State := { s with hazeRegions := [region0], g := regs [(1, 0x10000)] s.g }
theorem wit_fenceH : (hazed paged).Calm ∧ MemIssues (hazed paged) ∧ (hazed paged).handleRegion (hazed paged).g.ctx ((hazed paged).g.rdS 100 1) false = some region0
    ∧ ((hazed paged).hazeLines.all fun l => !(l.core == (hazed paged).g.core && l.region == region0.idx)) = true ∧ (hazed paged).zlr = [] :=
  ⟨(good_of (c := .mem) (rs := []) (by decide)).calm, mem_issues (by decide), by decide, by decide, by decide⟩
/-- Four lanes that all name 0x20010, and a PLACE of the home. -/
def homeQ : MQ := ⟨2, 0, 0, 4, 0, 0⟩
theorem wit_atom_ready (n k : Nat) (at_ : AtomPlace) (q : Option MQ) (h : (n, k, at_, q) ∈ [(4, 1, AtomPlace.near, none), (4, 2, .near, none), (8, 2, .near, none), (8, 4, .near, none),
    (16, 8, .near, none), (4, 1, .home, some homeQ)]) : (four paged).AtomReady ⟨4, 2, 2, none, q, 0⟩ n k (fun _ => hit 0x20010) at_ := by
  have e : (four paged).g.storing (four paged).clock = [0, 1, 2, 3] := by decide
  have c : ∀ (n : Nat), n ∈ [4, 8, 16] → ∀ l ∈ [0, 1, 2, 3], (four paged).Reaches l ((four paged).laneAddr 2 2 none l) n .w (hit 0x20010) := by
    intro n hn l hl
    simp only [List.mem_cons, List.not_mem_nil, or_false] at hn hl
    rcases hn with rfl | rfl | rfl <;> rcases hl with rfl | rfl | rfl | rfl <;> exact ⟨by rfl, .inl rfl, flat_low (by decide)⟩
  have g : ∀ r, r < 8 → ((four paged).g.v.getD (4 + r) VReg.zero).val.slot?.isSome = true := by decide
  simp only [List.mem_cons, List.not_mem_nil, or_false, Prod.mk.injEq] at h
  rcases h with ⟨rfl, rfl, rfl, rfl⟩ | ⟨rfl, rfl, rfl, rfl⟩ | ⟨rfl, rfl, rfl, rfl⟩ | ⟨rfl, rfl, rfl, rfl⟩ | ⟨rfl, rfl, rfl, rfl⟩ | ⟨rfl, rfl, rfl, rfl⟩ <;>
    exact ⟨sound_of (by decide), calm_of (by decide), issues_of (by decide), by decide, by decide, by decide, fun _ _ => .inr rfl, fun j hj => g j (by omega),
      by rw [e]; exact fun l hl => ⟨c _ (by decide) l hl, by rfl⟩⟩
theorem wit_atomics : (∀ n ∈ [4, 8, 16], paged.Reaches 0 (paged.g.rdPair 100 2) n .w (hit 0x20000)) ∧ 48 + 2 * 4 ≤ 56 ∧ (∀ q, paged.atomPlace (hit 0x20000) (some { homeQ with place := q }) = .near ∨ q = 2)
    ∧ paged.atomPlace (hit 0x20000) none = .near ∧ paged.zlr = [] ∧ (∀ g ∈ paged.others, ∀ p ∈ g.pend, p.todo = []) := by
  have h : paged.g.rdPair 100 2 = 0x20000 := by decide
  refine ⟨?_, by decide, by decide, by decide, rfl, by decide⟩
  rw [h]; intro n hn; simp only [List.mem_cons, List.not_mem_nil, or_false] at hn; rcases hn with rfl | rfl | rfl <;> exact ⟨by rfl, .inl rfl, flat_low (by decide)⟩

/-! ### Locks and haze -/

/-- The bead chain of line 0x20000. -/
def bead (h : Option Nat) (ns : List LockNode) (ab : Bool) : LockEntry := ⟨0x20000, 0, false, 0, h, ns, false, ab⟩
def locked (es : List LockEntry) (ms : List LockMsg) (s : State) : State := { s with locks := es, lockNet := ms }
def waiting (w : Wait) (s : State) : State := { s with g := { s.g with wait := w } }
def ask (try_ : Bool) : LockMsg := .request 1 0 (hit 0x20000) 5 try_

theorem wit_lock_issue : paged.Sound ∧ paged.Calm ∧ MemIssues paged ∧ paged.Locks 2 (hit 0x20000) ∧ lineOf (hit 0x20000).key = 0x20000
    ∧ (demoG (regs [(3, 0xFFF00000)])).Sound ∧ (demoG (regs [(3, 0xFFF00000)])).Calm ∧ MemIssues (demoG (regs [(3, 0xFFF00000)]))
    ∧ apertureOf ((demoG (regs [(3, 0xFFF00000)])).g.rdPair 100 2) = some .stack
    -- a page of host non-coherent memory
    ∧ (∃ l : Loc, 1 < l.ty ∧ apertureOf (hostPage.g.rdPair 100 2) = some .global
      ∧ hostPage.checkPage hostPage.g.core hostPage.g.ctx hostPage.g.root hostPage.g.priv (hostPage.g.rdPair 100 2) .w = (.ok l, hostPage)) :=
  ⟨(good_of (c := .mem) (rs := []) (by decide)).sound, (good_of (c := .mem) (rs := []) (by decide)).calm, mem_issues (by decide), ⟨by decide, by decide, by decide, by rfl, by decide⟩, by decide,
    (good_of (c := .mem) (rs := []) (by decide)).sound, (good_of (c := .mem) (rs := []) (by decide)).calm, mem_issues (by decide), by decide,
    ⟨⟨0x20000, 3, 0, false⟩, by decide, by decide, by rfl⟩⟩
/-- A request meets a free line, an idle entry, an abandoned one, a line held by another, by the group itself. -/
theorem wit_lock_request : (∀ es t, es = [] ∨ es = [bead none [] false] ∨ es = [bead none [] true] ∨ es = [bead (some 2) [] false] ∨ es = [bead (some 1) [] false] →
      (locked es [ask t] demo).Sound ∧ (locked es [ask t] demo).lockNet[0]? = some (.request (locked es [ask t] demo).g.id 0 (hit 0x20000) 5 t)
      ∧ (locked es [ask t] demo).lockBlocked 0 (ask t) = false ∧ (∀ k ∈ (locked es [ask t] demo).l1, k.data = []) ∧ (locked es [ask t] demo).g.pend = [])
    ∧ ((locked [bead none [] true] [ask true] demo).heldBy 1).length < 4 ∧ (locked [] [ask true] demo).lockEntry 0x20000 = none
    ∧ ((locked [] [ask true] demo).locks.filter fun e => e.slice == (hit 0x20000).slice).length < 512
    ∧ (∃ e, (locked [bead (some 1) [] false] [ask true] demo).lockEntry 0x20000 = some e ∧ e.holder = some (locked [bead (some 1) [] false] [ask true] demo).g.id)
    ∧ (locked [bead none [] true] [ask true] demo).lockEntry 0x20000 = some (bead none [] true) ∧ (bead none [] true).idle = true
    ∧ (locked [bead (some 2) [] false] [ask true] demo).lockEntry 0x20000 = some (bead (some 2) [] false) ∧ (bead (some 2) [] false).idle = false
    ∧ (locked [bead (some 2) [] false] [ask true] demo).lockNodes 0 < 192
    ∧ 4 ≤ ((locked ((List.range 4).map fun k => ⟨64 * k, 0, false, 0, some 1, [], false, false⟩) [ask true] demo).heldBy 1).length := by
  refine ⟨?_, by decide, by decide, by decide, ⟨_, rfl, rfl⟩, by decide, by decide, by decide, by decide, by decide, by decide⟩
  rintro es t (rfl | rfl | rfl | rfl | rfl) <;> cases t <;> exact ⟨sound_of (by decide), rfl, by decide, by decide, rfl⟩
theorem wit_lock_link : (locked [bead (some 2) [⟨1, 0, .wait, false⟩] false] [.link 0x20000 1] demo).lockNet[0]? = some (.link 0x20000 1)
    ∧ (locked [bead (some 2) [⟨1, 0, .wait, false⟩] false] [.link 0x20000 1] demo).lockEntry 0x20000 = some (bead (some 2) [⟨1, 0, .wait, false⟩] false) := ⟨rfl, by decide⟩
/-- The holder's LUNLOCK: alone, with an unnamed and with a named successor; LBREAK of another's line. -/
theorem wit_unlock : (∀ ns, ns = [] ∨ ns = [⟨2, 0, .wait, false⟩] ∨ ns = [⟨2, 0, .wait, true⟩] → (locked [bead (some 1) ns false] [] paged).Sound
      ∧ (locked [bead (some 1) ns false] [] paged).Calm ∧ MemIssues (locked [bead (some 1) ns false] [] paged) ∧ (locked [bead (some 1) ns false] [] paged).Locks 2 (hit 0x20000)
      ∧ (locked [bead (some 1) ns false] [] paged).lockEntry 0x20000 = some (bead (some 1) ns false))
    ∧ (∀ e, paged.lockEntry 0x20000 = some e → e.holder ≠ some paged.g.id) ∧ (∀ e, paged.lockEntry 0x20000 = some e → e.holder = none)
    ∧ (priv (locked [bead (some 2) [] false] [] paged)).lockEntry 0x20000 = some (bead (some 2) [] false)
    ∧ (∀ g ∈ (priv (locked [bead (some 2) [] false] [] paged)).groups, g.pend = [])
    ∧ (priv (locked [bead (some 2) [] false] [] paged)).Locks 2 (hit 0x20000) ∧ (priv (locked [bead (some 2) [] false] [] paged)).g.priv = true ∧ paged.g.priv = false := by
  refine ⟨?_, (by intro e h; cases h), (by intro e h; cases h), by decide, by decide, ⟨by decide, by decide, by decide, by rfl, by decide⟩, by decide, by decide⟩
  rintro ns (rfl | rfl | rfl) <;> exact ⟨(good_of (c := .mem) (rs := []) (by decide)).sound, (good_of (c := .mem) (rs := []) (by decide)).calm, mem_issues (by decide),
    ⟨by decide, by decide, by decide, by rfl, by decide⟩, by decide⟩
def stub : LockNode := ⟨2, 0, .stub, false⟩
def released (ns : List LockNode) : State := waiting (.unlock 0x20000 5) (locked [bead (some 1) ns false] [.release 0x20000 1 0 false] demo)
def handed (ns : List LockNode) : State := waiting (.lock 0x20000 5 none) (locked [{ bead none ns false with passing := true }] [.handover 0x20000 0 true []] demo)
theorem wit_lock_release : (∀ ns, ns = [] ∨ ns = [stub] → (released ns).Sound ∧ (released ns).lockNet[0]? = some (.release 0x20000 1 0 false)
      ∧ (released ns).lockBlocked 0 (.release 0x20000 1 0 false) = false ∧ (released ns).lockEntry 0x20000 = some (bead (some 1) ns false) ∧ (released ns).g.pend = [])
    ∧ (handed [stub, ⟨1, 0, .wait, true⟩]).Sound ∧ (∀ k ∈ (handed [stub, ⟨1, 0, .wait, true⟩]).l1, k.data = [])
    ∧ (∀ ns, (handed ns).lockNet[0]? = some (.handover 0x20000 0 true [])) ∧ (handed [stub, ⟨1, 0, .wait, true⟩]).lockBlocked 0 (.handover 0x20000 0 true []) = false
    ∧ (handed [stub]).lockBlocked 0 (.handover 0x20000 0 true []) = false ∧ (handed [stub]).lockEntry 0x20000 = some { bead none [stub] false with passing := true }
    ∧ (handed [stub, ⟨1, 0, .wait, true⟩]).lockEntry 0x20000 = some { bead none ([stub] ++ [⟨1, 0, .wait, true⟩] ++ []) false with passing := true }
    ∧ (∀ x ∈ [stub], x.st = .stub) := by
  refine ⟨?_, sound_of (by decide), by decide, fun _ => rfl, by decide, by decide, by decide, by decide, by decide⟩
  rintro ns (rfl | rfl) <;> exact ⟨sound_of (by decide), rfl, by decide, by decide, rfl⟩
/-- A request and a release behind a request of their core to their home, a release behind a release, a handover behind a term job. -/
theorem wit_lock_blocked : (0 < 1 ∧ (locked [] [ask false, ask true] demo).lockNet[0]? = some (.request 1 0 (hit 0x20000) 5 false)
      ∧ (locked [] [ask false, ask true] demo).lockNet[1]? = some (.request 1 0 (hit 0x20000) 5 true))
    ∧ ((locked [bead (some 2) [] false] [ask false, .release 0x20000 2 0 false] demo).lockNet[1]? = some (.release 0x20000 2 0 false)
      ∧ (locked [bead (some 2) [] false] [ask false, .release 0x20000 2 0 false] demo).lockEntry 0x20000 = some (bead (some 2) [] false)
      ∧ (bead (some 2) [] false).slice = (hit 0x20000).slice)
    ∧ (let s := locked [bead (some 2) [] false, { bead (some 1) [] false with line := 0x20040 }] [.release 0x20000 2 0 false, .release 0x20040 1 0 true] demo
       s.lockNet[0]? = some (.release 0x20000 2 0 false) ∧ s.lockNet[1]? = some (.release 0x20040 1 0 true) ∧ s.lockEntry 0x20000 = some (bead (some 2) [] false)
        ∧ s.lockEntry 0x20040 = some { bead (some 1) [] false with line := 0x20040 })
    ∧ ∃ (s : State) (u : TermUnit), s.lockNet[0]? = some (.handover 0x20000 0 true [(u.grp, u.tag)]) ∧ u ∈ s.termQ := by
  refine ⟨⟨by decide, rfl, rfl⟩, ⟨rfl, by decide, rfl⟩, ⟨rfl, rfl, by decide, by decide⟩, ?_⟩
  let u : TermUnit := ⟨2, 9, 0, 0, 0, 0, false, 1, 0, .commit, 0, 0, []⟩
  exact ⟨{ locked [] [.handover 0x20000 0 true [(u.grp, u.tag)]] demo with termQ := [u] }, u, rfl, List.mem_singleton.mpr rfl⟩
/-- Two groups that wait for each other's lines; the queue off, and with 16 records. -/
def knot (s : State) : State := waiting (.lock 0x20000 5 (some 100)) (locked [bead (some 2) [⟨1, 0, .wait, true⟩] false, ⟨0x20040, 0, false, 0, some 1, [⟨2, 0, .wait, true⟩], false, false⟩] [] s)
theorem wit_deadlock : (knot demo).Sound ∧ (knot demo).g.wait = .lock 0x20000 5 (some 100) ∧ 100 ≤ (knot demo).clock ∧ (knot demo).g.stopped = false ∧ (knot demo).g.pend = []
    ∧ (∃ e, (knot demo).lockEntry 0x20000 = some e ∧ e.holder = some 2) ∧ (2 : Nat) ≠ (knot demo).g.id ∧ (knot demo).awaits 2 = some 0x20040
    ∧ (∃ e, (knot demo).lockEntry 0x20040 = some e ∧ e.holder = some (knot demo).g.id) ∧ (knot demo).mgmt.dlSize = 0
    ∧ (locked [bead (some 2) [⟨1, 0, .wait, true⟩] false] [] demo).awaits 2 = none
    ∧ ((knot { demo with mgmt := { demo.mgmt with dlSize := 16 } }).mgmt.dlTail + 2 ^ 32 - (knot { demo with mgmt := { demo.mgmt with dlSize := 16 } }).mgmt.dlHead) % 2 ^ 32 < 16
    ∧ demo.mgmt.dlBase.toNat + 512 * (demo.mgmt.dlTail % 16) + 512 ≤ demo.hbmEnd :=
  ⟨sound_of (by decide), rfl, by decide, rfl, rfl, ⟨_, rfl, rfl⟩, by decide, by decide, ⟨_, rfl, rfl⟩, rfl, by decide, by decide, by decide⟩

/-- A descriptor of 4,096 bytes of integers in memory. -/
def declaring (size : Nat) : State := { paged with mem := Memory.write [] 0x20000 (leBytes 8 0x30000 ++ leBytes 4 size ++ leBytes 4 1 ++ leBytes 4 100) }
set_option maxRecDepth 20000 in
theorem wit_hdecl : (declaring 4096).Sound ∧ (declaring 4096).Calm ∧ MemIssues (declaring 4096)
    ∧ (declaring 4096).checkAccess (declaring 4096).g 0 ((declaring 4096).g.rdPair 100 2) 64 64 .rd = (.ok (hit 0x20000), declaring 4096) ∧ (declaring 4096).Flat 0x20000 64
    ∧ (HazeDesc.ofNat ((declaring 4096).memRead 0x20000 64)).ok = true ∧ (HazeDesc.ofNat ((declaring 4095).memRead 0x20000 64)).ok = false := by
  have h : (declaring 4096).g.rdPair 100 2 = 0x20000 := by decide
  refine ⟨sound_of (by decide), calm_of (by decide), mem_issues (by decide), ?_, flat_low (by decide), by rfl, by rfl⟩
  rw [h]; rfl
/-- The table full, an overlapping region. -/
def fullTable (s : State) : State := { s with hazeRegions := (List.range 64).map fun i => ⟨i, 0x100000 * (i + 1), 4096, true, false, 0, 0, 1, true, false, false⟩ }
theorem wit_hdecl_full : (∀ j, j < 64 → ∃ r, (fullTable demo).hazeRegion j = some r ∧ r.live = true) ∧ demo.hazeRegions = []
    ∧ ∃ r ∈ [region0], r.live = true ∧ r.ctx = demo.g.ctx ∧ 0x20000 < r.base + r.size ∧ r.base < 0x20000 + 4096 := by
  refine ⟨?_, rfl, region0, by decide, by decide, by decide, by decide, by decide⟩
  intro j hj
  have : ((fullTable demo).hazeRegion j).any (·.live) = true := by
    revert j; decide
  cases h : (fullTable demo).hazeRegion j with
  | none => rw [h] at this; cases this
  | some r => exact ⟨r, rfl, by rw [h] at this; exact this⟩
def line0 (share : Word) : HazeLine := ⟨0, 0x20000, 0, List.replicate 16 1, 0, share⟩
/-- The place of a haze line in its core's L1. -/
def hazePlace : L1Line := ⟨0, 0x20000, 0, 0, true, [], 0, 0⟩
def home0 (l : List (Nat × Word)) (free : Word) : HazeHome := ⟨0x20000, 0, 0, l, free, none⟩
/-- The region's page allows haze (bit 10), one line stands at core 0, its home entry says so. -/
def hazy (ls : List HazeLine) (hs : List HazeHome) (ms : List HazeMsg) : State :=
  let s := hazed (one 95 paged)
  { s with hazeLines := ls, l1 := if ls.isEmpty then [] else [hazePlace], hazeHomes := hs, hazeNet := ms, tlb := s.tlb.map fun e => { e with pte := e.pte ||| 1024 } }
theorem quiet_of {s : State} (h : ((s.banks.isEmpty && s.mxQ.isEmpty && s.mxOwns.isEmpty && s.g.mxRuns.isEmpty && s.l1.all (fun k => k.data.isEmpty)
    && s.g.mask &&& ~~~s.g.live == 0) && (s.g.pend.isEmpty && s.g.inflight.isEmpty && s.g.sPoison == 0 && s.g.v.all (fun x => x.poison == 0)
    && s.memPoison.isEmpty)) = true) : s.Quiet := by
  simp only [Bool.and_eq_true, List.isEmpty_iff, List.all_eq_true, beq_iff_eq] at h
  obtain ⟨⟨⟨⟨⟨⟨a1, a2⟩, a3⟩, a4⟩, a5⟩, a6⟩, ⟨⟨⟨⟨b1, b2⟩, b3⟩, b4⟩, b5⟩⟩ := h
  exact ⟨a1, a2, a3, a4, a5, a6, b1, b2, b3, clear_of (by simpa using b4), b5⟩
theorem wit_haze_regions : (∀ hs, hs = [] ∨ hs = [home0 [(0, 5)] 0] → (hazy [] hs []).Sound ∧ (hazy [] hs []).Quiet ∧ MemIssues (hazy [] hs [])
      ∧ (hazy [] hs []).handleRegion (hazy [] hs []).g.ctx ((hazy [] hs []).g.rdS 100 1) false = some region0)
    ∧ paged.handleRegion paged.g.ctx (paged.g.rdS 100 1) false = none ∧ paged.handleRegion paged.g.ctx (paged.g.rdS 100 1) true = none := by
  refine ⟨?_, by decide, by decide⟩
  rintro hs (rfl | rfl) <;> exact ⟨sound_of (by decide), quiet_of (by decide), mem_issues (by decide), by decide⟩
/-- HADD without a line, within the share, past it; HLD without holders and with one; an address of no region. -/
theorem wit_hadd : (∀ ls, ls = [] ∨ ls = [line0 1005] ∨ ls = [line0 1] → (hazy ls [home0 [(0, 1)] 0] []).Sound ∧ (hazy ls [home0 [(0, 1)] 0] []).Quiet
      ∧ MemIssues (hazy ls [home0 [(0, 1)] 0] []) ∧ (hazy ls [home0 [(0, 1)] 0] []).g.rdMask 100 = BitVec.twoPow 96 95 ∧ (hazy ls [home0 [(0, 1)] 0] []).g.helpers = 0
      ∧ (∀ p, p = .rd ∨ p = .w → (hazy ls [home0 [(0, 1)] 0] []).ReachesHaze true 95 ((hazy ls [home0 [(0, 1)] 0] []).laneAddr 2 2 none 95) p (hit 0x20010) region0))
    ∧ (hazy [] [] []).hazeLine? 0 0x20000 = none ∧ (hazy [line0 1] [] []).hazeLine? 0 (lineOf (hit 0x20010).key) = some (line0 1)
    ∧ ({ line0 1095 with parts := (line0 1095).parts.set 4 (partialSum true 1 1094) }.tracker true ≤ partMag true 1095 false)
    ∧ (partMag true 1 false < { line0 1 with parts := (line0 1).parts.set 4 (partialSum true 1 1094) }.tracker true)
    ∧ ((home0 [(0, 1)] 0).holders.map fun k => shareScaled true k.2).sum ≤ 2 ^ (127 + 85)
    ∧ (one 95 paged).liveRegionAt (one 95 paged).g.ctx ((one 95 paged).laneAddr 2 2 none 95) = none
    ∧ ((one 95 paged).hazeAllowed ((one 95 paged).laneAddr 2 2 none 95)).2 = one 95 paged := by
  refine ⟨?_, by decide, by decide, by decide, by decide, by decide, by decide, by rfl⟩
  rintro ls (rfl | rfl | rfl) <;>
    (refine ⟨sound_of (by decide), quiet_of (by decide), mem_issues (by decide), by decide, by decide, ?_⟩
     rintro p (rfl | rfl) <;> exact ⟨⟨by rfl, .inl rfl, flat_low (by decide)⟩, by decide, by rfl, by decide, by decide, by decide⟩)
/-- Two holders with shares 9 and 1 under a tolerance between them, and under one below both. -/
def tolerant (t : Nat) : MQ := ⟨0, BitVec.ofNat 7 t, 0, 4, 0, 0⟩
def held2 : State :=
  { hazy [{ line0 9 with core := 2 }, { line0 1 with core := 1 }] [home0 [(2, 9), (1, 1)] 0] [] with l1 := [⟨0, 0x20000, 0, 0, false, [], 0, 0⟩] }
theorem wit_tolerance : held2.Sound ∧ held2.Quiet ∧ MemIssues held2 ∧ held2.g.rdMask 100 = BitVec.twoPow 96 95 ∧ (held2.g.v.getD 4 VReg.zero).val.slot?.isSome = true
    ∧ held2.ReachesHaze true 95 (held2.laneAddr 2 2 none 95) .rd (hit 0x20010) region0 ∧ held2.Flat 0x20000 64 ∧ lineOf (hit 0x20010).key = 0x20000
    ∧ held2.hazeHome? 0x20000 = some (home0 [(2, 9), (1, 1)] 0) ∧ held2.hazeLine? 2 0x20000 = some { line0 9 with core := 2 } ∧ held2.hazeLine? 1 0x20000 = some { line0 1 with core := 1 }
    ∧ (line0 9).parts.length = 16 ∧ (line0 9).pz = 0 ∧ (line0 9).region = region0.idx ∧ (held2.l1Find 0 0x20000).isSome = true ∧ (hit 0x20010).key % 4 = 0
    ∧ (1 : Word).toNat * 2 ^ 149 ≤ 2 ^ ((tolerant 64).tol.toNat + 85) ∧ 2 ^ ((tolerant 64).tol.toNat + 85) < ((9 : Word).toNat + (1 : Word).toNat) * 2 ^ 149
    ∧ 2 ^ ((tolerant 0).tol.toNat + 85) < (1 : Word).toNat * 2 ^ 149 ∧ (tolerant 64).tol.toNat ≠ 127 ∧ (1 : Word).toNat < (9 : Word).toNat :=
  ⟨sound_of (by decide), quiet_of (by decide), mem_issues (by decide), by decide, by decide, ⟨⟨by rfl, .inl rfl, flat_low (by decide)⟩, by decide, by rfl, by decide, by decide, by decide⟩,
    flat_low (by decide), by decide, by decide, by decide, by decide, by decide, rfl, rfl, by decide, by decide, by decide, by decide, by decide, by decide, by decide⟩
/-- Messages: each arrives alone and finds what it needs. -/
theorem wit_haze_messages : (hazy [] [] [.shareRequest 0 0x20000 0 0]).hazeHome? 0x20000 = none
    ∧ (hazy [] [home0 [] 5] []).hazeHome? 0x20000 = some (home0 [] 5) ∧ 8 ≤ (home0 (List.replicate 8 (0, 1)) 0).holders.length
    ∧ (hazy [] [home0 [(3, 9)] 0] []).hazeHome? 0x20000 = some (home0 [(3, 9)] 0) ∧ (hazy [] [] []).hazeI32 0 = true
    ∧ (hazy [line0 9] [] []).hazeLine? 0 0x20000 = some (line0 9) ∧ (line0 9).tracker true ≤ partMag true 5 false ∧ partMag true 0 false < (line0 9).tracker true
    ∧ ((hazy [] [] []).hazeHomes.filter fun h => h.slice == 0).length < 2048 ∧ (hazy [] [] []).banks = []
    ∧ ((hazy [] [] []).l1.filter fun k => k.core == 0 && l1Set k.line == l1Set 0x20000).length < (hazy [] [] []).waysOf 1 0 (l1Set 0x20000) 12
    ∧ (home0 [(3, 9)] 0).recalled = none ∧ (line0 9).core = 0 ∧ (line0 9).line = 0x20000 ∧ (line0 9).pz = 0 ∧ (line0 9).parts.length = 16
    ∧ (home0 [(0, 9)] 0).holders = [(0, 9)] ∧ (9 : Word) ≠ 0 ∧ (∃ k ∈ (hazy [line0 9] [] []).l1, k.haze = true ∧ k.core = 0 ∧ k.line = 0x20000)
    ∧ (hazy [] [] []).memOk ∧ (hazy [] [] []).memPoison = [] ∧ ((hazy [] [] []).hazeLines.filter fun k => k.core == 0).length < 6144
    ∧ (hazy [line0 9] [home0 [(0, 9)] 0] []).recalling 0x20000 = false ∧ (hazy [line0 9] [] []).Flat 0x20000 (4 * 16)
    ∧ (∃ r, ({ hazy [] [] [] with hazeRegions := [{ region0 with limit := 7 }] } : State).hazeRegion 0 = some r ∧ r.limit.toNat % 2 ^ 31 ≠ 0) :=
  ⟨by decide, by decide, by decide, by decide, by decide, by decide, by decide, by decide, by decide, rfl, by decide, by decide, rfl, rfl, by decide, by decide, by decide, by decide,
    ⟨hazePlace, by decide, rfl, rfl, rfl⟩, by unfold State.memOk; decide, rfl, by decide, by decide, flat_low (by decide), ⟨_, rfl, by decide⟩⟩

/-! ### Engines, matrices, terms, work -/

/-- demo's workgroup with 4,096 bytes in every scratch buffer; the address 0xFFE0000000000000 in scalars 2 and 3, %sw 8. -/
def scratched : State :=
  { demoG (fun g => regs [(3, 0xFFE00000)] { g with sw := 8, mshape := 0 }) with wgs := [{ loadedWg 1 with sizeW := 4096, sizeA := 4096, sizeC := 8192 }] }
def wgS : Wg := { loadedWg 1 with sizeW := 4096, sizeA := 4096, sizeC := 8192 }
theorem pair_scratched : scratched.g.rdPair 100 2 = 0xFFE0000000000000 := by decide
theorem wit_sync : scratched.Sound ∧ scratched.Calm ∧ MemIssues scratched ∧ scratched.g.rdPair 100 2 % 8 = 0 ∧ apertureOf (scratched.g.rdPair 100 2) = some .scratch
    ∧ (∀ p, p = .w ∨ p = .rd → scratched.checkAccess scratched.g 0 (scratched.g.rdPair 100 2) 8 8 p = (.ok ⟨scratchKey 0 0, tyScratch, 0, false⟩, scratched))
    -- SWWAIT with the word's generation 0, and with another; a total past the threshold
    ∧ scratched.memRead (scratchKey 0 0) 8 / 2 ^ 48 = (scratched.g.rdS 100 4).toNat % 65536 ∧ scratched.memRead (scratchKey 0 0) 8 / 2 ^ 48 ≠ 1 % 65536
    ∧ (Memory.write [] 0 (leBytes 8 5)).length = 1 := by
  refine ⟨(good_of (c := .mem) (rs := []) (by decide)).sound, (good_of (c := .mem) (rs := []) (by decide)).calm, mem_issues (by decide), by decide, by decide, ?_,
    by decide, by decide, by decide⟩
  rw [pair_scratched]; rintro p (rfl | rfl) <;> rfl
theorem wit_sync_traps : (demoG (regs [(2, 4), (3, 0xFFE00000)])).g.rdPair 100 2 % 8 ≠ 0 ∧ (demoG (regs [(2, 4), (3, 0xFFE00000)])).Calm
    ∧ MemIssues (demoG (regs [(2, 4), (3, 0xFFE00000)])) ∧ paged.g.rdPair 100 2 % 8 = 0 ∧ apertureOf (paged.g.rdPair 100 2) = some .global :=
  ⟨by decide, (good_of (c := .mem) (rs := []) (by decide)).calm, mem_issues (by decide), by decide, by decide⟩
theorem wit_commands : scratched.g.sw.toNat % 8 = 0 ∧ ((scratched.wg? scratched.g.wg).bind fun w => w.scratch scratched.g.sw.toNat 8) = some (scratchKey 0 8)
    ∧ (∀ op ∈ [0, 3], checkCommand (scratched.latched op 2 1 (scratchKey 0 8) ⟨2, 2, 4, 0⟩) scratched = .ok () scratched)
    ∧ scratched.engQ = [] ∧ (demoG fun g => { g with sw := 4 }).g.sw.toNat % 8 ≠ 0 ∧ ((demo.wg? demo.g.wg).bind fun w => w.scratch demo.g.sw.toNat 8) = none
    ∧ MemIssues (loading 7 .engine .en) ∧ (loading 7 .engine .en).g.count .en = 7 := by
  refine ⟨by decide, by decide, ?_, rfl, by decide, by decide, mem_issues (by decide), by decide⟩
  intro op h; simp only [List.mem_cons, List.not_mem_nil, or_false] at h; rcases h with rfl | rfl <;> rfl
/-- An accepted copy of 4 bytes from W offset 16 to W offset 32. -/
def copy0 : EngCmd := ⟨0, 1, 0, 0, 0, 0, false, 0, 0xFFE0000000000010, 0xFFE0000000000020, 4, 0, 0, 0, scratchKey 0 8, [], 1, true⟩
def copying : State := { scratched with engQ := [copy0] }
theorem wit_arrival : copying.Sound ∧ copying.Quiet ∧ (∀ i, i < copy0.b0 → apertureOf (copy0.src + i) = some .scratch ∧ apertureOf (copy0.dst + i) = some .scratch
      ∧ copying.steer copy0.as 0 (copy0.src + i) 1 .rd = (.ok ⟨scratchKey 0 16 + i, tyScratch, copy0.core, false⟩, copying)
      ∧ copying.steer copy0.as 0 (copy0.dst + i) 1 .w = (.ok ⟨scratchKey 0 32 + i, tyScratch, copy0.core, false⟩, copying))
    ∧ scratchKey 0 16 + 4 ≤ scratchKey 0 32 ∧ copying.termsBefore copy0 = false ∧ copying.place copy0.sync = scratchKey 0 8 ∧ copy0.src + copy0.b0 ≤ 2 ^ 64 ∧ copy0.dst + copy0.b0 ≤ 2 ^ 64 ∧ scratchKey 0 8 + 8 ≤ scratchKey 0 16 := by
  refine ⟨sound_of (by decide), quiet_of (by decide), ?_, by decide, by decide, by decide, by decide, by decide, by decide⟩
  intro i h
  have : i = 0 ∨ i = 1 ∨ i = 2 ∨ i = 3 := by simp only [copy0] at h; omega
  rcases this with rfl | rfl | rfl | rfl <;> exact ⟨by decide, by decide, by rfl, by rfl⟩

/-- MMAR with row pointer 0 and lane 0 alone; MMAT in INT8 with an I32 accumulator; MZERO of 64 bytes; MQUANT to BF16. -/
def int8 : State := { scratched with g := regs [(6, 64)] { scratched.g with fmt := BitVec.ofNat 32 (6 * 16 + 6 * 256 + 1 * 4096) } }
theorem wit_matrix_issue : (one 0 scratched).Sound ∧ (one 0 scratched).Calm ∧ MemIssues (one 0 scratched) ∧ (one 0 scratched).g.rdMask 100 ≠ 0
    ∧ (one 0 scratched).wg? (one 0 scratched).g.wg = some wgS ∧ (one 0 scratched).g.fmt.toNat / 16 % 4096 = 0 ∧ (one 0 scratched).g.storing 100 = [0]
    ∧ wgS.row 0 0 = some (scratchKey 0 0x100000) ∧ (one 0 scratched).g.gidx < 16 ∧ (∀ h ∈ (one 0 scratched).others, h.wg = (one 0 scratched).g.wg → h.wait = .ended)
    ∧ (∃ h ∈ (second id).others, h.wg = (second id).g.wg ∧ h.gidx / 4 = (second id).g.gidx / 4 ∧ h.wait = .ready) :=
  ⟨(good_of (c := .mem) (rs := []) (by decide)).sound, (good_of (c := .mem) (rs := []) (by decide)).calm, mem_issues (by decide), by decide, by decide, by decide, by decide,
    by decide, by decide, by decide, _, List.mem_singleton.mpr rfl, by decide, by decide, by decide⟩
theorem wit_mmat : int8.Sound ∧ int8.Calm ∧ MemIssues int8 ∧ int8.g.rdMask 100 ≠ 0 ∧ int8.wg? int8.g.wg = some wgS ∧ (mxClass int8.g.fmt).isSome = true
    ∧ (int8.g.rdS 100 4).toNat = 0 ∧ wgS.member + 2 ^ (int8.g.mcloud.toNat % 4) * (1 + int8.g.mcloud.toNat / 4 % 2) ≤ wgS.members
    ∧ (∃ kb, wgS.range 0 0 (operandBytes (bfOf int8.g.fmt) (32 / 32 * 32)) = some kb) ∧ (∃ ka, wgS.range 1 0 (operandBytes (afOf int8.g.fmt) (32 * (32 / 32))) = some ka)
    ∧ (∃ kc, wgS.range 2 0 (32 * 32 * 4) = some kc) ∧ mxClass (demoG fun g => { g with fmt := 0xFFF0 }).g.fmt = none ∧ MemIssues (demoG fun g => { g with fmt := 0xFFF0 })
    ∧ (int8.g.rdS 100 6).toNat % 64 = 0 ∧ wgS.range 2 0 64 = some (scratchKey 0 0x100000) ∧ (regs [(7, 8)] int8.g).rawS 7 = 8
    ∧ (∃ a, wgS.range 1 0 (operandBytes 0 (32 * (32 / 32))) = some a) :=
  ⟨(good_of (c := .mem) (rs := []) (by decide)).sound, (good_of (c := .mem) (rs := []) (by decide)).calm, mem_issues (by decide), by decide, by decide, by decide, by decide,
    by decide, ⟨_, rfl⟩, ⟨_, rfl⟩, ⟨_, rfl⟩, by decide, mem_issues (by decide), by decide, by decide, by decide, ⟨_, rfl⟩⟩
/-- The operation a core's unit holds. -/
def held (k : MxKind) (owns : List (Nat × Nat)) (tiles : List MxTile) (rows : List MxRow) (fmt : Word) : MxOp :=
  ⟨0, 1, 9, k, fmt, 32, 32, 32, 32, scratchKey 0 0, tiles, 0, rows, List.replicate 32 (List.replicate 16 (0, false)), owns, [], [(1, 9)], 0, 0⟩
def atUnit (o : MxOp) : State := { demoG (fun g => { g with pend := [⟨.mx, .matrix, 9, [], [], [], [], [], true⟩] }) with mxQ := [o], mxOwns := [⟨1, 9, 0, o.owns, [], [], false, false⟩] }
theorem wit_matrix_results : (∀ o, o ∈ [held .mzero [(scratchKey 0 0x100000, 64)] [] [] 0, held (.mmat true) [(scratchKey 0 0x100000, 4096)] [⟨scratchKey 0 0x80000, scratchKey 0 0x100000, 0⟩] [] 0x1660,
        held .mmar [(scratchKey 0 0x100000, 128)] [] [⟨1, 0, scratchKey 0 0x100000, List.replicate 16 (0, false)⟩] 0,
        held .mquant [(scratchKey 0 0x80000, 2048)] [⟨scratchKey 0 0x80000, scratchKey 0 0x100000, 0⟩] [] 0] → (atUnit o).AtMatrix o 9)
    ∧ afOf 0x1660 = 6 ∧ bfOf 0x1660 = 6 ∧ accOf 0x1660 = 1 ∧ accOf 0 = 0 ∧ 2 ^ 52 ≤ scratchKey 0 0 ∧ 2 ^ 52 ≤ scratchKey 0 0x80000 ∧ 2 ^ 52 ≤ scratchKey 0 0x100000 := by
  refine ⟨?_, by decide, by decide, by decide, by decide, by decide, by decide, by decide⟩
  intro o h; simp only [List.mem_cons, List.not_mem_nil, or_false] at h
  rcases h with rfl | rfl | rfl | rfl <;> exact ⟨by unfold State.memOk; decide, rfl, rfl, rfl, rfl, rfl, rfl, ⟨_, rfl, rfl, rfl, rfl, rfl⟩, ⟨_, rfl, rfl, rfl, rfl⟩, by decide⟩

/-- Lane 95 with a slot of 8,192 bytes and a header: trail at 0x1500, choice points at 0x1600 (n bytes of them), heap at 0x30000; register
pairs 4, 6 and 8; a cell at 0x20000 that holds an unbound variable. -/
def term (n : Nat) : State :=
  { one 95 paged with
    grids := [{ loadedGrid 1 with pkt := { (loadedGrid 1).pkt with stride := 0x2000 } }],
    mem := Memory.write (Memory.write (Memory.write [] 0x20000 (leBytes 8 0x20001)) (0x100000 + 95 * 0x2000 + 0x480)
      (leBytes 4 0x1500 ++ leBytes 4 0x1500 ++ leBytes 4 0x1600 ++ leBytes 4 0x1600 ++ leBytes 4 (0x1600 + n) ++ leBytes 4 0x1A00 ++ leBytes 4 0x1600 ++ leBytes 4 0
        ++ leBytes 8 0x30000 ++ leBytes 8 0x30000 ++ leBytes 8 0x30800 ++ leBytes 8 0x30000 ++ leBytes 4 0x1A00 ++ leBytes 4 0x2000))
      (0x100000 + 95 * 0x2000 + 0x1600) (leBytes 8 0x10040 ++ leBytes 4 0x1500 ++ leBytes 4 0x1600) }
theorem term_ready (n : Nat) (hn : n = 0 ∨ n = 32) : (term n).TermReady 95 := by
  have e : ∀ r, (term r).g = (one 95 paged).g := fun _ => rfl
  rcases hn with rfl | rfl <;>
    exact ⟨sound_of (by decide), calm_of (by decide), issues_of (by decide), by decide, by decide, by decide, by decide, rfl, by decide, by decide, by decide⟩
/-- Pairs 4 and 8 hold the constants 42 and 50, pair 6 a reference to the variable. -/
def terms (s : State) : State :=
  { s with g := lanesIn 11 7 (fun _ => 0) (lanesIn 9 5 (fun _ => 0) (lanesIn 8 4 (fun _ => 50) (lanesIn 7 3 (fun _ => 0) (lanesIn 6 2 (fun _ => 0x20001)
    (lanesIn 5 1 (fun _ => 0) (lanesIn 4 0 (fun _ => 42) s.g)))))) }
theorem terms_ready (n : Nat) (hn : n = 0 ∨ n = 32) : (terms (term n)).TermReady 95 := by
  rcases hn with rfl | rfl <;>
    exact ⟨sound_of (by decide), calm_of (by decide), issues_of (by decide), by decide, by decide, by decide, by decide, rfl, by decide, by decide, by decide⟩
theorem wit_term_units : (terms (term 0)).laneWords 4 2 95 % 8 = 2 ∧ (terms (term 0)).laneWords 8 2 95 % 8 = 2 ∧ (terms (term 0)).laneWords 4 2 95 ≠ (terms (term 0)).laneWords 8 2 95
    ∧ (terms (term 0)).laneWords 6 2 95 % 8 = 1 ∧ (terms (term 0)).laneWords 6 2 95 / 8 * 8 = 0x20000 ∧ (terms (term 0)).Variable 95 0x20000 (hit 0x20000)
    ∧ (∀ j, j < 2 → ((terms (term 0)).g.v.getD (10 + j) VReg.zero).val.slot?.isSome = true) :=
  ⟨by decide, by decide, by decide, by decide, by decide,
    ⟨by decide, by decide, by decide, by decide, by decide, by decide, by rintro p (rfl | rfl) <;> rfl⟩, by decide⟩
theorem wit_term_headers : ((terms (term 0)).termHeader 95).fDepth = 0 ∧ ((terms (term 0)).termHeader 95).trTop + 8 ≤ ((terms (term 0)).termHeader 95).trLim
    ∧ ((terms (term 0)).termHeader 95).cpTop + choiceSize 255 ≤ ((terms (term 0)).termHeader 95).cpLim
    ∧ ((terms (term 0)).termHeader 95).trTop = ((terms (term 0)).termHeader 95).trBase ∧ ((terms (term 0)).termHeader 95).cpTop = ((terms (term 0)).termHeader 95).cpBase
    ∧ ((terms (term 32)).termHeader 95).cpTop = ((terms (term 32)).termHeader 95).cpBase + 32
    ∧ (terms (term 32)).slot 95 (((terms (term 32)).termHeader 95).cpBase + 27) 1 = 0 ∧ choiceSize 0 = 32
    ∧ ((terms (term 32)).termHeader 95).trTop ≤ (terms (term 32)).slot 95 (((terms (term 32)).termHeader 95).cpBase + 8) 4 := by decide
/-- Registers 0 to 16 are general; v20 holds the number of alternatives, p1 the candidate lane 7. -/
def forking (n : Nat) (p : Mask) : State :=
  { term 0 with g := uni 20 (BitVec.ofNat 32 n) ((List.range 17).foldl (fun h k => lanesIn k k (fun _ => 0) h) { (term 0).g with p := (term 0).g.p.set 1 p }) }
theorem wit_fork : (∀ r, r < 16 ∨ r = 16 → ((forking 2 128).g.v.getD r VReg.zero).val.slot?.isSome = true) ∧ (forking 2 128).g.reconDepth = 0
    ∧ (forking 2 128).g.rdP 100 1 = BitVec.twoPow 96 7 ∧ ((forking 2 128).g.rdV 100 20).lane 95 = 2 ∧ (forking 2 128).g.live.getLsbD 7 = true
    ∧ ((forking 1 0).g.rdP 100 1 = 0 ∧ ((forking 1 0).g.rdV 100 20).lane 95 = 1) ∧ ((forking 0 0).g.rdV 100 20).lane 95 = 0 ∧ (terms (term 0)).termQ = [] := by
  refine ⟨?_, by decide, by decide, by decide, by decide, ⟨by decide, by decide⟩, by decide, rfl⟩
  have h : ∀ r, r < 17 → ((forking 2 128).g.v.getD r VReg.zero).val.slot?.isSome = true := by decide
  exact fun r hr => h r (by omega)
theorem wit_fork_ready : (forking 2 128).TermReady 95 ∧ (forking 0 0).TermReady 95 := by
  refine ⟨⟨sound_of (by decide), calm_of (by decide), issues_of (by decide), by decide, by decide, by decide, by decide, rfl, by decide, by decide, by decide⟩,
    sound_of (by decide), calm_of (by decide), issues_of (by decide), by decide, by decide, by decide, by decide, rfl, by decide, by decide, by decide⟩
theorem wit_ttag : paged.g.RoomPair 4 ∧ (paged.g.opd 100 4 0).pz &&& paged.g.rdMask 100 = 0 ∧ (∀ rs, paged.Issues .vec rs) ∧ demo.stride demo.g < 0x1500 := by
  refine ⟨⟨by unfold Group.Room; decide, by unfold Group.Room; decide, .inl (by decide)⟩, by decide, fun _ => issues_of (by decide), by decide⟩

/-- A grid of two workgroups of 96 lanes in one group, or of one cloud of two members; its packet lies at 0x20000. -/
def packet0 (members : Nat) : Packet :=
  { Packet.zero with entry := 0x10000, seq := 5, x := 2, y := 1, z := 1, shape := 96 + 2048 * 1 + 65536 * members + 2 ^ 22 * 8, stack := 0x100000, stride := 0x1000, root := 0x5000,
                     compl := 0x20000 }
def fresh (k : Grid) : State := { State.reset with grids := [k], nextId := 9, clock := 100 }
theorem wit_empty (k : Grid) : (fresh k).Empty := ⟨rfl, rfl, rfl, rfl, rfl, rfl, rfl, rfl, rfl, rfl, rfl, rfl, rfl, rfl, rfl⟩
theorem wit_starts : (∀ m, m = 1 ∨ m = 2 → (packet0 m).memberCount = m ∧ (packet0 m).curve < 4 ∧ m ≤ (packet0 m).x ∧ (packet0 m).groupCount = 1 ∧ (packet0 m).laneCount = 96
    ∧ (packet0 m).general = 8) := by
  rintro m (rfl | rfl) <;> decide
/-- Three levels of tables at 0x5000 that map the first GiB to itself. -/
def tables (s : State) : State :=
  { s with mem := Memory.write (Memory.write (Memory.write s.mem 0x5000 (leBytes 8 0x6001)) 0x6000 (leBytes 8 0x7001)) 0x7000 (leBytes 8 0x283F) }
def grid0 (m started : Nat) : Grid := { newGrid 7 0x20000 255 0 (packet0 m) [] none with started := started, cursor := started }
theorem wit_grid_complete : (tables (fresh (grid0 1 2))).gridOver (grid0 1 2) = true ∧ (fresh (grid0 1 1)).gridOver (grid0 1 1) = false
    ∧ (tables (fresh (grid0 1 2))).grid? 7 = some (grid0 1 2) ∧ (grid0 1 2).pkt.seq < 2 ^ 32 ∧ (tables (fresh (grid0 1 2))).mgmt.eqSize = 0 ∧ (tables (fresh (grid0 1 2))).memOk
    ∧ (∃ l, (tables (fresh (grid0 1 2))).distLoc (grid0 1 2).pkt.ctx (grid0 1 2).pkt.tables (grid0 1 2).pkt.compl .w = some l ∧ l.ty = 0 ∧ (tables (fresh (grid0 1 2))).Flat l.key 16)
    ∧ (grid0 1 2).pkt.compl % 65536 ≤ 65520 ∧ (tables (fresh (grid0 1 2))).banks = [] :=
  ⟨by decide, by decide, by decide, by decide, by decide, by unfold State.memOk; decide, ⟨_, rfl, by decide, flat_low (by decide)⟩, by decide, rfl⟩
/-- A record whose last eight bytes lie on the next page. -/
def grid1 : Grid := { grid0 1 2 with pkt := { packet0 1 with compl := 0x2FFF8 } }
theorem wit_record_split : (tables (fresh grid1)).gridOver grid1 = true ∧ (tables (fresh grid1)).grid? 7 = some grid1 ∧ (tables (fresh grid1)).memOk
    ∧ 65536 - grid1.pkt.compl % 65536 = 8
    ∧ ∃ l l', (tables (fresh grid1)).distLoc grid1.pkt.ctx grid1.pkt.tables grid1.pkt.compl .w = some l ∧ l.ty = 0
      ∧ (tables (fresh grid1)).distLoc grid1.pkt.ctx grid1.pkt.tables (grid1.pkt.compl + 8) .w = some l' ∧ l'.ty = 0
      ∧ overlaps ((tables (fresh grid1)).place l.key) 8 ((tables (fresh grid1)).place l'.key) (16 - 8) = false :=
  ⟨by decide, by decide, by unfold State.memOk; decide, by decide, _, _, rfl, by decide, rfl, by decide, by decide⟩
/-- A LAUNCH of a packet at 0x20000 by a privileged group, well formed or (members 0) not. -/
def packetBytes (m : Nat) : List Byte :=
  leBytes 8 0x10000 ++ leBytes 8 0 ++ leBytes 4 5 ++ leBytes 4 0 ++ leBytes 4 2 ++ leBytes 4 1 ++ leBytes 4 1 ++ leBytes 4 (packet0 m).shape
    ++ List.replicate 16 0 ++ leBytes 8 0x5000 ++ leBytes 8 0x100000 ++ leBytes 4 0x1000 ++ List.replicate 36 0 ++ leBytes 8 0x20000 ++ leBytes 8 0
def launching (m : Nat) (qs : List LaunchReq) : State := priv { paged with mem := Memory.write [] 0x20000 (packetBytes m), launchQ := qs }
theorem wit_launch : (launching 1 []).Sound ∧ (launching 1 []).Calm ∧ MemIssues (launching 1 []) ∧ (launching 1 []).g.rdPair 100 2 = 0x20000
    ∧ (launching 1 []).checkAccess (launching 1 []).g 0 0x20000 128 64 .rd = (.ok (hit 0x20000), launching 1 [])
    ∧ apertureOf 0x20000 = some .global ∧ (launching 1 []).checkGlobal (launching 1 []).g.core (launching 1 []).g.ctx (launching 1 []).g.root (launching 1 []).g.priv (0x20000 + 64) .rd
      = (.ok (hit 0x20040), launching 1 []) ∧ (odd paged).g.rdPair 100 5 % 64 ≠ 0 :=
  ⟨sound_of (by decide), calm_of (by decide), mem_issues (by decide), by decide, by rfl, by decide, by rfl, by decide⟩
def asked : LaunchReq := ⟨1, 5, 0x20000, hit 0x20000, hit 0x20040⟩
theorem wit_decode_launch : (launching 1 [asked]).Sound ∧ (launching 1 [asked]).Calm ∧ (launching 1 [asked]).grid? (launching 1 [asked]).g.grid = some (loadedGrid 1)
    ∧ (launching 1 [asked]).g.priv = true ∧ ((launching 1 [asked]).packetAt 0x20000 0x20040).packet.entryCount = 0
    ∧ (launching 1 [asked]).launchFull ((launching 1 [asked]).gridPri (loadedGrid 1)) = false
    ∧ firstFailing [((launching 1 [asked]).packetAt 0x20000 0x20040).checks] = none ∧ (∃ c, firstFailing [((launching 0 [asked]).packetAt 0x20000 0x20040).checks] = some c ∧ c.code = 4)
    ∧ (launching 1 [asked]).Flat asked.lo.key 64 ∧ (launching 1 [asked]).Flat asked.hi.key 64
    ∧ (∀ i l, i < 16 → (launching 0 [asked]).distLoc ((launching 0 [asked]).packetAt 0x20000 0x20040).packet.ctx ((launching 0 [asked]).packetAt 0x20000 0x20040).packet.tables
        (((launching 0 [asked]).packetAt 0x20000 0x20040).packet.compl + i) .w = some l → l.ty = 0) := by
  refine ⟨sound_of (by decide), calm_of (by decide), by decide, by decide, by rfl, by decide, by rfl, ⟨_, rfl, by decide⟩, flat_low (by decide), flat_low (by decide), ?_⟩
  intro i l hi h
  have e : ∀ j : Fin 16, ((launching 0 [asked]).distLoc ((launching 0 [asked]).packetAt 0x20000 0x20040).packet.ctx ((launching 0 [asked]).packetAt 0x20000 0x20040).packet.tables
      (((launching 0 [asked]).packetAt 0x20000 0x20040).packet.compl + j.val) .w).isNone = true := by decide
  have := e ⟨i, hi⟩
  simp only at this
  rw [h] at this; cases this
/-- Queue 63 holds the packet. -/
def queue63 : State := { launching 1 [] with lqs := [{ LQueue.zero 63 with base := 0x20000, size := 16, tail := 1, en := true }], mgmt := { Mgmt.zero with ok := true } }
theorem wit_decode_queue : queue63.memOk ∧ queue63.mgmt.ok = true ∧ (queue63.lq 63).q = 63 ∧ (queue63.lq 63).en = true ∧ (queue63.lq 63).size ≠ 0 ∧ (queue63.lq 63).head ≠ (queue63.lq 63).tail
    ∧ (queue63.lq 63).base.toNat + 128 * ((queue63.lq 63).head % (queue63.lq 63).size) = 0x20000 ∧ (queue63.packetAt 0x20000 (0x20000 + 64)).packet.entryCount = 0
    ∧ firstFailing [(queue63.packetAt 0x20000 (0x20000 + 64)).checks] = none ∧ (queue63.lq 62).en = false
    ∧ 0x20000 + 128 ≤ queue63.hbmEnd ∧ queue63.banks = [] ∧ queue63.hazeNet = [] ∧ queue63.hazeHomes = [] ∧ queue63.memPoison = [] :=
  ⟨by unfold State.memOk; decide, by decide, by decide, by decide, by decide, by decide, by decide, by rfl, by rfl, by decide, by decide, rfl, rfl, rfl, rfl⟩
theorem wit_spawn : demo.grid? demo.g.grid = some (loadedGrid 1) ∧ (one 95 demo).g.rdMask 100 = BitVec.twoPow 96 95 ∧ (one 95 demo).g.present.getLsbD 95 = true ∧ demo.spawn = []
    ∧ (loadedGrid 1).pkt.entryCount ≤ 0 ∧ 0 < ({ packet0 1 with spawn := 1 }).entryCount ∧ (60 : BitVec 6).toNat ≤ 60 := by decide
/-- A full entry, and one of a single item that has waited since clock 0, in a grid with one child packet. -/
def family (n idle : Nat) : State :=
  { fresh { grid0 1 2 with pkt := { packet0 1 with spawn := 1 + 65536 * idle }, children := [{ Packet.zero with entry := 0x11000 }] } with
    spawn := [{ SpawnUnit.zero 7 with held := [⟨7, 0, List.replicate n ⟨7, 0, List.replicate 4 (3, false)⟩, 0⟩] }] }
theorem wit_children : (family 96 9).Empty ∧ (∃ k, (family 96 9).grid? 7 = some k ∧ k.children[0]? = some { Packet.zero with entry := 0x11000 } ∧ k.pkt.idle = 9 ∧ k.pkt.idle ≤ (family 1 9).fabricClock - 0)
    ∧ (∃ k, (family 1 0).grid? 7 = some k ∧ k.pkt.idle = 0) ∧ (∃ k, (family 1 900).grid? 7 = some k ∧ (family 1 900).fabricClock < 0 + k.pkt.idle ∧ k.pkt.idle ≠ 0) :=
  ⟨⟨rfl, rfl, rfl, rfl, rfl, rfl, rfl, rfl, rfl, rfl, rfl, rfl, rfl, rfl, rfl⟩, ⟨_, rfl, rfl, by decide, by decide⟩, ⟨_, rfl, by decide⟩, ⟨_, rfl, by decide, by decide⟩⟩
/-- A load of a peer that has not answered: lane 95 waits for port 2. -/
theorem wit_peer_load : ∃ s : State, s.mgmt.eqSize = 0 ∧ (∀ q ∈ s.g.pend, q.todo = [])
    ∧ s.g.pend = [{ (⟨.ld, .load, 1, [.vec 3 (BitVec.twoPow 96 95) (List.replicate 96 0) 0 false 0], [], [], [], [], false⟩ : Pending) with peers := [(BitVec.twoPow 96 95, 2)] }] :=
  ⟨demoG fun g => { g with pend := [{ (⟨.ld, .load, 1, [.vec 3 (BitVec.twoPow 96 95) (List.replicate 96 0) 0 false 0], [], [], [], [], false⟩ : Pending) with
    peers := [(BitVec.twoPow 96 95, 2)] }] }, rfl, by decide, rfl⟩

/-! ### Traps, regions, events -/

/-- A context with a trap vector at 0x10000 and frames from 0x20000 on. -/
def trapping : State := { page 0x10000 0x10000 paged with ctxs := [{ CtxBlock.zero 0 with trapVec := 0x10000, trapBase := 0x20000 }] }
def handling : State := { trapping with g := { trapping.g with handler := some (0, 0) } }
theorem frame_trapping : trapping.frameAddr = 0x20000 := by decide
theorem can_trap : trapping.CanTrap (hit 0x20000) := by
  refine ⟨by decide, by rw [frame_trapping]; decide, by rw [frame_trapping]; rfl, by rw [frame_trapping]; rfl, rfl, flat_low (by decide), by decide, ?_, rfl⟩
  intro i h
  have hv : (trapping.ctx trapping.g.ctx).trapVec.toNat = 0x10000 := by decide
  rw [hv]
  have : i = 0 ∨ i = 1 ∨ i = 2 ∨ i = 3 ∨ i = 4 ∨ i = 5 ∨ i = 6 ∨ i = 7 := by omega
  rcases this with rfl | rfl | rfl | rfl | rfl | rfl | rfl | rfl <;> exact ⟨hit _, rfl, by rfl⟩
theorem wit_traps : trapping.Sound ∧ trapping.Calm ∧ (∀ rs, trapping.Issues .scal rs) ∧ trapping.CanTrap (hit 0x20000) ∧ trapping.g.running = true ∧ (demo.ctx demo.g.ctx).trapVec = 0 :=
  ⟨sound_of (by decide), calm_of (by decide), fun _ => issues_of (by decide), can_trap, by decide, by decide⟩
theorem wit_killed : (handling.g.handler.isSome = true ∧ ∃ l : Loc, l.ty = 0 ∧ handling.frameLoc = (some l, handling)) ∧ handling.Sound ∧ handling.Calm
    ∧ handling.g.handler = some (handling.g.retDepth, handling.g.reconDepth) ∧ (demo.ctx demo.g.ctx).trapVec = 0 ∧ demo.Sound ∧ demo.Calm ∧ (∀ rs, demo.Issues .scal rs)
    ∧ demo.g.running = true :=
  ⟨⟨by decide, hit 0x20000, rfl, by unfold State.frameLoc; rw [show handling.frameAddr = 0x20000 from by decide]; rfl⟩, sound_of (by decide), calm_of (by decide),
    by decide, by decide, (demo_good .scal []).sound, (demo_good .scal []).calm, fun rs => (demo_good .scal rs).issues, by decide⟩
theorem wit_eret : handling.g.handler = some (0, 0) ∧ (∀ rs, handling.Issues .scal rs) ∧ handling.frameAddr + 256 ≤ 2 ^ 57
    ∧ (∀ p, p = .w ∨ p = .rd → handling.checkGlobal handling.g.core handling.g.ctx handling.g.root handling.g.priv 0x20000 p = (.ok (hit 0x20000), handling))
    ∧ 0 = handling.g.retDepth ∧ 0 = handling.g.reconDepth ∧ 1 ≠ handling.g.retDepth := by
  refine ⟨rfl, fun _ => issues_of (by decide), by decide, ?_, by decide, by decide, by decide⟩
  rintro p (rfl | rfl) <;> rfl
theorem wit_regions : demo.Flat (demo.stackKey demo.g 1 0) 512 ∧ demo.g.ret.length ≤ 16 ∧ demo.g.recon.length ≤ 8 ∧ demo.g.retDepth < 256 ∧ demo.g.wait = .ready ∧ (∀ h ∈ demo.others, h.wg ≠ demo.g.wg ∨ h.wait = .ended)
    ∧ (∃ h ∈ (second id).others, h.wg = (second id).g.wg ∧ h.wait ≠ .ended ∧ h.nBar < (second id).g.nBar + 1) ∧ demo.g.region = none
    ∧ (∀ wg rs, (demoG fun g => { g with region := some ⟨wg, 0, 0, 0, 0, 0, 0⟩ }).Issues .scal rs) ∧ (∀ c ∈ demo.engQ, c.grp ≠ demo.g.id) := by
  refine ⟨flat_low (by decide), by decide, by decide, by decide, rfl, by decide, ⟨_, List.mem_singleton.mpr rfl, by decide, by decide, by decide⟩, rfl, ?_, by decide⟩
  intro wg rs; cases wg <;> exact issues_of (by decide)

/-- A pending group that has been ready since clock 0, behind an active one that sleeps; at clock 256. -/
def swapping : State := { second (fun g => { g with quarter := 0, active := false }) with g := { demo.g with wait := .sleep 900 }, clock := 256 }
theorem some_id {o : Option Group} {n : Nat} (h : o.map (·.id) = some n) : ∃ p, o = some p ∧ p.id = n := by
  cases o with
  | none => cases h
  | some p => exact ⟨p, rfl, Option.some.inj h⟩
def swapTerm : State := waiting (.counts 63 63 7 7 0) { swapping with g := { demo.g with pend := [⟨.tm, .term, 1, [], [], [], [], [], false⟩] } }
theorem wit_scheduler : swapping.Sound ∧ (∃ p, (swapping.pendingReady 0 0).find? (fun g => decide (g.readySince + 256 ≤ swapping.clock)) = some p ∧ p.id = 2)
    ∧ (∃ a, (swapping.activeOn 0 0).reverse.find? (fun g => !swapping.ready g) = some a ∧ a.id = 1)
    ∧ (∀ g ∈ ({ swapping with clock := 255 } : State).pendingReady 0 0, 255 < g.readySince + 256)
    ∧ swapping.swapped 0 0 = false ∧ swapTerm.swapped swapTerm.g.core swapTerm.g.quarter = false
    ∧ (waiting (.limits 63 63 7 7 6 false) swapTerm).g.wait = .limits 63 63 7 7 6 false ∧ ({ swapping with swaps := [(0, 0)] } : State).swapped 0 0 = true
    ∧ swapTerm.Sound ∧ swapTerm.group? 1 = some swapTerm.g ∧ swapTerm.g.active = true ∧ swapTerm.g.wait = .counts 63 63 7 7 0 ∧ 0 < swapTerm.g.count .tm
    ∧ (∃ p r, swapTerm.pendingReady swapTerm.g.core swapTerm.g.quarter = p :: r)
    ∧ swapping.g.wait = .sleep 900 ∧ swapping.clock < 900 ∧ (swapping.core 0).window = 0 ∧ ({ swapping with clock := 4096 } : State).clock / 4096 = 1 := by
  refine ⟨sound_of (by decide), some_id (by decide), some_id (by decide), by decide, by decide, by decide, rfl, by decide, sound_of (by decide), rfl, by decide, rfl, by decide, ⟨_, _, rfl⟩, rfl, by decide, by decide, by decide⟩
/-- Results of a load, an atomic, a store, TLBINV, HARVEST. -/
theorem wit_results : (∀ k d, ∃ s : State, s.g.pend = [⟨.ld, k, 1, [.vec 3 1 [7] 0 false 0], [], [], [], [], d⟩] ∧ 3 < s.g.v.length ∧ s.g.Room 3)
    ∧ (∀ k, ∃ s : State, s.g.pend = [⟨.st, k, 1, [], [], [], [], [], true⟩]) ∧ ∃ s : State, s.g.pend = [⟨.ld, .harvest, 1, [.sreg 3 7 false false], [], [], [], [], true⟩] ∧ s.g.s.length = 64 := by
  refine ⟨fun k d => ⟨demoG fun g => { g with pend := [⟨.ld, k, 1, [.vec 3 1 [7] 0 false 0], [], [], [], [], d⟩] }, rfl, show 3 < demo.g.v.length by decide, ?_⟩,
    fun k => ⟨demoG fun g => { g with pend := [⟨.st, k, 1, [], [], [], [], [], true⟩] }, rfl⟩, demoG fun g => { g with pend := [⟨.ld, .harvest, 1, [.sreg 3 7 false false], [], [], [], [], true⟩] },
    rfl, by decide⟩
  have : Group.Room demo.g 3 := by unfold Group.Room; decide
  exact this
/-- An addition of 5 by lane 95 at the home, at the host's memory, at a peer that port 2 reaches. -/
def element (p : AtomPlace) (l : Loc) : State :=
  { demoG (fun g => { g with pend := [⟨.ld, .atomic, 1, [.vec 3 (BitVec.twoPow 96 95) (List.replicate 96 0) 0 false 0], [⟨95, .addI32, l, 4, 0, 5, false, p, 0, 0⟩], [3], [], [], false⟩] }) with
    mgmt := { Mgmt.zero with peerWin := [(0, 1024)], groupTable := [(1, 4)] } }
theorem wit_elements : (element .home (hit 64)).memOk ∧ (element .home (hit 64)).Settled ∧ (element .home (hit 64)).down = [] ∧ (element .home (hit 64)).mgmt.eqSize = 0
    ∧ (element .peer ⟨0xD000000000000, 4, 0, false⟩).peerFails 0 0xD000000000000 = none ∧ (element .host ⟨0x8000000000000, 3, 0, false⟩).Settled :=
  ⟨by unfold State.memOk; decide, settled_of (by decide), rfl, rfl, by
    have h : (element .peer ⟨0xD000000000000, 4, 0, false⟩).route 0 1024 = some 2 := by
      unfold State.route
      show ([2] : List Nat)[_ % 1]? = some 2
      rw [Nat.mod_one]; rfl
    unfold State.peerFails
    rw [show (element .peer ⟨0xD000000000000, 4, 0, false⟩).peerWin (bits 0xD000000000000 40 8) % 2 ^ 20 = 1024 from by decide, h]; rfl, settled_of (by decide)⟩

/-! ### Walks, the directory, registers, management -/

/-- A walk by core 5, whose one group runs in context 0: no tables; tables to a page that is not resident, unclaimed, or private to core 0. -/
def walker (pte : Nat) : State :=
  { demoG (fun g => { g with core := 5, root := 0x5000 }) with
    mem := Memory.write (Memory.write (Memory.write [] 0x5000 (leBytes 8 0x6001)) 0x6000 (leBytes 8 0x7001)) 0x7000 (leBytes 8 pte) }
theorem wit_walks : (walker 0x083F).memOk ∧ (walker 0x083F).Settled ∧ (walker 0x083F).tlb = [] ∧ (walker 0x083F).hazeLines = [] ∧ (walker 0x083F).shares = [] ∧ (walker 0x083F).walkCache = [] ∧ (walker 0x083F).misses = []
    ∧ ((walker 0x083F).groups.map (·.id)).Nodup ∧ (∀ h ∈ (walker 0x083F).groups, ∀ p ∈ h.pend, p.todo = []) ∧ (walker 0x083F).groups.find? (fun h => h.core == 5 && h.ctx == (walker 0x083F).g.ctx && h.running) = some (walker 0x083F).g
    ∧ demo.walk 0x20000 demo.g.root walkLevels = none
    ∧ (∃ a e n, (walker 0x083B).walk 0x20000 0x5000 walkLevels = some (a, e, n) ∧ bit e 2 = false)
    ∧ (∃ a e n, (walker 0x083F).walk 0x20000 0x5000 walkLevels = some (a, e, n) ∧ bit e 2 = true ∧ pteCls e = 0)
    ∧ (∃ a e n, (walker 0x283F).walk 0x20000 0x5000 walkLevels = some (a, e, n) ∧ bit e 2 = true ∧ pteCls e = 1 ∧ pteOwner e ≠ 5)
    ∧ (∀ g ∈ demo.groups, g.core ≠ 5 ∨ g.ctx ≠ 0 ∨ g.running = false) :=
  ⟨by unfold State.memOk; decide, settled_of (by decide), rfl, rfl, rfl, rfl, rfl, by decide, by decide, by decide, by decide, ⟨_, _, _, rfl, by decide⟩, ⟨_, _, _, rfl, by decide, by decide⟩,
    ⟨_, _, _, rfl, by decide, by decide, by decide⟩, by decide⟩
theorem wit_shares : (∀ b, ({ walker 0x683F with shares := [⟨0x7000, 0, 0, 2 ^ 30, b⟩] } : State).shares[0]? = some ⟨0x7000, 0, 0, 2 ^ 30, b⟩)
    ∧ (walker 0x683F).memOk ∧ (walker 0x683F).Settled ∧ (walker 0x683F).hazeLines = [] ∧ ((walker 0x683F).groups.map (·.id)).Nodup
    ∧ (∀ h ∈ (walker 0x683F).groups, ∀ p ∈ h.pend, p.todo = []) ∧ pteCls ((walker 0x683F).memRead 0x7000 8) = 3 :=
  ⟨fun b => rfl, by unfold State.memOk; decide, settled_of (by decide), rfl, by decide, by decide, by decide⟩
/-- An entry of slice 0 with the cores cs of its cluster and the clusters rs; a core and a proxy to invalidate; the copy of core 3. -/
def entry0 (cs : BitVec 48) (rs : BitVec 7) (acks : Nat) (next : Option (Nat × Bool)) : DirEntry := ⟨0x20000, 0, cs, rs, none, 0, acks, next⟩
def line3 (data : List Byte) : L1Line := ⟨3, 0x20000, 0, 0, false, data, 5, 0⟩
def dired (cs : BitVec 48) (acks : Nat) (next : Option (Nat × Bool)) : State :=
  { demo with dir := [entry0 cs 0 acks next], invals := [⟨0x20000, .core 3 false⟩, ⟨0x20000, .proxy 2 none⟩], invAcks := [⟨0x20000, .core 3 false⟩, ⟨0x20000, .core 99 true⟩],
              proxies := [⟨2, 0x20000, 9, acks, none⟩], l1 := [line3 (List.replicate 64 7)] }
theorem wit_directory : (dired 8 0 none).dirEntry (lineOf 0x20005) = some (entry0 8 0 0 none) ∧ (entry0 8 0 0 none).slice < 384 ∧ (entry0 8 0 0 none).remote = 0
    ∧ (∀ i, i < 48 → (8 : BitVec 48).getLsbD i = true → 48 * (0 / 48) + i = 3) ∧ (∃ i, i < 48 ∧ (8 : BitVec 48).getLsbD i = true ∧ 48 * (0 / 48) + i ≠ 4)
    ∧ (dired 8 0 none).invals[0]? = some ⟨0x20000, .core 3 false⟩ ∧ (dired 8 0 none).invals[1]? = some ⟨0x20000, .proxy 2 none⟩
    ∧ demo.proxy? 2 0x20000 = none ∧ (dired 8 0 none).proxy? 2 0x20000 = some ⟨2, 0x20000, 9, 0, none⟩ ∧ (9 : BitVec 48).getLsbD 3 = true
    ∧ (dired 8 1 (some (4, true))).invAcks[0]? = some ⟨0x20000, .core 3 false⟩ ∧ (∀ k, InvTo.core 3 false ≠ .core k true)
    ∧ (dired 8 1 (some (4, true))).invAcks[1]? = some ⟨0x20000, .core 99 true⟩ ∧ clusterOf 99 = 2 ∧ (dired 8 2 none).proxy? (clusterOf 99) 0x20000 = some ⟨2, 0x20000, 9, 2, none⟩
    ∧ (dired 8 1 (some (4, true))).dirEntry 0x20000 = some (entry0 8 0 1 (some (4, true))) ∧ (dired 72 2 (some (4, true))).dirEntry 0x20000 = some (entry0 72 0 2 (some (4, true)))
    ∧ (dired 8 0 none).memOk ∧ (dired 8 0 none).l1Find 3 (lineOf 0x20005) = some (line3 (List.replicate 64 7)) ∧ demo.l1Find 3 (lineOf 0x20005) = none
    ∧ (line3 []).data = [] ∧ (line3 []).dirty ≠ 0 ∧ demo.dirEntry (lineOf 0x20005) = none
    ∧ (∀ m ∈ [(⟨0x20000, .core 3 false⟩ : InvMsg), ⟨0x20000, .proxy 2 none⟩], ∀ n, (dired 8 0 none).invals[n]? = some m → (dired 8 0 none).invBlocked (dired 8 0 none).invals n m = false)
    ∧ (∀ m ∈ [(⟨0x20000, .core 3 false⟩ : InvMsg), ⟨0x20000, .core 99 true⟩], ∀ n, (dired 8 1 (some (4, true))).invAcks[n]? = some m →
        (dired 8 1 (some (4, true))).invBlocked (dired 8 1 (some (4, true))).invAcks n m = false)
    ∧ (let s : State := { demo with invals := [⟨0x20000, .core 3 false⟩, ⟨0x20000, .core 3 false⟩], invAcks := [⟨0x20000, .core 3 false⟩, ⟨0x20000, .core 3 false⟩] }
       s.invals[0]? = some ⟨0x20000, .core 3 false⟩ ∧ s.invals[1]? = some ⟨0x20000, .core 3 false⟩ ∧ s.invAcks[0]? = some ⟨0x20000, .core 3 false⟩ ∧ s.invAcks[1]? = some ⟨0x20000, .core 3 false⟩)
    ∧ (dired 8 0 none).Flat (lineOf 0x20005) 64 ∧ (dired 8 0 none).hostDown = false
    ∧ (∃ s : State, s.hostDown = true ∧ s.l1Find 3 (lineOf 0x20005) = some (line3 (List.replicate 64 7)) ∧ (line3 (List.replicate 64 7)).data ≠ [] ∧ (line3 (List.replicate 64 7)).dirty ≠ 0) := by
  refine ⟨by decide, by decide, by decide, by decide, ⟨3, by decide, by decide, by decide⟩, rfl, rfl, by decide, by decide, by decide, rfl, ?_, rfl, by decide, by decide, by decide,
    by decide, by unfold State.memOk; decide, by decide, by decide, rfl, by decide, by decide, ?_, ?_, ⟨rfl, rfl, rfl, rfl⟩, flat_low (by decide), by decide,
    ⟨{ dired 8 0 none with down := [31] }, by decide, by decide, by decide, by decide⟩⟩
  · intro k h; cases h
  · intro m hm n hn
    match n with
    | 0 => cases hn; decide
    | 1 => cases hn; decide
    | n + 2 => cases hn
  · intro m hm n hn
    match n with
    | 0 => cases hn; decide
    | 1 => cases hn; decide
    | n + 2 => cases hn

/-- A page request of the group, written or not, for which it waits. -/
def requested (w : Bool) : State := waiting (.page 0x20000 false 3 0x20010) { queued demo with pageReqs := [⟨7, 0x20000, 0, 0, 2, w⟩] }
theorem wit_page_registers : (requested true).pageReqs = [⟨7, 0x20000, 0, 0, 2, true⟩] ∧ (7 * 2 ^ 32 + 1 : BitVec 64).toNat / 2 ^ 32 = 7 ∧ (requested true).g.wait = .page 0x20000 false 3 0x20010
    ∧ (∀ r ∈ (requested false).pageReqs, r.seq ≠ 7 ∨ r.written = false) ∧ RingSize 64 65536 (64 : BitVec 32).toNat ∧ RingSize 64 65536 (65536 : BitVec 32).toNat ∧ (requested false).memOk
    ∧ ((requested false).mgmt.pqTail + 2 ^ 32 - (0 : BitVec 32).toNat) % 2 ^ 32 < (requested false).mgmt.pqSize ∧ (requested false).mgmt.eqSize = 0
    ∧ ((requested true).pageReqs.all fun r => r.written) = true
    ∧ (requested false).mgmt.pqBase.toNat + 16 * ((requested false).mgmt.pqTail % (requested false).mgmt.pqSize) + 16 ≤ (requested false).hbmEnd := by
  refine ⟨rfl, by decide, rfl, by decide, ⟨by decide, by decide, 6, rfl⟩, ⟨by decide, by decide, 16, rfl⟩, by unfold State.memOk; decide, by decide, by decide, by decide, by decide⟩
theorem not_ring {lo hi x : Nat} (h : (List.range 17).all (fun n => x != 2 ^ n) = true) (hi16 : hi ≤ 65536) : ¬ RingSize lo hi x := by
  rintro ⟨_, hx, n, rfl⟩
  have hn : n < 17 := Decidable.byContradiction fun hc => by
    have : 2 ^ 17 ≤ 2 ^ n := Nat.pow_le_pow_right (by decide) (by omega)
    omega
  simp only [List.all_eq_true, List.mem_range, bne_iff_ne] at h
  exact h n hn rfl
theorem wit_ring_sizes : ¬ RingSize 64 65536 (65 : BitVec 32).toNat ∧ ¬ RingSize 16 4096 (17 : BitVec 32).toNat ∧ ¬ RingSize 8 4096 (9 : BitVec 32).toNat ∧ RingSize 16 4096 (4096 : BitVec 32).toNat
    ∧ RingSize 8 4096 (8 : BitVec 32).toNat :=
  ⟨not_ring (by decide) (by decide), not_ring (by decide) (by decide), not_ring (by decide) (by decide), ⟨by decide, by decide, 12, rfl⟩, ⟨by decide, by decide, 3, rfl⟩⟩
/-- Queue 63 of 16 packets with five waiting; EN set or not; the tail at its greatest, past it. -/
def tailed (en : Bool) : State := { demo with lqs := [{ LQueue.zero 63 with size := 16, tail := 5, en := en }] }
theorem wit_queue_registers : ((tailed true).lq 63).en = true ∧ (16 + 2 ^ 32 - ((tailed true).lq 63).head) % 2 ^ 32 ≤ ((tailed true).lq 63).size
    ∧ ((tailed true).lq 63).size < (17 + 2 ^ 32 - ((tailed true).lq 63).head) % 2 ^ 32 ∧ ((tailed false).lq 63).en = false
    ∧ (5 + 2 ^ 32 - ((tailed false).lq 63).head) % 2 ^ 32 ≤ (((tailed false).lq 63).tail + 2 ^ 32 - ((tailed false).lq 63).head) % 2 ^ 32
    ∧ (((tailed false).lq 63).tail + 2 ^ 32 - ((tailed false).lq 63).head) % 2 ^ 32 < (6 + 2 ^ 32 - ((tailed false).lq 63).head) % 2 ^ 32 := by decide
theorem wit_single_registers : demo.heldEvents = [] ∧ (∀ s : State, s = { demo with heldEvents := [(3, 5)], mgmt := { Mgmt.zero with eqSize := 64 } } → s.memOk ∧ s.heldEvents = [(3, 5)] ∧ s.down = []
      ∧ s.mgmt.eqSize ≠ 0 ∧ (s.mgmt.eqTail + 2 ^ 32 - (0 : BitVec 32).toNat) % 2 ^ 32 < s.mgmt.eqSize ∧ s.mgmt.eqHead < 2 ^ 32 ∧ RingSize 64 65536 (64 : BitVec 32).toNat
      ∧ s.mgmt.eqBase.toNat + 16 * (s.mgmt.eqTail % s.mgmt.eqSize) + 16 ≤ 2 ^ 46 ∧ s.mgmt.eqBase.toNat + 16 * (s.mgmt.eqHead % (64 : BitVec 32).toNat) + 16 ≤ 2 ^ 46 ∧ 3 < 2 ^ 32 ∧ 5 < 2 ^ 64)
    ∧ (demo.ctx 5).held = [] ∧ (({ demo with ctxs := [{ CtxBlock.zero 5 with held := [1] }] } : State).ctx 5).held ≠ [] ∧ demo.mgmt.minMode = false ∧ (0x10002 % 4 ≠ 0 ∧ 2 ^ 24 ≤ 0x1000000 ∧ ¬ (3 = 1 ∨ 3 = 2 ∨ 3 = 4 ∨ 3 = 8)) := by
  refine ⟨rfl, ?_, by decide, by decide, rfl, by decide⟩
  rintro s rfl; exact ⟨by unfold State.memOk; decide, rfl, rfl, by decide, by decide, by decide, ⟨by decide, by decide, 6, by decide⟩, by decide, by decide, by decide, by decide⟩

/-- demo alone on the device; its context has a save area of n bytes. -/
def alone (n : Nat) : State := { demoG (fun g => { g with gslots := 8 }) with ctxs := [{ CtxBlock.zero 0 with saveBase := 0x40000, saveLen := n }] }
theorem alone_ok : (alone 255).Alone (loadedWg 1) ∧ (alone 65536).Alone (loadedWg 1) := by
  refine ⟨?_, ?_⟩ <;> exact ⟨sound_of (by decide), calm_of (by decide), rfl, rfl, rfl, by decide, rfl, ⟨rfl, rfl, rfl⟩, rfl, rfl, by decide, by decide, ⟨by decide, by decide⟩,
    rfl, rfl, rfl, ⟨rfl, rfl, rfl⟩, rfl⟩
theorem wit_preempt : (alone 65536).g.saved = false ∧ (loadedWg 1).saved = false ∧ (loadedWg 1).saving = false ∧ ((alone 65536).ctx 0).busy = false ∧ ((alone 65536).ctx 0).records = []
    ∧ (alone 65536).recordSize (loadedWg 1) ≤ ((alone 65536).ctx 0).saveLen ∧ ((alone 255).ctx 0).saveLen < (alone 255).recordSize (loadedWg 1)
    ∧ (∀ r, (alone 65536).g.region = some r → r.wg = false) ∧ (∀ w ∈ State.reset.wgs, w.live = false)
    ∧ ((alone 65536).ctx 0).saveBase + (alone 65536).recordSize (loadedWg 1) ≤ (alone 65536).hbmEnd
    ∧ (({ demo with ctxs := [{ CtxBlock.zero 0 with busy := true, cmd := 2 }] } : State).ctx 0).cmd ≠ 1 := by
  refine ⟨rfl, rfl, rfl, by decide, by decide, by decide, by decide, (by intro r h; cases h), by decide, by decide, by decide⟩
/-- Taken, and saved: the record's place is 0x40000. -/
def taken (saved : Bool) : State :=
  { demoG (fun g => { g with gslots := 8, saved := saved }) with
    wgs := [{ loadedWg 1 with saving := !saved, saved := saved }], ctxs := [{ CtxBlock.zero 0 with cmd := if saved then 0 else 3, records := [(1, 0x40000)] }] }
theorem taken_ok (b : Bool) : (taken b).Alone { loadedWg 1 with saving := !b, saved := b } := by
  cases b <;> exact ⟨sound_of (by decide), calm_of (by decide), rfl, rfl, rfl, by decide, rfl, ⟨rfl, rfl, rfl⟩, rfl, rfl, by decide, by decide, ⟨by decide, by decide⟩,
    rfl, rfl, rfl, ⟨rfl, rfl, rfl⟩, rfl⟩
theorem wit_save_resume : ((taken false).ctx 0).cmd = 3 ∧ ((taken false).ctx 0).records = [(1, 0x40000)] ∧ ((taken true).ctx 0).busy = false ∧ (taken true).mgmt.coreRet = []
    ∧ (taken true).mgmt.minMode = false ∧ (taken true).cores = [] ∧ (∀ w ∈ demo.wgs, w.saved = false) ∧ (demo.ctx 0).busy = false ∧ (∀ w ∈ demo.wgs, w.id ≠ 1 ∨ w.saving = false)
    ∧ (taken false).Flat 0x40000 ((taken false).recordSize { loadedWg 1 with saving := true }) := by
  refine ⟨by decide, by decide, by decide, by decide, by decide, by decide, by decide, by decide, by decide, flat_low ?_⟩
  have : (taken false).recordSize { loadedWg 1 with saving := true } ≤ 2 ^ 20 := by decide
  omega

/-- Log banks: one with its core's test due, with and without spare rows. -/
def tested (inj : Bool) : State :=
  { demo with banks := [{ LogBank.zero (2048 * 8 + 5) with test := 1, tests := [⟨7, true, inj, false⟩], spare := 1 }, { LogBank.zero (2048 * 3 + 5) with test := 1, tests := [⟨0x20000, false, false, false⟩], spare := 1 }] }
theorem wit_storage : (demo.bank (2048 * 9)).v = false ∧ ((tested false).bank (2048 * 8 + 5)).test = 1 ∧ (∀ b, ((tested b).bank (2048 * 8 + 5)).tests = [⟨7, true, b, false⟩])
    ∧ ((tested false).bank (2048 * 3 + 5)).test = 1 ∧ ((tested false).bank (2048 * 3 + 5)).tests = [⟨0x20000, false, false, false⟩] ∧ (tested false).memOk
    ∧ (tested false).Flat (lineOf 0x20000) 64 ∧ demo.Flat (0x20000 / 8 * 8) 8
    ∧ demo.l1Find 5 (lineOf 0x20000) = none ∧ demo.hazeLine? 5 (lineOf 0x20000) = none
    ∧ ((tested false).bank (2048 * 8 + 5)).spare ≠ 0 ∧ ((tested false).bank (2048 * 3 + 5)).spare ≠ 0
    ∧ (∃ s : State, (s.bank (2048 * 8 + 5)).spare = 0 ∧ (s.bank (2048 * 8 + 5)).test = 1 ∧ (s.bank (2048 * 8 + 5)).tests = [⟨7, true, false, false⟩])
    ∧ (demo.bank (2048 * 8 + 5)).test ≠ 1 ∧ demo.mgmt.eqSize = 0
    ∧ (∃ s : State, s.g.pend = [⟨.ld, .load, 1, [.vec 3 1 [7] 0 false 0], [], [], [], [], true⟩] ∧ (s.bank (2048 * 10)).v = false)
    ∧ (∃ s : State, (s.core 9).retireMark = true ∧ (∀ w ∈ s.wgs, w.core ≠ 9) ∧ s.hazeNet = [] ∧ s.hazeLines = []) ∧ (demo.core 9).retireMark = false ∧ (∃ w ∈ demo.wgs, w.core = 0 ∧ demo.wgBusy w = true) :=
  ⟨by decide, by decide, fun b => rfl, by decide, by decide, by unfold State.memOk; decide, flat_low (by decide), flat_low (by decide), by decide, by decide, by decide, by decide,
    ⟨{ demo with banks := [{ LogBank.zero (2048 * 8 + 5) with test := 1, tests := [⟨7, true, false, false⟩], spare := 0 }] }, rfl, rfl, rfl⟩, by decide, rfl,
    ⟨demoG fun g => { g with pend := [⟨.ld, .load, 1, [.vec 3 1 [7] 0 false 0], [], [], [], [], true⟩] }, rfl, rfl⟩,
    ⟨{ demo with cores := [{ CoreRegs.zero 9 with retireMark := true }] }, by decide, by decide, rfl, rfl⟩, by decide, by decide⟩
/-- Pool port 0 decodes the first GiB of the pool; peers are let in; the host's link is down. -/
def pooled : State := { demo with mgmt := { Mgmt.zero with pool := [⟨0x4000000000000, 3⟩] } }
def letIn : State := { demo with mgmt := { Mgmt.zero with peerIn := true } }
theorem flat_pooled (o : Nat) (h : o + 8 ≤ 2 ^ 30) : pooled.Flat (0x4000000000000 + o) 8 := by
  have e : ∀ x, x < 2 ^ 30 → pooled.place (0x4000000000000 + x) = 2 ^ 60 + x := by
    intro x hx
    have f : (pooled.mgmt.pool.findIdx? fun d => d.covers (0x4000000000000 + x)) = some 0 := by
      have : (⟨0x4000000000000, 3⟩ : PoolDec).covers (0x4000000000000 + x) = true := by
        simp only [PoolDec.covers, Bool.and_eq_true, decide_eq_true_eq]
        have b : (0x4000000000000 : Addr).toNat = 0x4000000000000 := by decide
        have z : (3 : Word).toNat / 2 = 1 := by decide
        rw [b, z]
        exact ⟨by decide, by omega, by omega⟩
      show List.findIdx? (fun d => d.covers (0x4000000000000 + x)) [(⟨0x4000000000000, 3⟩ : PoolDec)] = some 0
      rw [List.findIdx?_cons, this]
      rfl
    unfold State.place
    rw [if_neg (by omega), if_pos (by omega), f]
    have b : ((pooled.mgmt.pool.getD 0 ⟨0, 0⟩).base).toNat = 0x4000000000000 := by decide
    simp only [b]
    omega
  intro i hi
  rw [show 0x4000000000000 + o + i = 0x4000000000000 + (o + i) by omega, e _ (by omega), e _ (by omega)]
  omega
/-- An access to the last bytes of HBM, past it, of host memory to its last byte, of the pool. -/
theorem wit_outside : demo.memOk ∧ demo.Settled ∧ 2 ^ 39 - 8 + 8 ≤ demo.hbmEnd ∧ 31 ∉ demo.down ∧ demo.hbmEnd < 2 ^ 39 - 7 + 8 ∧ demo.mgmt.peerIn = false ∧ letIn.mgmt.peerIn = true
    ∧ letIn.mgmt.minMode = false ∧ letIn.Settled ∧ letIn.memOk ∧ 31 ∈ ({ demo with down := [31] } : State).down ∧ (2 ^ 39 - 8) % 4 = 0 ∧ (List.replicate 8 7 : List Byte).length = 8
    ∧ 2 ^ 39 < hostKey 0 ∧ demo.poolOk (2 ^ 39) = false ∧ demo.hazeLines = [] ∧ hostKey 0 ≤ hostKey (2 ^ 46) - 8 ∧ hostKey (2 ^ 46) - 8 + 8 ≤ hostKey (2 ^ 46)
    ∧ pooled.memOk ∧ pooled.Settled ∧ pooled.hazeLines = [] ∧ pooled.hbmEnd < 0x4000000000000 + 8 ∧ 0x4000000000000 + 8 ≤ hostKey 0 ∧ pooled.poolOk 0x4000000000000 = true
    ∧ pooled.poolOk (0x4000000000000 + 8 - 1) = true ∧ pooled.Flat (0x4000000000000 + 0) 8 :=
  ⟨by unfold State.memOk; decide, settled_of (by decide), by decide, by decide, by decide, rfl, rfl, rfl, settled_of (by decide), by unfold State.memOk; decide, by decide, by decide,
    by decide, by decide, by decide, rfl, by decide, by decide, by unfold State.memOk; decide, settled_of (by decide), rfl, by decide, by decide, by decide, by decide,
    flat_pooled 0 (by decide)⟩

/-- Ports: 2 leads to group 1's devices; it has a free buffer or none. -/
def ported (bufs : Nat) (hops : List (Nat × Nat)) : State := { demo with mgmt := { Mgmt.zero with groupTable := [(1, 4)] }, bufs := [(2, bufs)], hops := hops }
theorem wit_hops : (∀ b hs, (ported b hs).hopPort 1024 = some 2) ∧ (1024).testBit 49 = false ∧ (ported 1 []).freeBufs 2 = 1 ∧ (ported 0 [(2, 1024)]).freeBufs 2 = 0
    ∧ 1024 % 2 ^ 20 ≠ (ported 0 []).mgmt.myId ∧ demo.hopPort 1024 = none ∧ (∀ h ∈ (ported 0 []).hops, h.1 ≠ 2) ∧ (1024 + 2 ^ 49).testBit 49 = true ∧ 2 ∉ (ported 0 []).down := by
  refine ⟨?_, by decide, by decide, by decide, by decide, by rfl, by decide, by decide, by decide⟩
  intro b hs
  have h : ((List.range 18).filter fun i => bit (tableWord (ported b hs).mgmt.groupTable (1024 / 1024)).toNat i) = [2] := by
    show ((List.range 18).filter fun i => bit (tableWord [(1, 4)] 1).toNat i) = [2]
    decide
  have e : hopDest 1024 = 1024 := by decide
  have f : ¬ (1024 / 1024 = (ported b hs).mgmt.myId / 1024) := by show ¬ (1024 / 1024 = 0 / 1024); decide
  unfold State.hopPort
  simp only [e, if_neg f, h, List.isEmpty_cons, List.length_singleton, Nat.mod_one]
  rfl
theorem wit_links : demo.mgmt.eqSize = 0 ∧ 17 ∉ demo.down ∧ 31 ∈ ({ demo with down := [31] } : State).down ∧ demo.heldRecs = [] ∧ demo.heldEvents = [] := by decide
/-- FMIN; a spent image; an image with a bad header: the last try. -/
theorem wit_starts_min : ({ Mgmt.zero with fmin := true } : Mgmt).fmin = true ∧ 3 ≤ ({ Mgmt.zero with tries := 3 } : Mgmt).tries ∧ demo.imageFault = some 2 ∧ demo.mgmt.tries < 3 ∧ demo.mgmt.fmin = false
    ∧ demo.mgmt.ok = false ∧ 2 ^ 33 ≤ ({ demo with clock := 2 ^ 34 } : State).fabricClock ∧ demo.fabricClock < 2 ^ 33 ∧ demo.tripped = false
    ∧ ({ demo with tripped := true } : State).agenda = [] ∧ demo.mgmt.attBusy = false := by decide
/-- An image of one byte, under a key that signs every message. -/
def signedImage : State :=
  { demo with flash := ⟨0x56444C56, 1, 0, 0, sha512 [0], 1 :: List.replicate 31 0, 1 :: List.replicate 63 0, [], [0]⟩,
              fuses := ⟨[sha512 (1 :: List.replicate 31 0)], [], 0⟩ }
theorem image_signed (s : State) (h : s.flash.headerOk = true) (k : s.fuses = ⟨[sha512 s.flash.pubkey], [], 0⟩) (i : s.flash.key = 0)
    (v : ed25519Verify s.flash.pubkey s.flash.signed s.flash.sig = true) (d : s.flash.digest = sha512 s.flash.body) : s.imageFault = none := by
  unfold State.imageFault; simp [h, k, i, v, d]
theorem wit_image : signedImage.imageFault = none ∧ signedImage.mgmt.fmin = false ∧ signedImage.mgmt.tries < 2 :=
  have v : ∀ m, ed25519Verify (1 :: List.replicate 31 0) m (1 :: List.replicate 63 0) = true := fun m => verify_neutral _ m _ (by decide) (by decide) (by decide)
  have p : signedImage.flash.pubkey = 1 :: List.replicate 31 0 := rfl
  have b : signedImage.flash.body = [0] := rfl
  have f : signedImage.flash = ⟨0x56444C56, 1, 0, 0, sha512 [0], 1 :: List.replicate 31 0, 1 :: List.replicate 63 0, [], [0]⟩ := rfl
  have g : signedImage.flash.sig = 1 :: List.replicate 63 0 := rfl
  ⟨image_signed _ (by decide) (by rw [p]; rfl) rfl (by rw [p, g]; exact v _) (by rw [b, f]), by decide, by decide⟩

/-! ### The decoders -/

/-- ITU-T T.6: a white row is V0, which is 1; EOFB is twice 000000000001. -/
theorem test_fax_row : (decodeFax 2 3 [0x80, 0x08, 0x00, 0x80]).samples = List.replicate 9 255 := by unfold decodeFax; decide
/-- RFC 1951, 3.2.4: a stored block of two bytes. -/
theorem test_inflate_stored : (inflate 9 (bitsLow [1, 2, 0, 253, 255, 7, 9]) []).map (·.1) = some [9, 7] := by decide
/-- The last four bytes of every PNG stream: the checksum of an IEND chunk. -/
theorem test_png_crc : crc32 [0x49, 0x45, 0x4E, 0x44] = 0xAE426082 := by decide
/-- RFC 1950, worked by hand: 1 + 97 + 98 + 99 = 295; 98 + 196 + 295 = 589. -/
theorem test_adler : adler32 [97, 98, 99] = 589 * 65536 + 295 := by decide
/-- ITU-T T.871: 128 + 1.402 times 127 is above 255; 128 - 0.714 times 127 is 37.3. -/
theorem test_colours : colours 128 128 255 = [255, 37, 128] := by decide

/-! ### The machine -/

/-- The scalar addition of the decode tests at the pc, which is the group's turn. -/
def coded : State := (State.reset).withFetchWord 32 (wordOf (.sadd ⟨3, 1, 2, 0⟩))
theorem wit_encode : (Instr.sadd ⟨3, 1, 2, 0⟩).wf = true ∧ (Instr.sadd ⟨3, 1, 2, 0⟩).isEncoded = true ∧ encode (.sadd ⟨3, 1, 2, 0⟩) ++ [] = encode (.sadd ⟨3, 1, 2, 0⟩) ++ [] := by decide
theorem wit_step : coded.agenda = [] ∧ coded.tripped = false ∧ coded.turns = [coded.g.id] ∧ coded.CodeAt 0x10000
    ∧ Memory.read coded.mem 0x10000 (2 * (encode (.sadd ⟨3, 1, 2, 0⟩)).length) = (encode (.sadd ⟨3, 1, 2, 0⟩)).flatMap (leBytes 2)
    ∧ ({ coded with turns := [] } : State).pick = some coded.g.id :=
  ⟨rfl, rfl, rfl, ⟨by decide, by decide, by decide, by decide, by decide, by decide, rfl⟩, by decide, by decide⟩
theorem wit_step_refuses : (State.reset.withFetchWord 32 0xE0000031).CodeAt 0x10000 ∧ (State.reset.withFetchWord 32 0xE0000031).turns = [(State.reset.withFetchWord 32 0xE0000031).g.id]
    ∧ Memory.read (State.reset.withFetchWord 32 0xE0000031).mem 0x10000 16 = [0x31, 0xE000, 0, 0, 0, 0, 0, 0].flatMap (leBytes 2) ∧ decodeUnit [0x31, 0xE000, 0, 0, 0, 0, 0, 0] = .error (.illegal 4) :=
  ⟨⟨by decide, by decide, by decide, by decide, by decide, by decide, rfl⟩, rfl, by decide, by rfl⟩
theorem wit_events : ({ demo with agenda := [.bootOk] } : State).agenda = [.bootOk] ∧ State.reset.issuable = [] ∧ State.reset.agenda = [] ∧ State.reset.turns = [] ∧ State.reset.tripped = false := by decide
/-- The invariants hold somewhere a step answers. -/
theorem wit_steps : State.reset.memOk ∧ State.reset.Sound ∧ ∃ t, Steps State.reset t :=
  ⟨by unfold State.memOk; decide, sound_of (by decide), _, by unfold Steps; rfl⟩
/-- R75, R107: one step runs the instruction at the pc. -/
theorem test_step : (match step coded with
    | .next t => t.g.pc
    | _ => 0) = 0x10004 := by decide

end

end Sys2Proof.Tests
end

/-! ### Encoding and decoding (R17 to R54): the decoder reads what the encoder writes -/

namespace Sys2Proof.Encoding

/-- A field reads as x exactly when its bits have the value of x. -/
theorem fv_eq_iff {w lo n : Nat} {x : BitVec n} : fv w lo n = x ↔ w / 2 ^ lo % 2 ^ n = x.toNat := by
  rw [← BitVec.toNat_inj, fv, BitVec.toNat_ofNat]

@[simp] theorem length_halves (w : Nat) : (halves w).length = 2 := rfl

/-! #### Which prefixes a word accepts: a matter of its major (R29, R31, R33, R35) -/

theorem acceptsAll_of_major {w c : Nat} (h : majorOf w = majorOf c) (px : Pfx) : acceptsAll px w = acceptsAll px c := by
  simp only [acceptsAll, acceptsRoute, h]

section
variable {c : Nat} {l : Option (BitVec 24)} {r : Option Route} {q : Option MQ}

theorem accepts_limm (hl : acceptsLimm (majorOf c) = true) : acceptsAll { limm := l } c = true := by
  simp [acceptsAll, hl]
theorem accepts_route (hr : acceptsRoute c = true) : acceptsAll { rt := r } c = true := by
  simp [acceptsAll, hr]
theorem accepts_mq (hq : acceptsMq (majorOf c) = true) : acceptsAll { mq := q } c = true := by
  simp [acceptsAll, hq]
theorem accepts_limm_route (hl : acceptsLimm (majorOf c) = true) (hr : acceptsRoute c = true) :
    acceptsAll { limm := l, rt := r } c = true := by
  simp [acceptsAll, hl, hr]
theorem accepts_route_mq (hr : acceptsRoute c = true) (hq : acceptsMq (majorOf c) = true) :
    acceptsAll { rt := r, mq := q } c = true := by
  simp [acceptsAll, hr, hq]

end

/-! #### The codes that the value checks leave (R49, R161) -/

theorem vstSize_le {z : BitVec 3} {d : BitVec 6} (h : vstSize z d = true) : z.toNat ≤ 4 :=
  of_decide_eq_true (Bool.and_eq_true_iff.1 h).1
theorem nrSize_cases {z : BitVec 3} {d : BitVec 6} (h : nrSize z d = true) : z.toNat = 4 ∨ z.toNat = 5 ∨ z.toNat = 6 := by
  unfold nrSize at h
  simp only [beq_iff_eq] at h
  split_ifs at h <;> omega
theorem scalarSize_cases {z : BitVec 3} {d : BitVec 6} (h : scalarSize z d = true) :
    z.toNat = 2 ∨ z.toNat = 3 ∨ z.toNat = 4 := by
  unfold scalarSize at h
  simp only [beq_iff_eq] at h
  split_ifs at h <;> omega
theorem cvtOk_mode {m u v : BitVec 3} (h : cvtOk m u v = true) : m.toNat ≤ 6 := by
  simp only [cvtOk, Bool.and_eq_true, decide_eq_true_eq] at h
  omega

/-! #### What is shown of every instruction -/

/-- A 16-bit unit is its word alone, which is even and reads as the instruction (R18). -/
structure Short (i : Instr) : Prop where
  unit : encode i = [wordOf i]
  even : wordOf i % 2 = 0
  parse : parse16 (wordOf i) = i

/-- A longer unit is its prefixes px and then its word, which is odd, accepts them, and read with them gives the instruction and no
field that must be zero and is not (R28, R29, R47 to R50). -/
structure Reads (i : Instr) (px : Pfx) : Prop where
  unit : encode i = pfxWords px.limm px.rt px.mq ++ halves (wordOf i)
  zero : px.zero = 0
  odd : wordOf i % 2 = 1
  accepts : acceptsAll px (wordOf i) = true
  parse : parse32 (wordOf i) px = some (i, 0)

/-- The part of it that needs no field of the word: c holds the bits of the opcode, every operand at zero. -/
structure Carries (i : Instr) (px : Pfx) (c : Nat) : Prop where
  unit : encode i = pfxWords px.limm px.rt px.mq ++ halves (wordOf i)
  zero : px.zero = 0
  accepts : acceptsAll px c = true

/-! #### The word formats (R18, R22, R23, R44): the fields of a word are the operands it was made of -/

theorem Short.fields {i : Instr} {d b : BitVec 5} {st : BitVec 1} {c : Nat}
    (hw : wordOf i = d.toNat * 32 + b.toNat * 1024 + st.toNat * 32768 + c) (hc : c % 2 = 0 ∧ c < 32) (unit : encode i = [wordOf i])
    (parse : ∀ w, fld w 1 4 = c / 2 → fv w 5 5 = d → fv w 10 5 = b → fv w 15 1 = st → parse16 w = i) : Short i :=
  ⟨unit, by omega, parse _ (by unfold fld; omega) (fv_eq_iff.2 (by omega)) (fv_eq_iff.2 (by omega)) (fv_eq_iff.2 (by omega))⟩

section
variable {i : Instr} {d a b : BitVec 6} {p z st : BitVec 3} {im : BitVec 9} {c : Nat} {px : Pfx}

/-- Every 32-bit word: whatever stands above bit 10, its stall count and its major are those it was made of. -/
theorem Reads.word {body : Nat} (hw : wordOf i = body + st.toNat * 2 + c) (hc : c % 16 = 1) (hb : body % 2048 = 0)
    (u : Carries i px c)
    (parse : ∀ w, w = body + st.toNat * 2 + c → majorOf w = majorOf c → fv w 1 3 = st → parse32 w px = some (i, 0)) :
    Reads i px := by
  have hm : majorOf (wordOf i) = majorOf c := by rw [hw]; unfold majorOf; omega
  exact ⟨u.unit, u.zero, by omega, (acceptsAll_of_major hm px).trans u.accepts, parse _ hw hm (fv_eq_iff.2 (by omega))⟩

theorem Reads.bare (hw : wordOf i = st.toNat * 2 + c) (hc : c % 16 = 1) (u : Carries i px c)
    (parse : ∀ w, w = st.toNat * 2 + c → majorOf w = majorOf c → fv w 1 3 = st → parse32 w px = some (i, 0)) : Reads i px :=
  .word (body := 0) (by omega) hc rfl u fun w e => parse w (by omega)

theorem Reads.dab (hw : wordOf i = d.toNat * 2048 + a.toNat * 131072 + b.toNat * 8388608 + st.toNat * 2 + c)
    (hc : c % 16 = 1 ∧ c % 2 ^ 29 < 2048 ∧ c < 2 ^ 32) (u : Carries i px c)
    (parse : ∀ w, majorOf w = majorOf c → fld w 29 3 = fld c 29 3 → fv w 11 6 = d → fv w 17 6 = a → fv w 23 6 = b → fv w 1 3 = st →
      parse32 w px = some (i, 0)) : Reads i px :=
  .word hw hc.1 (by omega) u fun w _ m s => parse w m (by unfold fld; omega) (fv_eq_iff.2 (by omega)) (fv_eq_iff.2 (by omega))
    (fv_eq_iff.2 (by omega)) s

theorem Reads.da (hw : wordOf i = d.toNat * 2048 + a.toNat * 131072 + st.toNat * 2 + c)
    (hc : c % 16 = 1 ∧ c % 2 ^ 29 < 2048 ∧ c < 2 ^ 32) (u : Carries i px c)
    (parse : ∀ w, majorOf w = majorOf c → fld w 29 3 = fld c 29 3 → fv w 11 6 = d → fv w 17 6 = a → fld w 23 6 = 0 → fv w 1 3 = st →
      parse32 w px = some (i, 0)) : Reads i px :=
  .word hw hc.1 (by omega) u fun w _ m s => parse w m (by unfold fld; omega) (fv_eq_iff.2 (by omega)) (fv_eq_iff.2 (by omega))
    (by unfold fld; omega) s

theorem Reads.ab (hw : wordOf i = a.toNat * 131072 + b.toNat * 8388608 + st.toNat * 2 + c)
    (hc : c % 16 = 1 ∧ c % 2 ^ 29 < 2048 ∧ c < 2 ^ 32) (u : Carries i px c)
    (parse : ∀ w, majorOf w = majorOf c → fld w 29 3 = fld c 29 3 → fld w 11 6 = 0 → fv w 17 6 = a → fv w 23 6 = b → fv w 1 3 = st →
      parse32 w px = some (i, 0)) : Reads i px :=
  .word hw hc.1 (by omega) u fun w _ m s => parse w m (by unfold fld; omega) (by unfold fld; omega) (fv_eq_iff.2 (by omega))
    (fv_eq_iff.2 (by omega)) s

theorem Reads.dOnly (hw : wordOf i = d.toNat * 2048 + st.toNat * 2 + c)
    (hc : c % 16 = 1 ∧ c % 2 ^ 29 < 2048 ∧ c < 2 ^ 32) (u : Carries i px c)
    (parse : ∀ w, majorOf w = majorOf c → fld w 29 3 = fld c 29 3 → fv w 11 6 = d → fld w 17 12 = 0 → fv w 1 3 = st →
      parse32 w px = some (i, 0)) : Reads i px :=
  .word hw hc.1 (by omega) u fun w _ m s => parse w m (by unfold fld; omega) (fv_eq_iff.2 (by omega)) (by unfold fld; omega) s

theorem Reads.pOnly (hw : wordOf i = p.toNat * 2048 + st.toNat * 2 + c)
    (hc : c % 16 = 1 ∧ c % 2 ^ 29 < 2048 ∧ c < 2 ^ 32) (u : Carries i px c)
    (parse : ∀ w, majorOf w = majorOf c → fld w 29 3 = fld c 29 3 → fv w 11 3 = p → fld w 14 15 = 0 → fv w 1 3 = st →
      parse32 w px = some (i, 0)) : Reads i px :=
  .word hw hc.1 (by omega) u fun w _ m s => parse w m (by unfold fld; omega) (fv_eq_iff.2 (by omega)) (by unfold fld; omega) s

theorem Reads.aOnly (hw : wordOf i = a.toNat * 131072 + st.toNat * 2 + c)
    (hc : c % 16 = 1 ∧ c % 2 ^ 29 < 2048 ∧ c < 2 ^ 32) (u : Carries i px c)
    (parse : ∀ w, majorOf w = majorOf c → fld w 29 3 = fld c 29 3 → fv w 17 6 = a → fld w 11 6 = 0 → fld w 23 6 = 0 → fv w 1 3 = st →
      parse32 w px = some (i, 0)) : Reads i px :=
  .word hw hc.1 (by omega) u fun w _ m s => parse w m (by unfold fld; omega) (fv_eq_iff.2 (by omega)) (by unfold fld; omega)
    (by unfold fld; omega) s

theorem Reads.noOperand (hw : wordOf i = st.toNat * 2 + c)
    (hc : c % 16 = 1 ∧ c % 2 ^ 29 < 2048 ∧ c < 2 ^ 32) (u : Carries i px c)
    (parse : ∀ w, majorOf w = majorOf c → fld w 29 3 = fld c 29 3 → fld w 11 18 = 0 → fv w 1 3 = st →
      parse32 w px = some (i, 0)) : Reads i px :=
  .bare hw hc.1 u fun w _ m s => parse w m (by unfold fld; omega) (by unfold fld; omega) s

theorem Reads.dai (hw : wordOf i = d.toNat * 2048 + a.toNat * 131072 + im.toNat * 8388608 + st.toNat * 2 + c)
    (hc : c % 16 = 1 ∧ c < 2048) (u : Carries i px c)
    (parse : ∀ w, majorOf w = majorOf c → fv w 11 6 = d → fv w 17 6 = a → fv w 23 9 = im → fv w 1 3 = st →
      parse32 w px = some (i, 0)) : Reads i px :=
  .word hw hc.1 (by omega) u fun w _ m s => parse w m (fv_eq_iff.2 (by omega)) (fv_eq_iff.2 (by omega))
    (fv_eq_iff.2 (by omega)) s

theorem Reads.sized (hw : wordOf i = z.toNat * 536870912 + d.toNat * 2048 + a.toNat * 131072 + b.toNat * 8388608 + st.toNat * 2 + c)
    (hc : c % 16 = 1 ∧ c < 2048) (u : Carries i px c)
    (parse : ∀ w, majorOf w = majorOf c → fld w 29 3 = z.toNat → fv w 29 3 = z → fv w 11 6 = d → fv w 17 6 = a → fv w 23 6 = b →
      fv w 1 3 = st →
      parse32 w px = some (i, 0)) : Reads i px :=
  .word hw hc.1 (by omega) u fun w _ m s => parse w m (by unfold fld; omega) (fv_eq_iff.2 (by omega)) (fv_eq_iff.2 (by omega))
    (fv_eq_iff.2 (by omega)) (fv_eq_iff.2 (by omega)) s

end

/-! #### Every instruction, major by major (R19, R47 to R50) -/

theorem short_forms : ∀ f ∈ [(.vmov16 : H16 → Instr), .vaddI3216, .vsubI3216, .vand16, .vor16, .vxor16, .vshl16, .vshrN16,
    .vshrI16, .vmulLo16, .vaddF3216, .vsubF3216, .vmulF3216, .vmaxF3216, .vminF3216, .vmovs16], ∀ o, Short (f o) := by
  intro f hf o
  fin_cases hf <;> exact .fields rfl (by decide) rfl fun w k hd hb hs => by
    unfold parse16; rw [k, hd, hb, hs]; rfl

namespace Reads

theorem major00_dab : ∀ f ∈ [(.sadd : DAB → Instr), .ssub, .smul, .smulhI, .smulhN, .saddc,
    .ssubb], ∀ o, Reads (f o) {} := by
  intro f hf o
  fin_cases hf <;> exact .dab rfl (by decide) ⟨rfl, rfl, rfl⟩ fun w m k hd ha hb hs => by
    unfold parse32 parseMajor00; rw [m, k, hd, ha, hb, hs]; rfl
theorem sneg (o : DA) : Reads (.sneg o) {} :=
  .da rfl (by decide) ⟨rfl, rfl, rfl⟩ fun w m k hd ha hz hs => by
    unfold parse32 parseMajor00; rw [m, k, hd, ha, hz, hs]; rfl
theorem major01_dab : ∀ f ∈ [(.sand : DAB → Instr), .sor, .sxor, .sandn, .sshl, .sshrN, .sshrI,
    .srotl], ∀ o, Reads (f o) {} := by
  intro f hf o
  fin_cases hf <;> exact .dab rfl (by decide) ⟨rfl, rfl, rfl⟩ fun w m k hd ha hb hs => by
    unfold parse32 parseMajor01; rw [m, k, hd, ha, hb, hs]; rfl
theorem major02_dab : ∀ f ∈ [(.sminI : DAB → Instr), .smaxI, .sminN, .smaxN, .ssel], ∀ o, Reads (f o) {} := by
  intro f hf o
  fin_cases hf <;> exact .dab rfl (by decide) ⟨rfl, rfl, rfl⟩ fun w m k hd ha hb hs => by
    unfold parse32 parseMajor02; rw [m, k, hd, ha, hb, hs]; rfl
theorem major02_da : ∀ f ∈ [(.spopc : DA → Instr), .sclz, .sbrev], ∀ o, Reads (f o) {} := by
  intro f hf o
  fin_cases hf <;> exact .da rfl (by decide) ⟨rfl, rfl, rfl⟩ fun w m k hd ha hz hs => by
    unfold parse32 parseMajor02; rw [m, k, hd, ha, hz, hs]; rfl
theorem major03_ab : ∀ f ∈ [(.seq : AB → Instr), .sne, .sltI, .sleI, .sltN, .sleN, .stst], ∀ o, Reads (f o) {} := by
  intro f hf o
  fin_cases hf <;> exact .ab rfl (by decide) ⟨rfl, rfl, rfl⟩ fun w m k hz ha hb hs => by
    unfold parse32 parseMajor03; rw [m, k, hz, ha, hb, hs]; rfl
theorem saddi (o : SDAI) : Reads (.saddi o) { limm := o.limm } :=
  .dai rfl (by decide) ⟨rfl, rfl, accepts_limm rfl⟩ fun w m hd ha hi hs => by
    unfold parse32 parseMajor04; rw [m, hd, ha, hi, hs]; rfl
theorem sandi (o : SDAI) : Reads (.sandi o) { limm := o.limm } :=
  .dai rfl (by decide) ⟨rfl, rfl, accepts_limm rfl⟩ fun w m hd ha hi hs => by
    unfold parse32 parseMajor05; rw [m, hd, ha, hi, hs]; rfl
theorem sori (o : SDAI) : Reads (.sori o) { limm := o.limm } :=
  .dai rfl (by decide) ⟨rfl, rfl, accepts_limm rfl⟩ fun w m hd ha hi hs => by
    unfold parse32 parseMajor06; rw [m, hd, ha, hi, hs]; rfl
theorem sxori (o : SDAI) : Reads (.sxori o) { limm := o.limm } :=
  .dai rfl (by decide) ⟨rfl, rfl, accepts_limm rfl⟩ fun w m hd ha hi hs => by
    unfold parse32 parseMajor07; rw [m, hd, ha, hi, hs]; rfl
theorem sshli (o : SDAI) : Reads (.sshli o) { limm := o.limm } :=
  .dai rfl (by decide) ⟨rfl, rfl, accepts_limm rfl⟩ fun w m hd ha hi hs => by
    unfold parse32 parseMajor08; rw [m, hd, ha, hi, hs]; rfl
theorem sshriN (o : SDAI) : Reads (.sshriN o) { limm := o.limm } :=
  .dai rfl (by decide) ⟨rfl, rfl, accepts_limm rfl⟩ fun w m hd ha hi hs => by
    unfold parse32 parseMajor09; rw [m, hd, ha, hi, hs]; rfl
theorem sshriI (o : SDAI) : Reads (.sshriI o) { limm := o.limm } :=
  .dai rfl (by decide) ⟨rfl, rfl, accepts_limm rfl⟩ fun w m hd ha hi hs => by
    unfold parse32 parseMajor0A; rw [m, hd, ha, hi, hs]; rfl
theorem sli (o : SDI) : Reads (.sli o) { limm := o.limm } :=
  .word rfl rfl (by omega) ⟨rfl, rfl, accepts_limm rfl⟩ fun w h m hs => by
    have hd : fv w 11 6 = o.d := fv_eq_iff.2 (by omega)
    have hi : fv w 23 9 = o.i := fv_eq_iff.2 (by omega)
    have z : fld w 17 6 = 0 := by unfold fld; omega
    unfold parse32 parseMajor0B; rw [m, hd, hi, z, hs]; rfl
theorem scmpi (o : SCAI) : Reads (.scmpi o) { limm := o.limm } :=
  .dai rfl (by decide) ⟨rfl, rfl, accepts_limm rfl⟩ fun w m hd ha hi hs => by
    unfold parse32 parseMajor0C; rw [m, hd, ha, hi, hs]; rfl
theorem major0D_dab : ∀ f ∈ [(.sbfeN : DAB → Instr), .sbfeI, .sbfi], ∀ o, Reads (f o) {} := by
  intro f hf o
  fin_cases hf <;> exact .dab rfl (by decide) ⟨rfl, rfl, rfl⟩ fun w m k hd ha hb hs => by
    unfold parse32 parseMajor0D; rw [m, k, hd, ha, hb, hs]; rfl
theorem sgetr (o : GR) : Reads (.sgetr o) {} :=
  .word rfl rfl (by omega) ⟨rfl, rfl, rfl⟩ fun w h m hs => by
    have k : fld w 29 3 = 0 := by unfold fld; omega
    have hr : fv w 23 6 = o.r := fv_eq_iff.2 (by omega)
    have hd : fv w 11 6 = o.d := fv_eq_iff.2 (by omega)
    have z : fld w 17 6 = 0 := by unfold fld; omega
    unfold parse32 parseMajor0E; rw [m, k, hr, hd, z, hs]; rfl
theorem ssetr (o : SR) : Reads (.ssetr o) {} :=
  .word rfl rfl (by omega) ⟨rfl, rfl, rfl⟩ fun w h m hs => by
    have k : fld w 29 3 = 1 := by unfold fld; omega
    have hr : fv w 23 6 = o.r := fv_eq_iff.2 (by omega)
    have ha : fv w 17 6 = o.a := fv_eq_iff.2 (by omega)
    have z : fld w 11 6 = 0 := by unfold fld; omega
    unfold parse32 parseMajor0E; rw [m, k, hr, ha, z, hs]; rfl
theorem major0F_dab : ∀ f ∈ [(.srdlane : DAB → Instr), .swrlane], ∀ o, Reads (f o) {} := by
  intro f hf o
  fin_cases hf <;> exact .dab rfl (by decide) ⟨rfl, rfl, rfl⟩ fun w m k hd ha hb hs => by
    unfold parse32 parseMajor0F; rw [m, k, hd, ha, hb, hs]; rfl
theorem sfirst (o : DA) : Reads (.sfirst o) {} :=
  .da rfl (by decide) ⟨rfl, rfl, rfl⟩ fun w m k hd ha hz hs => by
    unfold parse32 parseMajor0F; rw [m, k, hd, ha, hz, hs]; rfl
theorem bra (o : B21) : Reads (.bra o) {} :=
  .word rfl rfl (by omega) ⟨rfl, rfl, rfl⟩ fun w h m hs => by
    have ho : fv w 11 21 = o.o := fv_eq_iff.2 (by omega)
    unfold parse32 parseMajor10; rw [m, ho, hs]; rfl
theorem bscc (o : B20) : Reads (.bscc o) {} :=
  .word rfl rfl (by omega) ⟨rfl, rfl, rfl⟩ fun w h m hs => by
    have k : fld w 11 1 = 0 := by unfold fld; omega
    have ho : fv w 12 20 = o.o := fv_eq_iff.2 (by omega)
    unfold parse32 parseMajor11; rw [m, k, ho, hs]; rfl
theorem bnscc (o : B20) : Reads (.bnscc o) {} :=
  .word rfl rfl (by omega) ⟨rfl, rfl, rfl⟩ fun w h m hs => by
    have k : fld w 11 1 = 1 := by unfold fld; omega
    have ho : fv w 12 20 = o.o := fv_eq_iff.2 (by omega)
    unfold parse32 parseMajor11; rw [m, k, ho, hs]; rfl
theorem bz (o : BC) : Reads (.bz o) {} :=
  .word rfl rfl (by omega) ⟨rfl, rfl, rfl⟩ fun w h m hs => by
    have k : fld w 17 1 = 0 := by unfold fld; omega
    have ho : fv w 18 14 = o.o := fv_eq_iff.2 (by omega)
    have ha : fv w 11 6 = o.a := fv_eq_iff.2 (by omega)
    unfold parse32 parseMajor12; rw [m, k, ho, ha, hs]; rfl
theorem bnz (o : BC) : Reads (.bnz o) {} :=
  .word rfl rfl (by omega) ⟨rfl, rfl, rfl⟩ fun w h m hs => by
    have k : fld w 17 1 = 1 := by unfold fld; omega
    have ho : fv w 18 14 = o.o := fv_eq_iff.2 (by omega)
    have ha : fv w 11 6 = o.a := fv_eq_iff.2 (by omega)
    unfold parse32 parseMajor12; rw [m, k, ho, ha, hs]; rfl
theorem call (o : B21) : Reads (.call o) {} :=
  .word rfl rfl (by omega) ⟨rfl, rfl, rfl⟩ fun w h m hs => by
    have ho : fv w 11 21 = o.o := fv_eq_iff.2 (by omega)
    unfold parse32 parseMajor13; rw [m, ho, hs]; rfl
theorem major14_noOperand : ∀ f ∈ [(.nop : Z0 → Instr), .ret, .exit, .yield], ∀ o, Reads (f o) {} := by
  intro f hf o
  fin_cases hf <;> exact .noOperand rfl (by decide) ⟨rfl, rfl, rfl⟩ fun w m k hz hs => by
    unfold parse32 parseMajor14; rw [m, k, hz, hs]; rfl
theorem sleep (o : A1) : Reads (.sleep o) {} :=
  .aOnly rfl (by decide) ⟨rfl, rfl, rfl⟩ fun w m k ha hz hz' hs => by
    unfold parse32 parseMajor14; rw [m, k, ha, hz, hz', hs]; rfl
theorem major14_pOnly : ∀ f ∈ [(.elect : PP → Instr), .electw], ∀ o, Reads (f o) {} := by
  intro f hf o
  fin_cases hf <;> exact .pOnly rfl (by decide) ⟨rfl, rfl, rfl⟩ fun w m k hp hz hs => by
    unfold parse32 parseMajor14; rw [m, k, hp, hz, hs]; rfl
theorem jtab (o : BC) : Reads (.jtab o) {} :=
  .word rfl rfl (by omega) ⟨rfl, rfl, rfl⟩ fun w h m hs => by
    have ho : fv w 18 14 = o.o := fv_eq_iff.2 (by omega)
    have ha : fv w 11 6 = o.a := fv_eq_iff.2 (by omega)
    have z : fld w 17 1 = 0 := by unfold fld; omega
    unfold parse32 parseMajor15; rw [m, ho, ha, z, hs]; rfl
theorem lpad (o : LP) : Reads (.lpad o) {} :=
  .word rfl rfl (by omega) ⟨rfl, rfl, rfl⟩ fun w h m hs => by
    have hl : fv w 11 12 = o.l := fv_eq_iff.2 (by omega)
    have z : fld w 23 9 = 0 := by unfold fld; omega
    unfold parse32 parseMajor16; rw [m, hl, z, hs]; rfl
theorem sigchk (o : SG) : Reads (.sigchk o) {} :=
  .word rfl rfl (by omega) ⟨rfl, rfl, rfl⟩ fun w h m hs => by
    have hd : fv w 27 5 = o.d := fv_eq_iff.2 (by omega)
    have hc : fv w 11 16 = o.c := fv_eq_iff.2 (by omega)
    unfold parse32 parseMajor17; rw [m, hd, hc, hs]; rfl
theorem vif (o : DF) : Reads (.vif o) {} :=
  .word rfl rfl (by omega) ⟨rfl, rfl, rfl⟩ fun w h m hs => by
    have k : fld w 15 2 = 0 := by unfold fld; omega
    have ho : fv w 17 15 = o.o := fv_eq_iff.2 (by omega)
    have hn : fv w 14 1 = o.n := fv_eq_iff.2 (by omega)
    have hp : fv w 11 3 = o.p := fv_eq_iff.2 (by omega)
    unfold parse32 parseMajor18; rw [m, k, ho, hn, hp, hs]; rfl
theorem velse (o : DO) : Reads (.velse o) {} :=
  .word rfl rfl (by omega) ⟨rfl, rfl, rfl⟩ fun w h m hs => by
    have k : fld w 11 1 = 0 := by unfold fld; omega
    have ho : fv w 17 15 = o.o := fv_eq_iff.2 (by omega)
    have z : fld w 12 5 = 0 := by unfold fld; omega
    unfold parse32 parseMajor19; rw [m, k, ho, z, hs]; rfl
theorem vend (o : Z0) : Reads (.vend o) {} :=
  .bare rfl rfl ⟨rfl, rfl, rfl⟩ fun w h m hs => by
    have k : fld w 11 1 = 1 := by unfold fld; omega
    have z : fld w 12 20 = 0 := by unfold fld; omega
    unfold parse32 parseMajor19; rw [m, k, z, hs]; rfl
theorem vloop (o : DO) : Reads (.vloop o) {} :=
  .word rfl rfl (by omega) ⟨rfl, rfl, rfl⟩ fun w h m hs => by
    have k : fld w 15 2 = 0 := by unfold fld; omega
    have ho : fv w 17 15 = o.o := fv_eq_iff.2 (by omega)
    have z : fld w 11 4 = 0 := by unfold fld; omega
    unfold parse32 parseMajor1A; rw [m, k, ho, z, hs]; rfl
theorem vbrk (o : DP) : Reads (.vbrk o) {} :=
  .word rfl rfl (by omega) ⟨rfl, rfl, rfl⟩ fun w h m hs => by
    have k : fld w 15 2 = 1 := by unfold fld; omega
    have hn : fv w 14 1 = o.n := fv_eq_iff.2 (by omega)
    have hp : fv w 11 3 = o.p := fv_eq_iff.2 (by omega)
    have z : fld w 17 15 = 0 := by unfold fld; omega
    unfold parse32 parseMajor1A; rw [m, k, hn, hp, z, hs]; rfl
theorem vcont (o : DP) : Reads (.vcont o) {} :=
  .word rfl rfl (by omega) ⟨rfl, rfl, rfl⟩ fun w h m hs => by
    have k : fld w 15 2 = 2 := by unfold fld; omega
    have hn : fv w 14 1 = o.n := fv_eq_iff.2 (by omega)
    have hp : fv w 11 3 = o.p := fv_eq_iff.2 (by omega)
    have z : fld w 17 15 = 0 := by unfold fld; omega
    unfold parse32 parseMajor1A; rw [m, k, hn, hp, z, hs]; rfl
theorem vendl (o : DF) : Reads (.vendl o) {} :=
  .word rfl rfl (by omega) ⟨rfl, rfl, rfl⟩ fun w h m hs => by
    have k : fld w 15 2 = 3 := by unfold fld; omega
    have ho : fv w 17 15 = o.o := fv_eq_iff.2 (by omega)
    have hn : fv w 14 1 = o.n := fv_eq_iff.2 (by omega)
    have hp : fv w 11 3 = o.p := fv_eq_iff.2 (by omega)
    unfold parse32 parseMajor1A; rw [m, k, ho, hn, hp, hs]; rfl
theorem wait (o : WT) : Reads (.wait o) {} :=
  .word rfl rfl (by omega) ⟨rfl, rfl, rfl⟩ fun w h m hs => by
    have ht : fv w 29 3 = o.t := fv_eq_iff.2 (by omega)
    have he : fv w 26 3 = o.e := fv_eq_iff.2 (by omega)
    have hm : fv w 23 3 = o.m := fv_eq_iff.2 (by omega)
    have hw : fv w 17 6 = o.w := fv_eq_iff.2 (by omega)
    have hl : fv w 11 6 = o.l := fv_eq_iff.2 (by omega)
    unfold parse32 parseMajor1B; rw [m, ht, he, hm, hw, hl, hs]; rfl
theorem major20_dab : ∀ f ∈ [(.vaddI32 : RDAB → Instr), .vsubI32, .vmulLo, .vmulhI, .vmulhN, .vaddsI, .vsubsI,
    .vabsdI], ∀ o, Reads (f o) { rt := o.rt } := by
  intro f hf o
  fin_cases hf <;> exact .dab rfl (by decide) ⟨rfl, rfl, accepts_route rfl⟩ fun w m k hd ha hb hs => by
    unfold parse32 parseMajor20; rw [m, k, hd, ha, hb, hs]; rfl
theorem major21_dab : ∀ f ∈ [(.vand : RDAB → Instr), .vor, .vxor, .vandn, .vshl, .vshrN, .vshrI,
    .vrotl], ∀ o, Reads (f o) { rt := o.rt } := by
  intro f hf o
  fin_cases hf <;> exact .dab rfl (by decide) ⟨rfl, rfl, accepts_route rfl⟩ fun w m k hd ha hb hs => by
    unfold parse32 parseMajor21; rw [m, k, hd, ha, hb, hs]; rfl
theorem major22_dab : ∀ f ∈ [(.vminI : RDAB → Instr), .vmaxI, .vminN, .vmaxN], ∀ o, Reads (f o) { rt := o.rt } := by
  intro f hf o
  fin_cases hf <;> exact .dab rfl (by decide) ⟨rfl, rfl, accepts_route rfl⟩ fun w m k hd ha hb hs => by
    unfold parse32 parseMajor22; rw [m, k, hd, ha, hb, hs]; rfl
theorem major22_da : ∀ f ∈ [(.vpopc : RDA → Instr), .vclz, .vbrev], ∀ o, Reads (f o) { rt := o.rt } := by
  intro f hf o
  fin_cases hf <;> exact .da rfl (by decide) ⟨rfl, rfl, accepts_route rfl⟩ fun w m k hd ha hz hs => by
    unfold parse32 parseMajor22; rw [m, k, hd, ha, hz, hs]; rfl
theorem vmov (o : RDB) : Reads (.vmov o) { rt := o.rt } :=
  .word rfl rfl (by omega) ⟨rfl, rfl, accepts_route rfl⟩ fun w h m hs => by
    have k : fld w 29 3 = 7 := by unfold fld; omega
    have hd : fv w 11 6 = o.d := fv_eq_iff.2 (by omega)
    have hb : fv w 23 6 = o.b := fv_eq_iff.2 (by omega)
    have z : fld w 17 6 = 0 := by unfold fld; omega
    unfold parse32 parseMajor22; rw [m, k, hd, hb, z, hs]; rfl
theorem vcmp (o : VCAB) (cond : o.c.toNat ≤ 6) : Reads (.vcmp o) { rt := o.rt } :=
  .word rfl rfl (by omega) ⟨rfl, rfl, accepts_route rfl⟩ fun w h m hs => by
    have k : fld w 29 3 ≤ 6 := by unfold fld; omega
    have hp : fv w 11 3 = o.p := fv_eq_iff.2 (by omega)
    have hc : fv w 29 3 = o.c := fv_eq_iff.2 (by omega)
    have ha : fv w 17 6 = o.a := fv_eq_iff.2 (by omega)
    have hb : fv w 23 6 = o.b := fv_eq_iff.2 (by omega)
    have z : fld w 14 3 = 0 := by unfold fld; omega
    unfold parse32 parseMajor23; rw [m, if_pos k, hp, hc, ha, hb, z, hs]; rfl
theorem vsel (o : VSELO) : Reads (.vsel o) { rt := o.rt } :=
  .word rfl rfl (by omega) ⟨rfl, rfl, accepts_route rfl⟩ fun w h m hs => by
    have hd : fv w 11 6 = o.d := fv_eq_iff.2 (by omega)
    have hn : fv w 29 3 = o.n := fv_eq_iff.2 (by omega)
    have ha : fv w 17 6 = o.a := fv_eq_iff.2 (by omega)
    have hb : fv w 23 6 = o.b := fv_eq_iff.2 (by omega)
    unfold parse32 parseMajor24; rw [m, hd, hn, ha, hb, hs]; rfl
theorem major25_dab : ∀ f ∈ [(.vbfeN : RDAB → Instr), .vbfeI, .vbfi, .vpermb], ∀ o, Reads (f o) { rt := o.rt } := by
  intro f hf o
  fin_cases hf <;> exact .dab rfl (by decide) ⟨rfl, rfl, accepts_route rfl⟩ fun w m k hd ha hb hs => by
    unfold parse32 parseMajor25; rw [m, k, hd, ha, hb, hs]; rfl
theorem vaddi (o : VDAI) : Reads (.vaddi o) { limm := o.limm, rt := o.rt } :=
  .dai rfl (by decide) ⟨rfl, rfl, accepts_limm_route rfl rfl⟩ fun w m hd ha hi hs => by
    unfold parse32 parseMajor26; rw [m, hd, ha, hi, hs]; rfl
theorem vandi (o : VDAI) : Reads (.vandi o) { limm := o.limm, rt := o.rt } :=
  .dai rfl (by decide) ⟨rfl, rfl, accepts_limm_route rfl rfl⟩ fun w m hd ha hi hs => by
    unfold parse32 parseMajor27; rw [m, hd, ha, hi, hs]; rfl
theorem vori (o : VDAI) : Reads (.vori o) { limm := o.limm, rt := o.rt } :=
  .dai rfl (by decide) ⟨rfl, rfl, accepts_limm_route rfl rfl⟩ fun w m hd ha hi hs => by
    unfold parse32 parseMajor28; rw [m, hd, ha, hi, hs]; rfl
theorem vxori (o : VDAI) : Reads (.vxori o) { limm := o.limm, rt := o.rt } :=
  .dai rfl (by decide) ⟨rfl, rfl, accepts_limm_route rfl rfl⟩ fun w m hd ha hi hs => by
    unfold parse32 parseMajor29; rw [m, hd, ha, hi, hs]; rfl
theorem vshli (o : VDAI) : Reads (.vshli o) { limm := o.limm, rt := o.rt } :=
  .dai rfl (by decide) ⟨rfl, rfl, accepts_limm_route rfl rfl⟩ fun w m hd ha hi hs => by
    unfold parse32 parseMajor2A; rw [m, hd, ha, hi, hs]; rfl
theorem vshriN (o : VDAI) : Reads (.vshriN o) { limm := o.limm, rt := o.rt } :=
  .dai rfl (by decide) ⟨rfl, rfl, accepts_limm_route rfl rfl⟩ fun w m hd ha hi hs => by
    unfold parse32 parseMajor2B; rw [m, hd, ha, hi, hs]; rfl
theorem vshriI (o : VDAI) : Reads (.vshriI o) { limm := o.limm, rt := o.rt } :=
  .dai rfl (by decide) ⟨rfl, rfl, accepts_limm_route rfl rfl⟩ fun w m hd ha hi hs => by
    unfold parse32 parseMajor2C; rw [m, hd, ha, hi, hs]; rfl
theorem vli (o : VDI) : Reads (.vli o) { limm := o.limm, rt := o.rt } :=
  .word rfl rfl (by omega) ⟨rfl, rfl, accepts_limm_route rfl rfl⟩ fun w h m hs => by
    have hd : fv w 11 6 = o.d := fv_eq_iff.2 (by omega)
    have hi : fv w 23 9 = o.i := fv_eq_iff.2 (by omega)
    have z : fld w 17 6 = 0 := by unfold fld; omega
    unfold parse32 parseMajor2D; rw [m, hd, hi, z, hs]; rfl
theorem vcmpi (o : VCAI) : Reads (.vcmpi o) { limm := o.limm, rt := o.rt } :=
  .word rfl rfl (by omega) ⟨rfl, rfl, accepts_limm_route rfl rfl⟩ fun w h m hs => by
    have hp : fv w 11 3 = o.p := fv_eq_iff.2 (by omega)
    have hc : fv w 14 3 = o.c := fv_eq_iff.2 (by omega)
    have ha : fv w 17 6 = o.a := fv_eq_iff.2 (by omega)
    have hi : fv w 23 9 = o.i := fv_eq_iff.2 (by omega)
    unfold parse32 parseMajor2E; rw [m, hp, hc, ha, hi, hs]; rfl
theorem major2F_dab : ∀ f ∈ [(.vaddS : RDAB → Instr), .vmulS, .vandS, .vshlS, .vshrSN,
    .vmadS], ∀ o, Reads (f o) { rt := o.rt } := by
  intro f hf o
  fin_cases hf <;> exact .dab rfl (by decide) ⟨rfl, rfl, accepts_route rfl⟩ fun w m k hd ha hb hs => by
    unfold parse32 parseMajor2F; rw [m, k, hd, ha, hb, hs]; rfl
theorem vmovs (o : RDB) : Reads (.vmovs o) { rt := o.rt } :=
  .word rfl rfl (by omega) ⟨rfl, rfl, accepts_route rfl⟩ fun w h m hs => by
    have k : fld w 29 3 = 5 := by unfold fld; omega
    have hd : fv w 11 6 = o.d := fv_eq_iff.2 (by omega)
    have hb : fv w 23 6 = o.b := fv_eq_iff.2 (by omega)
    have z : fld w 17 6 = 0 := by unfold fld; omega
    unfold parse32 parseMajor2F; rw [m, k, hd, hb, z, hs]; rfl
theorem vlaneid (o : RD) : Reads (.vlaneid o) { rt := o.rt } :=
  .dOnly rfl (by decide) ⟨rfl, rfl, accepts_route rfl⟩ fun w m k hd hz hs => by
    unfold parse32 parseMajor2F; rw [m, k, hd, hz, hs]; rfl
theorem major30_dab : ∀ f ∈ [(.vaddI64 : RDAB → Instr), .vsubI64, .vshlI64, .vshrN64, .vshrI64, .vmulwI,
    .vmulwN], ∀ o, Reads (f o) { rt := o.rt } := by
  intro f hf o
  fin_cases hf <;> exact .dab rfl (by decide) ⟨rfl, rfl, accepts_route rfl⟩ fun w m k hd ha hb hs => by
    unfold parse32 parseMajor30; rw [m, k, hd, ha, hb, hs]; rfl
theorem major38_dab : ∀ f ∈ [(.vaddF32 : RDAB → Instr), .vsubF32, .vmulF32, .vfmaF32, .vfmsF32, .vfnmaF32, .vminF32,
    .vmaxF32], ∀ o, Reads (f o) { rt := o.rt } := by
  intro f hf o
  fin_cases hf <;> exact .dab rfl (by decide) ⟨rfl, rfl, accepts_route rfl⟩ fun w m k hd ha hb hs => by
    unfold parse32 parseMajor38; rw [m, k, hd, ha, hb, hs]; rfl
theorem major39_da : ∀ f ∈ [(.vabsF32 : RDA → Instr), .vnegF32, .vclass, .vrint, .vfract,
    .vgetexp], ∀ o, Reads (f o) { rt := o.rt } := by
  intro f hf o
  fin_cases hf <;> exact .da rfl (by decide) ⟨rfl, rfl, accepts_route rfl⟩ fun w m k hd ha hz hs => by
    unfold parse32 parseMajor39; rw [m, k, hd, ha, hz, hs]; rfl
theorem major39_dab : ∀ f ∈ [(.vcopysign : RDAB → Instr), .vscalb], ∀ o, Reads (f o) { rt := o.rt } := by
  intro f hf o
  fin_cases hf <;> exact .dab rfl (by decide) ⟨rfl, rfl, accepts_route rfl⟩ fun w m k hd ha hb hs => by
    unfold parse32 parseMajor39; rw [m, k, hd, ha, hb, hs]; rfl
theorem vcmpf (o : VCAB) : Reads (.vcmpf o) { rt := o.rt } :=
  .word rfl rfl (by omega) ⟨rfl, rfl, accepts_route rfl⟩ fun w h m hs => by
    have hp : fv w 11 3 = o.p := fv_eq_iff.2 (by omega)
    have hc : fv w 29 3 = o.c := fv_eq_iff.2 (by omega)
    have ha : fv w 17 6 = o.a := fv_eq_iff.2 (by omega)
    have hb : fv w 23 6 = o.b := fv_eq_iff.2 (by omega)
    have z : fld w 14 3 = 0 := by unfold fld; omega
    unfold parse32 parseMajor3A; rw [m, hp, hc, ha, hb, z, hs]; rfl
theorem major3B_dab : ∀ f ∈ [(.vaddBf2 : RDAB → Instr), .vsubBf2, .vmulBf2, .vfmaBf2, .vminBf2, .vmaxBf2,
    .vdot2Bf], ∀ o, Reads (f o) { rt := o.rt } := by
  intro f hf o
  fin_cases hf <;> exact .dab rfl (by decide) ⟨rfl, rfl, accepts_route rfl⟩ fun w m k hd ha hb hs => by
    unfold parse32 parseMajor3B; rw [m, k, hd, ha, hb, hs]; rfl
theorem major3C_dab : ∀ f ∈ [(.vaddF32S : RDAB → Instr), .vmulF32S, .vfmaF32S, .vminF32S,
    .vmaxF32S], ∀ o, Reads (f o) { rt := o.rt } := by
  intro f hf o
  fin_cases hf <;> exact .dab rfl (by decide) ⟨rfl, rfl, accepts_route rfl⟩ fun w m k hd ha hb hs => by
    unfold parse32 parseMajor3C; rw [m, k, hd, ha, hb, hs]; rfl
theorem major3D_da : ∀ f ∈ [(.vrcpA : RDA → Instr), .vrsqA, .vex2A, .vlg2A, .vsinA, .vcosA, .vtanhA,
    .vsqrt], ∀ o, Reads (f o) { rt := o.rt } := by
  intro f hf o
  fin_cases hf <;> exact .da rfl (by decide) ⟨rfl, rfl, accepts_route rfl⟩ fun w m k hd ha hz hs => by
    unfold parse32 parseMajor3D; rw [m, k, hd, ha, hz, hs]; rfl
theorem vdivF32 (o : RDAB) : Reads (.vdivF32 o) { rt := o.rt } :=
  .dab rfl (by decide) ⟨rfl, rfl, accepts_route rfl⟩ fun w m k hd ha hb hs => by
    unfold parse32 parseMajor3E; rw [m, k, hd, ha, hb, hs]; rfl
theorem vrand (o : RD) : Reads (.vrand o) { rt := o.rt } :=
  .dOnly rfl (by decide) ⟨rfl, rfl, accepts_route rfl⟩ fun w m k hd hz hs => by
    unfold parse32 parseMajor3E; rw [m, k, hd, hz, hs]; rfl
theorem vseed (o : RA) : Reads (.vseed o) { rt := o.rt } :=
  .aOnly rfl (by decide) ⟨rfl, rfl, accepts_route rfl⟩ fun w m k ha hz hz' hs => by
    unfold parse32 parseMajor3E; rw [m, k, ha, hz, hz', hs]; rfl
theorem vunpk (o : UFM) : Reads (.vunpk o) { rt := o.rt } :=
  .word rfl rfl (by omega) ⟨rfl, rfl, accepts_route rfl⟩ fun w h m hs => by
    have k : fld w 29 3 = 0 := by unfold fld; omega
    have hd : fv w 11 6 = o.d := fv_eq_iff.2 (by omega)
    have ha : fv w 17 6 = o.a := fv_eq_iff.2 (by omega)
    have ht : fv w 26 3 = o.t := fv_eq_iff.2 (by omega)
    have hk : fv w 23 3 = o.k := fv_eq_iff.2 (by omega)
    unfold parse32 parseMajor50; rw [m, k, hd, ha, ht, hk, hs]; rfl
theorem vunpk2 (o : UFM) : Reads (.vunpk2 o) { rt := o.rt } :=
  .word rfl rfl (by omega) ⟨rfl, rfl, accepts_route rfl⟩ fun w h m hs => by
    have k : fld w 29 3 = 1 := by unfold fld; omega
    have hd : fv w 11 6 = o.d := fv_eq_iff.2 (by omega)
    have ha : fv w 17 6 = o.a := fv_eq_iff.2 (by omega)
    have ht : fv w 26 3 = o.t := fv_eq_iff.2 (by omega)
    have hk : fv w 23 3 = o.k := fv_eq_iff.2 (by omega)
    unfold parse32 parseMajor50; rw [m, k, hd, ha, ht, hk, hs]; rfl
theorem vpack (o : UFM) : Reads (.vpack o) { rt := o.rt } :=
  .word rfl rfl (by omega) ⟨rfl, rfl, accepts_route rfl⟩ fun w h m hs => by
    have k : fld w 29 3 = 0 := by unfold fld; omega
    have hd : fv w 11 6 = o.d := fv_eq_iff.2 (by omega)
    have ha : fv w 17 6 = o.a := fv_eq_iff.2 (by omega)
    have ht : fv w 26 3 = o.t := fv_eq_iff.2 (by omega)
    have hk : fv w 23 3 = o.k := fv_eq_iff.2 (by omega)
    unfold parse32 parseMajor51; rw [m, k, hd, ha, ht, hk, hs]; rfl
theorem vpack2 (o : UFM) : Reads (.vpack2 o) { rt := o.rt } :=
  .word rfl rfl (by omega) ⟨rfl, rfl, accepts_route rfl⟩ fun w h m hs => by
    have k : fld w 29 3 = 1 := by unfold fld; omega
    have hd : fv w 11 6 = o.d := fv_eq_iff.2 (by omega)
    have ha : fv w 17 6 = o.a := fv_eq_iff.2 (by omega)
    have ht : fv w 26 3 = o.t := fv_eq_iff.2 (by omega)
    have hk : fv w 23 3 = o.k := fv_eq_iff.2 (by omega)
    unfold parse32 parseMajor51; rw [m, k, hd, ha, ht, hk, hs]; rfl
theorem vmxscale (o : UMX) : Reads (.vmxscale o) { rt := o.rt } :=
  .word rfl rfl (by omega) ⟨rfl, rfl, accepts_route rfl⟩ fun w h m hs => by
    have k : fld w 29 3 = 0 := by unfold fld; omega
    have hd : fv w 11 6 = o.d := fv_eq_iff.2 (by omega)
    have ha : fv w 17 6 = o.a := fv_eq_iff.2 (by omega)
    have ht : fv w 26 3 = o.t := fv_eq_iff.2 (by omega)
    have z : fld w 23 3 = 0 := by unfold fld; omega
    unfold parse32 parseMajor52; rw [m, k, hd, ha, ht, z, hs]; rfl
theorem major53_dab : ∀ f ∈ [(.vscaleE8 : RDAB → Instr), .vscaleE8Inv], ∀ o, Reads (f o) { rt := o.rt } := by
  intro f hf o
  fin_cases hf <;> exact .dab rfl (by decide) ⟨rfl, rfl, accepts_route rfl⟩ fun w m k hd ha hb hs => by
    unfold parse32 parseMajor53; rw [m, k, hd, ha, hb, hs]; rfl
theorem vcvt (o : CVT) (codes : cvtOk o.m o.u o.v = true) : Reads (.vcvt o) { rt := o.rt } :=
  .word rfl rfl (by omega) ⟨rfl, rfl, accepts_route rfl⟩ fun w h m hs => by
    have mode : o.m.toNat ≤ 6 := cvtOk_mode codes
    have k : fld w 29 3 ≤ 6 := by unfold fld; omega
    have hd : fv w 11 6 = o.d := fv_eq_iff.2 (by omega)
    have ha : fv w 17 6 = o.a := fv_eq_iff.2 (by omega)
    have hm : fv w 29 3 = o.m := fv_eq_iff.2 (by omega)
    have hu : fv w 26 3 = o.u := fv_eq_iff.2 (by omega)
    have hv : fv w 23 3 = o.v := fv_eq_iff.2 (by omega)
    unfold parse32 parseMajor54; rw [m, if_pos k, hd, ha, hm, hu, hv, hs]; rfl
theorem pand (o : PDAB) : Reads (.pand o) {} :=
  .word rfl rfl (by omega) ⟨rfl, rfl, rfl⟩ fun w h m hs => by
    have k : fld w 29 3 = 0 := by unfold fld; omega
    have hd : fv w 11 3 = o.d := fv_eq_iff.2 (by omega)
    have ha : fv w 17 3 = o.a := fv_eq_iff.2 (by omega)
    have hb : fv w 23 3 = o.b := fv_eq_iff.2 (by omega)
    have z : fld w 14 3 = 0 := by unfold fld; omega
    have z' : fld w 20 3 = 0 := by unfold fld; omega
    have z'' : fld w 26 3 = 0 := by unfold fld; omega
    unfold parse32 parseMajor58; rw [m, k, hd, ha, hb, z, z', z'', hs]; rfl
theorem por (o : PDAB) : Reads (.por o) {} :=
  .word rfl rfl (by omega) ⟨rfl, rfl, rfl⟩ fun w h m hs => by
    have k : fld w 29 3 = 1 := by unfold fld; omega
    have hd : fv w 11 3 = o.d := fv_eq_iff.2 (by omega)
    have ha : fv w 17 3 = o.a := fv_eq_iff.2 (by omega)
    have hb : fv w 23 3 = o.b := fv_eq_iff.2 (by omega)
    have z : fld w 14 3 = 0 := by unfold fld; omega
    have z' : fld w 20 3 = 0 := by unfold fld; omega
    have z'' : fld w 26 3 = 0 := by unfold fld; omega
    unfold parse32 parseMajor58; rw [m, k, hd, ha, hb, z, z', z'', hs]; rfl
theorem pxor (o : PDAB) : Reads (.pxor o) {} :=
  .word rfl rfl (by omega) ⟨rfl, rfl, rfl⟩ fun w h m hs => by
    have k : fld w 29 3 = 2 := by unfold fld; omega
    have hd : fv w 11 3 = o.d := fv_eq_iff.2 (by omega)
    have ha : fv w 17 3 = o.a := fv_eq_iff.2 (by omega)
    have hb : fv w 23 3 = o.b := fv_eq_iff.2 (by omega)
    have z : fld w 14 3 = 0 := by unfold fld; omega
    have z' : fld w 20 3 = 0 := by unfold fld; omega
    have z'' : fld w 26 3 = 0 := by unfold fld; omega
    unfold parse32 parseMajor58; rw [m, k, hd, ha, hb, z, z', z'', hs]; rfl
theorem pandn (o : PDAB) : Reads (.pandn o) {} :=
  .word rfl rfl (by omega) ⟨rfl, rfl, rfl⟩ fun w h m hs => by
    have k : fld w 29 3 = 3 := by unfold fld; omega
    have hd : fv w 11 3 = o.d := fv_eq_iff.2 (by omega)
    have ha : fv w 17 3 = o.a := fv_eq_iff.2 (by omega)
    have hb : fv w 23 3 = o.b := fv_eq_iff.2 (by omega)
    have z : fld w 14 3 = 0 := by unfold fld; omega
    have z' : fld w 20 3 = 0 := by unfold fld; omega
    have z'' : fld w 26 3 = 0 := by unfold fld; omega
    unfold parse32 parseMajor58; rw [m, k, hd, ha, hb, z, z', z'', hs]; rfl
theorem pnot (o : PDA) : Reads (.pnot o) {} :=
  .word rfl rfl (by omega) ⟨rfl, rfl, rfl⟩ fun w h m hs => by
    have k : fld w 29 3 = 4 := by unfold fld; omega
    have hd : fv w 11 3 = o.d := fv_eq_iff.2 (by omega)
    have ha : fv w 17 3 = o.a := fv_eq_iff.2 (by omega)
    have z : fld w 14 3 = 0 := by unfold fld; omega
    have z' : fld w 20 9 = 0 := by unfold fld; omega
    unfold parse32 parseMajor58; rw [m, k, hd, ha, z, z', hs]; rfl
theorem pmov (o : PDA) : Reads (.pmov o) {} :=
  .word rfl rfl (by omega) ⟨rfl, rfl, rfl⟩ fun w h m hs => by
    have k : fld w 29 3 = 5 := by unfold fld; omega
    have hd : fv w 11 3 = o.d := fv_eq_iff.2 (by omega)
    have ha : fv w 17 3 = o.a := fv_eq_iff.2 (by omega)
    have z : fld w 14 3 = 0 := by unfold fld; omega
    have z' : fld w 20 9 = 0 := by unfold fld; omega
    unfold parse32 parseMajor58; rw [m, k, hd, ha, z, z', hs]; rfl
theorem major58_pOnly : ∀ f ∈ [(.pset : PD → Instr), .pclr], ∀ o, Reads (f o) {} := by
  intro f hf o
  fin_cases hf <;> exact .pOnly rfl (by decide) ⟨rfl, rfl, rfl⟩ fun w m k hp hz hs => by
    unfold parse32 parseMajor58; rw [m, k, hp, hz, hs]; rfl
theorem ptos (o : SDPA) : Reads (.ptos o) {} :=
  .word rfl rfl (by omega) ⟨rfl, rfl, rfl⟩ fun w h m hs => by
    have k : fld w 29 3 = 0 := by unfold fld; omega
    have hd : fv w 11 6 = o.d := fv_eq_iff.2 (by omega)
    have ha : fv w 17 3 = o.a := fv_eq_iff.2 (by omega)
    have z : fld w 20 9 = 0 := by unfold fld; omega
    unfold parse32 parseMajor59; rw [m, k, hd, ha, z, hs]; rfl
theorem pfroms (o : PDSA) : Reads (.pfroms o) {} :=
  .word rfl rfl (by omega) ⟨rfl, rfl, rfl⟩ fun w h m hs => by
    have k : fld w 29 3 = 1 := by unfold fld; omega
    have hd : fv w 11 3 = o.d := fv_eq_iff.2 (by omega)
    have ha : fv w 17 6 = o.a := fv_eq_iff.2 (by omega)
    have z : fld w 14 3 = 0 := by unfold fld; omega
    have z' : fld w 23 6 = 0 := by unfold fld; omega
    unfold parse32 parseMajor59; rw [m, k, hd, ha, z, z', hs]; rfl
theorem pcnt (o : SDPA) : Reads (.pcnt o) {} :=
  .word rfl rfl (by omega) ⟨rfl, rfl, rfl⟩ fun w h m hs => by
    have k : fld w 29 3 = 2 := by unfold fld; omega
    have hd : fv w 11 6 = o.d := fv_eq_iff.2 (by omega)
    have ha : fv w 17 3 = o.a := fv_eq_iff.2 (by omega)
    have z : fld w 20 9 = 0 := by unfold fld; omega
    unfold parse32 parseMajor59; rw [m, k, hd, ha, z, hs]; rfl
theorem pany (o : PA) : Reads (.pany o) {} :=
  .word rfl rfl (by omega) ⟨rfl, rfl, rfl⟩ fun w h m hs => by
    have k : fld w 29 3 = 3 := by unfold fld; omega
    have ha : fv w 17 3 = o.a := fv_eq_iff.2 (by omega)
    have z : fld w 11 6 = 0 := by unfold fld; omega
    have z' : fld w 20 9 = 0 := by unfold fld; omega
    unfold parse32 parseMajor59; rw [m, k, ha, z, z', hs]; rfl
theorem pall (o : PA) : Reads (.pall o) {} :=
  .word rfl rfl (by omega) ⟨rfl, rfl, rfl⟩ fun w h m hs => by
    have k : fld w 29 3 = 4 := by unfold fld; omega
    have ha : fv w 17 3 = o.a := fv_eq_iff.2 (by omega)
    have z : fld w 11 6 = 0 := by unfold fld; omega
    have z' : fld w 20 9 = 0 := by unfold fld; omega
    unfold parse32 parseMajor59; rw [m, k, ha, z, z', hs]; rfl
theorem pfirst (o : SDPA) : Reads (.pfirst o) {} :=
  .word rfl rfl (by omega) ⟨rfl, rfl, rfl⟩ fun w h m hs => by
    have k : fld w 29 3 = 5 := by unfold fld; omega
    have hd : fv w 11 6 = o.d := fv_eq_iff.2 (by omega)
    have ha : fv w 17 3 = o.a := fv_eq_iff.2 (by omega)
    have z : fld w 20 9 = 0 := by unfold fld; omega
    unfold parse32 parseMajor59; rw [m, k, hd, ha, z, hs]; rfl
theorem vldLine (o : MRL) : Reads (.vldLine o) { rt := o.rt, mq := o.mq } :=
  .da rfl (by decide) ⟨rfl, rfl, accepts_route_mq rfl rfl⟩ fun w m k hd ha hz hs => by
    unfold parse32 parseMajor5C; rw [m, k, hd, ha, hz, hs]; rfl
theorem vld (o : MV) (size : o.z.toNat ≠ 7) : Reads (.vld o) { rt := o.rt, mq := o.mq } :=
  .sized rfl (by decide) ⟨rfl, rfl, accepts_route_mq rfl rfl⟩ fun w m k hz hd ha hb hs => by
    have p (px : Pfx) : parseMajor5C w px = some (.vld ⟨o.z, o.d, o.a, o.b, px.rt, px.mq, o.st⟩, 0) := by
      unfold parseMajor5C; rw [k, hz, hd, ha, hb, hs]; split
      · contradiction
      · rfl
    unfold parse32; rw [m]; exact p _
theorem vst (o : MV) (size : vstSize o.z o.d = true) : Reads (.vst o) { rt := o.rt, mq := o.mq } :=
  .sized rfl (by decide) ⟨rfl, rfl, accepts_route_mq rfl rfl⟩ fun w m k hz hd ha hb hs => by
    unfold parse32 parseMajor5D; rw [m, k, if_pos (vstSize_le size), hz, hd, ha, hb, hs]; rfl
theorem vldNr (o : MV) (size : nrSize o.z o.d = true) : Reads (.vldNr o) { rt := o.rt, mq := o.mq } :=
  .sized rfl (by decide) ⟨rfl, rfl, accepts_route_mq rfl rfl⟩ fun w m k hz hd ha hb hs => by
    unfold parse32 parseMajor5E; rw [m, k, hz, hd, ha, hb, hs]
    rcases nrSize_cases size with e | e | e <;> rw [e] <;> rfl
theorem vldi (o : MI) : Reads (.vldi o) { mq := o.mq } :=
  .sized rfl (by decide) ⟨rfl, rfl, accepts_mq rfl⟩ fun w m _ hz hd ha hb hs => by
    unfold parse32 parseMajor5F; rw [m, hz, hd, ha, hb, hs]; rfl
theorem vsti (o : MI) (size : vstSize o.z o.d = true) : Reads (.vsti o) { mq := o.mq } :=
  .sized rfl (by decide) ⟨rfl, rfl, accepts_mq rfl⟩ fun w m k hz hd ha hb hs => by
    unfold parse32 parseMajor60; rw [m, k, if_pos (vstSize_le size), hz, hd, ha, hb, hs]; rfl
theorem sld (o : MS) (size : scalarSize o.z o.d = true) : Reads (.sld o) { mq := o.mq } :=
  .sized rfl (by decide) ⟨rfl, rfl, accepts_mq rfl⟩ fun w m k hz hd ha hb hs => by
    unfold parse32 parseMajor61; rw [m, k, hz, hd, ha, hb, hs]
    rcases scalarSize_cases size with e | e | e <;> rw [e] <;> rfl
theorem sst (o : MS) (size : scalarSize o.z o.d = true) : Reads (.sst o) { mq := o.mq } :=
  .sized rfl (by decide) ⟨rfl, rfl, accepts_mq rfl⟩ fun w m k hz hd ha hb hs => by
    unfold parse32 parseMajor62; rw [m, k, hz, hd, ha, hb, hs]
    rcases scalarSize_cases size with e | e | e <;> rw [e] <;> rfl
theorem fenceOpr (o : Z0) : Reads (.fenceOpr o) {} :=
  .noOperand rfl (by decide) ⟨rfl, rfl, rfl⟩ fun w m k hz hs => by
    unfold parse32 parseMajor63; rw [m, k, hz, hs]; rfl
theorem fenceH (o : FNH) : Reads (.fenceH o) {} :=
  .word rfl rfl (by omega) ⟨rfl, rfl, rfl⟩ fun w h m hs => by
    have k : fld w 29 3 = 5 := by unfold fld; omega
    have ha : fv w 17 6 = o.a := fv_eq_iff.2 (by omega)
    have hc : fv w 11 6 = o.c := fv_eq_iff.2 (by omega)
    have z : fld w 23 6 = 0 := by unfold fld; omega
    unfold parse32 parseMajor63; rw [m, k, ha, hc, z, hs]; rfl
theorem fence (o : FN) : Reads (.fence o) {} :=
  .word rfl rfl (by omega) ⟨rfl, rfl, rfl⟩ fun w h m hs => by
    have k : fld w 29 3 = o.k.toNat := by unfold fld; omega
    have hk : fv w 29 2 = o.k := fv_eq_iff.2 (by omega)
    have hc : fv w 11 6 = o.c := fv_eq_iff.2 (by omega)
    have z : fld w 17 12 = 0 := by unfold fld; omega
    have p : parseMajor63 w = some (.fence o, 0) := by
      unfold parseMajor63; rw [k, hk, hc, z, hs]; split
      case h_5 => rfl
      all_goals omega
    unfold parse32; rw [m]; exact p
theorem major64_ab : ∀ f ∈ [(.cinv : AB → Instr), .cwb, .cflush, .vpref, .pagereq], ∀ o, Reads (f o) {} := by
  intro f hf o
  fin_cases hf <;> exact .ab rfl (by decide) ⟨rfl, rfl, rfl⟩ fun w m k hz ha hb hs => by
    unfold parse32 parseMajor64; rw [m, k, hz, ha, hb, hs]; rfl
theorem llock (o : DAB) : Reads (.llock o) {} :=
  .dab rfl (by decide) ⟨rfl, rfl, rfl⟩ fun w m k hd ha hb hs => by
    unfold parse32 parseMajor65; rw [m, k, hd, ha, hb, hs]; rfl
theorem major65_da : ∀ f ∈ [(.ltry : DA → Instr), .lunlock, .lquery, .lbreak], ∀ o, Reads (f o) {} := by
  intro f hf o
  fin_cases hf <;> exact .da rfl (by decide) ⟨rfl, rfl, rfl⟩ fun w m k hd ha hz hs => by
    unfold parse32 parseMajor65; rw [m, k, hd, ha, hz, hs]; rfl
theorem major66_da : ∀ f ∈ [(.hdecl : DA → Instr), .hquery], ∀ o, Reads (f o) {} := by
  intro f hf o
  fin_cases hf <;> exact .da rfl (by decide) ⟨rfl, rfl, rfl⟩ fun w m k hd ha hz hs => by
    unfold parse32 parseMajor66; rw [m, k, hd, ha, hz, hs]; rfl
theorem major66_aOnly : ∀ f ∈ [(.hend : A1 → Instr), .hdrain], ∀ o, Reads (f o) {} := by
  intro f hf o
  fin_cases hf <;> exact .aOnly rfl (by decide) ⟨rfl, rfl, rfl⟩ fun w m k ha hz hz' hs => by
    unfold parse32 parseMajor66; rw [m, k, ha, hz, hz', hs]; rfl
theorem major67_dab : ∀ f ∈ [(.haddF32 : MF → Instr), .haddI32, .hldF32,
    .hldI32], ∀ o, Reads (f o) { rt := o.rt, mq := o.mq } := by
  intro f hf o
  fin_cases hf <;> exact .dab rfl (by decide) ⟨rfl, rfl, accepts_route_mq rfl rfl⟩ fun w m k hd ha hb hs => by
    unfold parse32 parseMajor67; rw [m, k, hd, ha, hb, hs]; rfl
theorem major68_dab : ∀ f ∈ [(.vatomAddI32 : MF → Instr), .vatomAddF32, .vatomAddBf2, .vatomMinI, .vatomMaxI,
    .vatomAnd, .vatomOr, .vatomXchg], ∀ o, Reads (f o) { rt := o.rt, mq := o.mq } := by
  intro f hf o
  fin_cases hf <;> exact .dab rfl (by decide) ⟨rfl, rfl, accepts_route_mq rfl rfl⟩ fun w m k hd ha hb hs => by
    unfold parse32 parseMajor68; rw [m, k, hd, ha, hb, hs]; rfl
theorem major69_dab : ∀ f ∈ [(.vatom2MinN : MF → Instr), .vatom2MaxN, .vatom2Xor, .vatom2AddI64, .vatom2Xchg64,
    .vatom2MinF32, .vatom2MaxF32], ∀ o, Reads (f o) { rt := o.rt, mq := o.mq } := by
  intro f hf o
  fin_cases hf <;> exact .dab rfl (by decide) ⟨rfl, rfl, accepts_route_mq rfl rfl⟩ fun w m k hd ha hb hs => by
    unfold parse32 parseMajor69; rw [m, k, hd, ha, hb, hs]; rfl
theorem major6A_dab : ∀ f ∈ [(.vcas32 : MF → Instr), .vcas64,
    .vcas128], ∀ o, Reads (f o) { rt := o.rt, mq := o.mq } := by
  intro f hf o
  fin_cases hf <;> exact .dab rfl (by decide) ⟨rfl, rfl, accepts_route_mq rfl rfl⟩ fun w m k hd ha hb hs => by
    unfold parse32 parseMajor6A; rw [m, k, hd, ha, hb, hs]; rfl
theorem major6B_da : ∀ f ∈ [(.satomAddI32 : ML → Instr), .satomXchg, .satomCas32, .satomCas64, .satomCas128,
    .satomAddI64, .satomOr, .satomAnd], ∀ o, Reads (f o) { mq := o.mq } := by
  intro f hf o
  fin_cases hf <;> exact .da rfl (by decide) ⟨rfl, rfl, accepts_mq rfl⟩ fun w m k hd ha hz hs => by
    unfold parse32 parseMajor6B; rw [m, k, hd, ha, hz, hs]; rfl
theorem major6C_dab : ∀ f ∈ [(.cpy : DAB → Instr), .cpy2, .cpyg, .cpyz, .cpyw], ∀ o, Reads (f o) {} := by
  intro f hf o
  fin_cases hf <;> exact .dab rfl (by decide) ⟨rfl, rfl, rfl⟩ fun w m k hd ha hb hs => by
    unfold parse32 parseMajor6C; rw [m, k, hd, ha, hb, hs]; rfl
theorem major6D_dab : ∀ f ∈ [(.decJpeg : DAB → Instr), .decG4, .decPng, .decQuery], ∀ o, Reads (f o) {} := by
  intro f hf o
  fin_cases hf <;> exact .dab rfl (by decide) ⟨rfl, rfl, rfl⟩ fun w m k hd ha hb hs => by
    unfold parse32 parseMajor6D; rw [m, k, hd, ha, hb, hs]; rfl
theorem major6E_ab : ∀ f ∈ [(.swset : AB → Instr), .swarr, .swwait], ∀ o, Reads (f o) {} := by
  intro f hf o
  fin_cases hf <;> exact .ab rfl (by decide) ⟨rfl, rfl, rfl⟩ fun w m k hz ha hb hs => by
    unfold parse32 parseMajor6E; rw [m, k, hz, ha, hb, hs]; rfl
theorem swread (o : DA) : Reads (.swread o) {} :=
  .da rfl (by decide) ⟨rfl, rfl, rfl⟩ fun w m k hd ha hz hs => by
    unfold parse32 parseMajor6E; rw [m, k, hd, ha, hz, hs]; rfl
theorem major72_dab : ∀ f ∈ [(.mmarJ : DAB → Instr), .mmarS], ∀ o, Reads (f o) {} := by
  intro f hf o
  fin_cases hf <;> exact .dab rfl (by decide) ⟨rfl, rfl, rfl⟩ fun w m k hd ha hb hs => by
    unfold parse32 parseMajor72; rw [m, k, hd, ha, hb, hs]; rfl
theorem major73_dab : ∀ f ∈ [(.mmatT : DAB → Instr), .mmatC, .mmatTz, .mmatCz], ∀ o, Reads (f o) {} := by
  intro f hf o
  fin_cases hf <;> exact .dab rfl (by decide) ⟨rfl, rfl, rfl⟩ fun w m k hd ha hb hs => by
    unfold parse32 parseMajor73; rw [m, k, hd, ha, hb, hs]; rfl
theorem mzero (o : DA) : Reads (.mzero o) {} :=
  .da rfl (by decide) ⟨rfl, rfl, rfl⟩ fun w m k hd ha hz hs => by
    unfold parse32 parseMajor74; rw [m, k, hd, ha, hz, hs]; rfl
theorem mquant (o : DAB) : Reads (.mquant o) {} :=
  .dab rfl (by decide) ⟨rfl, rfl, rfl⟩ fun w m k hd ha hb hs => by
    unfold parse32 parseMajor74; rw [m, k, hd, ha, hb, hs]; rfl
theorem mstat (o : D1) : Reads (.mstat o) {} :=
  .dOnly rfl (by decide) ⟨rfl, rfl, rfl⟩ fun w m k hd hz hs => by
    unfold parse32 parseMajor74; rw [m, k, hd, hz, hs]; rfl
theorem major76_da : ∀ f ∈ [(.tderef : DA → Instr), .ttag], ∀ o, Reads (f o) {} := by
  intro f hf o
  fin_cases hf <;> exact .da rfl (by decide) ⟨rfl, rfl, rfl⟩ fun w m k hd ha hz hs => by
    unfold parse32 parseMajor76; rw [m, k, hd, ha, hz, hs]; rfl
theorem major77_ab : ∀ f ∈ [(.tunifyN : AB → Instr), .tunifyOc, .tbind, .tmatch], ∀ o, Reads (f o) {} := by
  intro f hf o
  fin_cases hf <;> exact .ab rfl (by decide) ⟨rfl, rfl, rfl⟩ fun w m k hz ha hb hs => by
    unfold parse32 parseMajor77; rw [m, k, hz, ha, hb, hs]; rfl
theorem tchoice (o : TC) : Reads (.tchoice o) {} :=
  .word rfl rfl (by omega) ⟨rfl, rfl, rfl⟩ fun w h m hs => by
    have ho : fv w 19 13 = o.o := fv_eq_iff.2 (by omega)
    have hm : fv w 11 8 = o.m := fv_eq_iff.2 (by omega)
    unfold parse32 parseMajor78; rw [m, ho, hm, hs]; rfl
theorem major79_noOperand : ∀ f ∈ [(.tfail : Z0 → Instr), .tcut, .tpopcp], ∀ o, Reads (f o) {} := by
  intro f hf o
  fin_cases hf <;> exact .noOperand rfl (by decide) ⟨rfl, rfl, rfl⟩ fun w m k hz hs => by
    unfold parse32 parseMajor79; rw [m, k, hz, hs]; rfl
theorem ttrailtop (o : D1) : Reads (.ttrailtop o) {} :=
  .dOnly rfl (by decide) ⟨rfl, rfl, rfl⟩ fun w m k hd hz hs => by
    unfold parse32 parseMajor79; rw [m, k, hd, hz, hs]; rfl
theorem tfork (o : TF) : Reads (.tfork o) {} :=
  .word rfl rfl (by omega) ⟨rfl, rfl, rfl⟩ fun w h m hs => by
    have k : fld w 29 3 = 0 := by unfold fld; omega
    have hd : fv w 11 6 = o.d := fv_eq_iff.2 (by omega)
    have ha : fv w 17 3 = o.a := fv_eq_iff.2 (by omega)
    have hb : fv w 23 6 = o.b := fv_eq_iff.2 (by omega)
    have z : fld w 20 3 = 0 := by unfold fld; omega
    unfold parse32 parseMajor7A; rw [m, k, hd, ha, hb, z, hs]; rfl
theorem tcommit (o : D1) : Reads (.tcommit o) {} :=
  .dOnly rfl (by decide) ⟨rfl, rfl, rfl⟩ fun w m k hd hz hs => by
    unfold parse32 parseMajor7A; rw [m, k, hd, hz, hs]; rfl
theorem tjoin (o : Z0) : Reads (.tjoin o) {} :=
  .noOperand rfl (by decide) ⟨rfl, rfl, rfl⟩ fun w m k hz hs => by
    unfold parse32 parseMajor7A; rw [m, k, hz, hs]; rfl
theorem major7C_da : ∀ f ∈ [(.launch : DA → Instr), .spawn], ∀ o, Reads (f o) {} := by
  intro f hf o
  fin_cases hf <;> exact .da rfl (by decide) ⟨rfl, rfl, rfl⟩ fun w m k hd ha hz hs => by
    unfold parse32 parseMajor7C; rw [m, k, hd, ha, hz, hs]; rfl
theorem major7C_noOperand : ∀ f ∈ [(.trigger : Z0 → Instr), .bar, .cbar], ∀ o, Reads (f o) {} := by
  intro f hf o
  fin_cases hf <;> exact .noOperand rfl (by decide) ⟨rfl, rfl, rfl⟩ fun w m k hz hs => by
    unfold parse32 parseMajor7C; rw [m, k, hz, hs]; rfl
theorem trap (o : K6) : Reads (.trap o) {} :=
  .dOnly rfl (by decide) ⟨rfl, rfl, rfl⟩ fun w m k hd hz hs => by
    unfold parse32 parseMajor7E; rw [m, k, hd, hz, hs]; rfl
theorem major7E_noOperand : ∀ f ∈ [(.eret : Z0 → Instr), .irge, .bkpt], ∀ o, Reads (f o) {} := by
  intro f hf o
  fin_cases hf <;> exact .noOperand rfl (by decide) ⟨rfl, rfl, rfl⟩ fun w m k hz hs => by
    unfold parse32 parseMajor7E; rw [m, k, hz, hs]; rfl
theorem major7E_dab : ∀ f ∈ [(.chkerr : DAB → Instr), .tlbinv, .harvest], ∀ o, Reads (f o) {} := by
  intro f hf o
  fin_cases hf <;> exact .dab rfl (by decide) ⟨rfl, rfl, rfl⟩ fun w m k hd ha hb hs => by
    unfold parse32 parseMajor7E; rw [m, k, hd, ha, hb, hs]; rfl
theorem irgnGrp (o : Z0) : Reads (.irgnGrp o) {} :=
  .bare rfl rfl ⟨rfl, rfl, rfl⟩ fun w h m hs => by
    have k : fld w 29 3 = 3 := by unfold fld; omega
    have g : fld w 11 1 = 0 := by unfold fld; omega
    have z : fld w 11 18 = 0 := by unfold fld; omega
    unfold parse32 parseMajor7E; rw [m, k, if_pos g, z, hs]; rfl
theorem irgnWg (o : Z0) : Reads (.irgnWg o) {} :=
  .bare rfl rfl ⟨rfl, rfl, rfl⟩ fun w h m hs => by
    have k : fld w 29 3 = 3 := by unfold fld; omega
    have g : fld w 11 1 ≠ 0 := by unfold fld; omega
    have z : fld w 12 17 = 0 := by unfold fld; omega
    unfold parse32 parseMajor7E; rw [m, k, if_neg g, z, hs]; rfl

end Reads

open Reads in
/-- R18 to R24, R44: the unit of every well-formed encoded instruction is a short word or prefixes and a word that read as it. -/
theorem short_or_reads (i : Instr) (wf : i.wf = true) (enc : i.isEncoded = true) : Short i ∨ ∃ px, Reads i px := by
  cases i with
  | vmov16 o | vaddI3216 o | vsubI3216 o | vand16 o | vor16 o | vxor16 o | vshl16 o | vshrN16 o | vshrI16 o
    | vmulLo16 o | vaddF3216 o | vsubF3216 o | vmulF3216 o | vmaxF3216 o | vminF3216 o | vmovs16 o
    => exact .inl (short_forms _ (by simp) o)
  | sadd o | ssub o | smul o | smulhI o | smulhN o | saddc o | ssubb o => exact .inr ⟨_, major00_dab _ (by simp) o⟩
  | sneg o => exact .inr ⟨_, sneg o⟩
  | sand o | sor o | sxor o | sandn o | sshl o | sshrN o | sshrI o | srotl o
    => exact .inr ⟨_, major01_dab _ (by simp) o⟩
  | sminI o | smaxI o | sminN o | smaxN o | ssel o => exact .inr ⟨_, major02_dab _ (by simp) o⟩
  | spopc o | sclz o | sbrev o => exact .inr ⟨_, major02_da _ (by simp) o⟩
  | seq o | sne o | sltI o | sleI o | sltN o | sleN o | stst o => exact .inr ⟨_, major03_ab _ (by simp) o⟩
  | saddi o => exact .inr ⟨_, saddi o⟩
  | sandi o => exact .inr ⟨_, sandi o⟩
  | sori o => exact .inr ⟨_, sori o⟩
  | sxori o => exact .inr ⟨_, sxori o⟩
  | sshli o => exact .inr ⟨_, sshli o⟩
  | sshriN o => exact .inr ⟨_, sshriN o⟩
  | sshriI o => exact .inr ⟨_, sshriI o⟩
  | sli o => exact .inr ⟨_, sli o⟩
  | scmpi o => exact .inr ⟨_, scmpi o⟩
  | sbfeN o | sbfeI o | sbfi o => exact .inr ⟨_, major0D_dab _ (by simp) o⟩
  | sgetr o => exact .inr ⟨_, sgetr o⟩
  | ssetr o => exact .inr ⟨_, ssetr o⟩
  | srdlane o | swrlane o => exact .inr ⟨_, major0F_dab _ (by simp) o⟩
  | sfirst o => exact .inr ⟨_, sfirst o⟩
  | bra o => exact .inr ⟨_, bra o⟩
  | bscc o => exact .inr ⟨_, bscc o⟩
  | bnscc o => exact .inr ⟨_, bnscc o⟩
  | bz o => exact .inr ⟨_, bz o⟩
  | bnz o => exact .inr ⟨_, bnz o⟩
  | call o => exact .inr ⟨_, call o⟩
  | nop o | ret o | exit o | yield o => exact .inr ⟨_, major14_noOperand _ (by simp) o⟩
  | sleep o => exact .inr ⟨_, sleep o⟩
  | elect o | electw o => exact .inr ⟨_, major14_pOnly _ (by simp) o⟩
  | jtab o => exact .inr ⟨_, jtab o⟩
  | lpad o => exact .inr ⟨_, lpad o⟩
  | sigchk o => exact .inr ⟨_, sigchk o⟩
  | vif o => exact .inr ⟨_, vif o⟩
  | velse o => exact .inr ⟨_, velse o⟩
  | vend o => exact .inr ⟨_, vend o⟩
  | vloop o => exact .inr ⟨_, vloop o⟩
  | vbrk o => exact .inr ⟨_, vbrk o⟩
  | vcont o => exact .inr ⟨_, vcont o⟩
  | vendl o => exact .inr ⟨_, vendl o⟩
  | wait o => exact .inr ⟨_, wait o⟩
  | vaddI32 o | vsubI32 o | vmulLo o | vmulhI o | vmulhN o | vaddsI o | vsubsI o | vabsdI o
    => exact .inr ⟨_, major20_dab _ (by simp) o⟩
  | vand o | vor o | vxor o | vandn o | vshl o | vshrN o | vshrI o | vrotl o
    => exact .inr ⟨_, major21_dab _ (by simp) o⟩
  | vminI o | vmaxI o | vminN o | vmaxN o => exact .inr ⟨_, major22_dab _ (by simp) o⟩
  | vpopc o | vclz o | vbrev o => exact .inr ⟨_, major22_da _ (by simp) o⟩
  | vmov o => exact .inr ⟨_, vmov o⟩
  | vcmp o => exact .inr ⟨_, vcmp o (of_decide_eq_true (Bool.and_eq_true_iff.1 wf).2)⟩
  | vsel o => exact .inr ⟨_, vsel o⟩
  | vbfeN o | vbfeI o | vbfi o | vpermb o => exact .inr ⟨_, major25_dab _ (by simp) o⟩
  | vaddi o => exact .inr ⟨_, vaddi o⟩
  | vandi o => exact .inr ⟨_, vandi o⟩
  | vori o => exact .inr ⟨_, vori o⟩
  | vxori o => exact .inr ⟨_, vxori o⟩
  | vshli o => exact .inr ⟨_, vshli o⟩
  | vshriN o => exact .inr ⟨_, vshriN o⟩
  | vshriI o => exact .inr ⟨_, vshriI o⟩
  | vli o => exact .inr ⟨_, vli o⟩
  | vcmpi o => exact .inr ⟨_, vcmpi o⟩
  | vaddS o | vmulS o | vandS o | vshlS o | vshrSN o | vmadS o => exact .inr ⟨_, major2F_dab _ (by simp) o⟩
  | vmovs o => exact .inr ⟨_, vmovs o⟩
  | vlaneid o => exact .inr ⟨_, vlaneid o⟩
  | vaddI64 o | vsubI64 o | vshlI64 o | vshrN64 o | vshrI64 o | vmulwI o | vmulwN o
    => exact .inr ⟨_, major30_dab _ (by simp) o⟩
  | vaddF32 o | vsubF32 o | vmulF32 o | vfmaF32 o | vfmsF32 o | vfnmaF32 o | vminF32 o | vmaxF32 o
    => exact .inr ⟨_, major38_dab _ (by simp) o⟩
  | vabsF32 o | vnegF32 o | vclass o | vrint o | vfract o | vgetexp o => exact .inr ⟨_, major39_da _ (by simp) o⟩
  | vcopysign o | vscalb o => exact .inr ⟨_, major39_dab _ (by simp) o⟩
  | vcmpf o => exact .inr ⟨_, vcmpf o⟩
  | vaddBf2 o | vsubBf2 o | vmulBf2 o | vfmaBf2 o | vminBf2 o | vmaxBf2 o | vdot2Bf o
    => exact .inr ⟨_, major3B_dab _ (by simp) o⟩
  | vaddF32S o | vmulF32S o | vfmaF32S o | vminF32S o | vmaxF32S o => exact .inr ⟨_, major3C_dab _ (by simp) o⟩
  | vrcpA o | vrsqA o | vex2A o | vlg2A o | vsinA o | vcosA o | vtanhA o | vsqrt o
    => exact .inr ⟨_, major3D_da _ (by simp) o⟩
  | vdivF32 o => exact .inr ⟨_, vdivF32 o⟩
  | vrand o => exact .inr ⟨_, vrand o⟩
  | vseed o => exact .inr ⟨_, vseed o⟩
  | vunpk o => exact .inr ⟨_, vunpk o⟩
  | vunpk2 o => exact .inr ⟨_, vunpk2 o⟩
  | vpack o => exact .inr ⟨_, vpack o⟩
  | vpack2 o => exact .inr ⟨_, vpack2 o⟩
  | vmxscale o => exact .inr ⟨_, vmxscale o⟩
  | vscaleE8 o | vscaleE8Inv o => exact .inr ⟨_, major53_dab _ (by simp) o⟩
  | vcvt o => exact .inr ⟨_, vcvt o (Bool.and_eq_true_iff.1 wf).2⟩
  | pand o => exact .inr ⟨_, pand o⟩
  | por o => exact .inr ⟨_, por o⟩
  | pxor o => exact .inr ⟨_, pxor o⟩
  | pandn o => exact .inr ⟨_, pandn o⟩
  | pnot o => exact .inr ⟨_, pnot o⟩
  | pmov o => exact .inr ⟨_, pmov o⟩
  | pset o | pclr o => exact .inr ⟨_, major58_pOnly _ (by simp) o⟩
  | ptos o => exact .inr ⟨_, ptos o⟩
  | pfroms o => exact .inr ⟨_, pfroms o⟩
  | pcnt o => exact .inr ⟨_, pcnt o⟩
  | pany o => exact .inr ⟨_, pany o⟩
  | pall o => exact .inr ⟨_, pall o⟩
  | pfirst o => exact .inr ⟨_, pfirst o⟩
  | vldLine o => exact .inr ⟨_, vldLine o⟩
  | vld o => exact .inr ⟨_, vld o (bne_iff_ne.1 (Bool.and_eq_true_iff.1 wf).2)⟩
  | vst o => exact .inr ⟨_, vst o (Bool.and_eq_true_iff.1 wf).2⟩
  | vldNr o => exact .inr ⟨_, vldNr o (Bool.and_eq_true_iff.1 wf).2⟩
  | vldi o => exact .inr ⟨_, vldi o⟩
  | vsti o => exact .inr ⟨_, vsti o (Bool.and_eq_true_iff.1 wf).2⟩
  | sld o => exact .inr ⟨_, sld o (Bool.and_eq_true_iff.1 wf).2⟩
  | sst o => exact .inr ⟨_, sst o (Bool.and_eq_true_iff.1 wf).2⟩
  | fenceOpr o => exact .inr ⟨_, fenceOpr o⟩
  | fenceH o => exact .inr ⟨_, fenceH o⟩
  | fence o => exact .inr ⟨_, fence o⟩
  | cinv o | cwb o | cflush o | vpref o | pagereq o => exact .inr ⟨_, major64_ab _ (by simp) o⟩
  | llock o => exact .inr ⟨_, llock o⟩
  | ltry o | lunlock o | lquery o | lbreak o => exact .inr ⟨_, major65_da _ (by simp) o⟩
  | hdecl o | hquery o => exact .inr ⟨_, major66_da _ (by simp) o⟩
  | hend o | hdrain o => exact .inr ⟨_, major66_aOnly _ (by simp) o⟩
  | haddF32 o | haddI32 o | hldF32 o | hldI32 o => exact .inr ⟨_, major67_dab _ (by simp) o⟩
  | vatomAddI32 o | vatomAddF32 o | vatomAddBf2 o | vatomMinI o | vatomMaxI o | vatomAnd o | vatomOr o | vatomXchg o
    => exact .inr ⟨_, major68_dab _ (by simp) o⟩
  | vatom2MinN o | vatom2MaxN o | vatom2Xor o | vatom2AddI64 o | vatom2Xchg64 o | vatom2MinF32 o | vatom2MaxF32 o
    => exact .inr ⟨_, major69_dab _ (by simp) o⟩
  | vcas32 o | vcas64 o | vcas128 o => exact .inr ⟨_, major6A_dab _ (by simp) o⟩
  | satomAddI32 o | satomXchg o | satomCas32 o | satomCas64 o | satomCas128 o | satomAddI64 o | satomOr o
    | satomAnd o => exact .inr ⟨_, major6B_da _ (by simp) o⟩
  | cpy o | cpy2 o | cpyg o | cpyz o | cpyw o => exact .inr ⟨_, major6C_dab _ (by simp) o⟩
  | decJpeg o | decG4 o | decPng o | decQuery o => exact .inr ⟨_, major6D_dab _ (by simp) o⟩
  | swset o | swarr o | swwait o => exact .inr ⟨_, major6E_ab _ (by simp) o⟩
  | swread o => exact .inr ⟨_, swread o⟩
  | mmarJ o | mmarS o => exact .inr ⟨_, major72_dab _ (by simp) o⟩
  | mmatT o | mmatC o | mmatTz o | mmatCz o => exact .inr ⟨_, major73_dab _ (by simp) o⟩
  | mzero o => exact .inr ⟨_, mzero o⟩
  | mquant o => exact .inr ⟨_, mquant o⟩
  | mstat o => exact .inr ⟨_, mstat o⟩
  | tderef o | ttag o => exact .inr ⟨_, major76_da _ (by simp) o⟩
  | tunifyN o | tunifyOc o | tbind o | tmatch o => exact .inr ⟨_, major77_ab _ (by simp) o⟩
  | tchoice o => exact .inr ⟨_, tchoice o⟩
  | tfail o | tcut o | tpopcp o => exact .inr ⟨_, major79_noOperand _ (by simp) o⟩
  | ttrailtop o => exact .inr ⟨_, ttrailtop o⟩
  | tfork o => exact .inr ⟨_, tfork o⟩
  | tcommit o => exact .inr ⟨_, tcommit o⟩
  | tjoin o => exact .inr ⟨_, tjoin o⟩
  | launch o | spawn o => exact .inr ⟨_, major7C_da _ (by simp) o⟩
  | trigger o | bar o | cbar o => exact .inr ⟨_, major7C_noOperand _ (by simp) o⟩
  | trap o => exact .inr ⟨_, trap o⟩
  | eret o | irge o | bkpt o => exact .inr ⟨_, major7E_noOperand _ (by simp) o⟩
  | chkerr o | tlbinv o | harvest o => exact .inr ⟨_, major7E_dab _ (by simp) o⟩
  | irgnGrp o => exact .inr ⟨_, irgnGrp o⟩
  | irgnWg o => exact .inr ⟨_, irgnWg o⟩
  | _ => cases enc

/-! #### Units: prefixes, and the word that ends them (R28, R29, R43) -/

theorem mod_add_halves (w : Nat) : w % 65536 + 65536 * (w / 65536) = w := Nat.mod_add_div w 65536

theorem decodeFrom_prefix {n k w : Nat} {px px' : Pfx} {hs : List Nat} (odd : w % 2 = 1) (h : wordKind px w = .more px') :
    decodeFrom (n + 1) px k (halves w ++ hs) = decodeFrom n px' (k + 2) hs := by
  simp only [halves, List.cons_append, List.nil_append, decodeFrom, mod_add_halves, h]
  rw [if_neg (by omega)]

theorem decodeFrom_last {n k w : Nat} {px : Pfx} {hs : List Nat} {i : Instr} (odd : w % 2 = 1) (h : wordKind px w = .last)
    (d : decode32 px w = .ok i) : decodeFrom (n + 1) px k (halves w ++ hs) = .ok (i, k + 2) := by
  simp only [halves, List.cons_append, List.nil_append, decodeFrom, mod_add_halves, h, d]
  rw [if_neg (by omega)]

theorem limmWord_odd (l : BitVec 24) : limmWord l % 2 = 1 := by unfold limmWord; omega
theorem routeWord_odd (r : Route) : routeWord r % 2 = 1 := by unfold routeWord; omega
theorem mqWord_odd (q : MQ) : mqWord q % 2 = 1 := by unfold mqWord; omega

theorem wordKind_limmWord {px : Pfx} (h : px.limm = none) (l : BitVec 24) :
    wordKind px (limmWord l) = .more { px with limm := some l } := by
  have major : majorOf (limmWord l) = 0x1D := by unfold majorOf limmWord; omega
  have value : limmOfWord (limmWord l) = l := by
    apply BitVec.eq_of_toNat_eq
    simp only [limmOfWord, BitVec.toNat_ofNat, fld, limmWord]
    omega
  simp [wordKind, major, value, h]

theorem wordKind_routeWord {px : Pfx} (h : px.rt = none) (r : Route) :
    wordKind px (routeWord r) = .more { px with rt := some r } := by
  have major : majorOf (routeWord r) = 0x1C := by unfold majorOf routeWord; omega
  have a : fv (routeWord r) 11 9 = r.a := fv_eq_iff.2 (by unfold routeWord; omega)
  have b : fv (routeWord r) 20 9 = r.b := fv_eq_iff.2 (by unfold routeWord; omega)
  have zero : fld (routeWord r) 29 3 = 0 ∧ fld (routeWord r) 1 3 = 0 := by unfold fld routeWord; omega
  simp [wordKind, major, h, routeOfWord, a, b, zero]

theorem wordKind_mqWord {px : Pfx} (h : px.mq = none) (q : MQ) : wordKind px (mqWord q) = .more { px with mq := some q } := by
  have major : majorOf (mqWord q) = 0x1E := by unfold majorOf mqWord; omega
  have place : fv (mqWord q) 27 2 = q.place := fv_eq_iff.2 (by unfold mqWord; omega)
  have tol : fv (mqWord q) 20 7 = q.tol := fv_eq_iff.2 (by unfold mqWord; omega)
  have ord : fv (mqWord q) 18 2 = q.ord := fv_eq_iff.2 (by unfold mqWord; omega)
  have scope : fv (mqWord q) 15 3 = q.scope := fv_eq_iff.2 (by unfold mqWord; omega)
  have slice : fv (mqWord q) 13 2 = q.slice := fv_eq_iff.2 (by unfold mqWord; omega)
  have l1 : fv (mqWord q) 11 2 = q.l1 := fv_eq_iff.2 (by unfold mqWord; omega)
  have zero : fld (mqWord q) 29 3 = 0 ∧ fld (mqWord q) 1 3 = 0 := by unfold fld mqWord; omega
  simp [wordKind, major, h, mqOfWord, place, tol, ord, scope, slice, l1, zero]

/-- The prefixes of a unit are collected, each at the cost of one word of fuel. -/
theorem decodeFrom_pfxWords (l : Option (BitVec 24)) (r : Option Route) (q : Option MQ) (hs : List Nat) :
    decodeFrom 4 {} 0 (pfxWords l r q ++ hs)
      = decodeFrom (4 - (pfxWords l r q).length / 2) { limm := l, rt := r, mq := q } (pfxWords l r q).length hs := by
  cases l <;> cases r <;> cases q <;>
    simp [pfxWords, decodeFrom_prefix, wordKind_limmWord, wordKind_routeWord, wordKind_mqWord, limmWord_odd, routeWord_odd, mqWord_odd]

theorem pfxWords_length_le (l : Option (BitVec 24)) (r : Option Route) (q : Option MQ) : (pfxWords l r q).length ≤ 6 := by
  cases l <;> cases r <;> cases q <;> simp [pfxWords]

/-- A word that reads as an instruction is of an assigned major, so it ends its unit (R28, R51). -/
theorem parse32_assigned {w : Nat} {px : Pfx} {x : Instr × Nat} (h : parse32 w px = some x) :
    reservedMajor (majorOf w) = false ∧ ∀ px, wordKind px w = .last := by
  unfold parse32 at h
  unfold wordKind
  generalize majorOf w = m at *
  split at h
  case h_89 => cases h
  all_goals exact ⟨rfl, fun _ => rfl⟩

theorem Reads.decode32_eq {i : Instr} {px : Pfx} (h : Reads i px) (wf : i.wf = true) : decode32 px (wordOf i) = .ok i := by
  simp [decode32, h.accepts, (parse32_assigned h.parse).1, h.parse, h.zero, wf]

theorem Short.decodeUnit_encode {i : Instr} (h : Short i) (rest : List Nat) :
    decodeUnit (encode i ++ rest) = .ok (i, (encode i).length) := by
  simp [h.unit, decodeUnit, decodeFrom, h.even, Pfx.isEmpty, h.parse]

theorem Reads.decodeUnit_encode {i : Instr} {px : Pfx} (h : Reads i px) (wf : i.wf = true) (rest : List Nat) :
    decodeUnit (encode i ++ rest) = .ok (i, (encode i).length) := by
  have le := pfxWords_length_le px.limm px.rt px.mq
  have px_eq : ({ limm := px.limm, rt := px.rt, mq := px.mq } : Pfx) = px := by rw [← h.zero]
  obtain ⟨n, hn⟩ : ∃ n, 4 - (pfxWords px.limm px.rt px.mq).length / 2 = n + 1 := ⟨_, (Nat.sub_add_cancel (by omega)).symm⟩
  rw [decodeUnit, h.unit, List.append_assoc, decodeFrom_pfxWords, hn, px_eq,
    decodeFrom_last h.odd ((parse32_assigned h.parse).2 px) (h.decode32_eq wf), List.length_append, length_halves]

theorem decodeUnit_encode (i : Instr) (rest : List Nat) (wf : i.wf = true) (enc : i.isEncoded = true) :
    decodeUnit (encode i ++ rest) = .ok (i, (encode i).length) := by
  rcases short_or_reads i wf enc with h | ⟨px, h⟩
  · exact h.decodeUnit_encode rest
  · exact h.decodeUnit_encode wf rest

/-- Two readings of one list of halfwords are the same: the decoder has one answer, and it says where the unit ends. -/
theorem unit_unique {i j : Instr} {r q : List Nat} (wi : i.wf = true) (wj : j.wf = true) (ei : i.isEncoded = true)
    (ej : j.isEncoded = true) (h : encode i ++ r = encode j ++ q) : i = j ∧ r = q := by
  have same : i = j := by
    have hi := decodeUnit_encode i r wi ei
    rw [h, decodeUnit_encode j q wj ej] at hi
    injection hi with hi
    exact (Prod.ext_iff.1 hi).1.symm
  subst same
  exact ⟨rfl, List.append_cancel_left h⟩

/-- Settles O53: every unit decodes to its instruction, by the format of its word and the prefixes before it; that units are told apart
follows, since the decoder is a function. -/
theorem encodeRoundTrip : Obligations.EncodeRoundTrip :=
  ⟨fun i rest wf enc => decodeUnit_encode i rest wf enc, fun _ _ _ _ wi wj ei ej h => unit_unique wi wj ei ej h⟩

/-- Settles O54: the decoder evaluated at each word. -/
theorem decodedWords : Obligations.DecodedWords := by
  unfold Obligations.DecodedWords
  refine ⟨?_, ?_, ?_, ?_, ?_, ?_, ?_⟩ <;> decide

end Sys2Proof.Encoding

/-! ### Lane operations as units (R119): one rule per operand form -/

namespace Sys2Proof.LaneForms

open Sys2Proof.Machine

/-- The poison of a list of operands is clear of a mask when that of each operand is. -/
theorem foldl_poison_clean {m p : Mask} {xs : List Opd} (hp : p &&& m = 0) (h : ∀ o ∈ xs, o.pz &&& m = 0) :
    xs.foldl (fun p o => p ||| o.pz) p &&& m = 0 := by
  induction xs generalizing p with
  | nil => exact hp
  | cons x xs ih =>
    obtain ⟨hx, hxs⟩ := List.forall_mem_cons.1 h
    have next : (p ||| x.pz) &&& m = 0 := by
      rw [BitVec.and_comm, BitVec.and_or_distrib_left, BitVec.and_comm m p, BitVec.and_comm m x.pz, hp, hx]
      rfl
    exact ih next hxs

/-- An instruction that runs a lane operation gives its lanes. -/
theorem givesLanes_run {op : LaneOp} (row : op.RowOk) {i : Instr} {s : State} {st len d : Nat} (hd : d < 64)
    {refs : Group → Nat → List Ref} {os : Group → Nat → List Opd} (e : exec i s = op.run st len d refs os s) :
    s.GivesLanes i op.cls len st op.lat d (refs s.g s.clock) (os s.g s.clock) op.f := by
  intro formed issues active clean room
  rw [e]
  exact op.run_next row formed hd active issues (foldl_poison_clean BitVec.zero_and clean) room

theorem lenR_eq (r : Option Route) : lenR r = if r.isSome then 8 else 4 := by
  cases r <;> rfl

section
variable {op : LaneOp} (row : op.RowOk) {fl : Bool} {i : Instr} {s : State} {f : List Word → FRes}
include row

/-! The V3 forms of two vector sources, with d as a third, and of one (R119), and the 16-bit form (R19); then the forms of two
sources and of one that do not read %fmt. -/

theorem givesLanes_ab {o : RDAB} (e : exec i s = op.ab fl o s) (hf : op.f = f) :
    s.GivesLanes i op.cls (if o.rt.isSome then 8 else 4) o.st.toNat op.lat o.d.toNat (s.refs o ++ fmtRefs fl) (s.srcs o) f := by
  rw [← lenR_eq, ← hf]
  exact givesLanes_run row o.d.isLt e

theorem givesLanes_abd {o : RDAB} (e : exec i s = op.abd fl o s) (hf : op.f = f) :
    s.GivesLanes i op.cls (if o.rt.isSome then 8 else 4) o.st.toNat op.lat o.d.toNat (s.refs o ++ ([.v o.d.toNat] ++ fmtRefs fl))
      (s.srcs o ++ [s.g.opd s.clock o.d.toNat 0]) f := by
  rw [← lenR_eq, ← hf, ← List.append_assoc]
  exact givesLanes_run row o.d.isLt e

theorem givesLanes_un {o : RDA} (e : exec i s = op.un fl o s) (hf : op.f = f) :
    s.GivesLanes i op.cls (if o.rt.isSome then 8 else 4) o.st.toNat op.lat o.d.toNat
      (s.g.opdRefs s.clock o.a.toNat (rtA o.rt) ++ fmtRefs fl) [s.g.opd s.clock o.a.toNat (rtA o.rt)] f := by
  rw [← lenR_eq, ← hf]
  exact givesLanes_run row o.d.isLt e

theorem givesLanes_h16 {o : H16} (e : exec i s = op.h16 fl o s) (hf : op.f = f) :
    s.GivesLanes i op.cls 2 (if o.st = 1 then 3 else 0) op.lat o.d.toNat ([.v o.d.toNat, .v o.b.toNat] ++ fmtRefs fl)
      [s.g.opd s.clock o.d.toNat 0, s.g.opd s.clock o.b.toNat 0] f := by
  rw [← hf]
  exact givesLanes_run row (by have := o.d.isLt; omega) e

theorem givesLanes_ab_noFmt {o : RDAB} (e : exec i s = op.ab false o s) (hf : op.f = f) :
    s.GivesLanes i op.cls (if o.rt.isSome then 8 else 4) o.st.toNat op.lat o.d.toNat (s.refs o) (s.srcs o) f := by
  rw [← List.append_nil (s.refs o)]
  exact givesLanes_ab row e hf

theorem givesLanes_un_noFmt {o : RDA} (e : exec i s = op.un false o s) (hf : op.f = f) :
    s.GivesLanes i op.cls (if o.rt.isSome then 8 else 4) o.st.toNat op.lat o.d.toNat
      (s.g.opdRefs s.clock o.a.toNat (rtA o.rt)) [s.g.opd s.clock o.a.toNat (rtA o.rt)] f := by
  rw [← List.append_nil (s.g.opdRefs s.clock o.a.toNat (rtA o.rt))]
  exact givesLanes_un row e hf

end

/-! #### Functions of words as lane results -/

theorem fn1_congr {f g : Word → Word} (h : ∀ x, f x = g x) : fn1 f = fn1 g :=
  congrArg fn1 (funext h)
theorem fn2_congr {f g : Word → Word → Word} (h : ∀ x y, f x y = g x y) : fn2 f = fn2 g :=
  congrArg fn2 (funext₂ h)

/-! #### Affine rows (R122): in every lane the row is what the operation gives there -/

theorem affine?_lane {a : VOp} {b d : Word} (h : a.affine? = some (b, d)) (l : Nat) : a.lane l = b + d * BitVec.ofNat 32 l := by
  cases a with
  | uniform x => cases h; simp [VOp.lane]
  | affine x e => cases h; rfl
  | general ls => cases h

theorem intOp_rowOk_none (f : List Word → FRes) : (intOp affNone f).RowOk :=
  LaneOp.rowOk_none _ rfl

/-- A row of two operands that gives the lane function of their words in every lane. -/
theorem intOp_rowOk {aff : List VOp → Option VOp} {g : Word → Word → Word}
    (h : ∀ ws v, aff ws = some v → ∃ a b, ws = [a, b] ∧ ∀ l, v.lane l = g (a.lane l) (b.lane l)) : (intOp aff (fn2 g)).RowOk := by
  intro xs v hv l
  obtain ⟨a, b, hab, hl⟩ := h _ v hv
  obtain ⟨x, y, rfl⟩ : ∃ x y, xs = [x, y] := List.length_eq_two.1 (by simpa using congrArg List.length hab)
  obtain ⟨rfl, rfl⟩ : x.val = a ∧ y.val = b := by simpa using hab
  exact ⟨(hl l).trans (by simp [intOp, lanesAt, fn2, FRes.ok]), rfl, rfl⟩

theorem affAdd_lane (ws : List VOp) (v : VOp) (h : affAdd ws = some v) :
    ∃ a b, ws = [a, b] ∧ ∀ l, v.lane l = a.lane l + b.lane l := by
  unfold affAdd at h
  split at h
  next => cases h
  next a b _ =>
    split at h
    next x d y e ha hb =>
      cases h
      refine ⟨a, b, rfl, fun l => ?_⟩
      rw [affine?_lane ha, affine?_lane hb, VOp.lane]
      ring
    next => cases h
  next => cases h

theorem affSub_lane (ws : List VOp) (v : VOp) (h : affSub ws = some v) :
    ∃ a b, ws = [a, b] ∧ ∀ l, v.lane l = a.lane l - b.lane l := by
  unfold affSub at h
  split at h
  next => cases h
  next a b _ =>
    split at h
    next x d y e ha hb =>
      cases h
      refine ⟨a, b, rfl, fun l => ?_⟩
      rw [affine?_lane ha, affine?_lane hb, VOp.lane]
      ring
    next => cases h
  next => cases h

theorem affMul_lane (ws : List VOp) (v : VOp) (h : affMul ws = some v) :
    ∃ a b, ws = [a, b] ∧ ∀ l, v.lane l = a.lane l * b.lane l := by
  unfold affMul at h
  split at h
  next => cases h; exact ⟨_, _, rfl, fun l => by simp only [VOp.lane]; ring⟩
  next => cases h; exact ⟨_, _, rfl, fun l => by simp only [VOp.lane]; ring⟩
  next => cases h

/-- A left shift multiplies by a power of two, so it goes through an affine form. -/
theorem shl_affine (x d u k : Word) : shl x u + shl d u * k = shl (x + d * k) u := by
  simp only [shl, BitVec.shiftLeft_eq_mul_twoPow]
  ring

theorem affShl_lane (ws : List VOp) (v : VOp) (h : affShl ws = some v) :
    ∃ a b, ws = [a, b] ∧ ∀ l, v.lane l = shl (a.lane l) (b.lane l) := by
  unfold affShl at h
  split at h
  next =>
    split at h
    next => cases h; exact ⟨_, _, rfl, fun l => shl_affine ..⟩
    next => cases h
  next => cases h

theorem opAdd_rowOk : opAdd.RowOk := intOp_rowOk affAdd_lane
theorem opSub_rowOk : opSub.RowOk := intOp_rowOk affSub_lane
theorem opMul_rowOk : opMul.RowOk := intOp_rowOk affMul_lane
theorem opShl_rowOk : opShl.RowOk := intOp_rowOk affShl_lane

/-! #### The words the integer functions give (R123, R126) -/

theorem shl_eq (x y : Word) : shl x y = if y.toNat % 64 < 32 then x <<< (y.toNat % 64) else 0 := by
  unfold shl
  split
  · rfl
  · exact BitVec.shiftLeft_eq_zero (by omega)

theorem shrN_eq (x y : Word) : shrN x y = if y.toNat % 64 < 32 then x >>> (y.toNat % 64) else 0 := by
  unfold shrN
  split
  · rfl
  · exact BitVec.ushiftRight_eq_zero (by omega)

/-- An arithmetic shift by the width and more leaves the sign in every bit. -/
theorem sshiftRight_of_le {w n : Nat} (x : BitVec w) (h : w ≤ n) : x.sshiftRight n = if x.msb then BitVec.allOnes w else 0 := by
  apply BitVec.eq_of_getLsbD_eq
  intro k hk
  rw [BitVec.getLsbD_sshiftRight]
  cases x.msb <;> simp [hk] <;> omega

theorem shrI_eq (x y : Word) :
    shrI x y = if y.toNat % 64 < 32 then x.sshiftRight (y.toNat % 64) else if x.msb then 0xFFFFFFFF else 0 := by
  unfold shrI
  split
  · rfl
  · exact sshiftRight_of_le x (by omega)

theorem minI_eq (x y : Word) : minI x y = if x.toInt ≤ y.toInt then x else y := by
  simp only [minI, BitVec.sle_iff_toInt_le]
theorem maxI_eq (x y : Word) : maxI x y = if x.toInt ≤ y.toInt then y else x := by
  simp only [maxI, BitVec.sle_iff_toInt_le]
theorem minN_eq (x y : Word) : minN x y = if x.toNat ≤ y.toNat then x else y := by
  simp only [minN, BitVec.ule_iff_toNat_le]
theorem maxN_eq (x y : Word) : maxN x y = if x.toNat ≤ y.toNat then y else x := by
  simp only [maxN, BitVec.ule_iff_toNat_le]

/-- R42: the model's saturation is the one R123 names. -/
theorem satWord_eq (v : Int) : satWord v = saturated v := by
  have above : 2147483647 < v ↔ 2 ^ 31 ≤ v := by omega
  simp only [satWord, above]
  rfl

theorem satSum_eq (g : Int → Int → Int) :
    satSum g = fun ws => match ws with | [x, y] => saturated (g x.toInt y.toInt) | _ => .ok 0 := by
  funext ws
  match ws with
  | [] => rfl
  | [_] => rfl
  | [x, y] => exact satWord_eq _
  | _ :: _ :: _ :: _ => rfl

/-! #### The tables of the integer forms -/

theorem givesLanes_laneInt : ∀ c ∈ laneInt, ∀ (o : RDAB) (s : State),
    s.GivesLanes (c.1 o) .vec (if o.rt.isSome then 8 else 4) o.st.toNat 4 o.d.toNat (s.refs o) (s.srcs o) (fn2 c.2) := by
  simp only [laneInt, List.forall_mem_cons]
  exact ⟨fun o s => givesLanes_ab_noFmt opAdd_rowOk (exec_vaddI32 o s) rfl,
    fun o s => givesLanes_ab_noFmt opSub_rowOk (exec_vsubI32 o s) rfl,
    fun o s => givesLanes_ab_noFmt opMul_rowOk (exec_vmulLo o s) rfl,
    fun o s => givesLanes_ab_noFmt (intOp_rowOk_none _) (exec_vmulhI o s) rfl,
    fun o s => givesLanes_ab_noFmt (intOp_rowOk_none _) (exec_vmulhN o s) rfl,
    fun o s => givesLanes_ab_noFmt (intOp_rowOk_none _) (exec_vabsdI o s) rfl,
    fun o s => givesLanes_ab_noFmt (intOp_rowOk_none _) (exec_vand o s) rfl,
    fun o s => givesLanes_ab_noFmt (intOp_rowOk_none _) (exec_vor o s) rfl,
    fun o s => givesLanes_ab_noFmt (intOp_rowOk_none _) (exec_vxor o s) rfl,
    fun o s => givesLanes_ab_noFmt (intOp_rowOk_none _) (exec_vandn o s) rfl,
    fun o s => givesLanes_ab_noFmt opShl_rowOk (exec_vshl o s) (fn2_congr shl_eq),
    fun o s => givesLanes_ab_noFmt (intOp_rowOk_none _) (exec_vshrN o s) (fn2_congr shrN_eq),
    fun o s => givesLanes_ab_noFmt (intOp_rowOk_none _) (exec_vshrI o s) (fn2_congr shrI_eq),
    fun o s => givesLanes_ab_noFmt (intOp_rowOk_none _) (exec_vrotl o s) rfl,
    fun o s => givesLanes_ab_noFmt (intOp_rowOk_none _) (exec_vminI o s) (fn2_congr minI_eq),
    fun o s => givesLanes_ab_noFmt (intOp_rowOk_none _) (exec_vmaxI o s) (fn2_congr maxI_eq),
    fun o s => givesLanes_ab_noFmt (intOp_rowOk_none _) (exec_vminN o s) (fn2_congr minN_eq),
    fun o s => givesLanes_ab_noFmt (intOp_rowOk_none _) (exec_vmaxN o s) (fn2_congr maxN_eq),
    fun o s => givesLanes_ab_noFmt (intOp_rowOk_none _) (exec_vbfeN o s) rfl,
    fun o s => givesLanes_ab_noFmt (intOp_rowOk_none _) (exec_vbfeI o s) rfl,
    fun o s => givesLanes_ab_noFmt (intOp_rowOk_none _) (exec_vpermb o s) rfl, nofun⟩

theorem givesLanes_laneUnary : ∀ c ∈ laneUnary, ∀ (o : RDA) (s : State),
    s.GivesLanes (c.1 o) .vec (if o.rt.isSome then 8 else 4) o.st.toNat 4 o.d.toNat (s.g.opdRefs s.clock o.a.toNat (rtA o.rt))
      [s.g.opd s.clock o.a.toNat (rtA o.rt)] (fn1 c.2) := by
  simp only [laneUnary, List.forall_mem_cons]
  exact ⟨fun o s => givesLanes_un_noFmt (intOp_rowOk_none _) (exec_vpopc o s) rfl,
    fun o s => givesLanes_un_noFmt (intOp_rowOk_none _) (exec_vclz o s) rfl,
    fun o s => givesLanes_un_noFmt (intOp_rowOk_none _) (exec_vbrev o s) rfl, nofun⟩

theorem givesLanes_laneShort : ∀ c ∈ laneShort, ∀ (o : H16) (s : State),
    s.GivesLanes (c.1 o) .vec 2 (if o.st = 1 then 3 else 0) 4 o.d.toNat [.v o.d.toNat, .v o.b.toNat]
      [s.g.opd s.clock o.d.toNat 0, s.g.opd s.clock o.b.toNat 0] (fn2 c.2) := by
  simp only [laneShort, List.forall_mem_cons]
  exact ⟨fun o s => givesLanes_h16 opAdd_rowOk (exec_vaddI3216 o s) rfl,
    fun o s => givesLanes_h16 opSub_rowOk (exec_vsubI3216 o s) rfl,
    fun o s => givesLanes_h16 (intOp_rowOk_none _) (exec_vand16 o s) rfl,
    fun o s => givesLanes_h16 (intOp_rowOk_none _) (exec_vor16 o s) rfl,
    fun o s => givesLanes_h16 (intOp_rowOk_none _) (exec_vxor16 o s) rfl,
    fun o s => givesLanes_h16 opMul_rowOk (exec_vmulLo16 o s) rfl,
    fun o s => givesLanes_h16 opShl_rowOk (exec_vshl16 o s) (fn2_congr shl_eq),
    fun o s => givesLanes_h16 (intOp_rowOk_none _) (exec_vshrN16 o s) (fn2_congr shrN_eq),
    fun o s => givesLanes_h16 (intOp_rowOk_none _) (exec_vshrI16 o s) (fn2_congr shrI_eq), nofun⟩

theorem givesLanes_saturating : ∀ c ∈ [((.vaddsI : RDAB → Instr), fun (x y : Int) => x + y), (.vsubsI, fun x y => x - y)],
    ∀ (o : RDAB) (s : State),
    s.GivesLanes (c.1 o) .vec (if o.rt.isSome then 8 else 4) o.st.toNat 4 o.d.toNat (s.refs o) (s.srcs o)
      (fun ws => match ws with | [x, y] => saturated (c.2 x.toInt y.toInt) | _ => .ok 0) := by
  simp only [List.forall_mem_cons]
  exact ⟨fun o s => givesLanes_ab_noFmt (intOp_rowOk_none _) (exec_vaddsI o s) (satSum_eq _),
    fun o s => givesLanes_ab_noFmt (intOp_rowOk_none _) (exec_vsubsI o s) (satSum_eq _), nofun⟩

/-- Settles O11: every form of the tables runs a lane operation, whose rows of R122 agree with it lane by lane. -/
theorem laneIntegerForms : Obligations.LaneIntegerForms :=
  ⟨givesLanes_laneInt, givesLanes_saturating, givesLanes_laneUnary, givesLanes_laneShort,
    fun o s => givesLanes_abd (intOp_rowOk_none _) (exec_vbfi o s) rfl⟩

end Sys2Proof.LaneForms

/-! ### Lane float arithmetic (R130 to R141) -/

namespace Sys2Proof.LaneFloats

open Sys2Proof.Machine Sys2Proof.LaneForms

/-! #### The forms with a scalar (R125, R134) -/

section
variable {op : LaneOp} (row : op.RowOk) {i : Instr} {s : State} {f : List Word → FRes}
include row

theorem givesLanes_vs_fmt {o : RDAB} (e : exec i s = op.vs true o s) (hf : op.f = f) :
    s.GivesLanes i op.cls (if o.rt.isSome then 8 else 4) o.st.toNat op.lat o.d.toNat (s.refsS o ++ [.spr 1]) (s.srcsS o) f := by
  rw [← lenR_eq, ← hf]
  exact givesLanes_run row o.d.isLt e

theorem givesLanes_vsd_fmt {o : RDAB} (e : exec i s = op.vsd true o s) (hf : op.f = f) :
    s.GivesLanes i op.cls (if o.rt.isSome then 8 else 4) o.st.toNat op.lat o.d.toNat (s.refsS o ++ [.v o.d.toNat, .spr 1])
      (s.srcsS o ++ [s.g.opd s.clock o.d.toNat 0]) f := by
  have refs : s.refsS o ++ [.v o.d.toNat, .spr 1]
      = s.g.opdRefs s.clock o.a.toNat (rtA o.rt) ++ [.s o.b.toNat, .v o.d.toNat] ++ fmtRefs true := by
    simp [State.refsS, fmtRefs]
  rw [← lenR_eq, ← hf, refs]
  exact givesLanes_run row o.d.isLt e

end

/-! #### No float operation has an affine row (R122) -/

theorem floatOp_rowOk (s : State) (n : Nat) (f : RMode → Bool → List Word → FRes) : (floatOp s n f).RowOk :=
  LaneOp.rowOk_none _ rfl
theorem slowOp_rowOk (s : State) (f : RMode → Bool → List Word → FRes) : (slowOp s f).RowOk :=
  LaneOp.rowOk_none _ rfl
theorem patternOp_rowOk (f : List Word → FRes) : (patternOp f).RowOk :=
  LaneOp.rowOk_none _ rfl
theorem approxOp_rowOk (f : Nat → FRes) : (approxOp f).RowOk :=
  LaneOp.rowOk_none _ rfl
/-- VCLASS and VGETEXP, whose results are integers. -/
theorem plainOp_rowOk (f : List Word → FRes) : LaneOp.RowOk { f := f } :=
  LaneOp.rowOk_none _ rfl

/-! #### Signs are bit patterns (R135) -/

theorem fn1_eq_f1 {f : Word → Word} {g : Nat → FRes} (h : ∀ x, .ok (f x).toNat = g x.toNat) : fn1 f = f1 g := by
  funext ws
  match ws with
  | [] => rfl
  | [x] => exact h x
  | _ :: _ :: _ => rfl

theorem fn2_eq_f2 {f : Word → Word → Word} {g : Nat → Nat → FRes} (h : ∀ x y, .ok (f x y).toNat = g x.toNat y.toNat) :
    fn2 f = f2 g := by
  funext ws
  match ws with
  | [] => rfl
  | [_] => rfl
  | [x, y] => exact h x y
  | _ :: _ :: _ :: _ => rfl

/-- A number is its low 31 bits and the bits above them. -/
theorem eq_of_low_high {a b : Nat} (low : a % 2 ^ 31 = b % 2 ^ 31) (high : a / 2 ^ 31 = b / 2 ^ 31) : a = b := by
  rw [← Nat.div_add_mod a (2 ^ 31), ← Nat.div_add_mod b (2 ^ 31), low, high]

theorem clearSign_toNat (x : Word) : (x &&& 0x7FFFFFFF).toNat = x.toNat % 2 ^ 31 := by
  rw [BitVec.toNat_and]
  exact Nat.and_two_pow_sub_one_eq_mod x.toNat 31

theorem keepSign_toNat (x : Word) : (x &&& 0x80000000).toNat = x.toNat / 2 ^ 31 * 2 ^ 31 := by
  have bound : x.toNat / 2 ^ 31 < 2 := by omega
  rw [BitVec.toNat_and]
  apply eq_of_low_high
  · rw [Nat.and_mod_two_pow, Nat.mul_mod_left]
    exact Nat.and_zero _
  · rw [Nat.and_div_two_pow, Nat.mul_div_cancel _ (by decide), ← Nat.mod_eq_of_lt bound]
    exact (Nat.and_two_pow_sub_one_eq_mod _ 1).trans (Nat.mod_mod _ _)

theorem flipSign_toNat (x : Word) :
    (x ^^^ 0x80000000).toNat = if 2 ^ 31 ≤ x.toNat then x.toNat - 2 ^ 31 else x.toNat + 2 ^ 31 := by
  have bound : x.toNat < 2 ^ 32 := x.isLt
  have low : (x.toNat ^^^ 2 ^ 31) % 2 ^ 31 = x.toNat % 2 ^ 31 := by
    rw [Nat.xor_mod_two_pow, Nat.mod_self, Nat.xor_zero]
  have high : (x.toNat ^^^ 2 ^ 31) / 2 ^ 31 = x.toNat / 2 ^ 31 ^^^ 1 := Nat.xor_div_two_pow
  refine (BitVec.toNat_xor ..).trans (eq_of_low_high (low.trans ?_) (high.trans ?_))
  · split <;> omega
  · split
    next => rw [show x.toNat / 2 ^ 31 = 1 by omega, Nat.xor_self]; omega
    next => rw [show x.toNat / 2 ^ 31 = 0 by omega, Nat.zero_xor]; omega

theorem joinSign_toNat (x y : Word) :
    ((x &&& 0x7FFFFFFF) ||| (y &&& 0x80000000)).toNat = x.toNat % 2 ^ 31 + y.toNat / 2 ^ 31 * 2 ^ 31 := by
  rw [BitVec.toNat_or, clearSign_toNat, keepSign_toNat, Nat.mul_comm _ (2 ^ 31), Nat.or_comm,
    ← Nat.two_pow_add_eq_or_of_lt (Nat.mod_lt _ (by decide)), Nat.add_comm]

/-! #### The tables of the float forms -/

theorem givesLanes_laneFloat : ∀ c ∈ laneFloat, ∀ (o : RDAB) (s : State),
    s.GivesLanes (c.1 o) .vec (if o.rt.isSome then 8 else 4) o.st.toNat 4 o.d.toNat (s.refs o ++ [.spr 1]) (s.srcs o)
      (f2 (c.2 (rmOf (s.g.rdFmt s.clock)) (ftzOf (s.g.rdFmt s.clock)))) := by
  simp only [laneFloat, List.forall_mem_cons]
  exact ⟨fun o s => givesLanes_ab (floatOp_rowOk s _ _) (exec_vaddF32 o s) rfl,
    fun o s => givesLanes_ab (floatOp_rowOk s _ _) (exec_vsubF32 o s) rfl,
    fun o s => givesLanes_ab (floatOp_rowOk s _ _) (exec_vmulF32 o s) rfl,
    fun o s => givesLanes_ab (floatOp_rowOk s _ _) (exec_vminF32 o s) rfl,
    fun o s => givesLanes_ab (floatOp_rowOk s _ _) (exec_vmaxF32 o s) rfl,
    fun o s => givesLanes_ab (floatOp_rowOk s _ _) (exec_vscalb o s) rfl,
    fun o s => givesLanes_ab (floatOp_rowOk s _ _) (exec_vaddBf2 o s) rfl,
    fun o s => givesLanes_ab (floatOp_rowOk s _ _) (exec_vsubBf2 o s) rfl,
    fun o s => givesLanes_ab (floatOp_rowOk s _ _) (exec_vmulBf2 o s) rfl,
    fun o s => givesLanes_ab (floatOp_rowOk s _ _) (exec_vminBf2 o s) rfl,
    fun o s => givesLanes_ab (floatOp_rowOk s _ _) (exec_vmaxBf2 o s) rfl, nofun⟩

theorem givesLanes_laneFloat3 : ∀ c ∈ laneFloat3, ∀ (o : RDAB) (s : State),
    s.GivesLanes (c.1 o) .vec (if o.rt.isSome then 8 else 4) o.st.toNat 4 o.d.toNat (s.refs o ++ [.v o.d.toNat, .spr 1])
      (s.srcs o ++ [s.g.opd s.clock o.d.toNat 0]) (f3 (c.2 (rmOf (s.g.rdFmt s.clock)) (ftzOf (s.g.rdFmt s.clock)))) := by
  simp only [laneFloat3, List.forall_mem_cons]
  exact ⟨fun o s => givesLanes_abd (floatOp_rowOk s _ _) (exec_vfmaF32 o s) rfl,
    fun o s => givesLanes_abd (floatOp_rowOk s _ _) (exec_vfmsF32 o s) rfl,
    fun o s => givesLanes_abd (floatOp_rowOk s _ _) (exec_vfnmaF32 o s) rfl,
    fun o s => givesLanes_abd (floatOp_rowOk s _ _) (exec_vdot2Bf o s) rfl,
    fun o s => givesLanes_abd (floatOp_rowOk s _ _) (exec_vfmaBf2 o s) rfl, nofun⟩

theorem givesLanes_laneFloatShort : ∀ c ∈ laneFloatShort, ∀ (o : H16) (s : State),
    s.GivesLanes (c.1 o) .vec 2 (if o.st = 1 then 3 else 0) 4 o.d.toNat [.v o.d.toNat, .v o.b.toNat, .spr 1]
      [s.g.opd s.clock o.d.toNat 0, s.g.opd s.clock o.b.toNat 0]
      (f2 (c.2 (rmOf (s.g.rdFmt s.clock)) (ftzOf (s.g.rdFmt s.clock)))) := by
  simp only [laneFloatShort, List.forall_mem_cons]
  exact ⟨fun o s => givesLanes_h16 (floatOp_rowOk s _ _) (exec_vaddF3216 o s) rfl,
    fun o s => givesLanes_h16 (floatOp_rowOk s _ _) (exec_vsubF3216 o s) rfl,
    fun o s => givesLanes_h16 (floatOp_rowOk s _ _) (exec_vmulF3216 o s) rfl,
    fun o s => givesLanes_h16 (floatOp_rowOk s _ _) (exec_vminF3216 o s) rfl,
    fun o s => givesLanes_h16 (floatOp_rowOk s _ _) (exec_vmaxF3216 o s) rfl, nofun⟩

theorem givesLanes_laneFloatScalar : ∀ c ∈ laneFloatScalar, ∀ (o : RDAB) (s : State),
    s.GivesLanes (c.1 o) .vec (if o.rt.isSome then 8 else 4) o.st.toNat 4 o.d.toNat (s.refsS o ++ [.spr 1]) (s.srcsS o)
      (f2 (c.2 (rmOf (s.g.rdFmt s.clock)) (ftzOf (s.g.rdFmt s.clock)))) := by
  simp only [laneFloatScalar, List.forall_mem_cons]
  exact ⟨fun o s => givesLanes_vs_fmt (floatOp_rowOk s _ _) (exec_vaddF32S o s) rfl,
    fun o s => givesLanes_vs_fmt (floatOp_rowOk s _ _) (exec_vmulF32S o s) rfl,
    fun o s => givesLanes_vs_fmt (floatOp_rowOk s _ _) (exec_vminF32S o s) rfl,
    fun o s => givesLanes_vs_fmt (floatOp_rowOk s _ _) (exec_vmaxF32S o s) rfl, nofun⟩

theorem givesLanes_laneSigns : ∀ c ∈ laneSigns, ∀ (o : RDA) (s : State),
    s.GivesLanes (c.1 o) .vec (if o.rt.isSome then 8 else 4) o.st.toNat 4 o.d.toNat
      (s.g.opdRefs s.clock o.a.toNat (rtA o.rt) ++ c.2.1) [s.g.opd s.clock o.a.toNat (rtA o.rt)]
      (f1 (c.2.2 (ftzOf (s.g.rdFmt s.clock)))) := by
  simp only [laneSigns, List.forall_mem_cons]
  exact ⟨fun o s => givesLanes_un (patternOp_rowOk _) (exec_vabsF32 o s) (fn1_eq_f1 fun x => congrArg _ (clearSign_toNat x)),
    fun o s => givesLanes_un (patternOp_rowOk _) (exec_vnegF32 o s) (fn1_eq_f1 fun x => congrArg _ (flipSign_toNat x)),
    fun o s => givesLanes_un (plainOp_rowOk _) (exec_vclass o s) rfl,
    fun o s => givesLanes_un (plainOp_rowOk _) (exec_vgetexp o s) rfl,
    fun o s => givesLanes_un (floatOp_rowOk s _ _) (exec_vfract o s) rfl, nofun⟩

theorem givesLanes_laneApprox : ∀ c ∈ laneApprox, ∀ (o : RDA) (s : State),
    s.GivesLanes (c.1 o) .sfu (if o.rt.isSome then 8 else 4) o.st.toNat 12 o.d.toNat (s.g.opdRefs s.clock o.a.toNat (rtA o.rt))
      [s.g.opd s.clock o.a.toNat (rtA o.rt)] (f1 c.2) := by
  simp only [laneApprox, List.forall_mem_cons]
  exact ⟨fun o s => givesLanes_un_noFmt (approxOp_rowOk _) (exec_vrcpA o s) rfl,
    fun o s => givesLanes_un_noFmt (approxOp_rowOk _) (exec_vrsqA o s) rfl,
    fun o s => givesLanes_un_noFmt (approxOp_rowOk _) (exec_vex2A o s) rfl,
    fun o s => givesLanes_un_noFmt (approxOp_rowOk _) (exec_vlg2A o s) rfl,
    fun o s => givesLanes_un_noFmt (approxOp_rowOk _) (exec_vsinA o s) rfl,
    fun o s => givesLanes_un_noFmt (approxOp_rowOk _) (exec_vcosA o s) rfl,
    fun o s => givesLanes_un_noFmt (approxOp_rowOk _) (exec_vtanhA o s) rfl, nofun⟩

theorem laneFloatForms : Sys2Proof.Claim.LaneFloatForms :=
  ⟨givesLanes_laneFloat, givesLanes_laneFloat3, givesLanes_laneFloatShort, givesLanes_laneFloatScalar,
    fun o s => givesLanes_vsd_fmt (floatOp_rowOk s _ _) (exec_vfmaF32S o s) rfl, givesLanes_laneSigns,
    fun o s => givesLanes_un (floatOp_rowOk s _ _) (exec_vrint o s) rfl,
    fun o s => givesLanes_ab_noFmt (patternOp_rowOk _) (exec_vcopysign o s)
      (fn2_eq_f2 fun x y => congrArg _ (joinSign_toNat x y))⟩

theorem laneSpecialFunctions : Sys2Proof.Claim.LaneSpecialFunctions :=
  ⟨givesLanes_laneApprox, fun o s => givesLanes_un (slowOp_rowOk s _) (exec_vsqrt o s) rfl,
    fun o s => givesLanes_ab (slowOp_rowOk s _) (exec_vdivF32 o s) rfl⟩

/-- Settles O13: every form of the tables runs a lane operation without an affine row. -/
theorem laneFloatAndSpecialFunctions : Obligations.LaneFloatAndSpecialFunctions :=
  ⟨laneFloatForms, laneSpecialFunctions⟩

end Sys2Proof.LaneFloats

/-! ### Fetching a unit (R17, R28, R43): the halfwords at the pc are those that the decoder reads -/

namespace Sys2Proof.Fetching

open Sys2Proof.Machine Sys2Proof.Encoding

/-! #### Where a unit ends -/

/-- Halfwords that hold a whole unit decode by themselves as they do with anything behind them. -/
theorem decodeFrom_append {f n : Nat} {px : Pfx} {hs : List Nat} (h : (unitHalves f px hs).isSome = true) (r : List Nat) :
    decodeFrom f px n (hs ++ r) = decodeFrom f px n hs := by
  induction f generalizing px n hs with
  | zero => simp [unitHalves] at h
  | succ f ih =>
    match hs with
    | [] => simp [unitHalves] at h
    | [x] =>
      by_cases even : x % 2 = 0
      · simp [decodeFrom, even]
      · simp [unitHalves, even] at h
    | x :: y :: hs =>
      by_cases even : x % 2 = 0
      · simp [decodeFrom, even]
      · simp only [List.cons_append, decodeFrom, unitHalves, if_neg even] at h ⊢
        cases kind : wordKind px (x + 65536 * y) with
        | more px' => 
          simp only [kind, Option.isSome_map] at h
          exact ih h
        | again => rfl
        | last => rfl

/-- What decodes holds a whole unit, and no more of it is consumed than is there. -/
theorem decodeFrom_whole {f n m : Nat} {px : Pfx} {hs : List Nat} {i : Instr} (h : decodeFrom f px n hs = .ok (i, m)) :
    (unitHalves f px hs).isSome = true ∧ m ≤ n + hs.length := by
  induction f generalizing px n hs with
  | zero => simp [decodeFrom] at h
  | succ f ih =>
    match hs with
    | [] => simp [decodeFrom] at h
    | [x] =>
      by_cases even : x % 2 = 0
      · simp only [decodeFrom, if_pos even] at h
        split at h
        · injection h with h
          injection h with _ h
          simp [unitHalves, even, ← h]
        · cases h
      · simp [decodeFrom, even] at h
    | x :: y :: hs =>
      by_cases even : x % 2 = 0
      · simp only [decodeFrom, if_pos even] at h
        split at h
        · injection h with h
          injection h with _ h
          simp [unitHalves, even, ← h]
        · cases h
      · simp only [decodeFrom, unitHalves, if_neg even] at h ⊢
        cases kind : wordKind px (x + 65536 * y) with
        | more px' =>
          simp only [kind] at h
          obtain ⟨whole, le⟩ := ih h
          simp only [Option.isSome_map, List.length_cons]
          exact ⟨whole, by omega⟩
        | again => simp [kind] at h
        | last =>
          simp only [kind] at h
          split at h
          · injection h with h
            injection h with _ h
            simp [← h]
          · cases h

/-- The unit of an instruction is whole, and nothing shorter is. -/
theorem unitHalves_encode {i : Instr} (wf : i.wf = true) (enc : i.isEncoded = true) (n : Nat) :
    (unitHalves 4 {} ((encode i).take n)).isSome = true ↔ (encode i).length ≤ n := by
  have hd := decodeUnit_encode i [] wf enc
  rw [List.append_nil] at hd
  refine ⟨fun whole => ?_, fun le => by rw [List.take_of_length_le le]; exact (decodeFrom_whole hd).1⟩
  have cut : decodeUnit ((encode i).take n) = .ok (i, (encode i).length) := by
    have := decodeFrom_append (n := 0) whole ((encode i).drop n)
    rw [List.take_append_drop] at this
    exact this.symm.trans hd
  have := (decodeFrom_whole cut).2
  simp only [List.length_take] at this
  omega

/-! #### Halfwords are halfwords, and a unit has at most eight (R17, R28) -/

/-- A 32-bit word, every field below bit 32 (R22, R23, R44). -/
theorem wordOf_lt (i : Instr) : wordOf i < 2 ^ 32 := by
  unfold wordOf
  split
  all_goals omega

theorem short_word_lt {w c : Nat} {d b : BitVec 5} {st : BitVec 1}
    (hw : w = d.toNat * 32 + b.toNat * 1024 + st.toNat * 32768 + c) (hc : c < 32) : w < 65536 := by omega

/-- A 16-bit word (R18). -/
theorem Short.wordOf_lt {i : Instr} (h : Short i) : wordOf i < 65536 := by
  rw [← h.parse]
  unfold parse16
  split
  all_goals exact short_word_lt rfl (by decide)

theorem mem_halves_lt {w h : Nat} (hw : w < 2 ^ 32) (m : h ∈ halves w) : h < 65536 := by
  simp only [halves, List.mem_cons, List.not_mem_nil, or_false] at m
  omega

theorem mem_pfxWords_lt {l : Option (BitVec 24)} {r : Option Route} {q : Option MQ} {h : Nat} (m : h ∈ pfxWords l r q) : h < 65536 := by
  have limm (l : BitVec 24) : limmWord l < 2 ^ 32 := by unfold limmWord; omega
  have route (r : Route) : routeWord r < 2 ^ 32 := by unfold routeWord; omega
  have mq (q : MQ) : mqWord q < 2 ^ 32 := by unfold mqWord; omega
  simp only [pfxWords, List.mem_append] at m
  rcases m with (m | m) | m <;> split at m
  · cases m
  · exact mem_halves_lt (limm _) m
  · cases m
  · exact mem_halves_lt (route _) m
  · cases m
  · exact mem_halves_lt (mq _) m

theorem mem_encode_lt {i : Instr} (wf : i.wf = true) (enc : i.isEncoded = true) {h : Nat} (m : h ∈ encode i) : h < 65536 := by
  rcases short_or_reads i wf enc with s | ⟨px, r⟩
  · rw [s.unit, List.mem_singleton] at m
    exact m ▸ Short.wordOf_lt s
  · rw [r.unit, List.mem_append] at m
    exact m.elim mem_pfxWords_lt (mem_halves_lt (wordOf_lt i))

theorem encode_length_le {i : Instr} (wf : i.wf = true) (enc : i.isEncoded = true) : (encode i).length ≤ 8 := by
  rcases short_or_reads i wf enc with s | ⟨px, r⟩
  · rw [s.unit, List.length_singleton]; omega
  · rw [r.unit, List.length_append, length_halves]
    have := pfxWords_length_le px.limm px.rt px.mq
    omega

/-! #### Translation by an entry of the core's own TLB (R212, R213) -/

/-- The entry of a core's L1 TLB that maps an address. -/
def tlbEntry (s : State) (core ctx va : Nat) : Option Tlb := s.tlb.find? fun t => !t.l2 && t.unit == core && t.hits ctx va

theorem xlate_hit {s : State} {core ctx root va : Nat} {t : Tlb} (h : tlbEntry s core ctx va = some t) :
    s.xlate core ctx root va = (.leaf ⟨t.pte.toNat, t.va, t.size⟩, s) := by
  unfold tlbEntry at h
  simp only [State.xlate, h]

/-- Entries on whole pages of 64 KiB map all addresses of such a page alike. -/
theorem tlbEntry_page {s : State} {core ctx a b : Nat} (pages : ∀ t ∈ s.tlb, t.va % 65536 = 0 ∧ t.size % 65536 = 0)
    (same : a / 65536 = b / 65536) : tlbEntry s core ctx a = tlbEntry s core ctx b := by
  unfold tlbEntry
  refine List.find?_congr fun t ht => ?_
  obtain ⟨va, size⟩ := pages t ht
  have : (t.va ≤ a ∧ a < t.va + t.size) ↔ (t.va ≤ b ∧ b < t.va + t.size) := by omega
  simp only [Tlb.hits, this]

/-! #### Halfwords of device memory (R15, R43) -/

theorem findErrors_clean {s : State} (h : s.banks = []) (ctx a n : Nat) (write : Bool) : s.findErrors ctx a n write = s := by
  simp [State.findErrors, State.findIn, h]

theorem memPoisoned_clean {s : State} (h : s.memPoison = []) (a n : Nat) : s.memPoisoned a n = false := by
  simp [State.memPoisoned, poisonAt, h]

/-- An address of device memory that translates gives the halfword there, and changes nothing. -/
theorem fetchHalf_device {s : State} {a : Nat} {l : Loc} (below : a < 2 ^ 57)
    (ok : s.checkGlobal s.g.core s.g.ctx s.g.root s.g.priv a .x = (.ok l, s)) (ty : l.ty = 0) (banks : s.banks = [])
    (clean : s.memPoison = []) : s.fetchHalf a = (.half (s.memRead l.key 2), s) := by
  have ap : apertureOf a = some .global := if_pos below
  simp [State.fetchHalf, ap, ok, ty, findErrors_clean banks, memPoisoned_clean clean]

/-- Fetching halfwords that are there: the unit's, up to where it ends or to the eighth. -/
theorem fetchUnit_halves {s : State} {pc : Addr} (post : List Nat) : ∀ (pre : List Nat) (n : Nat),
    (∀ j (h : j < post.length), s.fetchHalf ((pc.toNat + 2 * (pre.length + j)) % 2 ^ 64) = (.half post[j], s)) →
    post.length ≤ n → (post.length = n ∨ post ≠ [] ∧ (unitHalves 4 {} (pre ++ post)).isSome = true) →
    ∃ k, s.fetchUnit pc n pre = (.ok (pre ++ post.take k), s) ∧
      (post.length ≤ k ∨ (unitHalves 4 {} (pre ++ post.take k)).isSome = true) := by
  induction post with
  | nil =>
    intro pre n _ _ ends
    obtain rfl : 0 = n := ends.elim id fun h => absurd rfl h.1
    exact ⟨0, by simp [State.fetchUnit], .inl (Nat.le_refl 0)⟩
  | cons x post ih =>
    intro pre n fetch le ends
    obtain ⟨n, rfl⟩ : ∃ m, n = m + 1 := ⟨n - 1, by simp only [List.length_cons] at le; omega⟩
    have head : s.fetchHalf ((pc.toNat + 2 * pre.length) % 2 ^ 64) = (.half x, s) := fetch 0 (by simp)
    by_cases whole : (unitHalves 4 {} (pre ++ [x])).isSome = true
    · exact ⟨1, by simp only [State.fetchUnit, head, if_pos whole]; rfl, .inr whole⟩
    · have rest := ih (pre ++ [x]) n
        (fun j hj => by
          have := fetch (j + 1) (by simpa using hj)
          simpa [Nat.add_assoc, Nat.add_comm 1 j] using this)
        (by simpa using le)
        (by
          rcases ends with e | ⟨_, e⟩
          · exact .inl (by simpa using e)
          · refine .inr ⟨?_, by simpa using e⟩
            rintro rfl
            exact whole e)
      obtain ⟨k, run, stop⟩ := rest
      refine ⟨k + 1, ?_, ?_⟩
      · simp only [State.fetchUnit, head, if_neg whole, run]
        simp
      · simpa using stop

/-! #### Code in device memory (R17, R200, R214) -/

/-- Halfwords in memory, read one by one (R17). -/
theorem leNat_read_halves {m : List Host.Cell} {k : Nat} {hs : List Nat} (h : Memory.read m k (2 * hs.length) = hs.flatMap (leBytes 2))
    (small : ∀ x ∈ hs, x < 65536) (j : Nat) (hj : j < hs.length) : leNat (Memory.read m (k + 2 * j) 2) = hs[j] := by
  induction hs generalizing k j with
  | nil => simp at hj
  | cons x hs ih =>
    have two : Memory.read m k (2 * (x :: hs).length) = Memory.read m k 2 ++ Memory.read m (k + 2) (2 * hs.length) := rfl
    rw [two, List.flatMap_cons] at h
    obtain ⟨first, rest⟩ := List.append_inj h (by simp)
    cases j with
    | zero =>
      have := small x (by simp)
      rw [show k + 2 * 0 = k from rfl, first, leNat_leBytes]
      exact Nat.mod_eq_of_lt this
    | succ j =>
      have := ih rest (fun y hy => small y (by simp [hy])) j (by simpa using hj)
      simpa [show k + 2 * (j + 1) = k + 2 + 2 * j by omega] using this

theorem place_hbm {s : State} {a : Nat} (h : a < 2 ^ 39) : s.place a = a := if_pos (by omega)

theorem hbmEnd_le (s : State) : s.hbmEnd ≤ 2 ^ 39 := by
  unfold State.hbmEnd
  split <;> omega

/-- An entry that maps the address to device memory of its core's privilege lets it be fetched. -/
theorem checkGlobal_fetch {s : State} {core ctx root a : Nat} {priv : Bool} {t : Tlb} (h : tlbEntry s core ctx a = some t)
    (exec : bit t.pte.toNat 5 = true) (present : bit t.pte.toNat 2 = true) (permitted : (!bit t.pte.toNat 6 || priv) = true)
    (ty : pteType t.pte.toNat = 0) :
    ∃ l : Loc, l.key = ptePa t.pte.toNat + (a - t.va) ∧ l.ty = 0 ∧ s.checkGlobal core ctx root priv a .x = (.ok l, s) := by
  have page : (bit t.pte.toNat 6 && !priv) = false := by revert permitted; cases bit t.pte.toNat 6 <;> cases priv <;> decide
  let pa := ptePa t.pte.toNat + (a - t.va)
  let owner := pteOwner t.pte.toNat
  let shared := pteCls t.pte.toNat == 2
  exact ⟨⟨pa, 0, if shared then sharedSlice pa 0 owner else owner, shared⟩, rfl, rfl, by
    simp [pa, owner, shared, State.checkGlobal, State.checkPage, xlate_hit h, exec, present, page, ty, State.typeOk]⟩

/-- A group whose code lies in device memory can issue, and its TLB maps the pc there. -/
theorem fetchKey_eq_some {s : State} {k : Nat} (h : s.fetchKey = some k) :
    (s.g.active = true ∧ s.ready s.g = true ∧ s.g.refused = none) ∧
    ∃ t, tlbEntry s s.g.core s.g.ctx s.g.pc.toNat = some t ∧ bit t.pte.toNat 5 = true ∧ bit t.pte.toNat 2 = true
      ∧ (!bit t.pte.toNat 6 || s.g.priv) = true ∧ pteType t.pte.toNat = 0 ∧ ptePa t.pte.toNat + (s.g.pc.toNat - t.va) = k := by
  unfold State.fetchKey at h
  simp only at h
  split at h
  next can =>
    simp only [Bool.and_eq_true, Option.isNone_iff_eq_none] at can
    obtain ⟨⟨⟨-, active⟩, ready⟩, refused⟩ := can
    split at h
    next t hit =>
      split at h
      next leaf =>
        simp only [Bool.and_eq_true, beq_iff_eq] at leaf
        obtain ⟨⟨⟨⟨x, r⟩, p⟩, ty⟩, -⟩ := leaf
        exact ⟨⟨active, ready, refused⟩, t, hit, x, r, p, ty, Option.some.inj h⟩
      next => cases h
    next => cases h
  next => cases h

/-- What a state in which the group at hand stands at the same code keeps of it: the same pc, core, context and privilege, TLB and memory. -/
structure SameCode (s u : State) : Prop where
  group : u.g.pc = s.g.pc ∧ u.g.core = s.g.core ∧ u.g.ctx = s.g.ctx ∧ u.g.priv = s.g.priv
  tlb : u.tlb = s.tlb
  mem : u.mem = s.mem
  memPoison : u.memPoison = s.memPoison
  banks : u.banks = s.banks

/-- Every halfword of a unit at the pc is fetched from where the unit lies. -/
theorem fetchHalf_code {s u : State} {k : Nat} (c : s.CodeAt k) (same : SameCode s u) {m : Nat} (hm : m + 2 ≤ 16) :
    u.fetchHalf ((s.g.pc.toNat + m) % 2 ^ 64) = (.half (leNat (Memory.read s.mem (k + m) 2)), u) := by
  obtain ⟨-, t, hit, exec, present, permitted, ty, key⟩ := fetchKey_eq_some c.key
  obtain ⟨⟨-, core, ctx, priv⟩, tlb, mem, poison, banks⟩ := same
  have below := c.below
  have onPage := c.page
  have inHbm := c.hbm
  have hbm := hbmEnd_le s
  rw [Nat.mod_eq_of_lt (by omega)]
  have hit' : tlbEntry u u.g.core u.g.ctx (s.g.pc.toNat + m) = some t := by
    rw [core, ctx, ← hit, ← tlbEntry_page (a := s.g.pc.toNat + m) c.pages (by omega)]
    unfold tlbEntry
    rw [tlb]
  have maps : t.va ≤ s.g.pc.toNat := by
    have := List.find?_some hit
    simp only [Tlb.hits, Bool.and_eq_true, decide_eq_true_eq] at this
    omega
  obtain ⟨l, hl, lty, ok⟩ := checkGlobal_fetch (root := u.g.root) (priv := u.g.priv) hit' exec present (priv ▸ permitted) ty
  rw [fetchHalf_device (by omega) ok lty (banks.trans c.sound) (poison.trans c.clean)]
  have lkey : l.key = k + m := by omega
  rw [State.memRead, State.memBytes, lkey, place_hbm (by omega), mem]

/-- The group at the code hs fetches its first unit, or all of hs. -/
theorem fetchUnit_code {s u : State} {k : Nat} {hs : List Nat} (c : s.CodeAt k) (same : SameCode s u)
    (code : Memory.read s.mem k (2 * hs.length) = hs.flatMap (leBytes 2)) (small : ∀ x ∈ hs, x < 65536) (len : hs.length ≤ 8)
    (ends : hs.length = 8 ∨ hs ≠ [] ∧ (unitHalves 4 {} hs).isSome = true) :
    ∃ n, u.fetchUnit u.g.pc 8 [] = (.ok (hs.take n), u) ∧ (hs.length ≤ n ∨ (unitHalves 4 {} (hs.take n)).isSome = true) := by
  refine fetchUnit_halves hs [] 8 (fun j hj => ?_) len ends
  rw [same.group.1, List.length_nil, Nat.zero_add, fetchHalf_code c same (by omega), leNat_read_halves code small j hj]

/-! #### The step of the group at hand (R43, R65, R103) -/

/-- The group at hand as its unit is fetched. -/
def issuing (s : State) : State := s.mg fun g => { g with sigLatch := g.sig, wait := .ready, replay := false }

theorem sameCode_issuing (s : State) : SameCode s (issuing s) := ⟨⟨rfl, rfl, rfl, rfl⟩, rfl, rfl, rfl, rfl⟩

/-- A group at the code of an instruction runs it. -/
theorem runUnit_encode {s : State} {i : Instr} {k : Nat} (c : s.CodeAt k) (wf : i.wf = true) (enc : i.isEncoded = true)
    (code : Memory.read s.mem k (2 * (encode i).length) = (encode i).flatMap (leBytes 2)) :
    s.runUnit = (issuing s).runDecoded i (encode i) := by
  have refused := (fetchKey_eq_some c.key).1.2.2
  have whole : (unitHalves 4 {} (encode i)).isSome = true := by
    have := (unitHalves_encode wf enc (encode i).length).2 (Nat.le_refl _)
    rwa [List.take_length] at this
  have some_ : encode i ≠ [] := fun e => by simp [e, unitHalves] at whole
  obtain ⟨n, fetch, stop⟩ := fetchUnit_code c (sameCode_issuing s) code (fun x hx => mem_encode_lt wf enc hx) (encode_length_le wf enc)
    (.inr ⟨some_, whole⟩)
  have le : (encode i).length ≤ n := stop.elim id (unitHalves_encode wf enc n).1
  rw [List.take_of_length_le le] at fetch
  have decoded := decodeUnit_encode i [] wf enc
  rw [List.append_nil] at decoded
  unfold issuing at fetch ⊢
  simp only [State.runUnit, refused, fetch, decoded]

/-- A group at halfwords that do not decode takes the trap of the step that fails. -/
theorem runUnit_illegal {s : State} {k e : Nat} {hs : List Nat} (c : s.CodeAt k) (len : hs.length = 8) (small : ∀ h ∈ hs, h < 65536)
    (code : Memory.read s.mem k 16 = hs.flatMap (leBytes 2)) (bad : decodeUnit hs = .error (.illegal e)) :
    s.runUnit = .next ((issuing s).decodeTrap 1 e 0) := by
  have refused := (fetchKey_eq_some c.key).1.2.2
  obtain ⟨n, fetch, stop⟩ := fetchUnit_code c (sameCode_issuing s) (by rw [len]; exact code) small (by omega) (.inl len)
  have decoded : decodeUnit (hs.take n) = .error (.illegal e) := by
    rcases stop with le | whole
    · rw [List.take_of_length_le le, bad]
    · rw [← bad, decodeUnit, decodeUnit, ← decodeFrom_append whole (hs.drop n), List.take_append_drop]
  unfold issuing at fetch ⊢
  simp only [State.runUnit, refused, fetch, decoded]

/-- A unit's own halfwords are folded into the group's %sig first (R103). -/
theorem runDecoded_issuing (s : State) (i : Instr) (hs : List Nat) :
    (issuing s).runDecoded i hs
      = exec i { s with g := if folds i then { s.g with sigLatch := s.g.sig, wait := .ready, replay := false, sig := foldSig s.g.sig hs }
                             else { s.g with sigLatch := s.g.sig, wait := .ready, replay := false } } := by
  unfold State.runDecoded
  cases folds i <;> rfl

theorem CodeAt.turns_nil {s : State} {k : Nat} (c : s.CodeAt k) : State.CodeAt { s with turns := [] } k :=
  ⟨c.key, c.hbm, c.below, c.page, c.pages, c.clean, c.sound⟩

/-- Without an event, a device that has not tripped runs the unit of the turn named, or goes on by itself. -/
theorem step_unit {s : State} (agenda : s.agenda = []) (live : s.tripped = false) :
    step s = (s.takeTurn.map State.runUnit).getD (State.runOn { s with turns := [] }) := by
  unfold step
  split
  next h => rw [agenda] at h; cases h
  next =>
    rw [if_neg (by simp [live])]
    cases s.takeTurn <;> rfl

theorem focus_self (s : State) : s.focus s.g.id = s := if_pos rfl

/-- The turn of the group at hand, which can issue. -/
theorem step_turn {s : State} {k : Nat} (agenda : s.agenda = []) (live : s.tripped = false) (turns : s.turns = [s.g.id]) (c : s.CodeAt k) :
    step s = State.runUnit { s with turns := [] } := by
  obtain ⟨active, ready, -⟩ := (fetchKey_eq_some c.key).1
  have turn : s.takeTurn = some { s with turns := [] } := by
    have this_ : State.group? { s with turns := [] } s.g.id = some s.g := if_pos rfl
    have can : (s.g.active && State.ready { s with turns := [] } s.g) = true := by rw [active]; exact ready
    simp only [State.takeTurn, turns, this_, if_pos can]
    exact congrArg some (focus_self { s with turns := [] })
  rw [step_unit agenda live, turn]
  rfl

/-- No turn is named, and the group at hand is the one that issues. -/
theorem step_pick {s : State} (agenda : s.agenda = []) (live : s.tripped = false) (turns : s.turns = [])
    (pick : s.pick = some s.g.id) : step s = s.runUnit := by
  have noTurn : s.takeTurn = none := by unfold State.takeTurn; rw [turns]
  have same : { s with turns := [] } = s := by rw [← turns]
  rw [step_unit agenda live, noTurn, same]
  show s.runOn = s.runUnit
  simp only [State.runOn, pick, focus_self]

theorem stepRunsUnit : Sys2Proof.Claim.StepRunsDecoded := by
  refine ⟨fun s i k agenda live turns c wf enc code => ?_, fun s i k agenda live turns pick c wf enc code => ?_⟩
  · rw [step_turn agenda live turns c, runUnit_encode (CodeAt.turns_nil c) wf enc code, runDecoded_issuing]
  · rw [step_pick agenda live turns pick, runUnit_encode c wf enc code, runDecoded_issuing]

theorem stepRefusesUndecodable : Sys2Proof.Claim.StepRefusesUndecodable := by
  intro s k hs e agenda live turns c len small code bad
  rw [step_turn agenda live turns c, runUnit_illegal (CodeAt.turns_nil c) len small code bad]
  rfl

/-- Settles O55: a group at a unit in device memory fetches exactly its halfwords, which decode to the instruction it then runs, or are refused. -/
theorem stepRunsDecoded : Obligations.StepRunsDecoded := ⟨stepRunsUnit, stepRefusesUndecodable⟩

end Sys2Proof.Fetching

/-! ### Accesses to device memory of a calm device (R165 to R168, R205 to R208, R219): what they leave alone -/

namespace Sys2Proof.DeviceAccess

open Sys2Proof.Machine Sys2Proof.Fetching

/-! #### The caches: lines, directory entries and their messages, write records, victim tags -/

/-- A line of an L1 that is no haze line and carries no bytes of its own. -/
def CoherentLine (k : L1Line) : Prop := k.data = [] ∧ k.haze = false
/-- Every line of the L1s is such a line. -/
def CoherentL1 (s : State) : Prop := ∀ k ∈ s.l1, CoherentLine k

/-- The device apart from what its caches and their directory hold. -/
def uncached (s : State) : State :=
  { s with l1 := [], slices := [], msc := [], dir := [], proxies := [], invals := [], invAcks := [], wrec := [], cores := [] }

/-- Only caches have changed, and no line has come to carry bytes of its own. -/
structure Recached (s t : State) : Prop where
  rest : uncached t = uncached s
  lines : CoherentL1 s → CoherentL1 t

namespace Recached
variable {s t u : State}

theorem refl (s : State) : Recached s s := ⟨rfl, id⟩
theorem trans (h : Recached s t) (k : Recached t u) : Recached s u := ⟨k.rest.trans h.rest, fun c => k.lines (h.lines c)⟩
/-- A change of the caches that leaves the L1s alone. -/
theorem of_l1_eq (rest : uncached t = uncached s) (l1 : t.l1 = s.l1) : Recached s t := ⟨rest, fun c => by unfold CoherentL1; rw [l1]; exact c⟩
/-- Lines leave the L1s. -/
theorem of_l1_subset (rest : uncached t = uncached s) (l1 : ∀ k ∈ t.l1, k ∈ s.l1) : Recached s t := ⟨rest, fun c k hk => c k (l1 k hk)⟩

theorem ite {c : Prop} [Decidable c] (h : Recached s t) (k : Recached s u) : Recached s (if c then t else u) := by
  split
  · exact h
  · exact k

theorem g (h : Recached s t) : t.g = s.g := (congrArg State.g h.rest :)
theorem others (h : Recached s t) : t.others = s.others := (congrArg State.others h.rest :)
theorem mem (h : Recached s t) : t.mem = s.mem := (congrArg State.mem h.rest :)
theorem memPoison (h : Recached s t) : t.memPoison = s.memPoison := (congrArg State.memPoison h.rest :)
theorem ctxs (h : Recached s t) : t.ctxs = s.ctxs := (congrArg State.ctxs h.rest :)
theorem tlb (h : Recached s t) : t.tlb = s.tlb := (congrArg State.tlb h.rest :)
theorem mxOwns (h : Recached s t) : t.mxOwns = s.mxOwns := (congrArg State.mxOwns h.rest :)
theorem hazeNet (h : Recached s t) : t.hazeNet = s.hazeNet := (congrArg State.hazeNet h.rest :)
theorem hazeHomes (h : Recached s t) : t.hazeHomes = s.hazeHomes := (congrArg State.hazeHomes h.rest :)
theorem banks (h : Recached s t) : t.banks = s.banks := (congrArg State.banks h.rest :)
theorem mgmt (h : Recached s t) : t.mgmt = s.mgmt := (congrArg State.mgmt h.rest :)
theorem clock (h : Recached s t) : t.clock = s.clock := (congrArg State.clock h.rest :)

end Recached

theorem coherent_capL1 {ls : List L1Line} (h : ∀ k ∈ ls, CoherentLine k) (core set : Nat) : ∀ k ∈ capL1 ls core set, CoherentLine k := by
  unfold capL1
  simp only
  split
  · exact h
  · split
    · exact h
    · intro k hk
      obtain ⟨l, hl, rfl⟩ := List.mem_map.1 hk
      split <;> exact h l hl

theorem oldestFirst_mem {α : Type} {cls : α → Nat} {ls : List α} {x : α} (h : oldestFirst cls ls = some x) : x ∈ ls := by
  unfold oldestFirst at h
  simp only at h
  split at h
  next l find =>
    cases h
    exact List.mem_reverse.1 (List.mem_of_find?_eq_some find)
  next =>
    split at h
    next l find =>
      cases h
      exact List.mem_reverse.1 (List.mem_of_find?_eq_some find)
    next => exact List.mem_reverse.1 (List.mem_of_mem_head? h)

/-! #### One access after another: each operation on the caches -/

section
variable (s : State)

theorem recached_mscTouch (line : Nat) : Recached s (s.mscTouch line) := by
  unfold State.mscTouch
  split
  · exact .refl s
  · exact .of_l1_eq rfl rfl

theorem recached_victimHit (core line grp : Nat) : Recached s (s.victimHit core line grp) := by
  unfold State.victimHit
  simp only
  split
  · exact .of_l1_eq rfl rfl
  · exact .refl s

theorem recached_l1Drop (core line : Nat) : Recached s (s.l1Drop core line) :=
  .of_l1_subset rfl fun _ h => List.mem_of_mem_filter h

theorem recached_clearSharer (core line : Nat) : Recached s (s.clearSharer core line) := by
  unfold State.clearSharer
  split
  · exact .refl s
  · simp only
    repeat' split
    all_goals exact .of_l1_eq rfl rfl

/-- A line without bytes of its own leaves an L1. -/
theorem recached_l1Evict {l : L1Line} (h : CoherentLine l) : Recached s (s.l1Evict l) := by
  obtain ⟨data, haze⟩ := h
  have back : s.l1WriteBack l = s := by simp [State.l1WriteBack, data]
  have drop := recached_l1Drop s l.core l.line
  unfold State.l1Evict
  simp only [haze, back, Bool.false_eq_true, if_false]
  have kept {t : State} (ht : Recached s t) (k : CoreRegs) : Recached s (t.setCore k) := ht.trans (.of_l1_eq rfl rfl)
  exact kept (.ite ((drop.trans (recached_clearSharer _ _ _)).trans (recached_mscTouch _ _)) drop) _

theorem recached_l1Touch (h : CoherentL1 s) (core line grp pol : Nat) : Recached s (s.l1Touch core line grp pol) := by
  have hit := recached_victimHit s core line grp
  unfold State.l1Touch State.l1Use
  simp only
  split
  · exact hit
  · refine hit.trans ?_
    have coh := hit.lines h
    generalize s.victimHit core line grp = s at coh
    split
    next l find =>
      refine ⟨rfl, fun c => coherent_capL1 ?_ core (l1Set line)⟩
      intro k hk
      rcases List.mem_cons.1 hk with rfl | hk
      · exact c l (List.mem_of_find?_eq_some find)
      · exact c k (List.mem_of_mem_filter hk)
    next =>
      have evict : ∀ t, Recached s t → Recached s { t with l1 := capL1 (⟨core, line, polClass pol, grp, false, [], 0, 0⟩ :: t.l1) core (l1Set line) } := by
        intro t ht
        refine ⟨ht.rest, fun c => coherent_capL1 ?_ core (l1Set line)⟩
        intro k hk
        rcases List.mem_cons.1 hk with rfl | hk
        · exact ⟨rfl, rfl⟩
        · exact ht.lines c k hk
      refine evict _ ?_
      split
      · split
        next v old => exact recached_l1Evict s (coh v (List.mem_of_mem_filter (oldestFirst_mem old)))
        next => exact .refl s
      · exact .refl s

theorem recached_sliceTouch (slice line pol : Nat) : Recached s (s.sliceTouch slice line pol) := by
  unfold State.sliceTouch
  simp only
  split
  · split
    · exact .refl s
    · exact .of_l1_eq rfl rfl
  · refine (recached_mscTouch s line).trans ?_
    split
    · exact .refl _
    · exact .of_l1_eq rfl rfl

theorem recached_mapL1 {f : L1Line → L1Line} (h : ∀ k, CoherentLine k → CoherentLine (f k)) : Recached s { s with l1 := s.l1.map f } := by
  refine ⟨rfl, fun c k hk => ?_⟩
  obtain ⟨l, hl, rfl⟩ := List.mem_map.1 hk
  exact h l (c l hl)

theorem recached_l1Dirty (core key n : Nat) : Recached s (s.l1Dirty core key n) :=
  recached_mapL1 s fun k h => by split <;> exact h
theorem recached_l1Clean (core line : Nat) : Recached s (s.l1Clean core line) :=
  recached_mapL1 s fun k h => by split <;> exact h

theorem recached_record (pa : Nat) : Recached s (s.record pa) := .of_l1_eq rfl rfl
theorem recached_setDir (d : DirEntry) : Recached s (s.setDir d) := .of_l1_eq rfl rfl
theorem recached_setProxy (p : ProxyEntry) : Recached s (s.setProxy p) := .of_l1_eq rfl rfl
theorem recached_dropDir (line : Nat) : Recached s (s.dropDir line) := .of_l1_subset rfl fun _ h => List.mem_of_mem_filter h

theorem recached_dropProxy (cluster line : Nat) : Recached s (s.dropProxy cluster line) := by
  unfold State.dropProxy
  simp only
  split
  all_goals exact .of_l1_subset rfl fun _ h => List.mem_of_mem_filter h

theorem recached_dirAlloc (line slice : Nat) : Recached s (s.dirAlloc line slice) := by
  unfold State.dirAlloc
  simp only
  split
  · split
    · exact (recached_dropDir s _).trans (.of_l1_eq rfl rfl)
    · exact .of_l1_eq rfl rfl
  · exact .of_l1_eq rfl rfl

theorem recached_proxyAlloc (cluster line : Nat) : Recached s (s.proxyAlloc cluster line) := by
  unfold State.proxyAlloc
  simp only
  split
  · split
    · exact (recached_dropProxy s _ _).trans (.of_l1_eq rfl rfl)
    · exact .of_l1_eq rfl rfl
  · exact .of_l1_eq rfl rfl

theorem recached_grantLine (d : DirEntry) (core : Nat) (excl : Bool) : Recached s (s.grantLine d core excl) := by
  unfold State.grantLine
  extract_lets line c b named alone proxied placed clean
  have hn : Recached s named := recached_setDir s _
  have ha : Recached s alone := .ite (hn.trans (.of_l1_eq rfl rfl)) hn
  have hq : Recached s proxied := .ite (ha.trans (recached_proxyAlloc _ _ _)) ha
  have hp : Recached s placed := by
    refine .ite (.ite (ha.trans (.of_l1_eq rfl rfl)) ha) ?_
    split
    · exact hq.trans (recached_setProxy _ _)
    · exact hq
  have hc : Recached s clean := by
    unfold clean
    split
    · exact .ite (hp.trans (recached_l1Clean _ _ _)) hp
    · exact hp
  exact .ite (hc.trans (recached_record _ _)) hc

theorem recached_missRequest (core line slice : Nat) (excl : Bool) : Recached s (s.missRequest core line slice excl) := by
  unfold State.missRequest
  extract_lets t
  have ht : Recached s t := .ite (recached_dirAlloc s _ _) (.refl s)
  split
  · exact ht
  · exact .ite ht (.ite (ht.trans (.of_l1_eq rfl rfl)) (ht.trans (recached_grantLine _ _ _ _)))

theorem recached_invalidate (n : Nat) : Recached s (s.invalidate n) := by
  unfold State.invalidate
  split
  · exact .refl s
  next m _ =>
    refine .ite (.refl s) ?_
    extract_lets t ack
    have ht : Recached s t := .of_l1_eq rfl rfl
    have ha : ∀ u, Recached s u → Recached s (ack u) := fun u h => h.trans (.of_l1_eq rfl rfl)
    split
    · exact ha _ (ht.trans (recached_l1Drop _ _ _))
    · split
      · exact ha _ ht
      · exact .ite (ha _ ht) (ht.trans (.of_l1_eq rfl rfl))

theorem recached_homeAck (line : Nat) : Recached s (s.homeAck line) := by
  unfold State.homeAck
  split
  · exact .refl s
  · refine .ite ?_ (recached_setDir s _)
    split
    · exact recached_grantLine s _ _ _
    · exact recached_setDir s _

theorem recached_proxyAck (k line : Nat) : Recached s (s.proxyAck k line) := by
  unfold State.proxyAck
  split
  · exact .refl s
  · refine .ite ?_ (recached_setProxy s _)
    extract_lets b t
    have ht : Recached s t := .ite (recached_setProxy s _) (.of_l1_eq rfl rfl)
    exact ht.trans (.of_l1_eq rfl rfl)

theorem recached_invalidateAck (n : Nat) : Recached s (s.invalidateAck n) := by
  unfold State.invalidateAck
  split
  · exact .refl s
  · refine .ite (.refl s) ?_
    extract_lets t
    have ht : Recached s t := .of_l1_eq rfl rfl
    split
    · exact ht.trans (recached_proxyAck _ _ _)
    · exact ht.trans (recached_homeAck _ _)

theorem recached_dirRun (n : Nat) : ∀ s, Recached s (State.dirRun n s) := by
  induction n with
  | zero => exact .refl
  | succ n ih =>
    intro s
    exact .ite ((recached_invalidate s 0).trans (ih _)) (.ite ((recached_invalidateAck s 0).trans (ih _)) (.refl s))

theorem recached_dirFlush : Recached s s.dirFlush := .ite (.refl s) (recached_dirRun _ s)

theorem recached_dirAccess (core line slice : Nat) (excl : Bool) : Recached s (s.dirAccess core line slice excl) :=
  ((recached_dirFlush s).trans (recached_missRequest _ _ _ _ _)).trans (recached_dirFlush _)

end

/-- An access to device memory through the L1, which allocates. -/
theorem recached_touch {s : State} (h : CoherentL1 s) (core grp : Nat) {l : Loc} (ty : l.ty = 0) (n spol : Nat) (store : Bool) :
    Recached s (s.touch core grp l n 0 spol store) := by
  unfold State.touch
  extract_lets line hit far loaded sliced owned named
  rw [if_neg (by simp)]
  have admitted : s.admitLine l.ty line = s := by simp [State.admitLine, ty]
  have hl : Recached s loaded := by unfold loaded; rw [admitted]; exact recached_l1Touch s h _ _ _ _
  have hs : Recached s sliced := .ite hl (hl.trans (recached_sliceTouch _ _ _ _))
  have hn : Recached s named := .ite (hs.trans (recached_dirAccess _ _ _ _ _)) hs
  exact .ite (hn.trans (recached_l1Dirty _ _ _ _)) hn

/-! #### A device in which an access is only an access -/

/-- No error lies or is armed anywhere, nothing is poisoned, no contribution of a haze is on its way or at a home, and every line of the
L1s is a line of coherent memory. -/
structure Still (s : State) : Prop where
  banks : s.banks = []
  memPoison : s.memPoison = []
  hazeNet : s.hazeNet = []
  hazeHomes : s.hazeHomes = []
  lines : CoherentL1 s

theorem still_of_calm {s : State} (h : s.Calm) : Still s :=
  ⟨h.banks, h.memory, h.hazeNet, h.hazeHomes, fun k hk => ⟨h.own k hk, h.hazeLines k hk⟩⟩

section
variable {s t : State}

theorem Recached.still (h : Recached s t) (k : Still s) : Still t :=
  ⟨h.banks.trans k.banks, h.memPoison.trans k.memPoison, h.hazeNet.trans k.hazeNet, h.hazeHomes.trans k.hazeHomes, h.lines k.lines⟩
theorem Still.setMem (k : Still s) (m : List Host.Cell) : Still { s with mem := m } := ⟨k.banks, k.memPoison, k.hazeNet, k.hazeHomes, k.lines⟩
theorem Recached.setMem (h : Recached s t) (m : List Host.Cell) : Recached { s with mem := m } { t with mem := m } :=
  ⟨congrArg (fun u : State => { u with mem := m }) h.rest, h.lines⟩

theorem place_of_mgmt (h : t.mgmt = s.mgmt) (a : Nat) : t.place a = s.place a := by
  unfold State.place State.peerWin
  rw [h]
theorem Recached.place (h : Recached s t) (a : Nat) : t.place a = s.place a := place_of_mgmt h.mgmt a
theorem Recached.memRead (h : Recached s t) (a n : Nat) : t.memRead a n = s.memRead a n := by
  simp only [State.memRead, State.memBytes, h.place, h.mem]

/-- A store to device memory writes its bytes, and nothing else but the caches changes. -/
theorem writeLoc_device (k : Still s) {l : Loc} (ty : l.ty = 0) (core grp ctx n x : Nat) :
    Recached { s with mem := Memory.write s.mem (s.place l.key) (leBytes n x) } (s.writeLoc core grp ctx l n x false 0 0).2 := by
  have ht := recached_touch k.lines core grp ty n 0 true
  have exact_ : s.exactAccess l = s := by simp [State.exactAccess, k.hazeNet, k.hazeHomes]
  have payload : s.payload grp false = (false, s) := by simp [State.payload, k.banks]
  have flits : s.flits core ctx l = s := by simp [State.flits, k.banks]
  have written : (s.writeLoc core grp ctx l n x false 0 0).2
      = (((s.touch core grp l n 0 0 true).record l.key).memWrite l.key n x).plantCaches core l := by
    simp [State.writeLoc, ty, payload, Fetching.findErrors_clean k.banks, flits, exact_, tyScratch, tyStack, State.memWriteP]
  rw [written]
  generalize s.touch core grp l n 0 0 true = t at ht
  refine ⟨?_, ht.lines⟩
  calc uncached (((t.record l.key).memWrite l.key n x).plantCaches core l)
      = { uncached t with mem := Memory.write t.mem (t.place l.key) (leBytes n x), memPoison := [], banks := [] } := by
        simp only [State.memWrite, State.memStore, State.plantCaches, State.plantAt, State.record, uncached, ht.banks, k.banks,
          ht.memPoison, k.memPoison]
        rfl
    _ = uncached { s with mem := Memory.write s.mem (s.place l.key) (leBytes n x) } := by
        rw [ht.rest, ht.mem, ht.place]
        simp only [uncached, k.banks, k.memPoison]

/-- A load from device memory gives its bytes, and only the caches change. -/
theorem readLoc_device (k : Still s) {l : Loc} (ty : l.ty = 0) (core grp n : Nat) :
    ∃ t, Recached s t ∧ s.readLoc core grp l n 0 0 = (⟨s.memRead l.key n, false, false⟩, t) := by
  have ht := recached_touch k.lines core grp ty n 0 false
  have exact_ : s.exactAccess l = s := by simp [State.exactAccess, k.hazeNet, k.hazeHomes]
  have flits : s.flits core (s.ctxOf grp) l = s := by simp [State.flits, k.banks]
  refine ⟨_, ht, ?_⟩
  have clean := Fetching.memPoisoned_clean (ht.memPoison.trans k.memPoison) l.key n
  simp [State.readLoc, ty, Fetching.findErrors_clean k.banks, flits, exact_, tyScratch, ht.memRead, clean]

end

/-! #### Bytes written one behind the other -/

theorem write_append (m : List Host.Cell) (a : Nat) (xs ys : List Byte) :
    Memory.write m a (xs ++ ys) = Memory.write (Memory.write m a xs) (a + xs.length) ys := by
  induction xs generalizing m a with
  | nil => rfl
  | cons x xs ih =>
    simp only [List.cons_append, Memory.write, ih, List.length_cons]
    congr 1
    omega

/-- What a read inside the bytes of a write gives. -/
theorem read_write_inside {m : List Host.Cell} (h : Memory.wf m = true) (a : Nat) {bs : List Byte} {o n : Nat} (le : o + n ≤ bs.length) :
    Memory.read (Memory.write m a bs) (a + o) n = (bs.drop o).take n := by
  induction n generalizing o with
  | zero => simp [Memory.read]
  | succ n ih =>
    have here : bs.drop o = bs[o] :: bs.drop (o + 1) := List.drop_eq_getElem_cons (by omega)
    rw [Memory.read, Memory.get_write h, if_pos (by omega), show a + o + 1 = a + (o + 1) by omega, ih (by omega), here,
      List.take_succ_cons]
    simp [List.getD_eq_getElem?_getD, List.getElem?_eq_getElem (show o < bs.length by omega)]

/-- A field of a frame: where it lies, its bytes, and that its value carries no mark. -/
abbrev Field := Nat × Nat × Nat × Bool
def Field.bytes (f : Field) : List Byte := leBytes f.2.1 f.2.2.1
/-- The fields lie one behind the other from an offset on, and none carries a mark. -/
def Consecutive : Nat → List Field → Prop
  | _, [] => True
  | o, f :: fs => (f.1 = o ∧ 0 < f.2.1 ∧ f.2.2.2 = false) ∧ Consecutive (o + f.2.1) fs

theorem writeFields_device {l : Loc} (ty : l.ty = 0) (core grp ctx : Nat) (fs : List Field) : ∀ (o : Nat) (s : State),
    Still s → s.Flat l.key 256 → Consecutive o fs → o + (fs.flatMap Field.bytes).length ≤ 256 →
    Recached { s with mem := Memory.write s.mem (s.place l.key + o) (fs.flatMap Field.bytes) }
      (fs.foldl (fun t f => (t.writeLoc core grp ctx (l.plus f.1) f.2.1 f.2.2.1 f.2.2.2 0 0).2) s) := by
  induction fs with
  | nil => exact fun _ s _ _ _ _ => .refl s
  | cons f fs ih =>
    intro o s k flat ⟨⟨at_, some_, mark⟩, rest⟩ len
    have flen : f.bytes.length = f.2.1 := leBytes_length _ _
    simp only [List.flatMap_cons, List.length_append, flen] at len
    have first := writeLoc_device k (l := l.plus f.1) ty core grp ctx f.2.1 f.2.2.1
    have key : s.place (l.plus f.1).key = s.place l.key + o := by
      rw [← at_]; exact flat f.1 (by omega)
    rw [key] at first
    simp only [List.foldl_cons, mark]
    generalize (s.writeLoc core grp ctx (l.plus f.1) f.2.1 f.2.2.1 false 0 0).2 = t at first
    have place : ∀ a, t.place a = s.place a := fun a => first.place a
    have next := ih (o + f.2.1) t (first.still (k.setMem _)) (fun i hi => by rw [place, place]; exact flat i hi) rest (by omega)
    refine Recached.trans ?_ next
    have bytes : Memory.write t.mem (t.place l.key + (o + f.2.1)) (fs.flatMap Field.bytes)
        = Memory.write s.mem (s.place l.key + o) ((f :: fs).flatMap Field.bytes) := by
      rw [List.flatMap_cons, write_append, flen, place, first.mem, Nat.add_assoc]
      rfl
    rw [bytes]
    exact first.setMem _

/-! #### Loads one behind the other -/

theorem readFields_device {l : Loc} (ty : l.ty = 0) (core grp : Nat) (fs : List (Nat × Nat)) : ∀ (acc : List (Nat × Bool)) (s : State), Still s →
    ∃ u, Recached s u ∧ fs.foldl (fun (a : List (Nat × Bool) × State) f =>
        let r := a.2.readLoc core grp (l.plus f.1) f.2 0 0
        (a.1 ++ [(r.1.val, r.1.pz)], r.2)) (acc, s)
      = (acc ++ fs.map (fun f => (s.memRead (l.key + f.1) f.2, false)), u) := by
  induction fs with
  | nil => exact fun acc s _ => ⟨s, .refl s, by simp⟩
  | cons f fs ih =>
    intro acc s k
    obtain ⟨t, ht, read⟩ := readLoc_device k (l := l.plus f.1) ty core grp f.2
    obtain ⟨u, hu, rest⟩ := ih (acc ++ [(s.memRead (l.key + f.1) f.2, false)]) t (ht.still k)
    refine ⟨u, ht.trans hu, ?_⟩
    simp only [List.foldl_cons, read]
    rw [show (l.plus f.1).key = l.key + f.1 from rfl, rest]
    simp [ht.memRead]

/-! #### A check that changes nothing found its page in the core's TLB (R202, R212, R213) -/

/-- A walk finds leaves of the sizes of its levels alone. -/
theorem walkVia_size {cluster ctx va : Nat} (levels : List (Nat × Nat × Option Nat)) (pos : ∀ x ∈ levels, ∀ n, x.2.2 = some n → 0 < n) :
    ∀ (s t : State) (tbl at_ e size : Nat), s.walkVia cluster ctx va tbl levels = (.leaf at_ e size, t) → 0 < size := by
  induction levels with
  | nil => intro s t tbl at_ e size h; simp [State.walkVia] at h
  | cons x levels ih =>
    obtain ⟨sh, n, leaf⟩ := x
    have rest := ih fun x hx => pos x (List.mem_cons_of_mem _ hx)
    intro s t tbl at_ e size h
    unfold State.walkVia at h
    split at h
    next => exact rest _ _ _ _ _ _ h
    next =>
      simp only at h
      split at h
      next => simp at h
      next =>
        split at h
        next => simp at h
        next e' size' entry =>
          simp only [Prod.mk.injEq, Walked.leaf.injEq] at h
          obtain ⟨⟨-, -, rfl⟩, -⟩ := h
          unfold State.walkEntry at entry
          simp only at entry
          split at entry
          next => cases entry
          next =>
            split at entry
            next =>
              split at entry
              next => cases entry
              next m =>
                split at entry
                next =>
                  simp only [Option.some.injEq, Sum.inl.injEq, Prod.mk.injEq] at entry
                  exact entry.2 ▸ pos _ (List.mem_cons_self ..) m rfl
                next => cases entry
            next => split at entry <;> cases entry
        next => exact rest _ _ _ _ _ _ h

theorem walkLevels_pos : ∀ x ∈ walkLevels, ∀ n, x.2.2 = some n → 0 < n := by
  intro x hx n hn
  simp only [walkLevels, List.mem_cons, List.not_mem_nil, or_false] at hx
  rcases hx with rfl | rfl | rfl | rfl | rfl <;> simp at hn <;> omega

/-- A page that has just been filled is found. -/
theorem tlbEntry_tlbFill (s : State) (core ctx : Nat) {va size : Nat} (pos : 0 < size) (e at_ : Nat) :
    (tlbEntry (s.tlbFill core ctx va size e at_) core ctx va).isSome = true := by
  have inside : va / size * size ≤ va ∧ va < va / size * size + size := by
    have := Nat.div_add_mod va size
    have := Nat.mod_lt va pos
    rw [Nat.mul_comm]
    omega
  unfold tlbEntry
  rw [List.find?_isSome]
  exact ⟨_, List.mem_append_right _ (List.mem_cons_self ..), by simp [Tlb.hits, inside]⟩

theorem xlate_unchanged {s : State} {core ctx root va : Nat} {lf : Leaf} (h : s.xlate core ctx root va = (.leaf lf, s))
    (present : bit lf.pte 2 = true) : ∃ t, tlbEntry s core ctx va = some t := by
  cases miss : tlbEntry s core ctx va with
  | some t => exact ⟨t, rfl⟩
  | none =>
    have filled : ∀ (u : State) (size e at_ : Nat), 0 < size → u.tlbFill core ctx va size e at_ = s → False := by
      intro u size e at_ pos same
      have := tlbEntry_tlbFill u core ctx (va := va) pos e at_
      rw [same, miss] at this
      cases this
    unfold tlbEntry at miss
    simp only [State.xlate, miss] at h
    split at h
    next t hit =>
      have := List.find?_some hit
      simp only [Tlb.hits, Bool.and_eq_true, decide_eq_true_eq] at this
      exact (filled _ _ _ _ (by omega) (Prod.mk.inj h).2).elim
    next =>
      unfold State.xlateMiss at h
      simp only at h
      split at h
      next => simp at h
      next =>
        split at h
        next => simp at h
        next => simp at h
        next at_ e size u walked =>
          have pos := walkVia_size _ walkLevels_pos _ _ _ _ _ _ walked
          split at h
          next absent =>
            simp only [Prod.mk.injEq, Xlated.leaf.injEq] at h
            obtain ⟨rfl, -⟩ := h
            simp [present] at absent
          next =>
            split at h
            next => simp at h
            next => exact (filled _ _ _ _ pos (Prod.mk.inj h).2).elim

/-- The translation of an address that passes the check of its page names a resident leaf. -/
theorem checkPage_ok {s t : State} {core ctx root va : Nat} {priv : Bool} {p : Perm} {l : Loc}
    (h : s.checkPage core ctx root priv va p = (.ok l, t)) :
    ∃ lf, s.xlate core ctx root va = (.leaf lf, t) ∧ bit lf.pte 2 = true := by
  unfold State.checkPage at h
  split at h
  next => simp at h
  next => simp at h
  next => simp at h
  next lf u translated =>
    simp only at h
    split_ifs at h with refused absent
    · simp at h
    · simp at h
    all_goals
      obtain ⟨-, rfl⟩ := Prod.mk.inj h
      exact ⟨lf, translated, by simpa using absent⟩

theorem checkPage_transfer {s u : State} {core ctx root va : Nat} {priv : Bool} {p : Perm} {l : Loc}
    (h : s.checkPage core ctx root priv va p = (.ok l, s)) (tlb : u.tlb = s.tlb) :
    u.checkPage core ctx root priv va p = (.ok l, u) := by
  obtain ⟨lf, translated, present⟩ := checkPage_ok h
  obtain ⟨t, hit⟩ := xlate_unchanged translated present
  have hit' : tlbEntry u core ctx va = some t := by unfold tlbEntry at hit ⊢; rw [tlb, hit]
  unfold State.checkPage at h ⊢
  rw [xlate_hit hit] at h
  rw [xlate_hit hit']
  simp only at h ⊢
  split_ifs at h ⊢
  · simp at h
  · simp at h
  all_goals rw [(Prod.mk.inj h).1]

theorem typeOk_of_mgmt {s u : State} (mgmt : u.mgmt = s.mgmt) (pa ty : Nat) (priv : Bool) : u.typeOk pa ty priv = s.typeOk pa ty priv := by
  unfold State.typeOk State.poolOk State.peerOk State.peerWin
  rw [mgmt]

/-- Such a check comes out alike in every state with the same TLBs and the same management registers. -/
theorem checkGlobal_transfer {s u : State} {core ctx root va : Nat} {priv : Bool} {p : Perm} {l : Loc}
    (h : s.checkGlobal core ctx root priv va p = (.ok l, s)) (tlb : u.tlb = s.tlb) (mgmt : u.mgmt = s.mgmt) :
    u.checkGlobal core ctx root priv va p = (.ok l, u) := by
  unfold State.checkGlobal at h
  split at h
  next l' t page =>
    split at h
    next ok =>
      obtain ⟨rfl, rfl⟩ : l' = l ∧ t = s := by simpa using h
      simp only [State.checkGlobal, checkPage_transfer page tlb, typeOk_of_mgmt mgmt, if_pos ok]
    next => simp at h
  next other => exact (other _ _ h).elim

/-- An address of code in device memory that translates is fetched from there, in every such state. -/
theorem fetchUnit_ok {s : State} {pc : Addr} (n : Nat) : ∀ hs : List Nat,
    (∀ j, j < n → ∃ x, s.fetchHalf ((pc.toNat + 2 * (hs.length + j)) % 2 ^ 64) = (.half x, s)) →
    ∃ us, s.fetchUnit pc n hs = (.ok us, s) := by
  induction n with
  | zero => exact fun hs _ => ⟨hs, rfl⟩
  | succ n ih =>
    intro hs halves
    obtain ⟨x, head⟩ := halves 0 (by omega)
    rw [Nat.add_zero] at head
    by_cases whole : (unitHalves 4 {} (hs ++ [x])).isSome = true
    · exact ⟨hs ++ [x], by simp only [State.fetchUnit, head, if_pos whole]⟩
    · obtain ⟨us, rest⟩ := ih (hs ++ [x]) fun j hj => by
        have := halves (j + 1) (by omega)
        simpa [Nat.add_assoc, Nat.add_comm 1 j] using this
      exact ⟨us, by simp only [State.fetchUnit, head, if_neg whole, rest]⟩

end Sys2Proof.DeviceAccess

/-! ### A killed group (R100, R364) -/

namespace Sys2Proof.Killing

open Sys2Proof.Machine

/-! #### What a rendezvous leaves of a group that has ended -/

/-- The issuing group has ended, and no other group has its number. -/
structure Over (s : State) : Prop where
  wait : s.g.wait = .ended
  apart : s.g.id ∉ s.others.map (·.id)

/-- What the meeting of other groups leaves: the issuing group, and which others there are. -/
structure Aside (s t : State) : Prop where
  g : t.g = s.g
  ids : t.others.map (·.id) = s.others.map (·.id)
  ctxs : t.ctxs = s.ctxs
  mxOwns : t.mxOwns = s.mxOwns
  banks : s.banks = [] → t.banks = []

theorem Aside.refl (s : State) : Aside s s := ⟨rfl, rfl, rfl, rfl, id⟩

theorem Aside.trans {s t u : State} (a : Aside s t) (b : Aside t u) : Aside s u :=
  ⟨b.g.trans a.g, b.ids.trans a.ids, b.ctxs.trans a.ctxs, b.mxOwns.trans a.mxOwns, fun none_ => b.banks (a.banks none_)⟩

theorem Over.aside {s t : State} (o : Over s) (a : Aside s t) : Over t :=
  ⟨by rw [a.g]; exact o.wait, by rw [a.g, a.ids]; exact o.apart⟩

theorem aside_foldl {α : Type} {f : State → α → State} {l : List α} {s : State} (ended : Over s)
    (step : ∀ t x, Over t → t.g.id = s.g.id → x ∈ l → Aside t (f t x)) : Aside s (l.foldl f s) := by
  induction l generalizing s with
  | nil => exact .refl s
  | cons x l ih =>
    have first := step s x ended rfl (List.mem_cons_self ..)
    refine first.trans (ih (ended.aside first) fun t y ot same hy => step t y ot (same.trans ?_) (List.mem_cons_of_mem _ hy))
    rw [first.g]

/-- A change of groups that keeps their numbers and the issuing group. -/
theorem aside_mapGroups {s : State} {f : Group → Group} (keep : f s.g = s.g) (ids : ∀ g, (f g).id = g.id) : Aside s (s.mapGroups f) :=
  ⟨keep, by simp [State.mapGroups, ids], rfl, rfl, id⟩

theorem aside_updGroup {s : State} {id : Nat} {f : Group → Group} (other : s.g.id ≠ id) (ids : ∀ g, (f g).id = g.id) :
    Aside s (s.updGroup id f) := by
  unfold State.updGroup
  rw [if_neg other]
  refine ⟨rfl, ?_, rfl, rfl, fun none_ => none_⟩
  simp only [List.map_map]
  refine List.map_congr_left fun g _ => ?_
  simp only [Function.comp]
  split
  · exact ids g
  · rfl

theorem find_swapped {l : List Group} {g : Group} {id : Nat} (apart : g.id ∉ l.map (·.id)) {k : Group} (hk : k ∈ l) (hid : k.id = id) :
    (l.map fun h => if h.id = id then g else h).find? (fun h => h.id == g.id) = some g := by
  induction l with
  | nil => cases hk
  | cons h l ih =>
    simp only [List.map_cons, List.mem_cons, not_or] at apart
    rw [List.map_cons, List.find?_cons]
    by_cases e : h.id = id
    · simp [e]
    · have : (h.id == g.id) = false := by simpa using Ne.symm apart.1
      simp only [e, if_false, this]
      refine ih apart.2 ((List.mem_cons.1 hk).resolve_left ?_)
      rintro rfl
      exact e hid

theorem ids_swapped_back {l : List Group} {g k : Group} {id : Nat} (apart : g.id ∉ l.map (·.id)) (hid : k.id = id) :
    ((l.map fun h => if h.id = id then g else h).map fun h => if h.id = g.id then k else h).map (·.id) = l.map (·.id) := by
  rw [List.map_map, List.map_map]
  refine List.map_congr_left fun h hh => ?_
  have : h.id ≠ g.id := fun e => apart (e ▸ List.mem_map_of_mem hh)
  simp only [Function.comp]
  by_cases e : h.id = id <;> simp [e, this, hid]

/-- A change that leaves alone who the other groups are, and the tables a rendezvous leaves alone. -/
structure Within (s t : State) : Prop where
  id : t.g.id = s.g.id
  others : t.others = s.others
  ctxs : t.ctxs = s.ctxs
  mxOwns : t.mxOwns = s.mxOwns
  banks : s.banks = [] → t.banks = []

theorem Within.refl (s : State) : Within s s := ⟨rfl, rfl, rfl, rfl, fun none_ => none_⟩

theorem Within.trans {s t u : State} (a : Within s t) (b : Within t u) : Within s u :=
  ⟨b.id.trans a.id, b.others.trans a.others, b.ctxs.trans a.ctxs, b.mxOwns.trans a.mxOwns, fun none_ => b.banks (a.banks none_)⟩

theorem Within.foldl {α : Type} {f : State → α → State} (step : ∀ t x, Within t (f t x)) (l : List α) (s : State) : Within s (l.foldl f s) := by
  induction l generalizing s with
  | nil => exact .refl s
  | cons x l ih => exact (step s x).trans (ih _)

theorem Within.ite {s t : State} {c : Prop} [Decidable c] (h : Within s t) : Within s (if c then t else s) := by
  split
  · exact h
  · exact .refl s

theorem within_mg (s : State) {f : Group → Group} (id : (f s.g).id = s.g.id) : Within s (s.mg f) := ⟨id, rfl, rfl, rfl, fun none_ => none_⟩
theorem within_markMem (s : State) (a n : Nat) : Within s (s.markMem a n) := ⟨rfl, rfl, rfl, rfl, fun none_ => none_⟩
theorem within_memStore (s : State) (a : Nat) (bs : List Byte) : Within s (s.memStore a bs) :=
  ⟨rfl, rfl, rfl, rfl, fun none_ => by simp [none_]⟩

theorem beginRegion_within (s : State) (wg : Bool) (rpc : Addr) : Within s (s.beginRegion wg rpc) := by
  unfold State.beginRegion
  refine .trans ?_ (within_mg _ rfl)
  refine .trans ?_ (within_markMem ..).ite
  refine .trans ?_ (within_markMem ..).ite
  refine .trans ?_ (Within.foldl (fun u i => (within_markMem u ..).ite) ..)
  refine .trans ?_ (Within.foldl (fun u i => (within_markMem u ..).ite) ..)
  exact .trans (within_mg s rfl) (within_memStore ..)

theorem aside_onGroup {s : State} {id : Nat} {f : State → State} (ended : Over s) (other : s.g.id ≠ id) (within : ∀ t, Within t (f t)) :
    Aside s (s.onGroup id f) := by
  unfold State.onGroup
  rw [if_neg other]
  split
  next => exact .refl s
  next k found =>
    have hk := List.mem_of_find?_eq_some found
    have hid : k.id = id := by simpa using List.find?_some found
    have w := within { s with g := k, others := s.others.map fun g => if g.id = id then s.g else g }
    dsimp only
    generalize f { s with g := k, others := s.others.map fun g => if g.id = id then s.g else g } = t at w
    obtain ⟨tid, others, ctxs, mxOwns, banks⟩ := w
    dsimp only at tid others ctxs mxOwns banks
    rw [others, find_swapped ended.apart hk hid]
    exact ⟨rfl, ids_swapped_back ended.apart (tid.trans hid), ctxs, mxOwns, banks⟩

/-- A group that has not ended is not the issuing group. -/
theorem ne_of_running {s : State} (ended : Over s) {g : Group} (hg : g ∈ s.groups) (run : g.wait ≠ .ended) : s.g.id ≠ g.id := by
  rcases List.mem_cons.1 hg with rfl | hg
  · exact absurd ended.wait run
  · exact fun e => ended.apart (e ▸ List.mem_map_of_mem hg)

theorem ne_of_mem_wgGroups {s : State} (ended : Over s) {g : Group} {wg : Nat} (hg : g ∈ s.wgGroups wg) : s.g.id ≠ g.id := by
  obtain ⟨hg, run⟩ := List.mem_filter.1 hg
  simp only [Bool.and_eq_true, bne_iff_ne, ne_eq] at run
  exact ne_of_running ended hg run.2

theorem ne_of_mem_cloudGroups {s : State} (ended : Over s) {g : Group} {wg : Nat} (hg : g ∈ s.cloudGroups wg) : s.g.id ≠ g.id := by
  unfold State.cloudGroups at hg
  split at hg
  · exact ne_of_mem_wgGroups ended hg
  · split at hg
    · obtain ⟨hg, run⟩ := List.mem_filter.1 hg
      simp only [Bool.and_eq_true, bne_iff_ne, ne_eq] at run
      exact ne_of_running ended hg run.1
    · exact ne_of_mem_wgGroups ended hg

/-- A change of those groups of a set of numbers that the issuing group is not in. -/
theorem aside_mapGroups_contains {s : State} {gs : List Group} {f : Group → Group} (other : ∀ g ∈ gs, s.g.id ≠ g.id)
    (ids : ∀ g, (f g).id = g.id) : Aside s (s.mapGroups fun g => if (gs.map (·.id)).contains g.id then f g else g) := by
  refine aside_mapGroups (if_neg ?_) fun g => ?_
  · rw [List.contains_iff_mem, List.mem_map]
    rintro ⟨g, hg, e⟩
    exact other g hg e.symm
  · split
    · exact ids g
    · rfl

theorem afterBar_aside {s : State} {id : Nat} (ended : Over s) (other : s.g.id ≠ id) : Aside s (s.afterBar id) := by
  unfold State.afterBar
  split
  next => exact .refl s
  next g _ =>
    split
    · exact aside_onGroup ended other fun t => beginRegion_within t true t.g.pc
    · exact aside_updGroup other fun _ => rfl
    · exact .refl s

theorem settleBar_aside {s : State} (ended : Over s) (wg : Nat) : Aside s (s.settleBar wg) := by
  unfold State.settleBar
  dsimp only
  split
  next =>
    refine aside_foldl ended fun t id still same hid => ?_
    obtain ⟨g, hg, rfl⟩ := List.mem_map.1 hid
    have other : t.g.id ≠ g.id := by
      rw [same]
      exact ne_of_mem_wgGroups ended (List.mem_filter.1 hg).1
    have first := afterBar_aside still other
    exact first.trans (aside_updGroup (by rw [first.g]; exact other) fun _ => rfl)
  next => exact .refl s

theorem electResult_id (win : Option (Nat × Nat)) (clock : Nat) (g : Group) : (g.electResult win clock).id = g.id := by
  unfold Group.electResult
  split
  · split
    · split <;> rfl
    · rfl
  · rfl

theorem electResult_ended {win : Option (Nat × Nat)} {clock : Nat} {g : Group} (h : g.wait = .ended) : g.electResult win clock = g := by
  simp [Group.electResult, h]

theorem settleElectw_aside {s : State} (ended : Over s) (wg : Nat) : Aside s (s.settleElectw wg) := by
  unfold State.settleElectw
  dsimp only
  split
  next =>
    refine aside_mapGroups ?_ fun g => ?_
    · rw [electResult_ended ended.wait, ite_self]
    · split
      · exact electResult_id ..
      · rfl
  next => exact .refl s

theorem joined_id (g : Group) (now : Nat) : (g.joined now).id = g.id := by
  unfold Group.joined
  split <;> rfl

theorem settleJoin_aside {s : State} (ended : Over s) (wg : Nat) : Aside s (s.settleJoin wg) := by
  unfold State.settleJoin
  refine aside_foldl ended fun t j still _ _ => ?_
  dsimp only
  split
  next => exact .refl t
  next =>
    obtain ⟨g, ids, ctxs, mxOwns, banks⟩ := aside_mapGroups_contains (s := t)
      (gs := (t.wgGroups wg).filter fun g => g.gidx / 4 == j) (f := fun g => g.joined t.clock)
      (fun g hg => ne_of_mem_wgGroups still (List.mem_filter.1 hg).1) (fun g => joined_id g _)
    exact ⟨g, ids, ctxs, mxOwns, banks⟩

theorem settleCbar_aside {s : State} (ended : Over s) (owners : s.mxOwns = []) (wg : Nat) : Aside s (s.settleCbar wg) := by
  unfold State.settleCbar
  dsimp only
  split
  next =>
    simp only [owners, List.isEmpty_nil, if_true]
    exact aside_mapGroups_contains (fun g hg => ne_of_mem_cloudGroups ended (List.mem_filter.1 hg).1) fun _ => rfl
  next => exact .refl s

/-- R102, R262, R320: what the others do when a group of theirs has ended leaves it alone. -/
theorem settle_aside {s : State} (ended : Over s) (owners : s.mxOwns = []) (wg : Nat) : Aside s (s.settle wg) := by
  unfold State.settle
  have bar := settleBar_aside ended wg
  have electw := bar.trans (settleElectw_aside (ended.aside bar) wg)
  have join := electw.trans (settleJoin_aside (ended.aside electw) wg)
  exact join.trans (settleCbar_aside (ended.aside join) (join.mxOwns.trans owners) wg)

/-! #### The end of a group (R100, R364) -/

theorem ctx_ctx (s : State) (c : Nat) : (s.ctx c).ctx = c := by
  unfold State.ctx
  cases found : s.ctxs.find? fun b => b.ctx == c with
  | none => rfl
  | some b => simpa using List.find?_some found

/-- The block of a context that has just been set. -/
theorem kills_of_set {s : State} {b : CtxBlock} {bs : List CtxBlock} {c : Nat} {k : Word} (set_ : s.ctxs = b :: bs) (hc : b.ctx = c)
    (hk : b.kills = k) : (s.ctx c).kills = k := by
  simp [State.ctx, set_, hc, hk]

theorem passOn_foldl (core : Nat) (es : List LockEntry) (s : State) :
    ∃ ls net, es.foldl (fun u e => u.passOn e core true []) s = { s with locks := ls, lockNet := net } := by
  induction es generalizing s with
  | nil => exact ⟨_, _, rfl⟩
  | cons e es ih =>
    obtain ⟨ls, net, eq⟩ := ih (s.passOn e core true [])
    exact ⟨ls, net, eq⟩

theorem abandonLocks_eq (s : State) (grp core : Nat) : ∃ ls net, s.abandonLocks grp core = { s with locks := ls, lockNet := net } := by
  obtain ⟨ls, net, eq⟩ := passOn_foldl core (s.heldBy grp) s
  unfold State.abandonLocks
  rw [eq]
  exact ⟨_, _, rfl⟩

/-- A quiet group that ends gives up its locks, and that its matrix runs are its own. -/
theorem givesUp_eq {s : State} (pend : s.g.pend = []) (owners : s.mxOwns = []) :
    ∃ ls net, (s.performAll.abandonLocks s.g.id s.g.core).mxDrop
      = ({ s with locks := ls, lockNet := net } : State).mg fun g => { g with mxRuns := [] } := by
  obtain ⟨ls, net, locks⟩ := abandonLocks_eq s s.g.id s.g.core
  have performed : s.performAll = s := if_pos (by simp [pend])
  rw [performed, locks]
  exact ⟨ls, net, if_pos (by simp [owners])⟩

/-- What the end of the issuing group makes of it before the others look at their rendezvous again. -/
structure Ending (s u : State) : Prop where
  wait : u.g.wait = .ended
  mask : u.g.mask = 0
  id : u.g.id = s.g.id
  place : u.g.core = s.g.core ∧ u.g.quarter = s.g.quarter
  others : u.others = s.others
  mxOwns : u.mxOwns = s.mxOwns
  banks : u.banks = s.banks
  kills : (u.ctx s.g.ctx).kills = (s.ctx s.g.ctx).kills

theorem endGroup_ending {s : State} (pend : s.g.pend = []) (owners : s.mxOwns = []) :
    ∃ u, Ending s u ∧ s.endGroup = (u.settle s.g.wg).closeWg s.g.wg := by
  obtain ⟨ls, net, gone⟩ := givesUp_eq pend owners
  unfold State.endGroup
  dsimp only
  rw [gone]
  refine ⟨_, ?_, rfl⟩
  constructor
  case kills => exact kills_of_set rfl (ctx_ctx s s.g.ctx) rfl
  case place => exact ⟨rfl, rfl⟩
  all_goals rfl

theorem closeWg_keeps (s : State) (wg : Nat) : (s.closeWg wg).g = s.g ∧ (s.closeWg wg).ctxs = s.ctxs ∧ (s.closeWg wg).banks = s.banks := by
  unfold State.closeWg
  split <;> exact ⟨rfl, rfl, rfl⟩

/-- R100: a quiet group that ends has ended when the others have met. -/
theorem endGroup_ends {s : State} (pend : s.g.pend = []) (owners : s.mxOwns = []) (banks : s.banks = []) (apart : s.g.id ∉ s.others.map (·.id)) :
    ∃ u, Ending s u ∧ s.endGroup.g = u.g ∧ s.endGroup.ctxs = u.ctxs ∧ s.endGroup.banks = [] := by
  obtain ⟨u, e, ends⟩ := endGroup_ending pend owners
  have ended : Over u := ⟨e.wait, by rw [e.id, e.others]; exact apart⟩
  have met := settle_aside ended (e.mxOwns.trans owners) s.g.wg
  obtain ⟨g, ctxs, kept⟩ := closeWg_keeps (u.settle s.g.wg) s.g.wg
  rw [ends]
  exact ⟨u, e, g.trans met.g, ctxs.trans met.ctxs, kept.trans (met.banks (e.banks.trans banks))⟩

/-- R364: the block of a context that has counted a killed group. -/
def killCount (s : State) : CtxBlock := { s.ctx s.g.ctx with kills := satInc (s.ctx s.g.ctx).kills }

/-- R364: the group that is killed ends at once, and its context counts it. -/
theorem killGroup_kills {s : State} (pend : s.g.pend = []) (owners : s.mxOwns = []) (banks : s.banks = []) (apart : s.g.id ∉ s.others.map (·.id)) :
    s.Killed s.killGroup ∧ Performs (fun t => .ok () t.killGroup) s s.killGroup := by
  have kill : s.killGroup = (s.setCtx (killCount s)).endGroup := if_neg (by simp [pend])
  obtain ⟨u, e, g, ctxs, none_⟩ := endGroup_ends (s := s.setCtx (killCount s)) pend owners banks apart
  obtain ⟨core, quarter⟩ := e.place
  rw [← kill] at g ctxs none_
  refine ⟨⟨by rw [g]; exact e.wait, by rw [g]; exact e.mask, ?_⟩, rfl, none_.trans banks.symm, by rw [g]; exact core, by rw [g]; exact quarter⟩
  calc (s.killGroup.ctx s.g.ctx).kills
    _ = (u.ctx s.g.ctx).kills := by rw [State.ctx, ctxs, State.ctx]
    _ = ((s.setCtx (killCount s)).ctx s.g.ctx).kills := e.kills
    _ = satInc (s.ctx s.g.ctx).kills := kills_of_set rfl (ctx_ctx s s.g.ctx) rfl

end Sys2Proof.Killing

/-! ### Taking a trap and returning from it (R43, R361 to R366) -/

namespace Sys2Proof.Traps

open Sys2Proof.Machine Sys2Proof.Fetching Sys2Proof.DeviceAccess Sys2Proof.Killing

/-! #### The frame (R362, R363) -/

theorem frameLoc_ok {s : State} {l : Loc} (below : s.frameAddr + 256 ≤ 2 ^ 57)
    (write : s.checkGlobal s.g.core s.g.ctx s.g.root s.g.priv s.frameAddr .w = (.ok l, s))
    (read : s.checkGlobal s.g.core s.g.ctx s.g.root s.g.priv s.frameAddr .rd = (.ok l, s)) : s.frameLoc = (some l, s) := by
  unfold State.frameLoc
  simp only [write, read]
  exact if_neg (by omega)

/-- The bytes of a field stand at its offset. -/
theorem field_bytes {fs : List Field} : ∀ {o : Nat}, Consecutive o fs → ∀ {f : Field}, f ∈ fs →
    o ≤ f.1 ∧ f.1 - o + f.2.1 ≤ (fs.flatMap Field.bytes).length ∧ ((fs.flatMap Field.bytes).drop (f.1 - o)).take f.2.1 = f.bytes := by
  induction fs with
  | nil => intro o _ f hf; cases hf
  | cons h fs ih =>
    intro o ⟨⟨at_, _, _⟩, rest⟩ f hf
    have len (f : Field) : f.bytes.length = f.2.1 := leBytes_length _ _
    rw [List.flatMap_cons, List.length_append, len]
    rcases List.mem_cons.1 hf with rfl | hf
    · rw [at_, Nat.sub_self, List.drop_zero, List.take_left' (len f)]
      exact ⟨Nat.le_refl o, by omega, rfl⟩
    · obtain ⟨lo, hi, bytes⟩ := ih rest hf
      refine ⟨by omega, by omega, ?_⟩
      rw [List.drop_append, List.drop_of_length_le (by rw [len]; omega), List.nil_append, len, Nat.sub_sub]
      exact bytes

/-- The 256 bytes of a frame; never evaluated, only read field by field. -/
@[irreducible] def frameBytes (g : Group) (cause detail lane addr : Nat) (tpc : Addr) (sig : Word) : List Byte :=
  (g.frame cause detail lane addr tpc sig).flatMap Field.bytes

section
variable (g : Group) (cause detail lane addr : Nat) (tpc : Addr) (sig : Word)

theorem frameBytes_length : (frameBytes g cause detail lane addr tpc sig).length = 256 := by
  simp [frameBytes, Group.frame, List.length_flatMap, Field.bytes, Function.comp_def]

theorem frame_consecutive (clean : g.sPoison = 0) : Consecutive 0 (g.frame cause detail lane addr tpc sig) := by
  have mark (r : Nat) : g.rawSP r = false := by simp [Group.rawSP, clean]
  simp [Group.frame, Consecutive, mark, List.range, List.range.loop]

/-- The frame has been written at a place of device memory, and nothing else but caches has changed. -/
theorem writeFrame_device {s : State} (k : Still s) {l : Loc} (ty : l.ty = 0) (flat : s.Flat l.key 256) (clean : g.sPoison = 0) :
    Recached { s with mem := Memory.write s.mem (s.place l.key) (frameBytes g cause detail lane addr tpc sig) }
      (s.writeFrame l (g.frame cause detail lane addr tpc sig)) := by
  have len := frameBytes_length g cause detail lane addr tpc sig
  unfold frameBytes at len ⊢
  exact writeFields_device ty s.g.core s.g.id s.g.ctx _ 0 s k flat (frame_consecutive g cause detail lane addr tpc sig clean) (by omega)

/-- A state in which the frame stands at a place of device memory. -/
structure Framed (s u : State) (l : Loc) : Prop where
  mem : s.memOk
  flat : s.Flat l.key 256
  clean : g.sPoison = 0
  written : Recached { s with mem := Memory.write s.mem (s.place l.key) (frameBytes g cause detail lane addr tpc sig) } u

end

section
variable {g : Group} {cause detail lane addr : Nat} {tpc : Addr} {sig : Word} {s u : State} {l : Loc}

theorem Framed.mem_eq (h : Framed g cause detail lane addr tpc sig s u l) :
    u.mem = Memory.write s.mem (s.place l.key) (frameBytes g cause detail lane addr tpc sig) := h.written.mem

/-- The bytes of a field lie in memory. -/
theorem Framed.read (h : Framed g cause detail lane addr tpc sig s u l) {f : Field} (hf : f ∈ g.frame cause detail lane addr tpc sig) :
    f.1 + f.2.1 ≤ 256 ∧ Memory.read u.mem (s.place l.key + f.1) f.2.1 = f.bytes := by
  obtain ⟨-, le, bytes⟩ := field_bytes (frame_consecutive g cause detail lane addr tpc sig h.clean) hf
  rw [Nat.sub_zero] at le bytes
  have len := frameBytes_length g cause detail lane addr tpc sig
  have written := h.mem_eq
  unfold frameBytes at len written
  refine ⟨by omega, ?_⟩
  rw [written, read_write_inside h.mem _ le]
  exact bytes

/-- A field read back from the frame. -/
theorem Framed.field (h : Framed g cause detail lane addr tpc sig s u l) {o n x : Nat} {pz : Bool}
    (hf : (o, n, x, pz) ∈ g.frame cause detail lane addr tpc sig) (some_ : 0 < n) : u.memRead (l.key + o) n = x % 256 ^ n := by
  obtain ⟨le, bytes⟩ := h.read hf
  have place : u.place (l.key + o) = s.place l.key + o := (h.written.place _).trans (h.flat o (by simp only at le; omega))
  rw [State.memRead, State.memBytes, place, bytes]
  exact leNat_leBytes n x

/-- A word read back from the frame. -/
theorem Framed.word (h : Framed g cause detail lane addr tpc sig s u l) {o : Nat} {x : Word} {pz : Bool}
    (hf : (o, 4, x.toNat, pz) ∈ g.frame cause detail lane addr tpc sig) : u.memRead (l.key + o) 4 = x.toNat :=
  (h.field hf (by decide)).trans (Nat.mod_eq_of_lt x.isLt)

theorem getD_read (m : List Host.Cell) (a n i : Nat) (h : i < n) : (Memory.read m a n).getD i 0 = Memory.get m (a + i) := by
  induction n generalizing a i with
  | zero => omega
  | succ n ih =>
    cases i with
    | zero => rfl
    | succ i =>
      rw [Memory.read, List.getD_cons_succ, ih _ _ (by omega)]
      congr 1
      omega

/-- What is reserved of the frame is zero. -/
theorem Framed.rest (h : Framed g cause detail lane addr tpc sig s u l) {i : Nat} (lo : 0x40 ≤ i) (hi : i < 0x100) :
    Memory.get u.mem (s.place l.key + i) = 0 := by
  obtain ⟨j, r, hj, hr, rfl⟩ : ∃ j r, j < 24 ∧ r < 8 ∧ i = 0x40 + 8 * j + r := ⟨(i - 0x40) / 8, (i - 0x40) % 8, by omega, by omega, by omega⟩
  have field : ((0x40 + 8 * j, 8, 0, false) : Field) ∈ g.frame cause detail lane addr tpc sig :=
    List.mem_append_right _ (List.mem_map.2 ⟨j, List.mem_range.2 hj, rfl⟩)
  have bytes := (h.read field).2
  have zero : (leBytes 8 0).getD r 0 = 0 := (by decide : ∀ r < 8, (leBytes 8 0).getD r 0 = 0) r hr
  rw [← Nat.add_assoc, ← getD_read u.mem _ 8 r hr, bytes]
  exact zero

/-- A byte outside the frame is what it was. -/
theorem Framed.outside (h : Framed g cause detail lane addr tpc sig s u l) : s.Frame u l.key 256 := by
  intro x out
  rw [h.mem_eq]
  refine Memory.get_write_other h.mem ?_
  rw [frameBytes_length]
  exact out

end

/-! #### The group in its handler (R362) -/

theorem rawS_writeS (g : Group) (h : g.s.length = 64) {r : Nat} (hr : 60 ≤ r ∧ r < 64) (x : Word) (pz : Bool) (q : Nat) :
    (g.writeS r x pz).rawS q = if q = r then x else g.rawS q := by
  have notMask : isMaskReg r = false := by simp [isMaskReg]; omega
  unfold Group.writeS
  split
  next e =>
    subst e
    exact (Group.putS_value _ (show (g.race _).s.length = 64 from h) hr.2 x pz).trans (by simp [Group.heldS, notMask])
  next ne =>
    rw [Group.putS_other _ ne]
    simp [notMask, Group.rawS]

theorem length_writeS (g : Group) (r : Nat) (x : Word) (pz : Bool) : (g.writeS r x pz).s.length = g.s.length := by
  unfold Group.writeS Group.putS
  split <;> simp

/-- The group with s60 to s63 written, as a trap entry and ERET write them. -/
def writeSaved (g : Group) (a b c d : Word × Bool) : Group :=
  (((g.settleTrapRefs.writeS 60 a.1 a.2).writeS 61 b.1 b.2).writeS 62 c.1 c.2).writeS 63 d.1 d.2

theorem writeSaved_rawS {g : Group} (h : g.s.length = 64) (a b c d : Word × Bool) (q : Nat) :
    (writeSaved g a b c d).rawS q
      = if q = 63 then d.1 else if q = 62 then c.1 else if q = 61 then b.1 else if q = 60 then a.1 else g.rawS q := by
  have h1 : (g.settleTrapRefs.writeS 60 a.1 a.2).s.length = 64 := (length_writeS ..).trans h
  have h2 := (length_writeS (g.settleTrapRefs.writeS 60 a.1 a.2) 61 b.1 b.2).trans h1
  have h3 := (length_writeS ((g.settleTrapRefs.writeS 60 a.1 a.2).writeS 61 b.1 b.2) 62 c.1 c.2).trans h2
  have first : (g.settleTrapRefs.writeS 60 a.1 a.2).rawS q = if q = 60 then a.1 else g.rawS q :=
    rawS_writeS g.settleTrapRefs h (by omega) _ _ q
  rw [writeSaved, rawS_writeS _ h3 (by omega), rawS_writeS _ h2 (by omega), rawS_writeS _ h1 (by omega), first]

/-- What a trap entry and ERET leave of a group before they set what is theirs: all but scalars, the mask and what is under way. -/
structure KeepsRest (g h : Group) : Prop where
  v : h.v = g.v
  p : h.p = g.p
  status : h.gsr = g.gsr ∧ h.fmt = g.fmt ∧ h.ckint = g.ckint
  depths : h.ret = g.ret ∧ h.recon = g.recon
  wait : h.wait = g.wait
  quarter : h.core = g.core ∧ h.quarter = g.quarter

theorem KeepsRest.trans {g h k : Group} (a : KeepsRest g h) (b : KeepsRest h k) : KeepsRest g k :=
  ⟨b.v.trans a.v, b.p.trans a.p,
    ⟨b.status.1.trans a.status.1, b.status.2.1.trans a.status.2.1, b.status.2.2.trans a.status.2.2⟩,
    ⟨b.depths.1.trans a.depths.1, b.depths.2.trans a.depths.2⟩, b.wait.trans a.wait,
    ⟨b.quarter.1.trans a.quarter.1, b.quarter.2.trans a.quarter.2⟩⟩

theorem writeS_keepsRest (g : Group) (r : Nat) (x : Word) (pz : Bool) : KeepsRest g (g.writeS r x pz) := by
  unfold Group.writeS Group.putS
  split <;> exact ⟨rfl, rfl, ⟨rfl, rfl, rfl⟩, ⟨rfl, rfl⟩, rfl, ⟨rfl, rfl⟩⟩

theorem writeSaved_keepsRest (g : Group) (a b c d : Word × Bool) : KeepsRest g (writeSaved g a b c d) := by
  have settle : KeepsRest g g.settleTrapRefs := ⟨rfl, rfl, ⟨rfl, rfl, rfl⟩, ⟨rfl, rfl⟩, rfl, ⟨rfl, rfl⟩⟩
  exact (((settle.trans (writeS_keepsRest ..)).trans (writeS_keepsRest ..)).trans (writeS_keepsRest ..)).trans (writeS_keepsRest ..)

/-- R362: what a trap entry writes to s60 to s63. -/
def handlerSaved (g : Group) (frame cause detail lane : Nat) : Group :=
  writeSaved g (BitVec.ofNat 32 frame, false) (BitVec.ofNat 32 (frame / 2 ^ 32), false) (causeWord cause detail lane, false) (g.flagsWord, false)

theorem enterHandler_eq (g : Group) (vec : Addr) (frame cause detail lane clock : Nat) :
    g.enterHandler vec frame cause detail lane clock
      = let h := handlerSaved g frame cause detail lane
        { h with mask := g.live, sPoison := h.sPoison &&& ~~~maskMarks, pc := vec, sig := 0xFFFF, handler := some (g.retDepth, g.reconDepth),
                 notBefore := clock + 3, replay := false, refused := none, wait := .ready, arrived := g.arrivals } := rfl

/-- s60 to s63 of a group that enters its handler, and the scalars it keeps. -/
theorem enterHandler_rawS {g : Group} (vec : Addr) (frame cause detail lane clock : Nat) (h : g.s.length = 64) {q : Nat}
    (hq : q < 56 ∨ 59 ≤ q) :
    (g.enterHandler vec frame cause detail lane clock).rawS q
      = if q = 63 then g.flagsWord else if q = 62 then causeWord cause detail lane
        else if q = 61 then BitVec.ofNat 32 (frame / 2 ^ 32) else if q = 60 then BitVec.ofNat 32 frame else g.rawS q := by
  have notMask : isMaskReg q = false := by simp [isMaskReg]; omega
  rw [enterHandler_eq, ← writeSaved_rawS h (BitVec.ofNat 32 frame, false) (BitVec.ofNat 32 (frame / 2 ^ 32), false)
    (causeWord cause detail lane, false) (g.flagsWord, false)]
  simp only [Group.rawS, notMask, Bool.false_eq_true, if_false]
  rfl

theorem takeTrap_eq {s : State} {l : Loc} (cause detail lane addr : Nat) (tpc : Addr) (sig : Word) (calm : s.Calm) (can : s.CanTrap l) :
    ∃ u, Recached { s with mem := Memory.write s.mem (s.place l.key) (frameBytes s.g cause detail lane addr tpc sig) } u ∧
      s.takeTrap cause detail lane addr tpc sig
        = u.mg fun g => g.enterHandler (s.ctx s.g.ctx).trapVec s.frameAddr cause detail lane s.clock := by
  have still := still_of_calm calm
  have hu := writeFrame_device s.g cause detail lane addr tpc sig still can.ram can.flat calm.scalars
  refine ⟨_, hu, ?_⟩
  unfold State.takeTrap
  simp only [if_neg can.vec, frameLoc_ok can.below can.write can.read, can.handler, Option.isSome_none]
  generalize s.writeFrame l (s.g.frame cause detail lane addr tpc sig) = u at hu
  have stillU := hu.still (still.setMem _)
  have g : u.g = s.g := hu.g
  have code := can.code
  obtain ⟨us, fetch⟩ := fetchUnit_ok (s := u) (pc := (s.ctx s.g.ctx).trapVec) 8 [] fun j hj => by
    obtain ⟨k, kty, ok⟩ := can.fetch j hj
    rw [List.length_nil, Nat.zero_add, Nat.mod_eq_of_lt (by omega)]
    refine ⟨_, fetchHalf_device (by omega) ?_ kty stillU.banks stillU.memPoison⟩
    rw [g]
    exact checkGlobal_transfer ok hu.tlb hu.mgmt
  rw [fetch]
  rfl

theorem mg_memRead (s : State) (f : Group → Group) : (s.mg f).memRead = s.memRead := rfl

/-- The group and the frame of a state make it one that has entered its handler. -/
theorem entered_of {s u t : State} {l : Loc} {cause detail lane addr : Nat} {tpc : Addr} {sig : Word} (formed : s.g.s.length = 64)
    (framed : Framed s.g cause detail lane addr tpc sig s u l)
    (g : t.g = s.g.enterHandler (s.ctx s.g.ctx).trapVec s.frameAddr cause detail lane s.clock)
    (read : t.memRead = u.memRead) (mem : t.mem = u.mem) (others : t.others = s.others) :
    s.Entered t l cause detail lane addr tpc sig := by
  have scalar {q : Nat} (hq : q < 56 ∨ 59 ≤ q) :=
    enterHandler_rawS (g := s.g) (s.ctx s.g.ctx).trapVec s.frameAddr cause detail lane s.clock formed hq
  have kept : KeepsRest s.g (handlerSaved s.g s.frameAddr cause detail lane) := writeSaved_keepsRest ..
  constructor
  case pc | mask | sigAfter | handler | wait => rw [g, enterHandler_eq]
  case frameLow | frameHigh | causeReg | flagsReg => rw [g, scalar (by omega)]; rfl
  case scal =>
    intro r hr
    rw [g, scalar (by omega)]
    simp only [show r ≠ 63 by omega, show r ≠ 62 by omega, show r ≠ 61 by omega, show r ≠ 60 by omega, if_false]
  case vec => rw [g, enterHandler_eq]; exact kept.v
  case pred => rw [g, enterHandler_eq]; exact kept.p
  case status => rw [g, enterHandler_eq]; exact kept.status
  case depths => rw [g, enterHandler_eq]; exact kept.depths
  case frameTpc =>
    have field := framed.field (o := 0) (n := 8) (x := tpc.toNat) (pz := false) (by simp [Group.frame]) (by decide)
    rw [Nat.add_zero] at field
    rw [read]
    exact field.trans (Nat.mod_eq_of_lt tpc.isLt)
  case frameCause => rw [read]; exact framed.word (pz := false) (by simp [Group.frame])
  case frameFlags => rw [read]; exact framed.word (pz := false) (by simp [Group.frame])
  case frameFaddr => rw [read]; exact framed.field (pz := false) (by simp [Group.frame]) (by decide)
  case frameMask =>
    intro k hk
    have word := framed.word (o := 0x18 + 4 * k) (x := maskWord s.g.mask k) (pz := s.g.rawSP (56 + k))
    rw [read, Nat.add_assoc]
    match k with
    | 0 | 1 | 2 => exact word (by simp [Group.frame])
  case frameGsr => rw [read]; exact framed.word (pz := false) (by simp [Group.frame])
  case frameFmt => rw [read]; exact framed.word (pz := false) (by simp [Group.frame])
  case frameSig => rw [read]; exact framed.word (pz := false) (by simp [Group.frame])
  case frameSaved =>
    intro k hk
    have word := framed.word (o := 0x30 + 4 * k) (x := s.g.rawS (60 + k)) (pz := s.g.rawSP (60 + k))
    rw [read, Nat.add_assoc]
    match k with
    | 0 | 1 | 2 | 3 => exact word (by simp [Group.frame])
  case frameRest => rw [mem]; exact fun i lo hi => framed.rest lo hi
  case memory =>
    intro x out
    rw [mem]
    exact framed.outside x out
  case others => exact others

/-- R362 to R364: a trap that can be taken is taken: the frame holds what R363 lists, and the group stands in its handler. -/
theorem takeTrap_entered {s : State} {l : Loc} (cause detail lane addr : Nat) (tpc : Addr) (sig : Word) (so : s.Sound) (calm : s.Calm) (can : s.CanTrap l) :
    s.Entered (s.takeTrap cause detail lane addr tpc sig) l cause detail lane addr tpc sig := by
  obtain ⟨u, hu, taken⟩ := takeTrap_eq cause detail lane addr tpc sig calm can
  have framed : Framed s.g cause detail lane addr tpc sig s u l := ⟨so.mem, can.flat, calm.scalars, hu⟩
  have formed := so.formed s.g (List.mem_cons_self ..)
  rw [taken]
  exact entered_of formed.s framed (by rw [State.mg_g, hu.g]) (mg_memRead u _) (u.mg_mem _) ((u.mg_others _).trans hu.others)

/-! #### The instructions that trap (R43, R365, R366) -/

/-- A body that ends otherwise: what becomes of its unit. -/
theorem issue_stopped {cls : Cls} {st : Nat} {refs : List Ref} {body : M Unit} {s t : State} {e : Stop} (h : s.Issues cls refs)
    (hb : body s = .error e t) : issue cls st refs body s = t.stopped cls (cls.occupies (s.g.rdMask s.clock)) st e := by
  simp only [issue, h.free, h.ready_any, State.findRows_unarmed h.unarmed, State.consumes_unspoilt h.unspoilt, hb]
  rfl

/-- What a trap entry leaves of the device, and when its handler may begin. -/
structure Undisturbed (s t : State) : Prop where
  banks : t.banks = s.banks
  clock : t.clock = s.clock
  core : t.g.core = s.g.core
  quarter : t.g.quarter = s.g.quarter
  after : t.g.notBefore = s.clock + 3

theorem takeTrap_undisturbed {s : State} {l : Loc} (cause detail lane addr : Nat) (tpc : Addr) (sig : Word) (calm : s.Calm) (can : s.CanTrap l) :
    Undisturbed s (s.takeTrap cause detail lane addr tpc sig) := by
  obtain ⟨u, hu, taken⟩ := takeTrap_eq cause detail lane addr tpc sig calm can
  have kept : KeepsRest s.g (handlerSaved s.g s.frameAddr cause detail lane) := writeSaved_keepsRest ..
  rw [taken]
  constructor
  case banks => rw [State.mg_banks, hu.banks]
  case clock => rw [State.mg_clock, hu.clock]
  case core => rw [State.mg_g, hu.g, enterHandler_eq]; exact kept.quarter.1
  case quarter => rw [State.mg_g, hu.g, enterHandler_eq]; exact kept.quarter.2
  case after => rw [State.mg_g, hu.g, enterHandler_eq]

theorem rawS_later (g : Group) (n r : Nat) : ({ g with notBefore := n } : Group).rawS r = g.rawS r := rfl

/-- The handler may begin later, and a pipe may be taken. -/
theorem entered_later {s t u : State} {l : Loc} {cause detail lane addr n : Nat} {tpc : Addr} {sig : Word}
    (e : s.Entered t l cause detail lane addr tpc sig) (g : u.g = { t.g with notBefore := n }) (read : u.memRead = t.memRead)
    (mem : u.mem = t.mem) (others : u.others = t.others) : s.Entered u l cause detail lane addr tpc sig where
  pc := by rw [g]; exact e.pc
  mask := by rw [g]; exact e.mask
  sigAfter := by rw [g]; exact e.sigAfter
  handler := by rw [g]; exact e.handler
  wait := by rw [g]; exact e.wait
  frameLow := by rw [g, rawS_later, e.frameLow]
  frameHigh := by rw [g, rawS_later, e.frameHigh]
  causeReg := by rw [g, rawS_later, e.causeReg]
  flagsReg := by rw [g, rawS_later, e.flagsReg]
  scal r hr := by rw [g, rawS_later, e.scal r hr]
  vec := by rw [g]; exact e.vec
  pred := by rw [g]; exact e.pred
  status := by rw [g]; exact e.status
  depths := by rw [g]; exact e.depths
  frameTpc := by rw [read]; exact e.frameTpc
  frameCause := by rw [read]; exact e.frameCause
  frameFlags := by rw [read]; exact e.frameFlags
  frameFaddr := by rw [read]; exact e.frameFaddr
  frameMask := by rw [read]; exact e.frameMask
  frameGsr := by rw [read]; exact e.frameGsr
  frameFmt := by rw [read]; exact e.frameFmt
  frameSig := by rw [read]; exact e.frameSig
  frameSaved := by rw [read]; exact e.frameSaved
  frameRest := by rw [mem]; exact e.frameRest
  memory x out := by rw [mem]; exact e.memory x out
  others := others.trans e.others

/-- R82, R366: a trap of a unit that has issued is taken, and its handler begins no earlier than the stall count says. -/
theorem takeTrap_spent {s : State} {l : Loc} {cause detail lane addr : Nat} {tpc : Addr} {sig : Word} (st pipe till : Nat) {now : Nat}
    (so : s.Sound) (calm : s.Calm) (can : s.CanTrap l) (hnow : now = s.clock) {u : State}
    (hu : u = ((s.takeTrap cause detail lane addr tpc sig).mg fun g => { g with notBefore := max g.notBefore (now + 1 + st) }).occupy pipe till) :
    s.Entered u l cause detail lane addr tpc sig ∧ u.g.notBefore = s.clock + 1 + max st 2 := by
  have entered := takeTrap_entered cause detail lane addr tpc sig so calm can
  have after := (takeTrap_undisturbed cause detail lane addr tpc sig calm can).after
  generalize s.takeTrap cause detail lane addr tpc sig = t at *
  subst hu hnow
  refine ⟨entered_later entered rfl rfl rfl rfl, ?_⟩
  rw [State.occupy_g, State.mg_g]
  dsimp only
  omega

/-- A unit that ends in a trap that resumes behind it. -/
theorem issue_trapAfter {s : State} {l : Loc} {body : M Unit} {cause detail st : Nat} (so : s.Sound) (calm : s.Calm)
    (issues : s.Issues .scal []) (can : s.CanTrap l) (run : body s = .ok () (s.trapAfter cause detail st)) :
    s.Entered (issue .scal st [] body s) l cause detail 127 0 (s.g.pc + 4) s.g.sig
      ∧ (issue .scal st [] body s).g.notBefore = s.clock + 1 + max st 2 := by
  have kept := takeTrap_undisturbed cause detail 127 0 (s.g.pc + 4) s.g.sig calm can
  exact takeTrap_spent st _ _ so calm can rfl (issue_performs issues ⟨run, kept.banks, kept.core, kept.quarter⟩)

theorem trap_enters (o : K6) (s : State) (l : Loc) (so : s.Sound) (calm : s.Calm) (issues : s.Issues .scal []) (can : s.CanTrap l) :
    ∃ t, exec (.trap o) s = .next t ∧ s.Entered t l 11 o.k.toNat 127 0 (s.g.pc + 4) s.g.sig
      ∧ t.g.notBefore = s.clock + 1 + max o.st.toNat 2 :=
  ⟨_, exec_trap o s, issue_trapAfter so calm issues can rfl⟩

theorem bkpt_enters (o : Z0) (s : State) (l : Loc) (so : s.Sound) (calm : s.Calm) (issues : s.Issues .scal []) (can : s.CanTrap l) :
    ∃ t, exec (.bkpt o) s = .next t ∧ s.Entered t l 12 0 127 0 (s.g.pc + 4) s.g.sig
      ∧ t.g.notBefore = s.clock + 1 + max o.st.toNat 2 :=
  ⟨_, exec_bkpt o s, issue_trapAfter so calm issues can (if_neg can.vec)⟩

/-- A unit that does nothing passes. -/
theorem issue_passes {s : State} {body : M Unit} {st : Nat} (issues : s.Issues .scal []) (run : body s = .ok () (s.advance 4 st)) :
    s.Passed (issue .scal st [] body s) 4 st := by
  rw [issue_performs issues ⟨run, rfl, rfl, rfl⟩]
  exact ⟨rfl, rfl⟩

/-- R366: without a handler a breakpoint is passed. -/
theorem bkpt_passes (o : Z0) (s : State) (issues : s.Issues .scal []) (none_ : (s.ctx s.g.ctx).trapVec = 0) :
    ∃ t, exec (.bkpt o) s = .next t ∧ s.Passed t 4 o.st.toNat :=
  ⟨_, exec_bkpt o s, issue_passes issues (if_pos none_)⟩

theorem illegal_enters (s : State) (l : Loc) (step : Nat) (so : s.Sound) (calm : s.Calm) (can : s.CanTrap l) (run : s.g.running = true)
    (lo : 2 ≤ step) (hi : step ≤ 5) :
    ∃ t, exec (.illegalInstruction step) s = .next t ∧ s.Entered t l 1 step 127 0 s.g.pc s.g.sig :=
  ⟨_, (exec_illegalInstruction step s).trans (if_pos (by simp [run, lo, hi])), takeTrap_entered 1 step 127 0 s.g.pc s.g.sig so calm can⟩

theorem illegal_otherwise (s : State) (step : Nat) (out : step < 2 ∨ 5 < step) : exec (.illegalInstruction step) s = .next s :=
  (exec_illegalInstruction step s).trans (if_neg (by simp; omega))

/-- R365: ERET outside a handler traps. -/
theorem eret_enters (o : Z0) (s : State) (l : Loc) (so : s.Sound) (calm : s.Calm) (issues : s.Issues .scal []) (can : s.CanTrap l) :
    ∃ t, exec (.eret o) s = .next t ∧ s.Entered t l 3 0 127 0 s.g.pc s.g.sigLatch
      ∧ t.g.notBefore = s.clock + 1 + max o.st.toNat 2 := by
  refine ⟨_, exec_eret o s, takeTrap_spent o.st.toNat _ _ so calm can
    (takeTrap_undisturbed 3 0 127 0 s.g.pc s.g.sigLatch calm can).clock (issue_stopped issues (t := s) (e := .trap 3 0 127 0) ?_)⟩
  simp only [can.handler]

theorem trapInstructions : Claim.TrapInstructions :=
  ⟨trap_enters, bkpt_enters, fun o s _ => bkpt_passes o s, illegal_enters, illegal_otherwise, eret_enters⟩

/-! #### Returning from a handler (R365) -/

/-- R365: the fields of a frame that ERET reads: TPC, MASK, GSR, FMT, SIG and SAV. -/
def returnFields : List (Nat × Nat) :=
  [(0x00, 8), (0x18, 4), (0x1C, 4), (0x20, 4), (0x24, 4), (0x28, 4), (0x2C, 4), (0x30, 4), (0x34, 4), (0x38, 4), (0x3C, 4)]

/-- What ERET reads of a frame at a place of memory that nothing marks. -/
def returnWords (s : State) (l : Loc) : List (Nat × Bool) := returnFields.map fun f => (s.memRead (l.key + f.1) f.2, false)

theorem readFrame_device {s : State} (k : Still s) {l : Loc} (ty : l.ty = 0) :
    ∃ u, Recached s u ∧ s.readFrame l = (returnWords s l, u) :=
  readFields_device ty s.g.core s.g.id returnFields [] s k

/-- A word of a frame that has been read, with its mark. -/
def frameWord (f : List (Nat × Bool)) (i : Nat) : Word × Bool := (BitVec.ofNat 32 (f.getD i (0, false)).1, (f.getD i (0, false)).2)

/-- R365: s60 to s63 as ERET restores them. -/
def restoreSaved (g : Group) (f : List (Nat × Bool)) : Group := writeSaved g (frameWord f 7) (frameWord f 8) (frameWord f 9) (frameWord f 10)

theorem leaveHandler_eq (g : Group) (f : List (Nat × Bool)) (clock st : Nat) :
    g.leaveHandler f clock st
      = let h := restoreSaved g f
        { h with mask := setMaskWord (setMaskWord (setMaskWord 0 0 (frameWord f 1).1) 1 (frameWord f 2).1) 2 (frameWord f 3).1 &&& g.live,
                 sPoison := h.sPoison &&& ~~~maskMarks, gsr := gsrWrite g.gsr (frameWord f 4).1, fmt := fmtWrite (frameWord f 5).1,
                 sig := (frameWord f 6).1, pc := BitVec.ofNat 64 (f.getD 0 (0, false)).1, handler := none,
                 notBefore := clock + 1 + max st 2 } := rfl

/-- s60 to s63 of a group that returns from its handler, and the scalars it keeps. -/
theorem leaveHandler_rawS {g : Group} (f : List (Nat × Bool)) (clock st : Nat) (h : g.s.length = 64) {q : Nat} (hq : q < 56 ∨ 59 ≤ q) :
    (g.leaveHandler f clock st).rawS q
      = if q = 63 then (frameWord f 10).1 else if q = 62 then (frameWord f 9).1
        else if q = 61 then (frameWord f 8).1 else if q = 60 then (frameWord f 7).1 else g.rawS q := by
  have notMask : isMaskReg q = false := by simp [isMaskReg]; omega
  rw [leaveHandler_eq, ← writeSaved_rawS h]
  simp only [Group.rawS, notMask, Bool.false_eq_true, if_false]
  rfl

/-- R365: what ERET makes of the group it returns. -/
structure Returned (s : State) (l : Loc) (st : Nat) (h : Group) : Prop where
  pc : h.pc = BitVec.ofNat 64 (s.memRead l.key 8)
  mask : ∀ k, k < 3 → maskWord h.mask k = BitVec.ofNat 32 (s.memRead (l.key + 0x18 + 4 * k) 4) &&& maskWord s.g.live k
  gsr : h.gsr = (BitVec.ofNat 32 (s.memRead (l.key + 0x24) 4) &&& 0x1B) ||| (s.g.gsr &&& 4)
  fmt : h.fmt = fmtWrite (BitVec.ofNat 32 (s.memRead (l.key + 0x28) 4))
  sig : h.sig = BitVec.ofNat 32 (s.memRead (l.key + 0x2C) 4)
  saved : ∀ k, k < 4 → h.rawS (60 + k) = BitVec.ofNat 32 (s.memRead (l.key + 0x30 + 4 * k) 4)
  scal : ∀ r, r < 56 ∨ r = 59 → h.rawS r = s.g.rawS r
  handler : h.handler = none
  after : h.notBefore = s.clock + 1 + max st 2
  rest : h.v = s.g.v ∧ h.p = s.g.p ∧ h.wait = s.g.wait
  quarter : h.core = s.g.core ∧ h.quarter = s.g.quarter

theorem maskWord_ofWords (a b c : Word) {k : Nat} (hk : k < 3) :
    maskWord (setMaskWord (setMaskWord (setMaskWord 0 0 a) 1 b) 2 c) k = if k = 2 then c else if k = 1 then b else a := by
  rw [maskWord_setMaskWord _ (by decide), maskWord_setMaskWord _ (by decide), maskWord_setMaskWord _ (by decide)]
  match k with
  | 0 | 1 | 2 => rfl

theorem leaveHandler_returns {s : State} (l : Loc) (st : Nat) (formed : s.g.s.length = 64) :
    Returned s l st (s.g.leaveHandler (returnWords s l) s.clock st) := by
  have kept : KeepsRest s.g (restoreSaved s.g (returnWords s l)) := writeSaved_keepsRest ..
  constructor
  case handler | after => rw [leaveHandler_eq]
  case pc | gsr | fmt | sig => rw [leaveHandler_eq]; rfl
  case mask =>
    intro k hk
    rw [leaveHandler_eq]
    simp only [maskWord_and, maskWord_ofWords _ _ _ hk]
    match k with
    | 0 | 1 | 2 => rfl
  case saved =>
    intro k hk
    rw [leaveHandler_rawS _ _ _ formed (by omega)]
    match k with
    | 0 | 1 | 2 | 3 => rfl
  case scal =>
    intro r hr
    rw [leaveHandler_rawS _ _ _ formed (by omega)]
    simp only [show r ≠ 63 by omega, show r ≠ 62 by omega, show r ≠ 61 by omega, show r ≠ 60 by omega, if_false]
  case rest => rw [leaveHandler_eq]; exact ⟨kept.v, kept.p, kept.wait⟩
  case quarter => rw [leaveHandler_eq]; exact kept.quarter

/-- A frame that ERET can read. -/
structure Readable (s : State) (l : Loc) : Prop where
  below : s.frameAddr + 256 ≤ 2 ^ 57
  write : s.checkGlobal s.g.core s.g.ctx s.g.root s.g.priv s.frameAddr .w = (.ok l, s)
  read : s.checkGlobal s.g.core s.g.ctx s.g.root s.g.priv s.frameAddr .rd = (.ok l, s)
  ram : l.ty = 0

/-- R365: what ERET of a group in its handler does, once its frame has been read. -/
theorem eretBody_eq {s : State} {l : Loc} (st ret recon : Nat) (calm : s.Calm) (readable : Readable s l) :
    ∃ u, Recached s u ∧ eretBody st ret recon s
      = if s.g.retDepth ≠ ret ∨ s.g.reconDepth ≠ recon then .ok () u.killGroup
        else .ok () (u.mg fun g => g.leaveHandler (returnWords s l) s.clock st) := by
  obtain ⟨u, hu, frame⟩ := readFrame_device (still_of_calm calm) readable.ram
  have performed : s.performAll = s := if_pos (by simp [calm.pend])
  have unmarked : (returnWords s l).any (·.2) = false := by simp [returnWords]
  have clean : framePoison (returnWords s l) = false := by simp [framePoison, returnWords, returnFields]
  refine ⟨u, hu, ?_⟩
  unfold eretBody
  simp only [performed, frameLoc_ok readable.below readable.write readable.read, frame, unmarked, clean, hu.g, hu.clock, Bool.false_eq_true, if_false]

theorem eret_handler {o : Z0} {s : State} {ret recon : Nat} (handler : s.g.handler = some (ret, recon)) :
    ∃ body : M Unit, exec (.eret o) s = .next (issue .scal o.st.toNat [] body s) ∧ body s = eretBody o.st.toNat ret recon s :=
  ⟨_, exec_eret o s, by simp only [handler]⟩

/-- R365: the body of an ERET whose stacks are as they were restores the group, and nothing else but caches has changed. -/
theorem eretBody_returns {s : State} {l : Loc} (st : Nat) (so : s.Sound) (calm : s.Calm) (readable : Readable s l) :
    ∃ t, eretBody st s.g.retDepth s.g.reconDepth s = .ok () t ∧ Returned s l st t.g
      ∧ t.banks = s.banks ∧ t.mem = s.mem ∧ t.others = s.others := by
  obtain ⟨u, hu, eq⟩ := eretBody_eq st s.g.retDepth s.g.reconDepth calm readable
  rw [if_neg (by simp)] at eq
  refine ⟨_, eq, ?_, (u.mg_banks _).trans hu.banks, (u.mg_mem _).trans hu.mem, (u.mg_others _).trans hu.others⟩
  rw [State.mg_g, hu.g]
  exact leaveHandler_returns l st (so.formed s.g (List.mem_cons_self ..)).s

/-- R365: ERET restores the group from its frame. -/
theorem eret_returns {o : Z0} {s : State} {l : Loc} {ret recon : Nat} (so : s.Sound) (calm : s.Calm) (issues : s.Issues .scal [])
    (handler : s.g.handler = some (ret, recon)) (readable : Readable s l) (hret : ret = s.g.retDepth) (hrecon : recon = s.g.reconDepth) :
    ∃ t, exec (.eret o) s = .next t ∧ Returned s l o.st.toNat t.g ∧ t.mem = s.mem ∧ t.others = s.others := by
  subst hret hrecon
  obtain ⟨body, runs, is⟩ := eret_handler (o := o) handler
  obtain ⟨t, eq, returned, banks, mem, others⟩ := eretBody_returns o.st.toNat so calm readable
  obtain ⟨core, quarter⟩ := returned.quarter
  refine ⟨_, runs, ?_⟩
  rw [issue_performs issues ⟨is.trans eq, banks, core, quarter⟩]
  exact ⟨returned, mem, others⟩

/-- R364, R365: ERET with stacks that have changed kills the group. -/
theorem eret_kills {o : Z0} {s : State} {l : Loc} {ret recon : Nat} (so : s.Sound) (calm : s.Calm) (issues : s.Issues .scal [])
    (handler : s.g.handler = some (ret, recon)) (readable : Readable s l) (changed : ret ≠ s.g.retDepth ∨ recon ≠ s.g.reconDepth) :
    ∃ t, exec (.eret o) s = .next t ∧ s.Killed t := by
  obtain ⟨body, runs, is⟩ := eret_handler (o := o) handler
  obtain ⟨u, hu, eq⟩ := eretBody_eq o.st.toNat ret recon calm readable
  rw [if_pos (changed.imp Ne.symm Ne.symm)] at eq
  have apart : s.g.id ∉ s.others.map (·.id) := (List.nodup_cons.1 so.ids).1
  obtain ⟨killed, performs⟩ := killGroup_kills (s := u) (by rw [hu.g]; exact calm.pend) (hu.mxOwns.trans calm.owners)
    (hu.banks.trans calm.banks) (by rw [hu.g, hu.others]; exact apart)
  refine ⟨_, runs, ?_⟩
  rw [issue_performs issues ⟨is.trans eq, performs.banks.trans hu.banks, by rw [performs.core, hu.g], by rw [performs.quarter, hu.g]⟩]
  refine ⟨killed.wait, killed.mask, ?_⟩
  have count := killed.count
  rw [hu.g, State.ctx, State.ctx, hu.ctxs] at count
  exact count

theorem trapReturns : Claim.TrapReturns := by
  intro o s l ret recon so calm issues handler below write read ram
  have readable : Readable s l := ⟨below, write, read, ram⟩
  refine ⟨fun hret hrecon => ?_, eret_kills so calm issues handler readable⟩
  obtain ⟨t, runs, r, mem, others⟩ := eret_returns so calm issues handler readable hret hrecon
  obtain ⟨v, p, wait⟩ := r.rest
  exact ⟨t, runs, r.pc, r.mask, r.gsr, r.fmt, r.sig, r.saved, r.scal, v, p, r.handler, wait, r.after, mem, others⟩

/-- Settles O41: a trap is taken by the writes of its frame, which nothing but caches sees besides; ERET reads that frame back, or kills its
group as EXIT ends it. -/
theorem trapInstructionsAndReturn : Obligations.TrapInstructionsAndReturn := ⟨trapInstructions, trapReturns⟩

end Sys2Proof.Traps

/-! ### The state after reset, events and the clock (R64, R65) -/

namespace Sys2Proof.ResetAndClock

open Sys2Proof.Machine Sys2Proof.Fetching

/-! #### The state after reset (R64, R68, R249, R368, R392, R406, R420, R424, R425) -/

theorem resetRegisters : Sys2Proof.Claim.ResetState :=
  ⟨rfl, rfl, rfl, rfl, fun _ => ⟨rfl, rfl⟩, fun _ => ⟨rfl, rfl, rfl⟩, fun _ => ⟨rfl, rfl, rfl⟩, rfl, rfl, rfl, rfl, rfl, rfl, rfl⟩

theorem blank_formed : Group.blank.Formed := ⟨rfl, rfl, rfl, rfl⟩

/-- The one group that stands at reset is blank, and its number has been given out. -/
theorem resetSound : Sys2Proof.Claim.ResetSound where
  mem := State.reset_memOk
  formed := List.forall_mem_singleton.2 blank_formed
  ids := List.nodup_singleton _
  given := List.forall_mem_singleton.2 Nat.one_pos

/-- Settles O57: each register by its value in the reset state, and the invariant by its one group. -/
theorem resetState : Obligations.ResetState := ⟨resetRegisters, resetSound⟩

/-! #### One step of a device that issues nothing (R65) -/

theorem step_event {s : State} {e : Instr} {r : List Instr} (agenda : s.agenda = e :: r) (live : s.tripped = false) :
    step s = exec e { s with agenda := r } := by
  unfold step
  split
  next e' r' h =>
    obtain ⟨rfl, rfl⟩ := List.cons.inj (agenda.symm.trans h)
    simp only [State.takeEvent, live, Bool.false_and, Bool.false_eq_true, if_false]
  next h => rw [agenda] at h; cases h

theorem step_idle {s : State} (agenda : s.agenda = []) (turns : s.turns = []) (live : s.tripped = false) (idle : s.issuable = []) :
    step s = .next s.internal.tick := by
  have noTurn : s.takeTurn = none := by simp only [State.takeTurn, turns]
  have same : ({ s with turns := [] } : State) = s := by rw [← turns]
  have noPick : s.pick = none := by simp only [State.pick, idle]
  rw [step_unit agenda live, noTurn, same]
  simp only [Option.map_none, Option.getD_none, State.runOn, noPick]

/-- The device at a clock after reset, when nothing has been placed. -/
def resetAt (n : Nat) : State := { State.reset with clock := n }

/-! Of all that the device does by itself only the boot watchdog acts without work. -/

section
variable (n : Nat)

theorem turnResults_resetAt : (resetAt n).turnResults = resetAt n := rfl
theorem turnMessages_resetAt : (resetAt n).turnMessages = resetAt n := rfl
theorem turnTimeouts_resetAt : (resetAt n).turnTimeouts = resetAt n := rfl
theorem turnEngines_resetAt : (resetAt n).turnEngines = resetAt n := rfl
theorem turnMatrix_resetAt : (resetAt n).turnMatrix = resetAt n := rfl
theorem turnTerms_resetAt : (resetAt n).turnTerms = resetAt n := rfl
theorem turnPackets_resetAt : (resetAt n).turnPackets = resetAt n := rfl
theorem turnGrids_resetAt : (resetAt n).turnGrids = resetAt n := rfl
theorem turnSpawn_resetAt : (resetAt n).turnSpawn = resetAt n := rfl
theorem turnContexts_resetAt : (resetAt n).turnContexts = resetAt n := rfl
theorem turnQuarters_resetAt : (resetAt n).turnQuarters = resetAt n := rfl
theorem turnTests_resetAt : (resetAt n).turnTests = resetAt n := rfl

/-- The watchdog has 2^33 clocks of the fabric. -/
theorem turnDevice_resetAt (early : (resetAt n).fabricClock < 2 ^ 33) : (resetAt n).turnDevice = resetAt n := by
  unfold State.turnDevice
  extract_lets retired posted reported
  have same : reported = resetAt n := rfl
  refine (if_neg ?_).trans same
  simpa only [same, Bool.and_eq_true, decide_eq_true_eq, not_and, not_le] using fun _ => early

theorem internal_resetAt (early : (resetAt n).fabricClock < 2 ^ 33) : (resetAt n).internal = resetAt n := by
  rw [State.internal, turnResults_resetAt, turnMessages_resetAt, turnTimeouts_resetAt, turnEngines_resetAt, turnMatrix_resetAt,
    turnTerms_resetAt, turnPackets_resetAt, turnGrids_resetAt, turnSpawn_resetAt, turnContexts_resetAt, turnQuarters_resetAt,
    turnTests_resetAt, turnDevice_resetAt n early]

theorem fabricClock_resetAt : (resetAt n).fabricClock = n * 2000 / 1900 := by
  show 0 + (n - 0) * 2000 / 1900 = n * 2000 / 1900
  rw [Nat.zero_add, Nat.sub_zero]

end

theorem step_resetAt {n : Nat} (h : n < 8000000000) : step (resetAt n) = .next (resetAt (n + 1)) := by
  have early : (resetAt n).fabricClock < 2 ^ 33 := by rw [fabricClock_resetAt]; omega
  rw [step_idle rfl rfl rfl rfl, internal_resetAt n early]
  rfl

/-- Settles O56: an event is taken whatever waits behind it, and a device without work only counts its clock. -/
theorem eventsAndClock : Obligations.EventsAndClock :=
  ⟨fun _ _ _ => step_event, fun _ agenda turns live idle => step_idle agenda turns live idle, fun _ => step_resetAt⟩

end Sys2Proof.ResetAndClock

/-! ### Scalar units (R76 to R80): one rule for a scalar result, one for SCC, one for both -/

namespace Sys2Proof.ScalarUnits

open Sys2Proof.Machine Sys2Proof.LaneForms

/-! #### A unit by the one thing it writes -/

section
variable {i : Instr} {s : State} {st len lat d : Nat} {refs : List Ref} {x : Word} {pz b : Bool} {body : M Unit}

theorem givesScalar_unit (e : exec i s = .next (unit .scal st len refs body s)) (hb : body s = putScalar lat d x pz s) (hd : d < 64)
    (formed : s.g.Formed) (issues : s.Issues .scal refs) (free : pz = true → isMaskReg d = false) : s.GivesScalar i len st lat d x pz := by
  obtain ⟨t, ht, issued, wrote⟩ := unit_scalar formed hd free issues hb
  exact ⟨t, e.trans (congrArg Host.Outcome.next ht), issued, wrote⟩

theorem givesScc_unit (e : exec i s = .next (unit .scal st len refs body s)) (hb : body s = putScc lat b s) (issues : s.Issues .scal refs) :
    s.GivesScc i len st lat b := by
  obtain ⟨t, ht, issued, wrote⟩ := unit_scc issues hb
  exact ⟨t, e.trans (congrArg Host.Outcome.next ht), issued, wrote⟩

end

/-! #### The forms of one result (R77, R79) -/

theorem givesScalar_s3 {i : Instr} {o : DAB} {f : Word → Word → Word} {s : State} (e : exec i s = s3 o f s) (formed : s.g.Formed)
    (issues : s.Issues .scal [.s o.a.toNat, .s o.b.toNat])
    (free : (s.useS o.a.toNat || s.useS o.b.toNat) = true → isMaskReg o.d.toNat = false) :
    s.GivesScalar i 4 o.st.toNat 2 o.d.toNat (f (s.g.rdS s.clock o.a.toNat) (s.g.rdS s.clock o.b.toNat))
      (s.useS o.a.toNat || s.useS o.b.toNat) :=
  givesScalar_unit e rfl o.d.isLt formed issues free

theorem givesScalar_scalar1 {i : Instr} {st len : Nat} {d a : BitVec 6} {f : Word → Word} {s : State}
    (e : exec i s = scalar1 st len d.toNat a.toNat f s) (formed : s.g.Formed) (issues : s.Issues .scal [.s a.toNat])
    (free : s.useS a.toNat = true → isMaskReg d.toNat = false) :
    s.GivesScalar i len st 2 d.toNat (f (s.g.rdS s.clock a.toNat)) (s.useS a.toNat) :=
  givesScalar_unit e rfl d.isLt formed issues free

theorem exec_scalarForms : ∀ c ∈ scalarForms, ∀ (o : DAB) (s : State), exec (c.1 o) s = s3 o c.2 s := by
  simp only [scalarForms, List.forall_mem_cons]
  exact ⟨fun _ _ => rfl, fun _ _ => rfl, fun _ _ => rfl, fun _ _ => rfl, fun _ _ => rfl, fun _ _ => rfl, fun _ _ => rfl, fun _ _ => rfl,
    fun _ _ => rfl, fun o s => congrArg (s3 o · s) (funext₂ shl_eq), fun o s => congrArg (s3 o · s) (funext₂ shrN_eq),
    fun o s => congrArg (s3 o · s) (funext₂ shrI_eq), fun _ _ => rfl, fun o s => congrArg (s3 o · s) (funext₂ minI_eq),
    fun o s => congrArg (s3 o · s) (funext₂ maxI_eq), fun o s => congrArg (s3 o · s) (funext₂ minN_eq),
    fun o s => congrArg (s3 o · s) (funext₂ maxN_eq), fun _ _ => rfl, fun _ _ => rfl, nofun⟩

theorem exec_scalarUnary : ∀ c ∈ scalarUnary, ∀ (o : DA) (s : State), exec (c.1 o) s = scalar1 o.st.toNat 4 o.d.toNat o.a.toNat c.2 s := by
  simp only [scalarUnary, List.forall_mem_cons]
  exact ⟨fun o s => congrArg (scalar1 o.st.toNat 4 o.d.toNat o.a.toNat · s) (funext fun x => BitVec.zero_sub x), fun _ _ => rfl,
    fun _ _ => rfl, fun _ _ => rfl, nofun⟩

theorem givesScalar_registerForms : Sys2Proof.Claim.ScalarRegisterForms :=
  ⟨fun c hc o s => givesScalar_s3 (exec_scalarForms c hc o s), fun c hc o s => givesScalar_scalar1 (exec_scalarUnary c hc o s)⟩

/-! #### The immediate forms and SLI (R33, R77) -/

theorem lenL_eq (l : Option (BitVec 24)) : lenL l = if l.isSome then 8 else 4 := by
  cases l <;> rfl

/-- R33: the 23 bits of a LIMM stand above the nine of the field. -/
theorem immWord_limm (i : BitVec 9) (x : BitVec 24) : immWord i (some x) = (x ++ i).setWidth 32 := by
  apply BitVec.eq_of_toNat_eq
  have := i.isLt
  simp only [immWord, BitVec.toNat_ofNat, BitVec.toNat_setWidth, BitVec.toNat_append, Nat.shiftLeft_eq]
  rw [← Nat.shiftLeft_eq, ← Nat.shiftLeft_add_eq_or_of_lt this, Nat.shiftLeft_eq]

theorem exec_scalarImmediate : ∀ c ∈ scalarImmediate, ∀ (o : SDAI) (s : State), exec (c.1 o) s = si o c.2 s := by
  simp only [scalarImmediate, List.forall_mem_cons]
  exact ⟨fun _ _ => rfl, fun _ _ => rfl, fun _ _ => rfl, fun _ _ => rfl, fun o s => congrArg (si o · s) (funext₂ shl_eq),
    fun o s => congrArg (si o · s) (funext₂ shrN_eq), fun o s => congrArg (si o · s) (funext₂ shrI_eq), nofun⟩

theorem givesScalar_immediateForms : Sys2Proof.Claim.ScalarImmediateForms := by
  refine ⟨fun c hc o s formed issues free => ?_, fun o s formed issues => ?_⟩
  · have given := givesScalar_scalar1 (exec_scalarImmediate c hc o s) formed issues free
    rw [lenL_eq] at given
    obtain ⟨d, a, i, limm, st⟩ := o
    cases limm with
    | none => exact given
    | some x => rwa [immWord_limm] at given
  · have given : s.GivesScalar (.sli o) (lenL o.limm) o.st.toNat 2 o.d.toNat (immWord o.i o.limm) false :=
      givesScalar_unit rfl rfl o.d.isLt formed issues nofun
    rw [lenL_eq] at given
    obtain ⟨d, i, limm, st⟩ := o
    cases limm with
    | none => exact given
    | some x => rwa [immWord_limm] at given

/-! #### The compares (R77, R78, R381) -/

section
variable {i : Instr} {s : State} {st len : Nat} {refs : List Ref} {pz f : State → Bool} (e : exec i s = scalarCmp st len refs pz f s)
  (issues : s.Issues .scal refs)
include e issues

theorem givesScc_scalarCmp (clean : pz s = false) : s.GivesScc i len st 2 (f s) :=
  givesScc_unit e (if_neg (by simp [clean])) issues

theorem exec_scalarCmp_poisoned (spoilt : pz s = true) : exec i s = .next ((s.mg fun g => g.ck 0).stopped .scal 1 st (.consumed 0)) :=
  e.trans (congrArg Host.Outcome.next (unit_stopped issues (if_pos spoilt)))

end

/-- R78: every compare names one of the seven conditions. -/
theorem exec_scalarCompares : ∀ c ∈ scalarCompares, ∃ k, (∀ (o : AB) (s : State), exec (c.1 o) s = scalarCmp2 o k s) ∧
    ∀ x y, condition k x y = c.2 x y := by
  have ne (x y : Word) : (x != y) = decide (x ≠ y) := by rw [Bool.eq_iff_iff]; simp
  simp only [scalarCompares, List.forall_mem_cons]
  exact ⟨⟨0, fun _ _ => rfl, fun _ _ => rfl⟩, ⟨1, fun _ _ => rfl, ne⟩, ⟨2, fun _ _ => rfl, fun _ _ => rfl⟩,
    ⟨3, fun _ _ => rfl, fun _ _ => rfl⟩, ⟨4, fun _ _ => rfl, fun _ _ => rfl⟩, ⟨5, fun _ _ => rfl, fun _ _ => rfl⟩,
    ⟨6, fun _ _ => rfl, fun _ _ => ne _ _⟩, nofun⟩

theorem givesScc_compareForms : Sys2Proof.Claim.ScalarCompareForms := by
  refine ⟨fun c hc o s issues ha hb => ?_, fun o s issues ha => ?_, fun c hc o s issues spoilt => ?_⟩
  · obtain ⟨k, hk, cond⟩ := exec_scalarCompares c hc
    rw [← cond]
    exact givesScc_scalarCmp (hk o s) issues (by rw [ha, hb]; rfl)
  · rw [← lenL_eq]
    exact givesScc_scalarCmp (pz := fun t => t.useS o.a.toNat) (f := fun t => condition o.c.toNat (t.g.rdS t.clock o.a.toNat) (immWord o.i o.limm)) rfl
      issues ha
  · obtain ⟨k, hk, -⟩ := exec_scalarCompares c hc
    exact exec_scalarCmp_poisoned (hk o s) issues spoilt

/-! #### Units that change their group in more than one place -/

/-- A unit whose body leaves the group h in the place of its own issues, and the group it leaves is h with the pc behind the unit. -/
theorem exec_group {i : Instr} {s : State} {cls : Cls} {st len : Nat} {refs : List Ref} {body : M Unit} {h : Group}
    (e : exec i s = .next (unit cls st len refs body s)) (hb : body s = .ok () { s with g := h }) (core : h.core = s.g.core)
    (quarter : h.quarter = s.g.quarter) (id : h.id = s.g.id) (pc : h.pc = s.g.pc) (issues : s.Issues cls refs) :
    ∃ t, exec i s = .next t ∧ s.Issued t cls (s.g.pc + BitVec.ofNat 64 len) st ∧ s.OnlyGroup t
      ∧ t.g = { h with pc := h.pc + BitVec.ofNat 64 len, notBefore := s.clock + 1 + st } :=
  ⟨_, e.trans (congrArg Host.Outcome.next (unit_performs issues ⟨hb, rfl, core, quarter⟩)),
    State.issued_after cls len st rfl rfl ⟨core, quarter, id⟩ pc, State.OnlyGroup.after (s.onlyGroup_mg fun _ => h) cls len st, rfl⟩

/-- The group h is g with x written to scalar register d, as a unit's result on its way. -/
structure Given (g h : Group) (d : Nat) (x : Word) : Prop where
  value : h.rawS d = g.heldS d x
  others : ∀ r, r ≠ d → h.rawS r = if isMaskReg d && isMaskReg r then g.heldS r (g.rawS r) else g.rawS r
  held : h.heldS = g.heldS
  length : h.s.length = g.s.length
  v : h.v = g.v
  p : h.p = g.p
  gsr : h.gsr = g.gsr
  cych : h.cych = g.cych
  core : h.core = g.core
  quarter : h.quarter = g.quarter
  id : h.id = g.id
  pc : h.pc = g.pc

theorem Given.other {g h : Group} {d : Nat} {x : Word} (given : Given g h d x) {r : Nat} (ne : r ≠ d) (free : isMaskReg r = false) :
    h.rawS r = g.rawS r := by
  rw [given.others r ne, free, Bool.and_false, if_neg Bool.false_ne_true]

theorem given_setS (g : Group) (length : g.s.length = 64) (clock lat : Nat) {d : Nat} (hd : d < 64) (x : Word) (pz : Bool) :
    Given g ((if pz then g.ck 0 else g).setS clock lat d x pz) d x := by
  have form : ∃ i p s k m c, (if pz then g.ck 0 else g).setS clock lat d x pz
      = { g with inflight := i, pend := p, s := s, sPoison := k, mask := m, ckint := c } := by
    unfold Group.setS Group.writeS
    rw [Group.putS_rest]
    cases pz <;> exact ⟨_, _, _, _, _, _, rfl⟩
  have value : ((if pz then g.ck 0 else g).setS clock lat d x pz).rawS d = g.heldS d x :=
    (Group.putS_value _ (by cases pz <;> simpa using length) hd x pz).trans (by cases pz <;> simp [Group.heldS, Group.live])
  have others (r : Nat) (ne : r ≠ d) : ((if pz then g.ck 0 else g).setS clock lat d x pz).rawS r
      = if isMaskReg d && isMaskReg r then g.heldS r (g.rawS r) else g.rawS r :=
    (Group.putS_other _ ne x pz).trans (by cases pz <;> simp [Group.rawS, Group.heldS, Group.live])
  have kept : ((if pz then g.ck 0 else g).setS clock lat d x pz).s.length = g.s.length := by
    unfold Group.setS Group.writeS Group.putS
    cases pz <;> cases isMaskReg d <;> simp
  generalize (if pz then g.ck 0 else g).setS clock lat d x pz = h at form value others kept
  obtain ⟨_, _, _, _, _, _, e⟩ := form
  exact ⟨value, others, by rw [e]; rfl, kept, by rw [e], by rw [e], by rw [e], by rw [e], by rw [e], by rw [e], by rw [e], by rw [e]⟩

theorem putScalar_given {s : State} (length : s.g.s.length = 64) (lat : Nat) {d : Nat} (hd : d < 64) (x : Word) {pz : Bool}
    (free : pz = true → isMaskReg d = false) : ∃ h, putScalar lat d x pz s = .ok () { s with g := h } ∧ Given s.g h d x :=
  ⟨_, (putScalar_performs free).run, given_setS s.g length s.clock lat hd x pz⟩

/-- SCC and the pc's advance leave the scalar registers. -/
theorem rawS_setScc (g : Group) (clock lat n : Nat) (b : Bool) (p : Addr) (r : Nat) :
    ({ g.setScc clock lat b with pc := p, notBefore := n } : Group).rawS r = g.rawS r := rfl

/-- A unit that writes scalar register d and SCC, each ready after its latency. -/
theorem exec_scalarScc {i : Instr} {s : State} {st len lat lat' d : Nat} {refs : List Ref} {x : Word} {pz b : Bool} {body : M Unit}
    (e : exec i s = .next (unit .scal st len refs body s)) (hb : body s = (do putScalar lat d x pz; putScc lat' b) s) (formed : s.g.Formed)
    (hd : d < 64) (free : pz = true → isMaskReg d = false) (issues : s.Issues .scal refs) :
    ∃ t, exec i s = .next t ∧ s.Issued t .scal (s.g.pc + BitVec.ofNat 64 len) st ∧ s.OnlyGroup t
      ∧ t.g.rawS d = s.g.heldS d x ∧ t.g.gsrBit 0 = b ∧ (∀ r, r ≠ d → isMaskReg r = false → t.g.rawS r = s.g.rawS r)
      ∧ (∀ i, i ≠ 0 → t.g.gsrBit i = s.g.gsrBit i) ∧ t.g.v = s.g.v ∧ t.g.p = s.g.p := by
  obtain ⟨h, run, given⟩ := putScalar_given formed.s lat hd x free
  have both : body s = .ok () { s with g := h.setScc s.clock lat' b } := by
    refine hb.trans ?_
    simp only [bind, EStateM.bind, run]
    rfl
  obtain ⟨t, ht, issued, only, g⟩ := exec_group e both given.core given.quarter given.id given.pc issues
  have bits : t.g.gsr = setBit s.g.gsr 0 b := by rw [g, ← given.gsr]; rfl
  refine ⟨t, ht, issued, only, ?_, ?_, fun r ne hr => ?_, fun i hi => ?_, ?_, ?_⟩
  · rw [g, rawS_setScc, given.value]
  · rw [Group.gsrBit, bits, getLsbD_setBit _ (by omega), if_pos rfl]
  · rw [g, rawS_setScc, given.other ne hr]
  · rw [Group.gsrBit, bits, getLsbD_setBit _ (by omega), if_neg hi]; rfl
  · rw [g, ← given.v]; rfl
  · rw [g, ← given.p]; rfl

/-! #### SADDC and SSUBB (R77) -/

theorem add_carry (x y : Word) (k : Bool) :
    x + y + BitVec.ofNat 32 (sccNat k) = BitVec.ofNat 32 (x.toNat + y.toNat + if k = true then 1 else 0) := by
  simp [BitVec.ofNat_add, sccNat]

theorem sub_borrow (x y : Word) (k : Bool) :
    x - y - BitVec.ofNat 32 (sccNat k) = BitVec.ofInt 32 (x.toNat - y.toNat - (if k = true then 1 else 0 : Nat)) := by
  apply BitVec.eq_of_toNat_eq
  have := x.isLt
  have := y.isLt
  cases k <;> simp only [sccNat, BitVec.toNat_sub, BitVec.toNat_ofNat, BitVec.toNat_ofInt, Bool.false_eq_true, if_true, if_false] <;> omega

theorem scalarCarryForms : Sys2Proof.Claim.ScalarCarryForms := by
  intro o s formed issues free
  constructor
  · rw [← add_carry]
    exact exec_scalarScc rfl rfl formed o.d.isLt free issues
  · rw [← sub_borrow]
    exact exec_scalarScc rfl rfl formed o.d.isLt free issues

/-! #### SSEL and SBFI (R77, R79) -/

/-- R79: bit i of an inserted field. -/
theorem getLsbD_bfi (x y d : Word) {i : Nat} (hi : i < 32) :
    (bfi x y d).getLsbD i = (if y.toNat % 32 ≤ i ∧ i < y.toNat % 32 + y.toNat / 256 % 64 then x.getLsbD (i - y.toNat % 32) else d.getLsbD i) := by
  have inside : (BitVec.ofNat 32 ((2 ^ bfLen y - 1) * 2 ^ bfPos y)).getLsbD i = decide (bfPos y ≤ i ∧ i < bfPos y + bfLen y) := by
    rw [BitVec.getLsbD_ofNat, Nat.testBit_mul_two_pow, Nat.testBit_two_pow_sub_one, decide_eq_true hi, Bool.true_and, ← Bool.decide_and,
      decide_eq_decide]
    omega
  have field : (BitVec.ofNat 32 (x.toNat % 2 ^ bfLen y * 2 ^ bfPos y)).getLsbD i
      = (decide (bfPos y ≤ i ∧ i < bfPos y + bfLen y) && x.getLsbD (i - bfPos y)) := by
    rw [BitVec.getLsbD_ofNat, Nat.testBit_mul_two_pow, Nat.testBit_mod_two_pow, decide_eq_true hi, Bool.true_and, ← Bool.and_assoc,
      ← Bool.decide_and]
    congr 1
    rw [decide_eq_decide]
    omega
  have window : (bfPos y ≤ i ∧ i < bfPos y + bfLen y) ↔ (y.toNat % 32 ≤ i ∧ i < y.toNat % 32 + y.toNat / 256 % 64) := by
    unfold bfLen bfPos
    omega
  simp only [bfi, BitVec.getLsbD_or, BitVec.getLsbD_and, BitVec.getLsbD_not, inside, field, window, hi, decide_true, Bool.true_and]
  by_cases h : y.toNat % 32 ≤ i ∧ i < y.toNat % 32 + y.toNat / 256 % 64
  · simp [h, bfPos]
  · simp [h]

theorem scalarSelectAndInsert : Sys2Proof.Claim.ScalarSelectAndInsert := by
  refine ⟨fun o s formed issues ha hb => ?_, fun o s formed issues ha hb hd => ?_⟩
  · exact givesScalar_unit rfl (if_neg (by simp [ha, hb])) o.d.isLt formed issues nofun
  · refine ⟨_, ?_, fun i hi => getLsbD_bfi _ _ _ hi⟩
    refine givesScalar_unit rfl ?_ o.d.isLt formed issues nofun
    rw [ha, hb, hd]
    rfl

/-! #### Lane crossings (R80) -/

theorem readLane_eq (g : Group) (now v l : Nat) :
    g.readLane now v l = if l < 96 ∧ g.present.getLsbD l = true then (g.rdV now v).lane l else 0 := by
  unfold Group.readLane
  by_cases h : l < 96 ∧ g.present.getLsbD l = true
  · simp [h]
  · rw [if_neg h, if_pos]
    by_cases c : l < 96
    · right; simpa [c] using h
    · left; omega

/-- R80: SRDLANE. -/
theorem givesScalar_srdlane (o : DAB) (s : State) (formed : s.g.Formed) (issues : s.Issues .scal [.v o.a.toNat, .s o.b.toNat])
    (hb : s.useS o.b.toNat = false)
    (free : s.g.readPz s.clock o.a.toNat (s.g.rdS s.clock o.b.toNat).toNat = true → isMaskReg o.d.toNat = false) :
    s.GivesScalar (.srdlane o) 4 o.st.toNat 4 o.d.toNat (s.g.readLane s.clock o.a.toNat (s.g.rdS s.clock o.b.toNat).toNat)
      (s.g.readPz s.clock o.a.toNat (s.g.rdS s.clock o.b.toNat).toNat) :=
  givesScalar_unit rfl (if_neg (by simp [hb])) o.d.isLt formed issues free

/-- R59, R60, R80: a write that is partial whatever lanes are present, with room for it. -/
theorem partialV_room {g : Group} (formed : g.Formed) {d : Nat} (hd : d < 64) (room : g.Room d) (ready l : Nat) (x : Word) :
    ∃ r : VReg, g.partialV ready d (BitVec.twoPow 96 l) (.uniform x) 0 = some (g.left d ready (BitVec.twoPow 96 l) r true false false)
      ∧ LanesSet (g.v.getD d VReg.zero) r g.present (BitVec.twoPow 96 l) (fun _ => x) 0 := by
  obtain ⟨r, hr, set⟩ := Group.putV_room
    (g := ((g.produceIn (.v d) ready (BitVec.twoPow 96 l)).race (RegWrite.raceV d (BitVec.twoPow 96 l))).touchRun d) formed.v hd
    (BitVec.twoPow 96 l)
    (.general (lanes.map fun k => if (BitVec.twoPow 96 l).getLsbD k then x else ((g.v.getD d VReg.zero).val.op).lane k)) 0 room
  refine ⟨r, hr, fun k hk => (set.value k hk).trans ?_, set.idle, set.marks⟩
  exact (getD_lanes_map _ _ (lt_of_getLsbD hk)).trans (if_pos hk)

/-- A unit whose body leaves one register's lanes written. -/
theorem exec_left {i : Instr} {s : State} {cls : Cls} {st len lat d : Nat} {refs : List Ref} {m : Mask} {x : Nat → Word} {r : VReg} {ovf sat : Bool}
    {body : M Unit} (e : exec i s = .next (unit cls st len refs body s))
    (hb : body s = .ok () { s with g := s.g.left d (s.clock + lat) m r true ovf sat }) (formed : s.g.Formed) (hd : d < 64)
    (set : LanesSet (s.g.v.getD d VReg.zero) r s.g.present m x 0) (issues : s.Issues cls refs) :
    ∃ t, exec i s = .next t ∧ s.Issued t cls (s.g.pc + BitVec.ofNat 64 len) st ∧ s.WroteLanes t lat d m x 0 ovf sat := by
  have place : (s.g.left d (s.clock + lat) m r true ovf sat).core = s.g.core
      ∧ (s.g.left d (s.clock + lat) m r true ovf sat).quarter = s.g.quarter
      ∧ (s.g.left d (s.clock + lat) m r true ovf sat).id = s.g.id ∧ (s.g.left d (s.clock + lat) m r true ovf sat).pc = s.g.pc := by
    obtain ⟨_, _, form⟩ := s.g.left_form d (s.clock + lat) m r true ovf sat
    rw [form]
    exact ⟨rfl, rfl, rfl, rfl⟩
  obtain ⟨core, quarter, id, pc⟩ := place
  exact ⟨_, e.trans (congrArg Host.Outcome.next (unit_performs issues ⟨hb, rfl, core, quarter⟩)),
    State.issued_after cls len st rfl rfl ⟨core, quarter, id⟩ pc, State.wroteLanes formed hd m x r 0 true ovf sat set cls len st⟩

section
variable {o : DAB} {s : State} (issues : s.Issues .scal [.s o.a.toNat, .s o.b.toNat]) (ha : s.useS o.a.toNat = false)
  (hb : s.useS o.b.toNat = false)
include issues ha hb

theorem exec_swrlane_live (formed : s.g.Formed) (room : s.g.Room o.d.toNat)
    (live : (s.g.rdS s.clock o.b.toNat).toNat < 96 ∧ s.g.live.getLsbD (s.g.rdS s.clock o.b.toNat).toNat = true) :
    ∃ t, exec (.swrlane o) s = .next t ∧ s.Issued t .scal (s.g.pc + 4) o.st.toNat
      ∧ s.WroteLanes t 4 o.d.toNat (BitVec.twoPow 96 (s.g.rdS s.clock o.b.toNat).toNat) (fun _ => s.g.rdS s.clock o.a.toNat) 0 false false := by
  obtain ⟨r, hr, set⟩ := partialV_room formed o.d.isLt room (s.clock + 4) (s.g.rdS s.clock o.b.toNat).toNat (s.g.rdS s.clock o.a.toNat)
  refine exec_left rfl ?_ formed o.d.isLt set issues
  simp only [ha, hb, live, Bool.false_eq_true, if_false, decide_true, Bool.and_self, if_true, latCross, hr]

theorem exec_swrlane_absent (absent : ¬((s.g.rdS s.clock o.b.toNat).toNat < 96 ∧ s.g.live.getLsbD (s.g.rdS s.clock o.b.toNat).toNat = true)) :
    ∃ t, exec (.swrlane o) s = .next t ∧ s.Issued t .scal (s.g.pc + 4) o.st.toNat ∧ s.OnlyGroup t ∧ t.g = s.g.kept t.g := by
  have run : exec (.swrlane o) s = .next (unit .scal o.st.toNat 4 [.s o.a.toNat, .s o.b.toNat] _ s) := rfl
  obtain ⟨t, ht, issued, only, g⟩ := exec_group (h := s.g) run
    (by simp only [ha, hb, Bool.false_eq_true, if_false]; exact if_neg (by simpa using absent)) rfl rfl rfl rfl issues
  exact ⟨t, ht, issued, only, by rw [g]; rfl⟩

end

/-! #### SFIRST (R80) -/

theorem lowestLane_of_first {m : Mask} {l : Nat} (hl : m.getLsbD l = true) (first : ∀ k, k < l → m.getLsbD k = false) : lowestLane m = l := by
  have found : (List.range 96).find? (fun k => m.getLsbD k) = some l :=
    List.find?_range_eq_some.2 ⟨hl, List.mem_range.2 (lt_of_getLsbD hl), fun k hk => by simp [first k hk]⟩
  simp [lowestLane, found]

theorem heldS_zero (g : Group) (r : Nat) : g.heldS r 0 = 0 := by
  unfold Group.heldS
  split
  · exact BitVec.zero_and
  · rfl

/-- R80: SFIRST under an all-zero mask. -/
theorem exec_sfirst_idle {o : DA} {s : State} (formed : s.g.Formed) (issues : s.Issues .scal (maskRefs ++ [.v o.a.toNat]))
    (idle : s.g.rdMask s.clock = 0) :
    ∃ t, exec (.sfirst o) s = .next t ∧ s.Issued t .scal (s.g.pc + 4) o.st.toNat ∧ s.OnlyGroup t
      ∧ t.g.rawS o.d.toNat = s.g.heldS o.d.toNat 0 ∧ t.g.gsrBit 0 = false ∧ (∀ r, r ≠ o.d.toNat → isMaskReg r = false → t.g.rawS r = s.g.rawS r)
      ∧ (∀ i, i ≠ 0 → t.g.gsrBit i = s.g.gsrBit i) ∧ t.g.v = s.g.v ∧ t.g.p = s.g.p :=
  exec_scalarScc (pz := false) rfl (if_pos idle) formed o.d.isLt nofun issues

/-- R80: SFIRST with an active lane whose word is not marked. -/
theorem exec_sfirst_active {o : DA} {s : State} (formed : s.g.Formed) (issues : s.Issues .scal (maskRefs ++ [.v o.a.toNat]))
    (clean : (s.g.rdV s.clock o.a.toNat).poison = 0) (active : s.g.rdMask s.clock ≠ 0) :
    ∃ t, exec (.sfirst o) s = .next t ∧ s.Issued t .scal (s.g.pc + 4) o.st.toNat ∧ s.OnlyGroup t
      ∧ t.g.rawS o.d.toNat = s.g.heldS o.d.toNat ((s.g.rdV s.clock o.a.toNat).lane (lowestLane (s.g.rdMask s.clock))) ∧ t.g.gsrBit 0 = true
      ∧ (∀ r, r ≠ o.d.toNat → isMaskReg r = false → t.g.rawS r = s.g.rawS r)
      ∧ (∀ i, i ≠ 0 → t.g.gsrBit i = s.g.gsrBit i) ∧ t.g.v = s.g.v ∧ t.g.p = s.g.p := by
  have unmarked : (s.g.rdV s.clock o.a.toNat).poison.getLsbD (lowestLane (s.g.rdMask s.clock)) = false := by
    rw [clean]; exact BitVec.getLsbD_zero
  exact exec_scalarScc (pz := false) rfl ((if_neg active).trans (congrArg (fun b => (do
    putScalar latCross o.d.toNat ((s.g.rdV s.clock o.a.toNat).lane (lowestLane (s.g.rdMask s.clock))) b
    putScc latCross true : M Unit) s) unmarked)) formed o.d.isLt nofun issues

theorem scalarLaneCrossings : Sys2Proof.Claim.ScalarLaneCrossings := by
  refine ⟨fun o s formed issues hb => ?_, fun o s formed issues ha hb room => ?_, fun o s formed issues clean => ?_⟩
  · intro l free
    rw [← readLane_eq]
    exact givesScalar_srdlane o s formed issues hb free
  · exact ⟨exec_swrlane_live issues ha hb formed room, exec_swrlane_absent issues ha hb⟩
  · by_cases active : s.g.rdMask s.clock = 0
    · obtain ⟨t, ht, issued, only, value, scc, others, bits, v, p⟩ := exec_sfirst_idle formed issues active
      rw [heldS_zero] at value
      exact ⟨t, ht, issued, only, by simp [scc, active], bits, fun _ => value, fun l hl => by simp [active] at hl, others, v, p⟩
    · obtain ⟨t, ht, issued, only, value, scc, others, bits, v, p⟩ := exec_sfirst_active formed issues (clean _) active
      refine ⟨t, ht, issued, only, scc.trans (decide_eq_true active).symm, bits, fun h => absurd h active, fun l hl first => ?_, others, v, p⟩
      rw [value, lowestLane_of_first hl first]

/-- Settles O1: each form's unit by the one result it writes; bit by bit for SBFI; the lane crossings by their lane. -/
theorem scalarRegisterForms : Obligations.ScalarRegisterForms :=
  ⟨givesScalar_registerForms, scalarSelectAndInsert, scalarLaneCrossings⟩

/-- Settles O2: the immediate word of R33, sums and differences with SCC as a number, compares by the condition they name. -/
theorem scalarImmediateCarryAndCompare : Obligations.ScalarImmediateCarryAndCompare :=
  ⟨givesScalar_immediateForms, scalarCarryForms, givesScc_compareForms⟩

end Sys2Proof.ScalarUnits

/-! ### Special registers (R74 to R76) -/

namespace Sys2Proof.SpecialRegisters

open Sys2Proof.Machine Sys2Proof.ScalarUnits

/-! #### A group none of whose results is still to come (R70) -/

theorem stale_idle {g : Group} (idle : g.inflight = []) (now : Nat) (r : Ref) : g.stale now r = none := by
  simp [Group.stale, idle]

/-- R70: with no result on its way every register is ready. -/
theorem issues_idle {s : State} {cls : Cls} {refs : List Ref} (issues : s.Issues cls refs) (idle : s.g.inflight = []) (others : List Ref) :
    s.Issues cls others :=
  ⟨issues.free, .inr fun r _ => by simp [Group.notReady, stale_idle idle], issues.unarmed, issues.unspoilt⟩

theorem setBit_self (w : Word) {b : Nat} (hb : b < 32) : setBit w b (w.getLsbD b) = w := by
  refine BitVec.eq_of_getLsbD_eq fun i _ => ?_
  rw [getLsbD_setBit _ hb]
  split
  · next h => rw [h]
  · rfl

theorem readSpr_idle {s : State} (idle : s.g.inflight = []) (n : Nat) : s.readSpr n = s.spr n := by
  have scc : s.g.rdScc s.clock = s.g.gsr.getLsbD 0 := by rw [Group.rdScc, stale_idle idle]; rfl
  unfold State.readSpr
  rw [stale_idle idle, scc]
  show (if n = 0 then (setBit (BitVec.ofNat 32 (s.spr n)) 0 (s.g.gsr.getLsbD 0)).toNat else s.spr n) = s.spr n
  split
  · next h =>
    subst h
    show (setBit (BitVec.ofNat 32 s.g.gsr.toNat) 0 (s.g.gsr.getLsbD 0)).toNat = s.g.gsr.toNat
    rw [BitVec.ofNat_toNat, BitVec.setWidth_eq, setBit_self _ (by omega)]
  · rfl

/-! #### SGETR (R74, R76) -/

/-- R76: SGETR of a register whose read changes nothing. -/
theorem givesScalar_sgetr {o : GR} {s : State} (formed : s.g.Formed) (idle : s.g.inflight = []) (issues : s.Issues .scal [])
    (notCyc : o.r ≠ 13) (notRpc : o.r ≠ 15) :
    s.GivesScalar (.sgetr o) 4 o.st.toNat 2 o.d.toNat (BitVec.ofNat 32 (s.spr o.r.toNat)) false := by
  refine givesScalar_unit rfl ?_ o.d.isLt formed (issues_idle issues idle _) nofun
  simp only [if_neg notCyc, if_neg notRpc, readSpr_idle idle]
  rfl

/-- R74: the registers that give one word of the group or of its core. -/
theorem spr_words (s : State) : ∀ c ∈ [(0, s.g.gsr), (1, s.g.fmt), (2, s.g.sig), (3, s.g.sw), (4, s.g.mshape), (5, s.g.mcloud),
    (6, s.g.wgidX), (7, s.g.wgidY), (8, s.g.wgidZ), (9, BitVec.ofNat 32 s.g.gidx), (10, BitVec.ofNat 32 s.g.core),
    (12, s.g.ckint), (14, s.g.cych), (16, s.g.seed), (17, (s.core s.g.core).fragstall)],
    c.1 ≠ 13 ∧ c.1 ≠ 15 ∧ BitVec.ofNat 32 (s.spr c.1) = c.2 := by
  simp [State.spr]

/-- R76: SGETR of %cyc. -/
theorem exec_sgetr_cyc {o : GR} {s : State} (formed : s.g.Formed) (idle : s.g.inflight = []) (issues : s.Issues .scal []) (cyc : o.r = 13) :
    ∃ t, exec (.sgetr o) s = .next t ∧ s.Issued t .scal (s.g.pc + 4) o.st.toNat ∧ s.OnlyGroup t
      ∧ t.g.rawS o.d.toNat = s.g.heldS o.d.toNat (BitVec.ofNat 32 s.cyc) ∧ t.g.cych = BitVec.ofNat 32 (s.cyc / 2 ^ 32)
      ∧ (∀ r, r ≠ o.d.toNat → isMaskReg r = false → t.g.rawS r = s.g.rawS r) ∧ t.g.v = s.g.v ∧ t.g.p = s.g.p ∧ t.g.gsr = s.g.gsr := by
  have low : BitVec.ofNat 32 (s.readSpr o.r.toNat) = BitVec.ofNat 32 s.cyc := by
    rw [readSpr_idle idle, cyc]
    exact BitVec.eq_of_toNat_eq (by simp [State.spr])
  obtain ⟨h, run, given⟩ := putScalar_given (s := s.mg fun g => { g with cych := BitVec.ofNat 32 (s.cyc / 2 ^ 32) }) formed.s 2 o.d.isLt
    (BitVec.ofNat 32 s.cyc) (pz := false) nofun
  have unit_ : exec (.sgetr o) s = .next (unit .scal o.st.toNat 4 (sprRefs o.r.toNat) _ s) := rfl
  obtain ⟨t, ht, issued, only, g⟩ := exec_group (h := h) unit_
    (by simp only [low, if_pos cyc, if_neg (show o.r ≠ 15 by rw [cyc]; decide)]; exact run)
    given.core given.quarter given.id given.pc (issues_idle issues idle _)
  refine ⟨t, ht, issued, only, ?_, ?_, fun r ne hr => ?_, ?_, ?_, ?_⟩ <;> rw [g]
  · exact given.value
  · exact given.cych
  · exact given.other ne hr
  · exact given.v
  · exact given.p
  · exact given.gsr

theorem heldS_rawS_heldS (g : Group) (r : Nat) (x : Word) : g.heldS r (g.heldS r x) = g.heldS r x := by
  unfold Group.heldS
  split
  · rw [BitVec.and_assoc, BitVec.and_self]
  · rfl

/-- R76: SGETR of %rpc. -/
theorem exec_sgetr_rpc {o : GR} {s : State} (formed : s.g.Formed) (idle : s.g.inflight = []) (issues : s.Issues .scal []) (rpc : o.r = 15)
    (pair : o.d.toNat < 63) :
    ∃ t, exec (.sgetr o) s = .next t ∧ s.Issued t .scal (s.g.pc + 4) o.st.toNat ∧ s.OnlyGroup t
      ∧ t.g.rawS o.d.toNat = s.g.heldS o.d.toNat (s.g.rpc.setWidth 32)
      ∧ t.g.rawS (o.d.toNat + 1) = s.g.heldS (o.d.toNat + 1) ((s.g.rpc >>> 32).setWidth 32)
      ∧ (∀ r, r ≠ o.d.toNat → r ≠ o.d.toNat + 1 → isMaskReg r = false → t.g.rawS r = s.g.rawS r) ∧ t.g.v = s.g.v ∧ t.g.p = s.g.p ∧ t.g.gsr = s.g.gsr := by
  have low : BitVec.ofNat 32 s.g.rpc.toNat = s.g.rpc.setWidth 32 := BitVec.eq_of_toNat_eq (by simp)
  have high : BitVec.ofNat 32 (s.g.rpc.toNat / 2 ^ 32) = (s.g.rpc >>> 32).setWidth 32 :=
    BitVec.eq_of_toNat_eq (by simp [Nat.shiftRight_eq_div_pow])
  have read : s.readSpr o.r.toNat = s.g.rpc.toNat := by rw [readSpr_idle idle, rpc]; rfl
  obtain ⟨h, run, given⟩ := putScalar_given formed.s 2 o.d.isLt (s.g.rpc.setWidth 32) (pz := false) nofun
  obtain ⟨h', run', given'⟩ := putScalar_given (s := { s with g := h }) (given.length.trans formed.s) 2 (show o.d.toNat + 1 < 64 by omega)
    ((s.g.rpc >>> 32).setWidth 32) (pz := false) nofun
  have both : (do putScalar 2 o.d.toNat (s.g.rpc.setWidth 32) false
                  putScalar 2 (o.d.toNat + 1) ((s.g.rpc >>> 32).setWidth 32) false : M Unit) s = .ok () { s with g := h' } := by
    simp only [bind, EStateM.bind, run]
    exact run'
  have unit_ : exec (.sgetr o) s = .next (unit .scal o.st.toNat 4 (sprRefs o.r.toNat) _ s) := rfl
  obtain ⟨t, ht, issued, only, g⟩ := exec_group (h := h') unit_
    (by simp only [if_neg (show o.r ≠ 13 by rw [rpc]; decide), if_pos rpc, read, low, high]; exact both)
    (given'.core.trans given.core) (given'.quarter.trans given.quarter) (given'.id.trans given.id) (given'.pc.trans given.pc)
    (issues_idle issues idle _)
  refine ⟨t, ht, issued, only, ?_, ?_, fun r ne ne' hr => ?_, ?_, ?_, ?_⟩ <;> rw [g]
  · refine (given'.others _ (by omega)).trans ?_
    show (if _ then h.heldS _ (h.rawS _) else h.rawS _) = _
    rw [given.held, given.value, heldS_rawS_heldS, ite_self]
  · exact given'.value.trans (congrFun (congrFun given.held _) _)
  · exact (given'.other ne' hr).trans (given.other ne hr)
  · exact given'.v.trans given.v
  · exact given'.p.trans given.p
  · exact given'.gsr.trans given.gsr

/-! #### %sqctl (R68) -/

/-- The thirteen low bits. -/
theorem getLsbD_low13 (i : Nat) : (0x1FFF : Word).getLsbD i = decide (i < 13) := by
  by_cases h : i < 32
  · exact (show ∀ i < 32, (0x1FFF : Word).getLsbD i = decide (i < 13) by decide) i h
  · rw [BitVec.getLsbD_of_ge _ _ (by omega)]; simp; omega

theorem sqctlWord_bits (k : CoreRegs) :
    (∀ i, i < 13 → k.sqctlWord.getLsbD i = k.sqctl.getLsbD i) ∧ k.sqctlWord.getLsbD 15 = decide (k.lim < 8)
      ∧ ∀ i, 16 ≤ i → k.sqctlWord.getLsbD i = false := by
  have throttled (i : Nat) : (if k.lim < 8 then 0x8000 else 0 : Word).getLsbD i = (decide (i = 15) && decide (k.lim < 8)) := by
    split
    · next h => simp [h, show (0x8000 : Word) = BitVec.twoPow 32 15 from rfl, BitVec.getLsbD_twoPow, eq_comm]
    · next h => simp [h]
  have code (i : Nat) (hi : i < 13 ∨ 15 ≤ i) : (if k.lim = 8 then 0 else if k.lim = 4 then 0x2000 else 0x4000 : Word).getLsbD i = false := by
    split
    · exact BitVec.getLsbD_zero
    · split
      · rw [show (0x2000 : Word) = BitVec.twoPow 32 13 from rfl, BitVec.getLsbD_twoPow]; simp; omega
      · rw [show (0x4000 : Word) = BitVec.twoPow 32 14 from rfl, BitVec.getLsbD_twoPow]; simp; omega
  have bit (i : Nat) (hi : i < 13 ∨ 15 ≤ i) :
      k.sqctlWord.getLsbD i = (k.sqctl.getLsbD i && decide (i < 13) || decide (i = 15) && decide (k.lim < 8)) := by
    rw [CoreRegs.sqctlWord, BitVec.getLsbD_or, BitVec.getLsbD_or, BitVec.getLsbD_and, getLsbD_low13, throttled, code i hi, Bool.or_false]
  refine ⟨fun i hi => ?_, ?_, fun i hi => ?_⟩
  · rw [bit i (.inl hi)]; simp [hi]; omega
  · rw [bit 15 (by omega)]; simp
  · rw [bit i (by omega)]; simp; omega

theorem specialRegisterReads : Sys2Proof.Claim.SpecialRegisterReads := by
  intro o s formed idle issues
  refine ⟨fun n x mem hn => ?_, fun h => ?_, exec_sgetr_cyc formed idle issues, exec_sgetr_rpc formed idle issues, fun h => ?_⟩
  · obtain ⟨notCyc, notRpc, word⟩ := spr_words s (n, x) mem
    subst hn
    exact (show _ = x from word) ▸ givesScalar_sgetr formed idle issues (fun c => notCyc (congrArg BitVec.toNat c))
      (fun c => notRpc (congrArg BitVec.toNat c))
  · have given := givesScalar_sgetr formed idle issues (o := o) (by rw [h]; decide) (by rw [h]; decide)
    rw [h] at given
    exact given
  · have given := givesScalar_sgetr formed idle issues (o := o) (by rw [h]; decide) (by rw [h]; decide)
    rw [h] at given
    have word : BitVec.ofNat 32 (s.spr (18 : BitVec 6).toNat) = (s.core s.g.core).sqctlWord := BitVec.ofNat_toNat .. ▸ BitVec.setWidth_eq _
    rw [word] at given
    exact ⟨_, given, sqctlWord_bits _⟩

/-! #### SSETR (R75, R76) -/

/-- The group with special register n, one of its own, written. -/
def sprSet (g : Group) (n : BitVec 6) (x : Word) : Group :=
  { g with
    gsr := if n = 0 then gsrWrite g.gsr x else g.gsr, fmt := if n = 1 then fmtWrite x else g.fmt, sig := if n = 2 then x else g.sig,
    sw := if n = 3 then x else g.sw, mshape := if n = 4 then mshapeWrite x else g.mshape,
    mcloud := if n = 5 then mcloudWrite x else g.mcloud, ckint := if n = 12 then g.ckint &&& ~~~x else g.ckint }

theorem writeSpr_own (s : State) {n : BitVec 6} (own : n.toNat < 17) (x : Word) : s.writeSpr n.toNat x = { s with g := sprSet s.g n x } := by
  have e : n = BitVec.ofNat 6 n.toNat := BitVec.eq_of_toNat_eq (by simp)
  generalize n.toNat = k at own e
  subst e
  interval_cases k <;> rfl

/-- R69: of a special register's new producer only the results on their way know. -/
theorem produceSpr_eq (g : Group) (n ready : Nat) (old : Word) : ∃ i, g.produceSpr n ready old = { g with inflight := i } := by
  unfold Group.produceSpr
  split
  · exact ⟨_, rfl⟩
  · exact ⟨_, rfl⟩

/-- R75: what a write leaves of each bit of %gsr. -/
theorem getLsbD_gsrWrite (old x : Word) (i : Nat) : (gsrWrite old x).getLsbD i
    = if i = 0 ∨ i = 1 ∨ i = 3 ∨ i = 4 then x.getLsbD i else if 5 ≤ i then false else old.getLsbD i := by
  by_cases h : i < 5
  · interval_cases i <;> simp [gsrWrite]
  · by_cases k : i < 32
    · have mask : (0x1B : Word).getLsbD i = false := (show ∀ i < 32, 5 ≤ i → (0x1B : Word).getLsbD i = false by decide) i k (by omega)
      have priv : (4 : Word).getLsbD i = false := (show ∀ i < 32, 5 ≤ i → (4 : Word).getLsbD i = false by decide) i k (by omega)
      rw [gsrWrite, BitVec.getLsbD_or, BitVec.getLsbD_and, BitVec.getLsbD_and, mask, priv, if_neg (by omega), if_pos (by omega)]
      simp
    · rw [BitVec.getLsbD_of_ge _ _ (by omega), if_neg (by omega), if_pos (by omega)]

theorem needsPriv_passes {s t : State} {c : Bool} {st : Nat} (h : c = true → s.g.priv = true) : s.needsPriv c st t = .next t :=
  congrArg Host.Outcome.next (if_neg (by cases c <;> simp_all))

/-- R75, R76: SSETR of a register of the group. -/
theorem exec_ssetr_own {o : SR} {s : State} (issues : s.Issues .scal [.s o.a.toNat]) (clean : s.useS o.a.toNat = false)
    (own : o.r.toNat < 17) :
    ∃ t i, exec (.ssetr o) s = .next t ∧ s.Issued t .scal (s.g.pc + 4) o.st.toNat ∧ s.OnlyGroup t
      ∧ t.g = { sprSet s.g o.r (s.g.rdS s.clock o.a.toNat) with pc := s.g.pc + 4, notBefore := s.clock + 1 + o.st.toNat, inflight := i } := by
  obtain ⟨i, produced⟩ := produceSpr_eq s.g o.r.toNat (s.clock + latScalar) (BitVec.ofNat 32 (s.spr o.r.toNat))
  have unit_ : exec (.ssetr o) s = .next (unit .scal o.st.toNat 4 [.s o.a.toNat] _ s) :=
    needsPriv_passes fun core => by
      rcases Bool.or_eq_true_iff.1 core with h | h <;> rw [of_decide_eq_true h] at own <;> exact absurd own (by decide)
  obtain ⟨t, ht, issued, only, g⟩ := exec_group (h := { sprSet s.g o.r (s.g.rdS s.clock o.a.toNat) with inflight := i }) unit_
    (by
      simp only [clean, Bool.false_eq_true, if_false, writeSpr_own _ own, State.mg_g, produced]
      rfl)
    rfl rfl rfl rfl issues
  exact ⟨t, i, ht, issued, only, g⟩

theorem core_core (s : State) (c : Nat) : (s.core c).core = c := by
  unfold State.core
  cases e : s.cores.find? fun k => k.core == c with
  | none => rfl
  | some k => exact eq_of_beq (List.find?_some (p := fun k : CoreRegs => k.core == c) e)

/-- The registers of a core that has been replaced, and of every other core. -/
theorem core_setCore (s : State) (k : CoreRegs) (c : Nat) : (s.setCore k).core c = if c = k.core then k else s.core c := by
  unfold State.core State.setCore
  rw [List.find?_cons]
  by_cases h : c = k.core
  · simp [h]
  · have ne : (k.core == c) = false := beq_eq_false_iff_ne.2 (Ne.symm h)
    rw [if_neg h, ne]
    have keep : (s.cores.filter fun j => j.core != k.core).find? (fun j => j.core == c) = s.cores.find? fun j => j.core == c := by
      rw [List.find?_filter]
      refine congrArg (fun p => List.find? p s.cores) (funext fun j => ?_)
      by_cases e : j.core = c
      · simp [e, h]
      · simp [e]
    simp only [keep]

/-- R53, R76: SSETR of a register of the core, with privilege. -/
theorem exec_ssetr_core {o : SR} {s : State} {k : CoreRegs} (issues : s.Issues .scal [.s o.a.toNat]) (clean : s.useS o.a.toNat = false)
    (priv : s.g.priv = true) (core : k.core = s.g.core)
    (writes : ∀ t : State, t.g.core = s.g.core → t.cores = s.cores → t.writeSpr o.r.toNat (s.g.rdS s.clock o.a.toNat) = t.setCore k) :
    ∃ t, exec (.ssetr o) s = .next t ∧ s.Issued t .scal (s.g.pc + 4) o.st.toNat
      ∧ t.mem = s.mem ∧ t.others = s.others ∧ t.g = s.g.kept t.g ∧ t.core s.g.core = k ∧ ∀ c, c ≠ s.g.core → t.core c = s.core c := by
  obtain ⟨i, produced⟩ := produceSpr_eq s.g o.r.toNat (s.clock + latScalar) (BitVec.ofNat 32 (s.spr o.r.toNat))
  have unit_ : exec (.ssetr o) s = .next (unit .scal o.st.toNat 4 [.s o.a.toNat] _ s) := needsPriv_passes fun _ => priv
  refine ⟨_, unit_.trans (congrArg Host.Outcome.next (unit_performs (t := State.setCore { s with g := { s.g with inflight := i } } k) issues
    ⟨?_, rfl, rfl, rfl⟩)), State.issued_after .scal 4 o.st.toNat rfl rfl ⟨rfl, rfl, rfl⟩ rfl, rfl, rfl, rfl, ?_, fun c ne => ?_⟩
  · have moved : s.mg (fun g => g.produceSpr o.r.toNat (s.clock + latScalar) (BitVec.ofNat 32 (s.spr o.r.toNat)))
        = { s with g := { s.g with inflight := i } } := congrArg (fun h => ({ s with g := h } : State)) produced
    simp only [clean, Bool.false_eq_true, if_false, moved]
    exact congrArg (EStateM.Result.ok ()) (writes { s with g := { s.g with inflight := i } } rfl rfl)
  · exact (core_setCore s k s.g.core).trans (if_pos core.symm)
  · exact (core_setCore s k c).trans (if_neg (by rw [core]; exact ne))

theorem core_of_cores {s t : State} (h : t.cores = s.cores) (c : Nat) : t.core c = s.core c := by
  unfold State.core; rw [h]

theorem specialRegisterWrites : Sys2Proof.Claim.SpecialRegisterWrites := by
  refine fun o s _ issues clean => ⟨fun own => ?_, fun priv named => ?_⟩
  · obtain ⟨t, i, ht, issued, only, g⟩ := exec_ssetr_own issues clean own
    refine ⟨t, ht, issued, only, fun b => ?_, by rw [g]; rfl, by rw [g]; rfl, by rw [g]; rfl, fun b => ?_, by rw [g]; rfl, fun b => ?_,
      by rw [g]; rfl, by rw [g]; rfl, by rw [g]; rfl, by rw [g]; rfl, by rw [g]; rfl, by rw [g]; rfl⟩ <;> rw [g]
    · show (if o.r = 0 then gsrWrite s.g.gsr _ else s.g.gsr).getLsbD b = _
      by_cases h : o.r = 0
      · rw [if_pos h, getLsbD_gsrWrite]; simp only [h, true_and]; rfl
      · rw [if_neg h, if_neg fun c => h c.1, if_neg fun c => h c.1]; rfl
    · show (if o.r = 4 then mshapeWrite _ else s.g.mshape).getLsbD b = _
      split
      · rw [mshapeWrite, BitVec.getLsbD_and, getLsbD_low13]
      · rfl
    · show (if o.r = 12 then s.g.ckint &&& ~~~_ else s.g.ckint).getLsbD b = _
      split
      · rw [BitVec.getLsbD_and, BitVec.getLsbD_not]
        by_cases hb : b < 32
        · simp [hb]
        · rw [BitVec.getLsbD_of_ge s.g.ckint _ (by omega), Bool.false_and, Bool.false_and]
      · rfl
  · rcases named with h | h
    · obtain ⟨t, ht, issued, mem, others, kept, core, rest⟩ := exec_ssetr_core issues clean priv
        (k := { s.core s.g.core with fragstall := s.g.rdS s.clock o.a.toNat }) (core_core s s.g.core)
        (fun t hg hc => by rw [h, ← core_of_cores hc, ← hg]; rfl)
      refine ⟨t, ht, issued, mem, others, kept, fun _ => ?_, fun c => ?_, rest⟩
      · rw [core]; exact ⟨rfl, rfl⟩
      · rw [h] at c; exact absurd c (by decide)
    · obtain ⟨t, ht, issued, mem, others, kept, core, rest⟩ := exec_ssetr_core issues clean priv
        (k := { s.core s.g.core with
          sqctl := s.g.rdS s.clock o.a.toNat &&& 0x1FFF, lim := if (s.g.rdS s.clock o.a.toNat).getLsbD 12 then (s.core s.g.core).lim else 8 })
        (core_core s s.g.core) (fun t hg hc => by rw [h, ← core_of_cores hc, ← hg]; rfl)
      refine ⟨t, ht, issued, mem, others, kept, fun c => ?_, fun _ => ?_, rest⟩
      · rw [h] at c; exact absurd c (by decide)
      · rw [core]
        refine ⟨fun b => ?_, fun off => if_neg (by rw [off]; exact Bool.false_ne_true), rfl⟩
        rw [BitVec.getLsbD_and, getLsbD_low13]

theorem specialRegisterPrivilege : Sys2Proof.Claim.SpecialRegisterPrivilege := by
  intro o s unprivileged named
  exact congrArg Host.Outcome.next (if_pos (by rw [unprivileged]; rcases named with h | h <;> (rw [h]; rfl)))

/-- Settles O3: with nothing on its way a register reads as it stands; a write by the field it sets, of the group or of its core. -/
theorem specialRegisters : Obligations.SpecialRegisters := ⟨specialRegisterReads, specialRegisterWrites, specialRegisterPrivilege⟩

end Sys2Proof.SpecialRegisters

/-! ### Waits, pauses and full counters (R71, R72, R99, R194) -/

namespace Sys2Proof.Waiting

open Sys2Proof.Machine Sys2Proof.ScalarUnits Sys2Proof.SpecialRegisters

/-! #### What WAIT covers (R194) -/

/-- Storage left undefined: memory, its marks and the free values alone have changed. -/
theorem smears_eq (owns : List (Nat × Nat)) : ∀ s : State, ∃ m f p,
    owns.foldl (fun v r => v.smear r.1 r.2) s = { s with mem := m, free := f, memPoison := p } := by
  induction owns with
  | nil => exact fun s => ⟨s.mem, s.free, s.memPoison, rfl⟩
  | cons r rs ih => exact fun s => ih (s.smear r.1 r.2)

theorem smearOwns_eq (es : List MxOwn) : ∀ s : State, ∃ m f p,
    es.foldl (fun u e => e.owns.foldl (fun v r => v.smear r.1 r.2) u) s = { s with mem := m, free := f, memPoison := p } := by
  induction es with
  | nil => exact fun s => ⟨s.mem, s.free, s.memPoison, rfl⟩
  | cons e es ih =>
    intro s
    obtain ⟨m, f, p, first⟩ := smears_eq e.owns s
    obtain ⟨m', f', p', rest⟩ := ih { s with mem := m, free := f, memPoison := p }
    exact ⟨m', f', p', by rw [List.foldl_cons, first, rest]⟩

/-- The entry belongs to a matrix unit of the group that no WAIT has covered. -/
def uncovered (grp : Nat) (e : MxOwn) : Bool := e.grp == grp && !e.waited

/-- What a WAIT that covers the tags leaves of an entry. -/
def letEntry (grp : Nat) (tags : List Nat) (e : MxOwn) : Option MxOwn :=
  if !(uncovered grp e && tags.contains e.tag) then some e else if e.far.isEmpty then none else some { e with waited := true, tainted := false }

theorem mxLet_eq (s : State) (tags : List Nat) : ∃ m f p, s.mxLet tags
    = { s with g := { s.g with mxRuns := s.g.mxRuns.filter fun r => !tags.contains r.tag }, mem := m, free := f, memPoison := p,
               mxOwns := s.mxOwns.filterMap (letEntry s.g.id tags) } := by
  unfold State.mxLet
  obtain ⟨m, f, p, e⟩ := smearOwns_eq (s.mxOwns.filter fun e =>
    (e.grp == s.g.id && !e.waited && tags.contains e.tag) && (e.tainted || s.g.mxRuns.any fun r => r.tag == e.tag && r.touched)) s
  exact ⟨m, f, p, by dsimp only; rw [e]; rfl⟩

/-- Of the group's own entries those of other tags stay open. -/
theorem uncovered_letEntry (grp : Nat) (tags : List Nat) (es : List MxOwn) :
    (es.filterMap (letEntry grp tags)).filter (uncovered grp) = (es.filter (uncovered grp)).filter fun e => !tags.contains e.tag := by
  induction es with
  | nil => rfl
  | cons e es ih =>
    by_cases own : uncovered grp e = true
    · by_cases named : e.tag ∈ tags
      · have covered : ∀ x, letEntry grp tags e = some x → uncovered grp x = false := by
          intro x h
          unfold letEntry at h
          split at h
          · simp_all
          · split at h
            · cases h
            · cases h; simp [uncovered]
        rw [List.filter_cons_of_pos own, List.filter_cons_of_neg (by simp [named]), ← ih]
        cases h : letEntry grp tags e with
        | none => rw [List.filterMap_cons_none h]
        | some x => rw [List.filterMap_cons_some h, List.filter_cons_of_neg (by simp [covered x h])]
      · have kept : letEntry grp tags e = some e := if_pos (by simp [named])
        rw [List.filterMap_cons_some kept, List.filter_cons_of_pos own, List.filter_cons_of_pos own, List.filter_cons_of_pos (by simp [named]), ih]
    · have kept : letEntry grp tags e = some e := if_pos (by simp [own])
      rw [List.filterMap_cons_some kept, List.filter_cons_of_neg own, List.filter_cons_of_neg own, ih]

/-- Of the entries of a list those whose tags are not among the first k stand behind them. -/
theorem length_filter_taken (es : List MxOwn) (k : Nat) :
    (es.filter fun e => !((es.map (·.tag)).take k).contains e.tag).length ≤ es.length - k := by
  have gone : (es.take k).filter (fun e => !((es.map (·.tag)).take k).contains e.tag) = [] := by
    rw [List.filter_eq_nil_iff]
    intro e he
    simp only [Bool.not_eq_true', Bool.not_eq_false, List.contains_iff_mem, ← List.map_take]
    simpa using List.mem_map_of_mem (f := MxOwn.tag) he
  calc (es.filter fun e => !((es.map (·.tag)).take k).contains e.tag).length
      = ((es.take k ++ es.drop k).filter fun e => !((es.map (·.tag)).take k).contains e.tag).length := by rw [List.take_append_drop]
    _ = ((es.drop k).filter fun e => !((es.map (·.tag)).take k).contains e.tag).length := by rw [List.filter_append, gone, List.nil_append]
    _ ≤ (es.drop k).length := List.length_filter_le _ _
    _ = es.length - k := List.length_drop

/-- R194: at most n of the group's units are uncovered. -/
theorem mxTags_mxCover (s : State) (n : Nat) : (s.mxCover n).mxTags.length ≤ n := by
  unfold State.mxCover
  split
  · next none_ => simp [State.mxTags, List.isEmpty_iff.1 none_]
  · obtain ⟨m, f, p, e⟩ := mxLet_eq s (s.mxTags.take (s.mxTags.length - n))
    rw [e]
    show (((s.mxOwns.filterMap (letEntry s.g.id _)).filter (uncovered s.g.id)).map (·.tag)).length ≤ n
    rw [uncovered_letEntry, List.length_map]
    have few := length_filter_taken (s.mxOwns.filter (uncovered s.g.id)) (s.mxTags.length - n)
    have count : s.mxTags.length = (s.mxOwns.filter (uncovered s.g.id)).length := List.length_map _
    have same : s.mxTags = (s.mxOwns.filter (uncovered s.g.id)).map (·.tag) := rfl
    rw [← same] at few
    omega

theorem mxCover_eq (s : State) (n : Nat) : ∃ runs m f p owns, s.mxCover n
    = { s with g := { s.g with mxRuns := runs }, mem := m, free := f, memPoison := p, mxOwns := owns } := by
  unfold State.mxCover
  split
  · exact ⟨s.g.mxRuns, s.mem, s.free, s.memPoison, s.mxOwns, rfl⟩
  · obtain ⟨m, f, p, e⟩ := mxLet_eq s (s.mxTags.take (s.mxTags.length - n))
    exact ⟨_, m, f, p, _, e⟩

/-! #### NOP and WAIT (R72, R99) -/

/-- A unit whose body does nothing. -/
theorem exec_passes {i : Instr} {s : State} {st len : Nat} {refs : List Ref} {body : M Unit} (e : exec i s = .next (unit .scal st len refs body s))
    (hb : body s = .ok () s) (issues : s.Issues .scal refs) : ∃ t, exec i s = .next t ∧ s.Passed t len st :=
  ⟨_, e.trans (congrArg Host.Outcome.next (unit_performs issues ⟨hb, rfl, rfl, rfl⟩)),
    State.OnlyGroup.after (s.onlyGroup_mg id) .scal len st, rfl⟩

theorem countsOk_iff (s : State) (h : Group) (ld st mx en tm : Nat) :
    s.countsOk h ld st mx en tm false
      = decide (h.count .ld ≤ ld ∧ h.count .st ≤ st ∧ h.count .mx ≤ mx ∧ h.count .en ≤ en ∧ h.count .tm ≤ tm) := by
  simp only [State.countsOk, Bool.not_false, Bool.true_or, Bool.and_true, Bool.decide_and, Bool.and_assoc]

/-! A unit that waits before it issues. -/
theorem vunit_awaits {cls : Cls} {st len : Nat} {refs : List Ref} {body : M Unit} {s : State} {w : Wait} (active : s.g.rdMask s.clock ≠ 0)
    (issues : s.Issues cls (maskRefs ++ refs)) (full : body s = .error (.await w) s) : vunit cls st len refs body s = s.await w :=
  vunit_stopped active issues full

theorem unit_awaits {cls : Cls} {st len : Nat} {refs : List Ref} {body : M Unit} {s : State} {w : Wait} (issues : s.Issues cls refs)
    (full : body s = .error (.await w) s) : unit cls st len refs body s = s.await w :=
  unit_stopped issues full

section
variable {o : WT} {s : State} (issues : s.Issues .scal [])
include issues

theorem exec_wait_met (met : s.countsOk s.g o.l.toNat o.w.toNat o.m.toNat o.e.toNat o.t.toNat false = true) :
    ∃ t, exec (.wait o) s = .next t ∧ (s.mxOwns = [] → s.Passed t 4 o.st.toNat)
      ∧ t.g = { s.g with pc := s.g.pc + 4, notBefore := s.clock + 1 + o.st.toNat, mxRuns := t.g.mxRuns } ∧ t.others = s.others
      ∧ t.mxTags.length ≤ o.m.toNat := by
  have few := mxTags_mxCover s o.m.toNat
  have none_ : s.mxOwns = [] → s.mxCover o.m.toNat = s := fun h => if_pos (by rw [h]; rfl)
  obtain ⟨runs, m, f, p, owns, e⟩ := mxCover_eq s o.m.toNat
  have run : exec (.wait o) s = .next (unit .scal o.st.toNat 4 [] _ s) := rfl
  by_cases h : s.mxOwns = []
  · rw [none_ h] at few
    obtain ⟨t, ht, passed⟩ := exec_passes run ((if_pos met).trans (congrArg (EStateM.Result.ok ()) (none_ h))) issues
    have tags : t.mxTags = s.mxTags := by rw [passed.device, passed.group]; rfl
    exact ⟨t, ht, fun _ => passed, by rw [passed.group]; rfl, by rw [passed.device], by rw [tags]; exact few⟩
  · rw [e] at few
    exact ⟨_, run.trans (congrArg Host.Outcome.next (unit_performs issues ⟨(if_pos met).trans (congrArg (EStateM.Result.ok ()) e), rfl, rfl, rfl⟩)),
      fun c => absurd c h, rfl, rfl, few⟩

theorem exec_wait_unmet (unmet : s.countsOk s.g o.l.toNat o.w.toNat o.m.toNat o.e.toNat o.t.toNat false = false) :
    exec (.wait o) s = .next (s.await (.counts o.l.toNat o.w.toNat o.m.toNat o.e.toNat o.t.toNat)) :=
  congrArg Host.Outcome.next (unit_awaits issues (if_neg (ne_true_of_eq_false unmet)))

end

/-! #### SLEEP and YIELD (R99) -/

theorem exec_sleep_group {o : A1} {s : State} (issues : s.Issues .scal [.s o.a.toNat]) (clean : s.useS o.a.toNat = false) :
    ∃ t, exec (.sleep o) s = .next t ∧ s.OnlyGroup t ∧
      t.g = { s.g with pc := s.g.pc + 4, notBefore := s.clock + 1 + o.st.toNat,
                       wait := if s.g.rdS s.clock o.a.toNat = 0 then s.g.wait else .sleep (s.clock + (s.g.rdS s.clock o.a.toNat).toNat) } := by
  have zero : (s.g.rdS s.clock o.a.toNat).toNat = 0 ↔ s.g.rdS s.clock o.a.toNat = 0 := BitVec.toNat_eq (y := 0#32).symm
  have run : exec (.sleep o) s = .next (unit .scal o.st.toNat 4 [.s o.a.toNat] _ s) := rfl
  obtain ⟨t, ht, -, only, g⟩ := exec_group (h := { s.g with
      wait := if s.g.rdS s.clock o.a.toNat = 0 then s.g.wait else .sleep (s.clock + (s.g.rdS s.clock o.a.toNat).toNat) }) run
    (by
      simp only [clean, Bool.false_eq_true, if_false, zero]
      by_cases h : s.g.rdS s.clock o.a.toNat = 0
      · rw [if_pos h, if_pos h]
      · rw [if_neg h, if_neg h]; rfl) rfl rfl rfl rfl issues
  exact ⟨t, ht, only, g⟩

section
variable {o : Z0} {s : State} (issues : s.Issues .scal [])
include issues

theorem exec_yield_alone (alone : s.pendingReady s.g.core s.g.quarter = []) : ∃ t, exec (.yield o) s = .next t ∧ s.Passed t 4 o.st.toNat :=
  exec_passes rfl (by simp only [alone]) issues

theorem exec_yield_swapped (some_ : s.pendingReady s.g.core s.g.quarter ≠ []) (swapped : s.swapped s.g.core s.g.quarter = true) :
    exec (.yield o) s = .next (s.hold (s.clock + 1)) := by
  obtain ⟨h, r, e⟩ := List.exists_cons_of_ne_nil some_
  exact congrArg Host.Outcome.next (unit_stopped (e := .hold (s.clock + 1)) issues (by simp only [e, swapped, if_true]))

theorem exec_yield_swaps {h : Group} {r : List Group} (first : s.pendingReady s.g.core s.g.quarter = h :: r)
    (free : s.swapped s.g.core s.g.quarter = false) :
    exec (.yield o) s = .next (s.after (s.swapActive s.g.core s.g.quarter s.g.id h.id) .scal 4 o.st.toNat) := by
  have own : (s.swapActive s.g.core s.g.quarter s.g.id h.id).g = { s.g with active := false, readySince := s.clock } := if_pos rfl
  refine congrArg Host.Outcome.next (unit_performs issues ⟨?_, rfl, by rw [own], by rw [own]⟩)
  simp only [first, free, Bool.false_eq_true, if_false]

end

/-- R66: the group that is moved in is active, and issues no earlier than after the two clocks of the swap. -/
theorem swapActive_in {s : State} {core quarter out in_ : Nat} (apart : in_ ≠ out) {k : Group} (hk : k ∈ (s.swapActive core quarter out in_).others)
    (id : k.id = in_) : k.active = true ∧ s.clock + 2 ≤ k.notBefore := by
  obtain ⟨g, -, rfl⟩ := List.mem_map.1 hk
  by_cases left : g.id = out
  · rw [if_pos left] at id
    exact absurd (id.symm.trans left) apart
  · rw [if_neg left] at id ⊢
    by_cases moved : g.id = in_
    · rw [if_pos moved]
      exact ⟨rfl, Nat.le_max_right ..⟩
    · rw [if_neg moved] at id
      exact absurd id moved

theorem waitsAndPauses : Sys2Proof.Claim.WaitsAndPauses := by
  refine ⟨fun o s issues => exec_passes rfl rfl issues, fun o s issues => ⟨fun met => ?_, fun unmet => ?_⟩,
    fun o s => exec_sleep_group, fun o s issues => ⟨exec_yield_alone issues, exec_yield_swapped issues, fun h r first other free => ?_⟩⟩
  · exact exec_wait_met issues (by rw [countsOk_iff]; exact decide_eq_true met)
  · exact exec_wait_unmet issues (by rw [countsOk_iff]; exact decide_eq_false unmet)
  · have own : (s.swapActive s.g.core s.g.quarter s.g.id h.id).g = { s.g with active := false, readySince := s.clock } := if_pos rfl
    refine ⟨_, exec_yield_swaps issues first free, ?_, ?_, ?_, ?_, ?_, rfl, fun k hk id => swapActive_in (core := s.g.core) (quarter := s.g.quarter) other hk id⟩ <;>
      rw [State.after_g, own]
    rfl

/-! #### Counters at their maximum (R71) -/

theorem bind_error {α β : Type} {m : M α} {k : α → M β} {s t : State} {e : Stop} (h : m s = .error e t) : (m >>= k) s = .error e t := by
  simp only [bind, EStateM.bind, h]

/-- What a unit waits for that a counter at its maximum holds. -/
def limitsOf (c : Ctr) : Wait :=
  let lim (k : Ctr) : Nat := if k = c then ctrMax k - 1 else ctrMax k
  .limits (lim .ld) (lim .st) (lim .mx) (lim .en) (lim .tm) false

theorem awaitCtr_full {c : Ctr} {s : State} (full : s.g.count c = ctrMax c) : awaitCtr c s = .error (.await (limitsOf c)) s :=
  if_neg (by rw [full]; exact Nat.lt_irrefl _)

theorem countersHold : Sys2Proof.Claim.CountersHold := by
  intro s issues idle active
  refine ⟨fun full o p q r u => ⟨?_, fun scalar => ?_⟩, fun full o p u => ⟨?_, fun scalar => ?_⟩, fun h => countsOk_iff s h⟩
  · have load (d z : Nat) (mq : Option MQ) (nr line : Bool) (addrs : M (Nat → Nat × Nat)) :
        loadBody d z mq nr line addrs s = .error (.await (limitsOf .ld)) s := bind_error (awaitCtr_full full)
    have holds {st len : Nat} {refs : List Ref} {body : M Unit} (hb : body s = .error (.await (limitsOf .ld)) s) :
        Host.Outcome.next (vunit .memv st len refs body s) = (.next (s.await (limitsOf .ld)) : Out) :=
      congrArg Host.Outcome.next (vunit_awaits active (issues_idle issues idle _) hb)
    simp only [List.forall_mem_cons]
    refine ⟨holds (load ..), holds (load ..), holds ?_, holds (load ..), holds (bind_error (awaitCtr_full full)), nofun⟩
    split <;> exact load ..
  · exact congrArg Host.Outcome.next (unit_awaits (issues_idle scalar idle _) (bind_error (awaitCtr_full full)))
  · have store (d z : Nat) (mq : Option MQ) (addrs : M (Nat → Nat × Nat)) :
        storeBody d z mq addrs s = .error (.await (limitsOf .st)) s := bind_error (awaitCtr_full full)
    simp only [List.forall_mem_cons]
    exact ⟨congrArg Host.Outcome.next (vunit_awaits active (issues_idle issues idle _) (store ..)),
      congrArg Host.Outcome.next (vunit_awaits active (issues_idle issues idle _) (store ..)), nofun⟩
  · exact congrArg Host.Outcome.next (unit_awaits (issues_idle scalar idle _) (bind_error (awaitCtr_full full)))

/-- Settles O8: WAIT by what it covers, SLEEP and YIELD by the group they leave, a full counter by the unit's first step. -/
theorem waitsPausesAndCounters : Obligations.WaitsPausesAndCounters := ⟨waitsAndPauses, countersHold⟩

end Sys2Proof.Waiting

/-! ### The scheduler's events (R66, R67, R99) -/

namespace Sys2Proof.Scheduling

open Sys2Proof.Machine Sys2Proof.SpecialRegisters

/-! #### PENDING_REPLACE and TUNIFY_SWAP (R66) -/

theorem swapActive_swaps (s : State) (core quarter out in_ : Nat) : s.Swaps (s.swapActive core quarter out in_) core quarter out in_ :=
  ⟨rfl, rfl⟩

theorem replacePending_swaps {s : State} {core quarter : Nat} {p a : Group} (free : s.swapped core quarter = false)
    (waited : (s.pendingReady core quarter).find? (fun g => decide (g.readySince + 256 ≤ s.clock)) = some p)
    (idle : (s.activeOn core quarter).reverse.find? (fun g => !s.ready g) = some a) :
    s.replacePending core quarter = s.swapActive core quarter a.id p.id := by
  simp only [State.replacePending, free, Bool.false_eq_true, if_false, waited, idle]

theorem replacePending_early {s : State} {core quarter : Nat}
    (early : s.swapped core quarter = true ∨ ∀ g ∈ s.pendingReady core quarter, s.clock < g.readySince + 256) :
    s.replacePending core quarter = s := by
  rcases early with swapped | early
  · exact if_pos swapped
  · have none_ : (s.pendingReady core quarter).find? (fun g => decide (g.readySince + 256 ≤ s.clock)) = none :=
      List.find?_eq_none.2 fun g hg => by simpa using early g hg
    unfold State.replacePending
    split
    · rfl
    · simp only [none_]

/-- R66, R338: TUNIFY_SWAP of a group at a WAIT or at a counter's limit. -/
theorem exec_tunifySwap_waiting {s : State} {id ld st mx en tm : Nat} {arr : Bool} {g p : Group} {rest : List Group} (found : s.group? id = some g)
    (active : g.active = true) (waits : g.wait = .counts ld st mx en tm ∨ g.wait = .limits ld st mx en tm arr)
    (pending : s.pendingReady g.core g.quarter = p :: rest) :
    exec (.tunifySwap id) s = .next (if decide (tm < g.count .tm) && !s.swapped g.core g.quarter then s.swapActive g.core g.quarter id p.id else s) := by
  refine congrArg Host.Outcome.next ?_
  rcases waits with w | w <;> simp only [found, active, w, pending, Bool.true_and]

/-! #### SLEEP_EXPIRY and SQUALL_WINDOW (R67, R99) -/

theorem exec_sleepExpiry_sleeping {s : State} {till : Nat} (sleeps : s.g.wait = .sleep till) :
    exec (.sleepExpiry s.g.id) s = .next { s with g := if till ≤ s.clock then { s.g with wait := .ready } else s.g } := by
  refine congrArg Host.Outcome.next ((if_pos rfl).trans ?_)
  simp only [sleeps]

theorem exec_squallWindow_ends {s : State} {core : Nat} (due : (s.core core).window < s.clock / 4096) :
    exec (.squallWindow core) s = .next (s.setCore ((s.core core).endWindow s.clock)) :=
  congrArg Host.Outcome.next (if_pos due)

theorem core_endWindow (k : CoreRegs) (now : Nat) : (k.endWindow now).core = k.core := rfl

/-- The low twelve bits of %sqctl, the threshold of R67. -/
theorem threshold_eq (w : Word) : (w &&& 0xFFF).toNat = w.toNat % 4096 := by
  rw [BitVec.toNat_and]
  exact Nat.and_two_pow_sub_one_eq_mod w.toNat 12

theorem lim_endWindow (k : CoreRegs) (now : Nat) : (k.endWindow now).lim
    = if k.sqctl.getLsbD 12 then (if (k.sqctl &&& 0xFFF).toNat < k.hits then max 2 (k.lim / 2) else min 8 (k.lim * 2)) else 8 := by
  rw [threshold_eq]
  unfold CoreRegs.endWindow
  cases k.sqctl.getLsbD 12 <;> rfl

/-- Settles O44: each event by the branch it takes; a swap by the two groups it exchanges. -/
theorem schedulerEvents : Obligations.SchedulerEvents := by
  refine ⟨fun s core quarter p a _ free waited idle => ?_, fun s core quarter early => ?_,
    fun s id ld st mx en tm arr g p rest _ found active waits pending => ?_, fun s till sleeps => ?_, fun s core => ⟨fun early => ?_, fun due => ?_⟩⟩
  · exact ⟨_, congrArg Host.Outcome.next (replacePending_swaps free waited idle), swapActive_swaps ..⟩
  · exact congrArg Host.Outcome.next (replacePending_early early)
  · rw [exec_tunifySwap_waiting found active waits pending]
    refine ⟨fun owes free => ⟨_, ?_, swapActive_swaps ..⟩, fun stays => ?_⟩
    · rw [if_pos (by simp [owes, free])]
    · rw [if_neg]
      rcases stays with h | h
      · simp [Nat.not_lt.2 h]
      · simp [h]
  · rw [exec_sleepExpiry_sleeping sleeps]
    exact ⟨fun due => by rw [if_pos due], fun early => by rw [if_neg (Nat.not_le.2 early)]⟩
  · exact congrArg Host.Outcome.next (if_neg (Nat.not_lt.2 early))
  · have own : (s.setCore ((s.core core).endWindow s.clock)).core core = (s.core core).endWindow s.clock :=
      (core_setCore ..).trans (if_pos (core_core s core).symm)
    refine ⟨_, exec_squallWindow_ends due, rfl, rfl, rfl, ?_, fun c ne => ?_, ?_⟩
    · rw [own]; rfl
    · exact (core_setCore ..).trans (if_neg (by rw [core_endWindow, core_core]; exact ne))
    · rw [own]; exact lim_endWindow _ _

end Sys2Proof.Scheduling

/-! ### Counted results arrive (R71, R171, R217, R218, R223) -/

namespace Sys2Proof.Arriving

open Sys2Proof.Machine

/-! #### Counters (R71) -/

/-- A counter counts by the entries' counters alone. -/
theorem count_eq (g : Group) (c : Ctr) : g.count c = (g.pend.map (·.ctr)).countP (· == c) := by
  rw [Group.count, List.countP_map, List.countP_eq_length_filter]
  rfl

/-- The unit is not one of the haze. -/
def plainKind (p : Pending) : Prop := p.kind ≠ .haze ∧ p.kind ≠ .hazeDrain

/-- R283: what stands of the haze units leaves every other entry, and every entry's counter. -/
theorem hazeMark_cons {g : Group} {p : Pending} {rest : List Pending} (pend : g.pend = p :: rest) (plain : plainKind p) (net : List HazeMsg) :
    ∃ rest', Group.hazeMark net g = { g with pend := p :: rest' } ∧ rest'.map (·.ctr) = rest.map (·.ctr) := by
  unfold Group.hazeMark
  split
  · refine ⟨rest.map _, by rw [pend, List.map_cons, if_neg (by simp [plain.1, plain.2])], ?_⟩
    rw [List.map_map]
    refine List.map_congr_left fun q _ => ?_
    dsimp only [Function.comp_apply]
    split <;> rfl
  · exact ⟨rest, by rw [← pend], rfl⟩

/-- R71, R381: a counter falls that no array's error and no poisoned word for the mask disturbs. -/
theorem retire_eq {s u : State} {p : Pending} {c : Ctr} (marked : s.hazeMark s.g.id = u) (id : u.g.id = s.g.id) (banks : u.banks = [])
    (oldest : u.g.pend.find? (fun q => q.ctr == c) = some p) (clean : p.spoilsMask = false) :
    s.retire s.g.id c = State.fresh { u with g := u.g.retire c u.free } := by
  have own : u.group? s.g.id = some u.g := if_pos id
  have none_ : u.banks.isEmpty = true := List.isEmpty_iff.2 banks
  unfold State.retire
  simp only [marked, own, Option.bind_some, oldest, Option.map_some, clean, none_, if_true]
  rw [if_neg (show ¬(some false = some true) by decide)]
  exact congrArg State.fresh (if_pos id)

/-- R71: the oldest operation of a counter of the issuing group completes, or is not done yet. -/
theorem retire_own {s : State} {p : Pending} {rest : List Pending} {c : Ctr} (banks : s.banks = []) (pend : s.g.pend = p :: rest) (ctr : p.ctr = c)
    (plain : plainKind p) (clean : p.spoilsMask = false) : ∃ rest' : List Pending, rest'.map (·.ctr) = rest.map (·.ctr) ∧
    s.retire s.g.id c = State.fresh { s with
      g := if p.done then p.writes.foldl (fun h w => w.land h s.free) { s.g with pend := rest' } else { s.g with pend := p :: rest' } } := by
  obtain ⟨rest', marked, ctrs⟩ := hazeMark_cons pend plain s.hazeNet
  have first : (p :: rest').find? (fun q => q.ctr == c) = some p := List.find?_cons_of_pos (by simp [ctr])
  have gone : (p :: rest').eraseP (fun q => q.ctr == c) = rest' := List.eraseP_cons_of_pos (by simp [ctr])
  refine ⟨rest', ctrs, (retire_eq ((if_pos rfl).trans (congrArg (fun h => ({ s with g := h } : State)) marked)) rfl banks first clean).trans ?_⟩
  refine congrArg (fun h => State.fresh { s with g := h }) ?_
  simp only [Group.retire, first, gone]

/-! #### What lands (R60, R71, R110) -/

/-- R60: general values written to a register with room for them. -/
theorem putV_general {g : Group} {r : Nat} (room : g.Room r) (m : Mask) (xs : List Word) (pz : Mask) :
    ∃ x : VReg, g.putV r m (.general xs) pz = some { g with v := g.v.set r x } ∧
      ∀ l, l < 96 → x.lane l = if m.getLsbD l then xs.getD l 0 else (g.v.getD r VReg.zero).lane l := by
  have slot : ∃ k, (g.v.getD r VReg.zero).val.slot? = some k ∨ (g.v.getD r VReg.zero).val.slot? = none ∧ g.freeSlot = some k := by
    cases h : (g.v.getD r VReg.zero).val.slot? with
    | some k => exact ⟨k, .inl rfl⟩
    | none =>
      obtain ⟨k, hk⟩ := Option.isSome_iff_exists.1 (room.resolve_left (by rw [h]; exact Bool.false_ne_true))
      exact ⟨k, .inr ⟨rfl, hk⟩⟩
  obtain ⟨k, hk⟩ := slot
  refine ⟨⟨.general k (lanes.map fun l => if m.getLsbD l then xs.getD l 0 else (g.v.getD r VReg.zero).lane l),
      ((g.v.getD r VReg.zero).poison &&& ~~~m) ||| (pz &&& m)⟩, ?_,
    fun l hl => getD_lanes_map (fun l => if m.getLsbD l then xs.getD l 0 else (g.v.getD r VReg.zero).lane l) 0 hl⟩
  unfold Group.putV
  dsimp only
  split
  · next c h => split at h <;> cases h
  · rcases hk with h | ⟨h, free⟩
    · simp only [h]; rfl
    · simp only [h, free]; rfl

/-- R71, R110: a vector result lands in its lanes that have not exited. -/
theorem land_vec {g : Group} {r : Nat} (room : g.Room r) (m pz : Mask) (xs : List Word) (k : Nat) :
    ∃ x : VReg, (RegWrite.vec r m xs pz false 0).land g k = { g.touchRun r with v := g.v.set r x } ∧
      ∀ l, l < 96 → x.lane l = if (m &&& ~~~g.exited).getLsbD l then xs.getD l 0 else (g.v.getD r VReg.zero).lane l := by
  have none_ : (0 : Mask) &&& (m &&& ~~~g.exited) &&& ~~~(Config.freeMask k) = 0 := by simp
  have all : (m &&& ~~~g.exited) &&& ~~~(0 : Mask) = m &&& ~~~g.exited := by
    rw [show ~~~(0 : Mask) = BitVec.allOnes 96 from BitVec.not_zero, BitVec.and_allOnes]
  obtain ⟨x, e, lane⟩ := putV_general (g := g.touchRun r) room (m &&& ~~~g.exited) xs pz
  refine ⟨x, ?_, lane⟩
  simp only [RegWrite.land, none_, all, Bool.not_false, if_true, e]
  rfl

theorem land_sreg (g : Group) (d k : Nat) (x : Word) : (RegWrite.sreg d x false false).land g k = g.putS d x false := rfl

/-! #### The events that complete counted units (R71) -/

/-- The oldest operation a counter counts is of the kind an event names: the counter falls if it can. -/
theorem complete_own {s : State} {p : Pending} {rest : List Pending} {c : Ctr} {kind : PendKind → Bool} (pend : s.g.pend = p :: rest) (ctr : p.ctr = c)
    (named : kind p.kind = true) : s.complete s.g.id c kind = s.retire s.g.id c := by
  have own : s.group? s.g.id = some s.g := if_pos rfl
  refine if_pos ?_
  rw [own, Option.bind_some, pend, List.find?_cons_of_pos (by simp [ctr])]
  exact named

theorem onlyGroups_fresh (s : State) (h : Group) : s.OnlyGroups (State.fresh { s with g := h }) := rfl

theorem count_cons {g h : Group} {p : Pending} {rest rest' : List Pending} {c : Ctr} (pend : g.pend = p :: rest) (ctr : p.ctr = c)
    (left : h.pend = rest') (ctrs : rest'.map (·.ctr) = rest.map (·.ctr)) : h.count c + 1 = g.count c := by
  rw [count_eq, count_eq, left, ctrs, pend, List.map_cons, List.countP_cons_of_pos (by simp [ctr])]

theorem count_same {g h : Group} {p : Pending} {rest rest' : List Pending} (pend : g.pend = p :: rest) (left : h.pend = p :: rest')
    (ctrs : rest'.map (·.ctr) = rest.map (·.ctr)) (c : Ctr) : h.count c = g.count c := by
  rw [count_eq, count_eq, left, pend, List.map_cons, List.map_cons, ctrs]

/-- R71, R171, R223: a vector result of the issuing group's oldest load. -/
theorem retire_vec {s : State} {p : Pending} {rest : List Pending} {r : Nat} {m pz : Mask} {xs : List Word} (banks : s.banks = [])
    (pend : s.g.pend = p :: rest) (ctr : p.ctr = .ld) (plain : plainKind p) (writes : p.writes = [.vec r m xs pz false 0])
    (within : r < s.g.v.length) (room : s.g.Room r) :
    (p.done = true → s.OnlyGroups (s.retire s.g.id .ld) ∧ (s.retire s.g.id .ld).g.count .ld + 1 = s.g.count .ld
      ∧ (∀ l, l < 96 → m.getLsbD l = true → s.g.exited.getLsbD l = false → ((s.retire s.g.id .ld).g.v.getD r VReg.zero).lane l = xs.getD l 0)
      ∧ (∀ l, l < 96 → m.getLsbD l = false ∨ s.g.exited.getLsbD l = true →
          ((s.retire s.g.id .ld).g.v.getD r VReg.zero).lane l = (s.g.v.getD r VReg.zero).lane l)
      ∧ (∀ k, k ≠ r → (s.retire s.g.id .ld).g.v.getD k VReg.zero = s.g.v.getD k VReg.zero)
      ∧ (s.retire s.g.id .ld).g.pc = s.g.pc ∧ (s.retire s.g.id .ld).g.s = s.g.s ∧ (s.retire s.g.id .ld).g.gsr = s.g.gsr) ∧
    (p.done = false → s.OnlyGroups (s.retire s.g.id .ld) ∧ (s.retire s.g.id .ld).g.count .ld = s.g.count .ld ∧ (s.retire s.g.id .ld).g.v = s.g.v) := by
  obtain ⟨rest', ctrs, e⟩ := retire_own banks pend ctr plain (by simp [Pending.spoilsMask, writes])
  obtain ⟨x, land, lane⟩ := land_vec (g := { s.g with pend := rest' }) room m pz xs s.free
  rw [e, writes]
  refine ⟨fun done => ?_, fun waits => ?_⟩
  · rw [if_pos done, List.foldl_cons, land, List.foldl_nil]
    have self : (s.g.v.set r x).getD r VReg.zero = x := by
      rw [List.getD_eq_getElem?_getD, List.getElem?_set_self within]; rfl
    refine ⟨onlyGroups_fresh s _, count_cons pend ctr rfl ctrs, fun l hl hm he => ?_, fun l hl off => ?_, fun k ne => ?_, rfl, rfl, rfl⟩
    · show ((s.g.v.set r x).getD r VReg.zero).lane l = _
      rw [self, lane l hl, BitVec.getLsbD_and, BitVec.getLsbD_not, hm, he]
      simp [hl]
    · show ((s.g.v.set r x).getD r VReg.zero).lane l = _
      rw [self, lane l hl, BitVec.getLsbD_and, BitVec.getLsbD_not, if_neg]
      rcases off with h | h <;> simp [h]
    · show (s.g.v.set r x).getD k VReg.zero = _
      rw [List.getD_eq_getElem?_getD, List.getElem?_set_ne (Ne.symm ne), ← List.getD_eq_getElem?_getD]
  · rw [if_neg (by rw [waits]; exact Bool.false_ne_true)]
    exact ⟨onlyGroups_fresh s _, count_same pend rfl ctrs .ld, rfl⟩

/-- R71, R217: an operation without a result. -/
theorem retire_plain {s : State} {p : Pending} {rest : List Pending} {c : Ctr} (banks : s.banks = []) (pend : s.g.pend = p :: rest) (ctr : p.ctr = c)
    (plain : plainKind p) (writes : p.writes = []) (done : p.done = true) :
    s.OnlyGroups (s.retire s.g.id c) ∧ (s.retire s.g.id c).g.count c + 1 = s.g.count c
      ∧ (s.retire s.g.id c).g.v = s.g.v ∧ (s.retire s.g.id c).g.s = s.g.s ∧ (s.retire s.g.id c).g.pc = s.g.pc := by
  obtain ⟨rest', ctrs, e⟩ := retire_own banks pend ctr plain (by simp [Pending.spoilsMask, writes])
  rw [e, if_pos done, writes]
  exact ⟨onlyGroups_fresh s _, count_cons pend ctr rfl ctrs, rfl, rfl, rfl⟩

/-- R71, R218: a scalar result. -/
theorem retire_sreg {s : State} {p : Pending} {rest : List Pending} {c : Ctr} {d : Nat} {n : Word} (banks : s.banks = []) (pend : s.g.pend = p :: rest)
    (ctr : p.ctr = c) (plain : plainKind p) (writes : p.writes = [.sreg d n false false]) (done : p.done = true) (length : s.g.s.length = 64)
    (hd : d < 64) :
    s.OnlyGroups (s.retire s.g.id c) ∧ (s.retire s.g.id c).g.count c + 1 = s.g.count c
      ∧ (s.retire s.g.id c).g.rawS d = s.g.heldS d n ∧ (s.retire s.g.id c).g.v = s.g.v ∧ (s.retire s.g.id c).g.pc = s.g.pc := by
  obtain ⟨rest', ctrs, e⟩ := retire_own banks pend ctr plain (by simp [Pending.spoilsMask, writes])
  have value := Group.putS_value { s.g with pend := rest' } length hd n false
  have keeps : (Group.putS { s.g with pend := rest' } d n false).pend = rest' ∧ (Group.putS { s.g with pend := rest' } d n false).v = s.g.v
      ∧ (Group.putS { s.g with pend := rest' } d n false).pc = s.g.pc := by
    rw [Group.putS_rest]; exact ⟨rfl, rfl, rfl⟩
  rw [e, if_pos done, writes, List.foldl_cons, land_sreg, List.foldl_nil]
  obtain ⟨left, v, pc⟩ := keeps
  generalize Group.putS { s.g with pend := rest' } d n false = h at value left v pc
  exact ⟨onlyGroups_fresh s h, count_cons pend ctr left ctrs, value, v, pc⟩

/-- Settles O45: the oldest counted operation of the issuing group is the first in its list; it leaves when done, and its result lands. -/
theorem resultsArrive : Obligations.ResultsArrive := by
  refine ⟨?_, fun s p rest banks pend ctr done writes => ⟨fun kind => ?_, fun kind => ?_⟩,
    fun s p rest d n banks pend ctr kind done writes length hd => ?_⟩
  · have both : ∀ e ∈ ([(.loadReturn, .load), (.atomicResult, .atomic)] : List ((Nat → Instr) × PendKind)),
        (∀ (s : State) (p : Pending) (rest : List Pending), s.g.pend = p :: rest → p.ctr = .ld → p.kind = e.2 →
          exec (e.1 s.g.id) s = .next (s.retire s.g.id .ld)) ∧ e.2 ≠ .haze ∧ e.2 ≠ .hazeDrain := by
      simp only [List.forall_mem_cons]
      refine ⟨⟨fun s p rest pend ctr kind => congrArg Host.Outcome.next (complete_own pend ctr (by rw [kind]; rfl)), nofun, nofun⟩,
        ⟨fun s p rest pend ctr kind => congrArg Host.Outcome.next (complete_own (kind := (· == .atomic)) pend ctr (by rw [kind]; rfl)), nofun, nofun⟩, nofun⟩
    intro e he s p rest r m pz xs banks pend ctr kind writes within room
    obtain ⟨run, notHaze, notDrain⟩ := both e he
    obtain ⟨lands, stays⟩ := retire_vec banks pend ctr ⟨by rw [kind]; exact notHaze, by rw [kind]; exact notDrain⟩ writes within room
    exact ⟨fun done => ⟨_, run s p rest pend ctr kind, lands done⟩, fun waits => ⟨_, run s p rest pend ctr kind, stays waits⟩⟩
  · exact ⟨_, congrArg Host.Outcome.next (complete_own pend ctr (by rw [kind]; rfl)),
      retire_plain banks pend ctr ⟨by rw [kind]; nofun, by rw [kind]; nofun⟩ writes done⟩
  · exact ⟨_, congrArg Host.Outcome.next (complete_own pend ctr (by rw [kind]; rfl)),
      retire_plain banks pend ctr ⟨by rw [kind]; nofun, by rw [kind]; nofun⟩ writes done⟩
  · exact ⟨_, congrArg Host.Outcome.next (complete_own pend ctr (by rw [kind]; rfl)),
      retire_sreg banks pend ctr ⟨by rw [kind]; nofun, by rw [kind]; nofun⟩ writes done length hd⟩

end Sys2Proof.Arriving

/-! ### An all-zero mask, and poisoned lane operands (R55, R121, R380, R381) -/

namespace Sys2Proof.MasksAndPoison

open Sys2Proof.Machine Sys2Proof.LaneForms

/-! #### The vector instructions: units under the execution mask (R55) -/

/-- The instruction is a unit of the class under the execution mask. -/
def UnderMask (cls : Cls) (len st : Nat) (i : Instr) (s : State) : Prop := ∃ refs body, exec i s = .next (vunit cls st len refs body s)

/-- R55: under an all-zero mask such a unit takes its slot alone. -/
theorem UnderMask.passes {cls : Cls} {len st : Nat} {i : Instr} {s : State} (u : UnderMask cls len st i s) (zero : s.g.rdMask s.clock = 0)
    (issues : s.Issues cls maskRefs) : ∃ t, exec i s = .next t ∧ s.Passed t len st := by
  obtain ⟨refs, body, e⟩ := u
  exact ⟨_, e.trans (congrArg Host.Outcome.next (vunit_zero zero issues)), rfl, rfl⟩

section
variable (s : State)

theorem underMask_vectorRDAB : ∀ c ∈ vectorRDAB, ∀ o : RDAB, UnderMask .vec (lenR o.rt) o.st.toNat (c o) s := by
  simp only [vectorRDAB, laneInt, laneScalar, laneFloat, laneFloat3, laneFloatScalar, lanePairs, laneWidening, List.map_cons, List.map_nil,
    List.forall_mem_append, List.forall_mem_cons, List.not_mem_nil, false_imp_iff, implies_true, and_true]
  and_intros <;> exact fun o => ⟨_, _, rfl⟩

theorem underMask_vectorRDA : ∀ c ∈ vectorRDA, ∀ o : RDA, UnderMask .vec (lenR o.rt) o.st.toNat (c o) s := by
  simp only [vectorRDA, laneUnary, laneSigns, List.map_cons, List.map_nil, List.forall_mem_append, List.forall_mem_cons, List.not_mem_nil, false_imp_iff, implies_true, and_true]
  and_intros <;> exact fun o => ⟨_, _, rfl⟩

theorem underMask_moveVector {i : Instr} {st len d b : Nat} {f : BitVec 9} (e : exec i s = moveVector st len d b f s) : UnderMask .vec len st i s := by
  rw [UnderMask, e, moveVector]
  split <;> exact ⟨_, _, rfl⟩

theorem underMask_laneApprox : ∀ c ∈ laneApprox.map (·.1) ++ [.vsqrt], ∀ o : RDA, UnderMask .sfu (lenR o.rt) o.st.toNat (c o) s := by
  simp only [laneApprox, List.map_cons, List.map_nil, List.forall_mem_append, List.forall_mem_cons, List.not_mem_nil, false_imp_iff, implies_true,
    and_true]
  and_intros <;> exact fun o => ⟨_, _, rfl⟩

theorem underMask_short : ∀ c ∈ laneShort.map (·.1) ++ laneFloatShort.map (·.1) ++ [.vmovs16, .vmov16], ∀ o : H16,
    UnderMask .vec 2 (stall16 o) (c o) s := by
  simp only [laneShort, laneFloatShort, List.map_cons, List.map_nil, List.forall_mem_append, List.forall_mem_cons, List.not_mem_nil, false_imp_iff,
    implies_true, and_true]
  refine ⟨⟨?_, ?_⟩, ?_, fun o => underMask_moveVector s rfl⟩
  all_goals and_intros <;> exact fun o => ⟨_, _, rfl⟩

theorem underMask_immediate : ∀ c ∈ laneImmediate.map (·.1), ∀ o : VDAI, UnderMask .vec (len3 o.limm o.rt none) o.st.toNat (c o) s := by
  simp only [laneImmediate, List.map_cons, List.map_nil, List.forall_mem_cons, List.not_mem_nil, false_imp_iff, implies_true, and_true]
  and_intros <;> exact fun o => ⟨_, _, rfl⟩

theorem underMask_compares : ∀ c ∈ [Instr.vcmp, Instr.vcmpf], ∀ o : VCAB, UnderMask .vec (lenR o.rt) o.st.toNat (c o) s :=
  List.forall_mem_cons.2 ⟨fun _ => ⟨_, _, rfl⟩, List.forall_mem_singleton.2 fun _ => ⟨_, _, rfl⟩⟩

theorem underMask_predicates : ∀ c ∈ predForms.map (·.1), ∀ o : PDAB, UnderMask .vec 4 o.st.toNat (c o) s := by
  simp only [predForms, List.map_cons, List.map_nil, List.forall_mem_cons, List.not_mem_nil, false_imp_iff, implies_true, and_true]
  and_intros <;> exact fun o => ⟨_, _, rfl⟩

theorem underMask_lanes : ∀ c ∈ [Instr.vlaneid, Instr.vrand], ∀ o : RD, UnderMask .vec (lenR o.rt) o.st.toNat (c o) s :=
  List.forall_mem_cons.2 ⟨fun _ => ⟨_, _, rfl⟩, List.forall_mem_singleton.2 fun _ => ⟨_, _, rfl⟩⟩

theorem underMask_unaryPredicates : ∀ c ∈ [Instr.pnot, Instr.pmov], ∀ o : PDA, UnderMask .vec 4 o.st.toNat (c o) s :=
  List.forall_mem_cons.2 ⟨fun _ => ⟨_, _, rfl⟩, List.forall_mem_singleton.2 fun _ => ⟨_, _, rfl⟩⟩

theorem underMask_constantPredicates : ∀ c ∈ [Instr.pset, Instr.pclr], ∀ o : PD, UnderMask .vec 4 o.st.toNat (c o) s :=
  List.forall_mem_cons.2 ⟨fun _ => ⟨_, _, rfl⟩, List.forall_mem_singleton.2 fun _ => ⟨_, _, rfl⟩⟩

theorem underMask_convert {op : ConvOp} {sr : Bool} {md : RMode} {i : Instr} {st len d : Nat} {refs : Group → Nat → List Ref}
    {os : Group → Nat → List Opd} (e : exec i s = op.run sr md st len d refs os s) : UnderMask .vec len st i s := by
  rw [UnderMask, e, ConvOp.run]
  split <;> exact ⟨_, _, rfl⟩

theorem underMask_packs : ∀ c ∈ [Instr.vunpk, Instr.vunpk2, Instr.vpack, Instr.vpack2], ∀ o : UFM, UnderMask .vec (lenR o.rt) o.st.toNat (c o) s := by
  simp only [List.forall_mem_cons, List.not_mem_nil, false_imp_iff, implies_true, and_true]
  exact ⟨fun _ => ⟨_, _, rfl⟩, fun _ => ⟨_, _, rfl⟩, fun _ => underMask_convert s rfl, fun _ => underMask_convert s rfl⟩

theorem underMask_memory : ∀ c ∈ [Instr.vld, Instr.vst, Instr.vldNr], ∀ o : MV, UnderMask .memv (lenRM o.rt o.mq) o.st.toNat (c o) s := by
  simp only [List.forall_mem_cons, List.not_mem_nil, false_imp_iff, implies_true, and_true]
  exact ⟨fun _ => ⟨_, _, rfl⟩, fun _ => ⟨_, _, rfl⟩, fun _ => ⟨_, _, rfl⟩⟩

end

theorem lenRM_eq (r : Option Route) (q : Option MQ) : lenRM r q = 4 + (if r.isSome then 4 else 0) + (if q.isSome then 4 else 0) := rfl
theorem len3_eq (l : Option (BitVec 24)) (r : Option Route) : len3 l r none = 4 + (if l.isSome then 4 else 0) + (if r.isSome then 4 else 0) := rfl

theorem zeroMask : Sys2Proof.Claim.ZeroMask := by
  intro s zero
  simp only [← lenR_eq, ← len3_eq, ← lenRM_eq]
  refine ⟨fun issues => ?_, fun issues => ⟨?_, ?_⟩, fun issues => ?_⟩
  · exact ⟨fun c hc o => (underMask_vectorRDAB s c hc o).passes zero issues, fun c hc o => (underMask_vectorRDA s c hc o).passes zero issues,
      fun c hc o => (underMask_short s c hc o).passes zero issues, fun c hc o => (underMask_immediate s c hc o).passes zero issues,
      fun c hc o => (underMask_compares s c hc o).passes zero issues, fun c hc o => (underMask_predicates s c hc o).passes zero issues,
      fun c hc o => (underMask_lanes s c hc o).passes zero issues, fun c hc o => (underMask_unaryPredicates s c hc o).passes zero issues,
      fun c hc o => (underMask_constantPredicates s c hc o).passes zero issues, fun c hc o => (underMask_packs s c hc o).passes zero issues,
      fun o => UnderMask.passes ⟨_, _, rfl⟩ zero issues, fun o => (underMask_convert s rfl).passes zero issues,
      fun o => UnderMask.passes ⟨_, _, rfl⟩ zero issues, fun o => UnderMask.passes ⟨_, _, rfl⟩ zero issues,
      fun o => (underMask_moveVector s rfl).passes zero issues, fun o => UnderMask.passes ⟨_, _, rfl⟩ zero issues,
      fun o => UnderMask.passes ⟨_, _, rfl⟩ zero issues, fun o => UnderMask.passes ⟨_, _, rfl⟩ zero issues⟩
  · exact fun c hc o => (underMask_laneApprox s c hc o).passes zero issues
  · exact fun o => UnderMask.passes ⟨_, _, rfl⟩ zero issues
  · exact fun c hc o => (underMask_memory s c hc o).passes zero issues

/-! #### Poisoned operand words of active lanes (R121, R381) -/

/-- R381: the active lanes in which an operand is poisoned. -/
def spoiltLanes (s : State) (xs : List Opd) : Mask := (xs.foldl (fun p o => p ||| o.pz) 0) &&& s.g.rdMask s.clock

theorem foldl_poison_lane {xs : List Opd} {l : Nat} (h : ∃ x ∈ xs, x.pz.getLsbD l = true) (p : Mask) :
    (xs.foldl (fun p o => p ||| o.pz) p).getLsbD l = true := by
  have grows (ys : List Opd) : ∀ p : Mask, p.getLsbD l = true → (ys.foldl (fun p o => p ||| o.pz) p).getLsbD l = true := by
    induction ys with
    | nil => exact fun _ hp => hp
    | cons y ys ih => exact fun p hp => ih _ (by rw [BitVec.getLsbD_or, hp, Bool.true_or])
  obtain ⟨x, hx, marked⟩ := h
  obtain ⟨before, after, rfl⟩ := List.append_of_mem hx
  rw [List.foldl_append, List.foldl_cons]
  exact grows _ _ (by rw [BitVec.getLsbD_or, marked, Bool.or_true])

theorem spoiltLanes_lane {s : State} {xs : List Opd} {l : Nat} (active : (s.g.rdMask s.clock).getLsbD l = true)
    (h : ∃ x ∈ xs, x.pz.getLsbD l = true) : (spoiltLanes s xs).getLsbD l = true := by
  rw [spoiltLanes, BitVec.getLsbD_and, foldl_poison_lane h, active, Bool.and_self]

theorem ne_zero_of_lane {m : Mask} {l : Nat} (h : m.getLsbD l = true) : m ≠ 0 := by
  rintro rfl
  exact absurd h (by rw [show (0 : Mask).getLsbD l = false from BitVec.getLsbD_zero]; exact Bool.false_ne_true)

/-- REG of %ckint is set by a unit that has met a poisoned word. -/
theorem ckint_left (g : Group) (d c : Nat) (m : Mask) (r : VReg) (ovf sat : Bool) : (g.left d c m r false ovf sat).ckint.getLsbD 0 = true := by
  rw [Group.left, Group.raiseFlags_rest]
  exact (getLsbD_setBit _ (by omega) true 0).trans (if_pos rfl)

/-- A unit under the mask that has written lanes of register d and met a poisoned word. -/
theorem exec_leftSpoilt {i : Instr} {s : State} {cls : Cls} {st len d c : Nat} {refs : List Ref} {m : Mask} {r : VReg} {ovf sat : Bool} {body : M Unit}
    (e : exec i s = .next (vunit cls st len refs body s)) (hb : body s = .ok () { s with g := s.g.left d c m r false ovf sat })
    (formed : s.g.Formed) (hd : d < 64) (active : s.g.rdMask s.clock ≠ 0) (issues : s.Issues cls (maskRefs ++ refs)) :
    ∃ t, exec i s = .next t ∧ t.g.v.getD d VReg.zero = r ∧ t.g.ckint.getLsbD 0 = true ∧ s.OnlyGroup t := by
  have ck := ckint_left s.g d c m r ovf sat
  obtain ⟨_, _, form⟩ := s.g.left_form d c m r false ovf sat
  generalize s.g.left d c m r false ovf sat = h at hb ck form
  have self : h.v.getD d VReg.zero = r := by
    rw [form, List.getD_eq_getElem?_getD, List.getElem?_set_self (by rw [formed.v]; exact hd)]; rfl
  have next := vunit_performs (st := st) (len := len) active issues ⟨hb, rfl, by rw [form], by rw [form]⟩
  exact ⟨_, e.trans (congrArg Host.Outcome.next next), self, ck, State.OnlyGroup.after (s.onlyGroup_mg fun _ => h) cls len st⟩

/-- R119, R381: a lane operation that meets a poisoned word in an active lane: its results, their marks, and REG of %ckint. -/
theorem run_spoilt (op : LaneOp) {i : Instr} {s : State} {st len d : Nat} {refs : Group → Nat → List Ref} {os : Group → Nat → List Opd}
    (e : exec i s = op.run st len d refs os s) (formed : s.g.Formed) (hd : d < 64) (active : s.g.rdMask s.clock ≠ 0)
    (issues : s.Issues op.cls (maskRefs ++ refs s.g s.clock)) (room : s.g.Room d) (spoilt : spoiltLanes s (os s.g s.clock) ≠ 0) :
    ∃ t, exec i s = .next t ∧ LanesSet (s.g.v.getD d VReg.zero) (t.g.v.getD d VReg.zero) s.g.present (s.g.rdMask s.clock)
        (op.result (s.g.rdMask s.clock) (os s.g s.clock)).1.lane (op.result (s.g.rdMask s.clock) (os s.g s.clock)).2.1
      ∧ t.g.ckint.getLsbD 0 = true ∧ s.OnlyGroup t := by
  obtain ⟨r, hc, set⟩ := Group.commitV_room formed hd (s.clock + op.lat + ((os s.g s.clock).map (·.lat)).sum) (s.g.rdMask s.clock)
    (op.result (s.g.rdMask s.clock) (os s.g s.clock)).1 (op.result (s.g.rdMask s.clock) (os s.g s.clock)).2.1 room
  obtain ⟨t, ht, self, ck, only⟩ := exec_leftSpoilt (c := s.clock + op.lat + ((os s.g s.clock).map (·.lat)).sum) (m := s.g.rdMask s.clock) (r := r)
    (ovf := (op.result (s.g.rdMask s.clock) (os s.g s.clock)).2.2.1) (sat := (op.result (s.g.rdMask s.clock) (os s.g s.clock)).2.2.2) e
    (by
      simp only [LaneOp.body, hc]
      rw [if_neg (show ¬((os s.g s.clock).foldl (fun (p : Mask) (o : Opd) => p ||| o.pz) 0 &&& s.g.rdMask s.clock = 0) from spoilt)]
      rfl) formed hd active issues
  exact ⟨t, ht, self.symm ▸ set, ck, only⟩

/-- R381: an integer form marks the lanes. -/
theorem result_marks {op : LaneOp} (int : op.nan = none) (s : State) (xs : List Opd) :
    (op.result (s.g.rdMask s.clock) xs).2.1 = spoiltLanes s xs := by
  unfold LaneOp.result spoiltLanes
  dsimp only
  cases op.aff (xs.map (·.val)) with
  | some v => rfl
  | none => rw [int]

/-- R121: a float form gives its NaN there, and marks nothing. -/
theorem result_nan {op : LaneOp} {n : Nat} (row : op.aff = affNone) (float : op.nan = some n) {m : Mask} {xs : List Opd} {l : Nat}
    (active : m.getLsbD l = true) (spoilt : ((xs.foldl (fun p o => p ||| o.pz) 0) &&& m).getLsbD l = true) :
    (op.result m xs).1.lane l = BitVec.ofNat 32 n ∧ (op.result m xs).2.1 = 0 := by
  unfold LaneOp.result
  rw [row, float]
  refine ⟨?_, rfl⟩
  generalize hp : (xs.foldl (fun p o => p ||| o.pz) 0) &&& m = pz at spoilt
  dsimp only [affNone]
  by_cases same : ((xs.all fun o => o.val.isUniform) && (decide (pz = 0) || decide (pz = m))) = true
  · have all : pz = m := by
      rcases Bool.or_eq_true_iff.1 (Bool.and_eq_true_iff.1 same).2 with zero | all
      · exact absurd (of_decide_eq_true zero) (ne_zero_of_lane spoilt)
      · exact of_decide_eq_true all
    rw [same, all]
    show BitVec.ofNat 32 (if m.getLsbD (lowestLane m) then FRes.ok n else _).bits = _
    rw [if_pos (lowestLane_active (ne_zero_of_lane active))]
    rfl
  · rw [Bool.eq_false_iff.2 same]
    refine ((eachLane_spec (uni := false) (ne_zero_of_lane active) fun h => absurd h Bool.false_ne_true).1 l active).trans ?_
    rw [if_pos spoilt]
    rfl

theorem exec_laneInt : ∀ c ∈ laneInt, ∃ aff f, ∀ (o : RDAB) (s : State), exec (c.1 o) s = (intOp aff f).ab false o s := by
  simp only [laneInt, List.forall_mem_cons, List.not_mem_nil, false_imp_iff, implies_true, and_true]
  and_intros <;> exact ⟨_, _, fun _ _ => rfl⟩

theorem exec_floatSums : ∀ c ∈ [Instr.vaddF32, .vsubF32, .vmulF32], ∀ s : State, ∃ f, ∀ o : RDAB,
    exec (c o) s = (floatOp s 0x7FC00005 f).ab true o s := by
  simp only [List.forall_mem_cons, List.not_mem_nil, false_imp_iff, implies_true, and_true]
  exact ⟨fun _ => ⟨_, fun _ => rfl⟩, fun _ => ⟨_, fun _ => rfl⟩, fun _ => ⟨_, fun _ => rfl⟩⟩

theorem lanePoison : Sys2Proof.Claim.LanePoison := by
  refine ⟨fun c hc o s formed issues active room l hl spoilt => ?_, fun c hc o s formed issues active room l hl spoilt => ?_,
    fun o s issues spoilt => ?_⟩
  · obtain ⟨aff, f, e⟩ := exec_laneInt c hc
    have marked := spoiltLanes_lane hl spoilt
    obtain ⟨t, ht, set, ck, only⟩ := run_spoilt (intOp aff f) (e o s) formed o.d.isLt active (by rw [← List.append_nil (s.refs o)] at issues; exact issues)
      room (ne_zero_of_lane marked)
    refine ⟨t, ht, ?_, ck, only⟩
    have marks : (t.g.v.getD o.d.toNat VReg.zero).poison = ((s.g.v.getD o.d.toNat VReg.zero).poison &&& ~~~(s.g.rdMask s.clock))
        ||| (spoiltLanes s (s.srcs o) &&& s.g.rdMask s.clock) := result_marks (op := intOp aff f) rfl s (s.srcs o) ▸ set.marks
    rw [marks, BitVec.getLsbD_or, BitVec.getLsbD_and, BitVec.getLsbD_and, marked, hl, Bool.and_self, Bool.or_true]
  · obtain ⟨f, e⟩ := exec_floatSums c hc s
    have marked := spoiltLanes_lane hl spoilt
    obtain ⟨t, ht, set, ck, only⟩ := run_spoilt (floatOp s 0x7FC00005 f) (e o) formed o.d.isLt active
      (by rw [List.append_assoc] at issues; exact issues) room (ne_zero_of_lane marked)
    obtain ⟨value, clean⟩ := result_nan (op := floatOp s 0x7FC00005 f) rfl rfl hl marked
    refine ⟨t, ht, (set.value l hl).trans value, ?_, ck, only⟩
    have marks : (t.g.v.getD o.d.toNat VReg.zero).poison = ((s.g.v.getD o.d.toNat VReg.zero).poison &&& ~~~(s.g.rdMask s.clock))
        ||| (0 &&& s.g.rdMask s.clock) := clean ▸ set.marks
    rw [marks, BitVec.getLsbD_or, BitVec.getLsbD_and, BitVec.getLsbD_not, hl]
    simp
  · have active : s.g.rdMask s.clock ≠ 0 := fun z => spoilt (by rw [z]; exact BitVec.and_zero)
    rw [List.append_assoc] at issues
    exact congrArg Host.Outcome.next (vunit_stopped active issues (if_pos (by simpa using spoilt)))

/-- Settles O14: every vector instruction is a unit under the execution mask; a poisoned word by the operation that meets it. -/
theorem zeroMaskAndPoison : Obligations.ZeroMaskAndPoison := ⟨zeroMask, lanePoison⟩

end Sys2Proof.MasksAndPoison

/-! ### Vector stores (R56, R174) -/

namespace Sys2Proof.LaneStores

open Sys2Proof.Machine Sys2Proof.DeviceAccess

/-! #### Bytes of a number, and stores one behind the other (R1) -/

theorem leBytes_add (m n x : Nat) : leBytes (m + n) x = leBytes m x ++ leBytes n (x / 256 ^ m) := by
  induction m generalizing x with
  | zero => simp [leBytes]
  | succ m ih =>
    rw [show m + 1 + n = m + n + 1 by omega, leBytes, leBytes, ih, List.cons_append, Nat.div_div_eq_div_mul, ← Nat.pow_succ']

theorem leBytes_mod (n x : Nat) : leBytes n (x % 256 ^ n) = leBytes n x := by
  induction n generalizing x with
  | zero => rfl
  | succ n ih =>
    have low : BitVec.ofNat 8 (x % 256 ^ (n + 1)) = BitVec.ofNat 8 x := by
      apply BitVec.eq_of_toNat_eq
      rw [BitVec.toNat_ofNat, BitVec.toNat_ofNat, Nat.pow_succ', Nat.mod_mul_right_mod]
    rw [leBytes, leBytes, low, Nat.pow_succ', Nat.mod_mul_right_div_self, ih]

/-- Memory after a list of stores, each of its bytes at its place. -/
def storeEach (place : Nat → Nat) (bytes : Nat → List Byte) (m : List Host.Cell) (ls : List Nat) : List Host.Cell :=
  ls.foldl (fun m l => Memory.write m (place l) (bytes l)) m

section
variable {place : Nat → Nat} {bytes : Nat → List Byte} {n : Nat} (len : ∀ l, (bytes l).length = n)
include len

theorem get_storeEach_other {ls : List Nat} {m : List Host.Cell} (wf : Memory.wf m = true) {a : Nat}
    (out : ∀ l ∈ ls, a < place l ∨ place l + n ≤ a) : Memory.get (storeEach place bytes m ls) a = Memory.get m a := by
  induction ls generalizing m with
  | nil => rfl
  | cons x ls ih =>
    obtain ⟨here, later⟩ := List.forall_mem_cons.1 out
    exact (ih (Memory.write_wf wf _ _) later).trans (Memory.get_write_other wf (by rw [len]; exact here))

theorem read_storeEach_other {ls : List Nat} {m : List Host.Cell} (wf : Memory.wf m = true) {a : Nat}
    (out : ∀ l ∈ ls, overlaps a n (place l) n = false) : Memory.read (storeEach place bytes m ls) a n = Memory.read m a n := by
  induction ls generalizing m with
  | nil => rfl
  | cons x ls ih =>
    obtain ⟨here, later⟩ := List.forall_mem_cons.1 out
    refine (ih (Memory.write_wf wf _ _) later).trans (Memory.read_write_other wf ?_)
    have apart := of_decide_eq_false here
    rw [len]
    omega

/-- The bytes of a store that no later one overlaps stand in memory. -/
theorem read_storeEach {ls : List Nat} (rising : ls.Pairwise (· < ·)) {m : List Host.Cell} (wf : Memory.wf m = true) {l : Nat} (hl : l ∈ ls)
    (last : ∀ k ∈ ls, l < k → overlaps (place l) n (place k) n = false) :
    Memory.read (storeEach place bytes m ls) (place l) n = bytes l := by
  induction ls generalizing m with
  | nil => cases hl
  | cons x ls ih =>
    obtain ⟨above, rising⟩ := List.pairwise_cons.1 rising
    rcases List.mem_cons.1 hl with rfl | hl
    · refine (read_storeEach_other len (Memory.write_wf wf _ _) fun k hk => last k (List.mem_cons_of_mem _ hk) (above k hk)).trans ?_
      have own := Memory.read_write wf (place l) (bytes l)
      rwa [len] at own
    · exact ih rising (Memory.write_wf wf _ _) hl fun k hk => last k (List.mem_cons_of_mem _ hk)

end

/-! #### Accesses to memory of a calm device, whatever their cache policies (R165 to R168, R220) -/

section
variable {s t u : State}

theorem recached_dropCopies (s : State) (line : Nat) : Recached s (s.dropCopies line) := .of_l1_subset rfl fun _ h => List.mem_of_mem_filter h

/-- R168: a store past the L1 to a Shared line is performed at its home. -/
theorem recached_dirHome (s : State) (line slice : Nat) : Recached s (s.dirHome line slice) := by
  unfold State.dirHome
  extract_lets dropped named
  have hd : Recached s dropped := (recached_dirFlush s).trans (recached_dropCopies _ line)
  have hn : Recached s named := .ite (hd.trans (recached_dirAlloc _ _ _)) hd
  split
  · exact hn.trans (.of_l1_eq rfl rfl)
  · exact hn

theorem recached_setFilter (h : Recached s t) (f : List (Nat × Nat)) : Recached { s with filter := f } { t with filter := f } :=
  ⟨congrArg (fun v : State => { v with filter := f }) h.rest, h.lines⟩

/-- R220: a pool line about to be cached is entered in the filter. -/
theorem recached_filterAdmit (s : State) (line : Nat) : ∃ f, Recached { s with filter := f } (s.filterAdmit line) := by
  unfold State.filterAdmit
  extract_lets port ways roomy
  split
  · exact ⟨s.filter, .refl s⟩
  · have purged (k : Nat) : Recached s (s.purgeLine k) := (recached_dropDir s k).trans (.of_l1_eq rfl rfl)
    have made : ∃ f, Recached { s with filter := f } roomy := by
      unfold roomy
      split
      · clear_value ways
        split
        · exact ⟨_, recached_setFilter (purged _) _⟩
        · exact ⟨s.filter, .refl s⟩
      · exact ⟨s.filter, .refl s⟩
    obtain ⟨f, hr⟩ := made
    exact ⟨_, recached_setFilter hr _⟩

theorem recached_admitLine (s : State) {ty : Nat} (device : ty ≠ 2) (line : Nat) : ∃ f, Recached { s with filter := f } (s.admitLine ty line) := by
  unfold State.admitLine
  split
  · exact recached_filterAdmit s line
  · exact ⟨s.filter, .refl s⟩

/-- R165, R168: an access through the L1 or past it. -/
theorem recached_touchWith {s : State} (h : CoherentL1 s) (core grp : Nat) {l : Loc} (device : l.ty ≠ 2) (n lp sp : Nat) (store : Bool) :
    ∃ f, Recached { s with filter := f } (s.touch core grp l n lp sp store) := by
  obtain ⟨f, admitted⟩ := recached_admitLine s device (lineOf l.key)
  unfold State.touch
  extract_lets line hit past loaded sliced owned named
  split
  · by_cases bypass : sp = 3
    · have hp : Recached s past := by unfold past; rw [if_pos bypass]; exact recached_victimHit s _ _ _
      exact ⟨s.filter, (Recached.ite (hp.trans (recached_dirHome _ _ _)) hp).trans (recached_sliceTouch _ _ _ _)⟩
    · have hp : Recached { s with filter := f } past := by
        unfold past; rw [if_neg bypass]; exact admitted.trans (recached_victimHit _ _ _ _)
      exact ⟨f, (Recached.ite (hp.trans (recached_dirHome _ _ _)) hp).trans (recached_sliceTouch _ _ _ _)⟩
  · have hl : Recached { s with filter := f } loaded := admitted.trans (recached_l1Touch _ (admitted.lines h) _ _ _ _)
    have hs : Recached { s with filter := f } sliced := .ite hl (hl.trans (recached_sliceTouch _ _ _ _))
    have hn : Recached { s with filter := f } named := .ite (hs.trans (recached_dirAccess _ _ _ _ _)) hs
    exact ⟨f, .ite (hn.trans (recached_l1Dirty _ _ _ _)) hn⟩

/-- After stores of the issuing group: memory holds what they leave; besides caches nothing but the group's marks of its own control areas
(R87, R373) has changed. -/
structure Stored (s t : State) (m : List Host.Cell) : Prop where
  still : Still t
  owners : t.mxOwns = []
  mem : t.mem = m
  mgmt : t.mgmt = s.mgmt
  clock : t.clock = s.clock
  others : t.others = s.others
  group : ∃ a b c, t.g = { s.g with retLost := a, reconLost := b, recTouched := c }

namespace Stored
variable {m m' : List Host.Cell}

theorem refl (k : Still s) (own : s.mxOwns = []) : Stored s s s.mem := ⟨k, own, rfl, rfl, rfl, rfl, _, _, _, rfl⟩
theorem trans (h : Stored s t m) (k : Stored t u m') : Stored s u m' := by
  obtain ⟨a, b, c, ht⟩ := h.group
  obtain ⟨a', b', c', hu⟩ := k.group
  exact ⟨k.still, k.owners, k.mem, k.mgmt.trans h.mgmt, k.clock.trans h.clock, k.others.trans h.others, a', b', c', by rw [hu, ht]⟩
theorem place (h : Stored s t m) (a : Nat) : t.place a = s.place a := place_of_mgmt h.mgmt a
theorem core (h : Stored s t m) : t.g.core = s.g.core := by obtain ⟨a, b, c, e⟩ := h.group; rw [e]
theorem quarter (h : Stored s t m) : t.g.quarter = s.g.quarter := by obtain ⟨a, b, c, e⟩ := h.group; rw [e]
theorem id (h : Stored s t m) : t.g.id = s.g.id := by obtain ⟨a, b, c, e⟩ := h.group; rw [e]
theorem ctx (h : Stored s t m) : t.g.ctx = s.g.ctx := by obtain ⟨a, b, c, e⟩ := h.group; rw [e]

end Stored

/-- Only caches, the pool's filter and memory have changed. -/
theorem Stored.of_recached (k : Still s) (own : s.mxOwns = []) {f : List (Nat × Nat)} {m : List Host.Cell}
    (h : Recached { s with filter := f, mem := m } t) : Stored s t m := by
  refine ⟨⟨h.banks.trans k.banks, h.memPoison.trans k.memPoison, h.hazeNet.trans k.hazeNet, h.hazeHomes.trans k.hazeHomes, h.lines k.lines⟩,
    h.mxOwns.trans own, h.mem, h.mgmt, h.clock, h.others, _, _, _, h.g⟩

/-- A write of unmarked bytes to memory without marks or errors. -/
theorem memWriteP_clean (banks : s.banks = []) (marks : s.memPoison = []) (a n x : Nat) :
    s.memWriteP a n x false = { s with mem := Memory.write s.mem (s.place a) (leBytes n x) } := by
  simp [State.memWriteP, State.memWrite, State.memStore, banks, marks, clearPoison]

theorem memWriteP_planted (banks : s.banks = []) (marks : s.memPoison = []) (core : Nat) (l : Loc) (n x : Nat) :
    (s.memWriteP l.key n x false).plantCaches core l = { s with mem := Memory.write s.mem (s.place l.key) (leBytes n x) } := by
  rw [memWriteP_clean banks marks]
  simp only [State.plantCaches, State.plantAt, banks, List.map_nil]

/-- A store to a byte of memory itself writes its bytes; no link fails. -/
theorem writeLoc_plain (k : Still s) (own : s.mxOwns = []) {l : Loc} (plain : l.plain) (core grp ctx n x lp sp : Nat) :
    ∃ t, s.writeLoc core grp ctx l n x false lp sp = (false, t) ∧ Stored s t (Memory.write s.mem (s.place l.key) (leBytes n x)) := by
  have exact_ : s.exactAccess l = s := by simp [State.exactAccess, k.hazeNet, k.hazeHomes]
  have payload : s.payload grp false = (false, s) := by simp [State.payload, k.banks]
  have flits : s.flits core ctx l = s := by simp [State.flits, k.banks]
  have taint : s.mxTaint (some grp) l.key n = s := by simp [State.mxTaint, own]
  by_cases scratch : l.ty = tyScratch
  · refine ⟨{ s with mem := Memory.write s.mem (s.place l.key) (leBytes n x) }, ?_, .of_recached (f := s.filter) k own (.refl _)⟩
    simp [State.writeLoc, scratch, Fetching.findErrors_clean k.banks, flits, taint, memWriteP_clean k.banks k.memPoison]
  · have types : l.ty = 0 ∨ l.ty = 1 ∨ l.ty = 7 := by
      rcases plain with h | h | h | h
      · exact .inl h
      · exact .inr (.inl h)
      · exact absurd h scratch
      · exact .inr (.inr h)
    obtain ⟨f, touched⟩ := recached_touchWith k.lines core grp (l := l) (by omega) n lp sp true
    have written : s.writeLoc core grp ctx l n x false lp sp
        = (false, ((if l.ty = tyStack then s.touch core grp l n lp sp true
            else (s.touch core grp l n lp sp true).record l.key).memWriteP l.key n x false).plantCaches core l) := by
      have ne : ¬l.ty = 2 ∧ ¬l.ty = 3 ∧ ¬l.ty = 4 ∧ ¬l.ty = 5 := by omega
      simp [State.writeLoc, scratch, ne, payload, Fetching.findErrors_clean k.banks, flits, exact_]
    have recorded : Recached { s with filter := f } (if l.ty = tyStack then s.touch core grp l n lp sp true
        else (s.touch core grp l n lp sp true).record l.key) := .ite touched (touched.trans (recached_record _ _))
    rw [written]
    generalize (if l.ty = tyStack then s.touch core grp l n lp sp true else (s.touch core grp l n lp sp true).record l.key) = t at recorded
    have banks : t.banks = [] := recorded.banks.trans k.banks
    rw [memWriteP_planted banks (recorded.memPoison.trans k.memPoison), recorded.mem, recorded.place]
    exact ⟨_, rfl, .of_recached (f := f) k own (recorded.setMem _)⟩

/-! #### The words of a lane (R174) -/

/-- The number the words of a lane hold, the first lowest. -/
def wordsNat (ws : List (Word × Bool)) : Nat := ws.foldr (fun w r => w.1.toNat + 2 ^ 32 * r) 0

theorem wordsNat_append (xs ys : List (Word × Bool)) : wordsNat (xs ++ ys) = wordsNat xs + 2 ^ (32 * xs.length) * wordsNat ys := by
  induction xs with
  | nil => simp [wordsNat]
  | cons x xs ih =>
    have step (zs : List (Word × Bool)) : wordsNat (x :: zs) = x.1.toNat + 2 ^ 32 * wordsNat zs := rfl
    rw [List.cons_append, step, step, ih, List.length_cons, Nat.mul_add, Nat.mul_succ, Nat.add_comm (32 * _) 32, Nat.pow_add, Nat.mul_assoc,
      Nat.add_assoc]

theorem wordsNat_lt (ws : List (Word × Bool)) : wordsNat ws < 2 ^ (32 * ws.length) := by
  induction ws with
  | nil => simp [wordsNat]
  | cons x xs ih =>
    have step : wordsNat (x :: xs) = x.1.toNat + 2 ^ 32 * wordsNat xs := rfl
    have hx := x.1.isLt
    rw [step, List.length_cons, Nat.mul_succ, Nat.pow_add]
    generalize wordsNat xs = w at ih
    generalize 2 ^ (32 * xs.length) = p at ih ⊢
    omega

/-- R174: four words are stored as two halves, one behind the other. -/
theorem leBytes_halves {ws : List (Word × Bool)} (four : ws.length = 4) :
    leBytes 16 (wordsNat ws) = leBytes 8 (wordsNat (ws.take 2)) ++ leBytes 8 (wordsNat (ws.drop 2)) := by
  have len : (ws.take 2).length = 2 := by rw [List.length_take, four]; rfl
  have low := wordsNat_lt (ws.take 2)
  have sum := wordsNat_append (ws.take 2) (ws.drop 2)
  rw [List.take_append_drop, len] at sum
  rw [len] at low
  have high : wordsNat ws / 256 ^ 8 = wordsNat (ws.drop 2) := by omega
  have rest : wordsNat ws % 256 ^ 8 = wordsNat (ws.take 2) := by omega
  rw [leBytes_add 8 8, high, ← leBytes_mod 8 (wordsNat ws), rest]

/-- R174: the words of one lane are stored at its place. -/
theorem storeLane_plain (k : Still s) (own : s.mxOwns = []) {l : Loc} (plain : l.plain) {n : Nat} (flat : s.Flat l.key n) {ws : List (Word × Bool)}
    (four : n = 16 → ws.length = 4) (clean : ∀ w ∈ ws, w.2 = false) (lp sp : Nat) :
    ∃ t, s.storeLane l n ws lp sp = (false, t) ∧ Stored s t (Memory.write s.mem (s.place l.key) (leBytes n (wordsNat ws))) := by
  have unmarked {xs : List (Word × Bool)} (h : ∀ w ∈ xs, w ∈ ws) : xs.any (·.2) = false := by
    simp only [List.any_eq_false, Bool.not_eq_true]
    exact fun w hw => clean w (h w hw)
  by_cases wide : n = 16
  · subst wide
    obtain ⟨t, first, ht⟩ := writeLoc_plain k own plain s.g.core s.g.id s.g.ctx 8 (wordsNat (ws.take 2)) lp sp
    obtain ⟨u, second, hu⟩ := writeLoc_plain (l := { l with key := l.key + 8 }) ht.still ht.owners plain s.g.core s.g.id s.g.ctx 8
      (wordsNat (ws.drop 2)) lp sp
    refine ⟨u, ?_, ?_⟩
    · simp only [State.storeLane, if_true, unmarked fun w => List.mem_of_mem_take, unmarked fun w => List.mem_of_mem_drop]
      simp only [wordsNat] at first second
      rw [first, second]
      rfl
    · have both := ht.trans hu
      rw [ht.mem, ht.place, flat 8 (by omega)] at both
      rw [leBytes_halves (four rfl), write_append, leBytes_length]
      exact both
  · obtain ⟨t, run, ht⟩ := writeLoc_plain k own plain s.g.core s.g.id s.g.ctx n (wordsNat ws % 2 ^ (8 * n)) lp sp
    refine ⟨t, ?_, ?_⟩
    · simp only [State.storeLane, wide, if_false, unmarked fun w => id]
      exact run
    · rwa [Nat.pow_mul, leBytes_mod] at ht

/-- R87, R373: a store to the group's own control areas is marked in the group. -/
theorem stored_touchControl (k : Still s) (own : s.mxOwns = []) (lane a : Nat) : Stored s (s.touchControl lane a) s.mem := by
  unfold State.touchControl
  have mark (x y : Nat) (z : Bool) : Stored s (s.mg fun g => { g with retLost := x, reconLost := y, recTouched := z }) s.mem :=
    ⟨⟨k.banks, k.memPoison, k.hazeNet, k.hazeHomes, k.lines⟩, own, rfl, rfl, rfl, rfl, x, y, z, rfl⟩
  extract_lets off
  split
  · split
    · exact mark _ _ _
    · split
      · exact mark _ _ _
      · exact .refl k own
  · exact .refl k own

/-- R174: the lanes one after another, each at its place. -/
theorem storeLanes_plain {n : Nat} {addr : Nat → Nat} {loc : Nat → Loc} {word : Nat → List (Word × Bool)} (lp sp : Nat)
    (four : n = 16 → ∀ l, (word l).length = 4) (clean : ∀ l, ∀ w ∈ word l, w.2 = false) (ls : List Nat) : ∀ s : State, Still s → s.mxOwns = [] →
    (∀ l ∈ ls, (loc l).plain ∧ s.Flat (loc l).key n) →
    ∃ t, s.storeLanes n lp sp word (ls.map fun l => (l, addr l, .at (loc l))) = (false, t)
      ∧ Stored s t (storeEach (fun l => s.place (loc l).key) (fun l => leBytes n (wordsNat (word l))) s.mem ls) := by
  induction ls with
  | nil => exact fun s k own _ => ⟨s, rfl, .refl k own⟩
  | cons x ls ih =>
    intro s k own places
    obtain ⟨⟨plain, flat⟩, later⟩ := List.forall_mem_cons.1 places
    have touched := stored_touchControl k own x (addr x)
    have flat' : (s.touchControl x (addr x)).Flat (loc x).key n := fun i hi => by rw [touched.place, touched.place]; exact flat i hi
    obtain ⟨t, run, ht⟩ := storeLane_plain touched.still touched.owners plain flat' (fun h => four h x) (clean x) lp sp
    have here := touched.trans ht
    obtain ⟨u, rest, hu⟩ := ih t here.still here.owners fun l hl =>
      ⟨(later l hl).1, fun i hi => by rw [here.place, here.place]; exact (later l hl).2 i hi⟩
    refine ⟨u, ?_, ?_⟩
    · simp only [State.storeLanes, List.map_cons, List.foldl_cons, run, Bool.or_false] at rest ⊢
      exact rest
    · have all := here.trans hu
      simp only [here.place, here.mem, touched.place, touched.mem] at all
      exact all

end

/-! #### What a unit of a calm device reads (R69, R108, R381) -/

section
variable {s : State} (calm : s.Calm)
include calm

/-- A vector register as a unit reads it is clean. -/
theorem rdV_clean (r : Nat) : (s.g.rdV s.clock r).poison = 0 := by
  have plain : s.g.rdV s.clock r = s.g.v.getD r VReg.zero := by
    have owned : s.g.mxHeld r = false := by simp [Group.mxHeld, calm.runs]
    simp only [Group.rdV, owned, Bool.false_eq_true, if_false, Group.rdVmx, SpecialRegisters.stale_idle calm.inflight]
  rw [plain]
  exact calm.vectors r

theorem readPz_clean (r p : Nat) : s.g.readPz s.clock r p = false := by
  rw [Group.readPz, rdV_clean calm r]
  simp

theorem opd_clean (r : Nat) (f : BitVec 9) : (s.g.opd s.clock r f).pz = 0 := by
  have none_ {t : Nat → Bool} (h : ∀ l, t l = false) : maskOf t = 0 := by
    have same : t = fun _ => false := funext h
    rw [same]
    rfl
  have partner (lat : Nat) (part : Nat → Nat) : (s.g.partner s.clock r lat part).pz = 0 := by
    have marks : maskOf (fun l => s.g.readPz s.clock r (part l)) = 0 := none_ fun l => readPz_clean calm r _
    unfold Group.partner
    simp only [marks]
    split
    · split <;> rfl
    · rfl
  unfold Group.opd
  extract_lets arg idx
  split
  · exact rdV_clean calm r
  · exact partner _ _
  · simp only [readPz_clean calm, Bool.false_eq_true, if_false]
  · split
    · exact partner _ _
    · dsimp only
      refine none_ fun l => ?_
      rw [rdV_clean calm]
      cases s.g.permAt s.clock r idx l with
      | none => simp
      | some x => simp [readPz_clean calm]

theorem anySP_clean (r n : Nat) : s.g.anySP s.clock r n = false := by
  simp [Group.anySP, Group.rdSP, SpecialRegisters.stale_idle calm.inflight, Group.rawSP, calm.scalars]

theorem basePair_clean (a : Nat) : basePair a s = .ok (s.g.rdPair s.clock a) s :=
  if_neg (by rw [anySP_clean calm]; exact Bool.false_ne_true)

theorem offsetAddrs_clean (a b : Nat) (rt : Option Route) : offsetAddrs a b rt s = .ok (fun l => (s.laneAddr a b rt l, 0)) s := by
  have offsets : laneOffsets b (rtB rt) s = .ok (s.g.opd s.clock b (rtB rt)).val.lane s := if_neg (by rw [opd_clean calm]; simp)
  simp only [offsetAddrs, bind, EStateM.bind, basePair_clean calm, offsets]
  rfl

theorem fixedAddrs_clean (a off : Nat) : fixedAddrs a off s = .ok (fun _ => ((s.g.rdPair s.clock a + off) % 2 ^ 64, 0)) s := by
  simp only [fixedAddrs, bind, EStateM.bind, basePair_clean calm]
  rfl

end

/-! #### A vector store (R56, R174) -/

theorem bind_ok {α β : Type} {m : M α} {k : α → M β} {s t : State} {x : α} (h : m s = .ok x t) : (m >>= k) s = k x t := by
  simp only [bind, EStateM.bind, h]

theorem mapM_ok {α β : Type} {m : α → M β} {f : α → β} {s : State} (ls : List α) (h : ∀ l ∈ ls, m l s = .ok (f l) s) :
    ls.mapM m s = .ok (ls.map f) s := by
  induction ls with
  | nil => rfl
  | cons x ls ih =>
    obtain ⟨here, later⟩ := List.forall_mem_cons.1 h
    rw [List.mapM_cons, bind_ok here, bind_ok (ih later)]
    rfl

/-- The words of a lane of k registers from d on, with their marks. -/
def laneData (s : State) (d k l : Nat) : List (Word × Bool) :=
  (List.range k).map fun j => ((s.g.rdV s.clock (d + j)).lane l, (s.g.rdV s.clock (d + j)).poison.getLsbD l)

theorem laneData_clean {s : State} (calm : s.Calm) (d k l : Nat) : ∀ w ∈ laneData s d k l, w.2 = false := by
  intro w hw
  obtain ⟨j, -, rfl⟩ := List.mem_map.1 hw
  rw [rdV_clean calm]
  exact BitVec.getLsbD_zero

theorem wordsNat_laneData (s : State) (d k l : Nat) : wordsNat (laneData s d k l) = s.laneWords d k l := by
  induction k generalizing d with
  | zero => rfl
  | succ k ih =>
    have rest : laneData s d (k + 1) l = ((s.g.rdV s.clock d).lane l, (s.g.rdV s.clock d).poison.getLsbD l) :: laneData s (d + 1) k l := by
      simp only [laneData, List.range_succ_eq_map, List.map_cons, List.map_map, Nat.add_zero]
      congr 1
      refine List.map_congr_left fun j _ => ?_
      simp only [Function.comp_apply, Nat.succ_eq_add_one, show d + (j + 1) = d + 1 + j by omega]
    rw [rest, State.laneWords, ← ih (d + 1)]
    rfl

theorem storing_iff (s : State) (l : Nat) :
    l ∈ s.g.storing s.clock ↔ (s.g.rdMask s.clock).getLsbD l = true ∧ s.g.helpers.getLsbD l = false := by
  rw [Group.storing, mem_lanesOf, BitVec.getLsbD_and, BitVec.getLsbD_not]
  constructor
  · intro h
    simp only [Bool.and_eq_true, Bool.not_eq_true'] at h
    exact ⟨h.1, h.2.2⟩
  · rintro ⟨active, real⟩
    have small : l < 96 := BitVec.lt_of_getLsbD active
    rw [active, real, decide_eq_true small]
    rfl

theorem storing_rising (s : State) : (s.g.storing s.clock).Pairwise (· < ·) := List.Pairwise.filter _ List.pairwise_lt_range

/-- The lanes' checks pass, and leave the state alone. -/
theorem checkLanes_reach {s : State} {ls : List Nat} {addr : Nat → Nat} {n : Nat} {loc : Nat → Loc}
    (reach : ∀ l ∈ ls, s.Reaches l (addr l) n .w (loc l)) :
    ls.mapM (fun l => (do
      let c ← checkLane n n .w false (l, addr l)
      return (l, addr l, c.2) : M (Nat × Nat × LaneChk))) s = .ok (ls.map fun l => (l, addr l, .at (loc l))) s := by
  refine mapM_ok ls fun l hl => ?_
  obtain ⟨check, -, -⟩ := reach l hl
  have lane : checkLane n n .w false (l, addr l) s = .ok (l, .at (loc l)) s := by simp only [checkLane, check]
  rw [bind_ok lane]
  rfl

/-- The entry of a store that has been performed but for its counter, with its requests at peers. -/
def storeEntry (peers : List (Mask × Nat)) : Pending := { donePend .st .store [] with peers := peers }

section
variable {s : State} (calm : s.Calm) {mq : Option MQ} (scope : ∀ q, mq = some q → q.scope.toNat ≠ 4) {z : Nat}
  {addrs : M (Nat → Nat × Nat)} {f : Nat → Nat × Nat} (at_ : addrs s = .ok f s) {loc : Nat → Loc}
  (reach : ∀ l ∈ s.g.storing s.clock, s.Reaches l (f l).1 (2 ^ z) .w (loc l))
include calm scope

/-- R183, R187: with nothing outstanding nothing holds the store back. -/
theorem orderHold_passes : orderHold mq s = .ok () s := by
  have released : releaseHold s = .ok () s := if_pos (by simp [Group.orderOk, calm.pend])
  cases mq with
  | none => rfl
  | some q =>
    show (if 2 ≤ q.ord.toNat then (do
      releaseHold
      postedHold q.scope.toNat) else pure () : M Unit) s = _
    split
    · rw [bind_ok released]
      exact if_neg (by simp [scope q rfl])
    · rfl

include at_ reach

/-- R174: the body of a store: the stored bytes, and the entry that STCNT counts. -/
theorem storeBody_stores (d : Nat) : ∃ t peers, storeBody d z mq addrs s = .ok () (t.mg (·.addPend (storeEntry peers)))
    ∧ Stored s t (storeEach (fun l => s.place (loc l).key) (fun l => leBytes (2 ^ z) (s.laneWords d (storeRegs z) l)) s.mem
        (s.g.storing s.clock)) := by
  have counted : awaitCtr .st s = .ok () s := if_pos (by simp [Group.count, calm.pend, ctrMax])
  have loaded : loadHold s = .ok () s := if_pos (by simp [Group.orderOk, calm.pend])
  have settled : settleOwn s = .ok () s := by
    have none_ : s.performAll = s := if_pos (by simp [calm.pend])
    exact congrArg (EStateM.Result.ok ()) none_
  have clean : ((s.g.storing s.clock).any fun l => (laneData s d (storeRegs z) l).any (·.2)) = false := by
    simp only [List.any_eq_false, Bool.not_eq_true]
    exact fun l _ w hw => laneData_clean calm d _ l w hw
  have four : 2 ^ z = 16 → ∀ l, (laneData s d (storeRegs z) l).length = 4 := by
    intro wide l
    have four : z = 4 := Nat.pow_right_injective (le_refl 2) (wide : 2 ^ z = 2 ^ 4)
    rw [laneData, List.length_map, List.length_range, four]
    rfl
  obtain ⟨t, run, stored⟩ := storeLanes_plain (addr := fun l => (f l).1) (lpol mq) (spol mq) four (fun l => laneData_clean calm d _ l)
    (s.g.storing s.clock) s (still_of_calm calm) calm.owners fun l hl => (reach l hl).2
  simp only [wordsNat_laneData] at stored
  refine ⟨t, s.peersOf (((s.g.storing s.clock).map fun l => (l, (f l).1, LaneChk.at (loc l))).filterMap fun x =>
    match x.2.2 with | .at l => some (x.1, l) | _ => none), ?_, stored⟩
  unfold storeBody
  rw [bind_ok counted, bind_ok (orderHold_passes calm scope), bind_ok loaded, bind_ok settled, bind_ok at_]
  refine (bind_ok (m := get) (x := s) (t := s) rfl).trans ?_
  refine (bind_ok (checkLanes_reach reach)).trans ?_
  refine (bind_ok (m := get) (x := s) (t := s) rfl).trans ?_
  unfold laneData at clean run
  simp only [clean, Bool.false_eq_true, if_false, storeBytes, run]
  rfl

/-- What such a unit leaves: the group waits for its store alone. -/
theorem exec_store {i : Instr} {st len d : Nat} {refs : List Ref} (issues : s.Issues .memv maskRefs) (active : s.g.rdMask s.clock ≠ 0)
    (e : exec i s = .next (vunit .memv st len refs (storeBody d z mq addrs) s)) :
    ∃ t peers lost lost' touched, exec i s = .next t ∧ t.banks = [] ∧ t.mgmt = s.mgmt ∧ t.others = s.others
      ∧ t.mem = storeEach (fun l => s.place (loc l).key) (fun l => leBytes (2 ^ z) (s.laneWords d (storeRegs z) l)) s.mem (s.g.storing s.clock)
      ∧ t.g = { s.g with retLost := lost, reconLost := lost', recTouched := touched, pend := [storeEntry peers],
                         pc := s.g.pc + BitVec.ofNat 64 len, notBefore := s.clock + 1 + st } := by
  obtain ⟨t, peers, run, stored⟩ := storeBody_stores calm scope at_ reach d
  have next := vunit_performs (st := st) (len := len) (refs := refs) active (SpecialRegisters.issues_idle issues calm.inflight _)
    ⟨run, (stored.still.banks.trans calm.banks.symm :), stored.core, stored.quarter⟩
  obtain ⟨lost, lost', touched, group⟩ := stored.group
  refine ⟨_, peers, lost, lost', touched, e.trans (congrArg Host.Outcome.next next), stored.still.banks, stored.mgmt, stored.others, stored.mem, ?_⟩
  show ({ t.g.addPend (storeEntry peers) with pc := t.g.pc + BitVec.ofNat 64 len, notBefore := t.clock + 1 + st } : Group) = _
  simp only [Group.addPend, group, stored.clock, calm.pend, List.nil_append]

/-- R56, R174: a unit whose body is such a store. -/
theorem stores_unit {i : Instr} {st len d : Nat} {refs : List Ref} (wf : s.memOk) (issues : s.Issues .memv maskRefs)
    (active : s.g.rdMask s.clock ≠ 0) (e : exec i s = .next (vunit .memv st len refs (storeBody d z mq addrs) s)) :
    s.Stores i len st (2 ^ z) loc (s.laneWords d (storeRegs z)) := by
  obtain ⟨t, peers, lost, lost', touched, run, banks, mgmt, others, mem, group⟩ := exec_store calm scope at_ reach issues active e
  have width (l : Nat) : (leBytes (2 ^ z) (s.laneWords d (storeRegs z) l)).length = 2 ^ z := leBytes_length _ _
  have id : t.g.id = s.g.id := by rw [group]
  have pend : t.g.pend = [storeEntry peers] := by rw [group]
  have counted : t.g.count .st = 1 := by rw [Group.count, pend]; rfl
  have completes : exec (.storePerformed s.g.id) t = .next (t.retire t.g.id .st) :=
    congrArg Host.Outcome.next (id ▸ Arriving.complete_own (kind := fun k => k != .tlbinv) pend rfl rfl)
  obtain ⟨only, fell, -⟩ := Arriving.retire_plain banks pend (c := .st) rfl ⟨nofun, nofun⟩ rfl rfl
  refine ⟨t, _, run, ?_, counted, fun l hl last => ?_, fun a out => ?_, completes, by omega, by rw [only]⟩
  · refine ⟨?_, ?_, ?_, ?_, ?_, ?_, ?_, ?_, others⟩ <;> rw [group]
  · rw [State.memRead, State.memBytes, place_of_mgmt mgmt, mem, read_storeEach width (storing_rising s) wf hl last, leNat_leBytes, Nat.pow_mul]
  · rw [mem, get_storeEach_other width wf out]

end

theorem storeRegs_eq (z : BitVec 3) : storeRegs z.toNat = if z = 3 then 2 else if z = 4 then 4 else 1 := by
  revert z
  decide

theorem lenM_eq (q : Option MQ) : lenM q = if q.isSome then 8 else 4 := by
  cases q <;> rfl

/-- Settles O22: a store's lanes pass their checks, and their words are written one lane after another. -/
theorem vectorStores : Obligations.VectorStores := by
  refine ⟨fun o s loc sound calm issues active small _ scope => ?_, fun o s loc sound calm issues active small _ scope => ?_, storing_iff⟩
  · rw [← storeRegs_eq]
    exact fun reach => stores_unit calm scope (offsetAddrs_clean calm _ _ _) reach sound.mem issues active rfl
  · rw [← storeRegs_eq, ← lenM_eq]
    exact fun reach => stores_unit calm scope (fixedAddrs_clean calm _ (o.i.toNat * storeBytes o.z.toNat)) reach sound.mem issues active rfl

end Sys2Proof.LaneStores
